-- ==== Sys2Proof/Word.lean ====
section
/-!
DEFINITION. The word types of the manual and their plainest arithmetic: 32-bit registers (R5), bytes, the sequence
comparison of R4, little-endian and big-endian byte strings (R3), bit fields.
-/
namespace Sys2Proof

/-- A register of the module is 32 bits wide (R5). -/
abbrev Word := BitVec 32

/-- The smallest addressable unit. -/
abbrev Byte := BitVec 8

/-- The `n` low bits of a natural number. -/
def low (n v : Nat) : Nat := v % 2 ^ n

/-- Bits `lo` upwards of a natural number, `n` of them. -/
def bitsAt (v lo n : Nat) : Nat := (v / 2 ^ lo) % 2 ^ n

/-- Bit `i` of a natural number. -/
def bitAt (v i : Nat) : Bool := v / 2 ^ i % 2 == 1

/-- A Boolean as a bit. -/
def bit (b : Bool) : Nat := if b then 1 else 0

/-- R4: sequence number `a` of width `w` is newer than `b`. -/
def newer (w a b : Nat) : Bool :=
  let d := (a + 2 ^ w - b % 2 ^ w) % 2 ^ w
  decide (1 ≤ d) && decide (d ≤ 2 ^ (w - 1) - 1)

/-- Saturating addition: a tally of `w` bits never passes its highest value. -/
def satAdd (w v n : Nat) : Nat := min (v + n) (2 ^ w - 1)

/-- Little-endian value of a byte string (R3). -/
def leVal : List Byte → Nat
  | [] => 0
  | b :: bs => b.toNat + 256 * leVal bs

/-- Little-endian string of `n` bytes (R3). -/
def leBytes : Nat → Nat → List Byte
  | 0, _ => []
  | n + 1, v => BitVec.ofNat 8 v :: leBytes n (v / 256)

/-- Value of a byte string sent most significant byte first (R3). -/
def beVal (bs : List Byte) : Nat := bs.foldl (fun a b => a * 256 + b.toNat) 0

/-- String of `n` bytes, most significant first (R3). -/
def beBytes (n v : Nat) : List Byte := (leBytes n v).reverse

/-- `n` bytes of a list from position `k`, zero past its end. -/
def sliceBytes (bs : List Byte) (k n : Nat) : List Byte :=
  let part := (bs.drop k).take n
  part ++ List.replicate (n - part.length) 0

/-- Little-endian field of `n` bytes at offset `k` (R3). -/
def leAt (bs : List Byte) (k n : Nat) : Nat := leVal (sliceBytes bs k n)

/-- Field of `n` bytes at offset `k`, most significant byte first. -/
def beAt (bs : List Byte) (k n : Nat) : Nat := beVal (sliceBytes bs k n)

/-- One byte of a list as a number, zero past its end. -/
def byteAt (bs : List Byte) (k : Nat) : Nat := (bs.getD k 0).toNat

/-- Bits of a byte, most significant first (R99). -/
def byteBits (b : Byte) : List Bool := (List.range 8).map fun i => b.toNat / 2 ^ (7 - i) % 2 == 1

/-- Bits of a byte string in transmission order (R99). -/
def bytesBits (bs : List Byte) : List Bool := bs.flatMap byteBits

/-- Value of a list of bits, most significant first. -/
def bitsVal (bs : List Bool) : Nat := bs.foldl (fun a b => 2 * a + bit b) 0

/-- `n` bytes from a bit string in transmission order. -/
def bitsBytes : Nat → List Bool → List Byte
  | 0, _ => []
  | n + 1, bs => BitVec.ofNat 8 (bitsVal (bs.take 8)) :: bitsBytes n (bs.drop 8)

/-- Two's complement reading of the low `w` bits. -/
def signed (w v : Nat) : Int := if v % 2 ^ w < 2 ^ (w - 1) then (v % 2 ^ w : Nat) else (v % 2 ^ w : Nat) - (2 ^ w : Nat)

/-- Two's complement writing in `w` bits. -/
def unsigned (w : Nat) (v : Int) : Nat := (v % (2 ^ w : Nat)).toNat

/-- Rounded-up division. -/
def ceilDiv (a b : Nat) : Nat := (a + b - 1) / b

/-- `x` limited to `lo` up to `hi`. -/
def clampI (lo hi x : Int) : Int := max lo (min hi x)

end Sys2Proof
end

