-- ==== Sys2Proof/Syntax.lean ====
section
/-!
DEFINITION. The commands of the LN4816: one constructor of `Instr` for every row of spec/opcode_table.json, in the table's
order, with the operands that an occurrence of the row carries (the table gives the rows no bits, so the operands are the
model's own reading of each row's rule: log entry 2). Registers are named by half and by port, window or engine number
within the half; a write of a register carries the identity of the master that makes it (R340).
-/
namespace Sys2Proof

/-- The two halves (R12). -/
inductive HalfId where
  | h0 | h1
  deriving DecidableEq, Repr

/-- The other half. -/
def HalfId.peer : HalfId → HalfId
  | .h0 => .h1
  | .h1 => .h0

/-- The number of a half, 0 or 1 (SYS_HALF.HALF). -/
def HalfId.num : HalfId → Nat
  | .h0 => 0
  | .h1 => 1

/-- A clocked island of a half (R59). -/
inductive Island where
  | time
  | qspi
  | portPll (group : Nat)
  | phy (channel : Nat)
  | portRx (port : Nat)
  deriving DecidableEq, Repr

/-- The two wall-wide time domains (R308). -/
inductive Domain where
  | a | b
  deriving DecidableEq, Repr

/-- A side of a station on a ring: its west link or its east link (R277). -/
inductive Side where
  | west | east
  deriving DecidableEq, Repr

/-- What an SFDP table declares, as the loader reads it (R70 to R72). -/
structure Sfdp where
  /-- flash density in bytes -/
  density   : Nat
  /-- 4-4-4 fast read, with an enable sequence that needs no status-register write -/
  quad444   : Bool
  /-- 1-4-4 fast read, with quad enable none or already set -/
  quad144   : Bool
  /-- 4-byte-address instructions declared -/
  addr4Inst : Bool
  /-- entry of 4-byte address mode by 0xB7 declared -/
  addr4Mode : Bool
  deriving DecidableEq, Repr

/-- The classes of a half-link flit (R13). -/
inductive FlitClass where
  | baton | status | fetch | host
  deriving DecidableEq, Repr

/-- A half-link flit as received: its class, its 62 bytes of header and payload and its CRC (R12, R15). The
header occupies bytes 0 to 5; the payload bytes 6 to 61. -/
structure Flit where
  cls   : FlitClass
  bytes : List Byte
  crc   : Nat
  deriving DecidableEq, Repr

/-- One graphic change of the baton (R363). -/
structure GChange where
  layer    : Nat
  state    : Nat
  alpha    : Nat
  valid    : Bool
  setState : Bool
  setAlpha : Bool
  sync     : Bool
  deriving DecidableEq, Repr

/-- The fields of a baton payload (R363). -/
structure Baton where
  bseq      : Nat
  running   : Bool
  alone     : Bool
  owner     : Bool
  joining   : Bool
  jready    : Bool
  ret       : Bool
  ownPace   : Bool
  ownMem    : Bool
  lap       : Nat
  shedLap   : Nat
  scene     : Nat
  pending   : Bool
  current   : Nat
  sceneLap  : Nat
  first     : Nat
  last      : Nat
  rangeLap  : Nat
  subMask   : Nat
  rangeValid : Bool
  commitFwd : Bool
  linkUp    : Bool
  take      : Nat
  gLap      : Nat
  g0        : GChange
  g1        : GChange
  retLap    : Nat
  deriving DecidableEq, Repr

/-- Where a tile cell arrives: on a native link or on a ring sub-link (R150). -/
inductive CellFrom where
  /-- on the native link whose first port this is -/
  | native (firstPort : Nat)
  /-- on ring `ring` (0, or 1 for a gateway's second ring) of the half's plane -/
  | ring (ring : Nat)
  deriving DecidableEq, Repr

/-- A tile cell (types 1 and 2 of R102). -/
structure TileCell where
  lastTile : Bool
  source   : Nat
  fseq     : Nat
  tx       : Nat
  ty       : Nat
  cell     : Nat
  csec     : Nat
  cfrac    : Nat
  data     : List Byte
  deriving DecidableEq, Repr

/-- The verdict of a video layer or of a run (R231, R235). -/
inductive Verdict where
  | live | late | notLive
  deriving DecidableEq, Repr

/-- An SDI frame that has ended: its active lines, each a list of 10-bit samples in the order of R153, and the line CRC errors and bad
timing references met in it (R116). -/
structure SdiPicture where
  lines   : List (List Nat)
  lineCrc : Nat
  trs     : Nat
  deriving DecidableEq, Repr

/-- A tile row as it is published (R164): its number, and for an SDI source, or a proxy of one, the picture lines that make it, as they
have arrived. -/
structure WrittenRow where
  row   : Nat
  lines : List (List Nat)
  deriving DecidableEq, Repr

/-- What a fetch met in memory (R169): errors corrected in the access, and the half-relative address of an uncorrectable one, if any. -/
structure AccessErrors where
  corrected     : Nat
  uncorrectable : Option Nat
  deriving DecidableEq, Repr

/-- A latch record sent by the half that holds a layer's source (R236). -/
structure LatchRecord where
  lap      : Nat
  layer    : Nat
  slot     : Option Nat
  capture  : Int
  wallBase : Bool
  /-- the bound, where one is computed -/
  bound    : Option Int
  verdict  : Verdict
  /-- status code of a NOTLIVE reason, 0 otherwise -/
  reason   : Nat
  deadline : Int
  fseq     : Nat
  deriving DecidableEq, Repr

/-- The flags that every panel status cell carries (R249). -/
structure PanelFlags where
  reqAll  : Bool
  shutter : Bool
  pfault  : Bool
  mode    : Nat
  deriving DecidableEq, Repr

/-- An IDENT cell's payload (R249). -/
structure PanelIdent where
  pversion : Nat
  width    : Nat
  height   : Nat
  modes    : Nat
  sublinks : Nat
  kept     : Bool
  deriving DecidableEq, Repr

/-- A mode record (R250). -/
structure ModeRecord where
  mode     : Nat
  cutLines : Nat
  refresh  : Nat
  period   : Nat
  scanOut  : Nat
  vTotal   : Nat
  vActive  : Nat
  flipErr  : Nat
  flipPpm  : Nat
  rptLat   : Nat
  turn     : Nat
  reserved : Nat
  deriving DecidableEq, Repr

/-- The fields of a BLANKING or READY cell (R249). -/
structure BlankingCell where
  flipCount : Nat
  lapCommit : Nat
  flipped   : Bool
  late      : Bool
  newMode   : Bool
  missing   : Nat
  deriving DecidableEq, Repr

/-- A LAPSTART ring control cell (R282, R283). Maps are numbers whose bit n stands for station n. -/
structure LapStart where
  addr   : Nat
  lapNum : Nat
  mplan  : Nat
  seen   : Nat
  cand   : Nat
  edge   : Nat
  kseen  : Nat
  kcand  : Nat
  kedge  : Nat
  master : Nat
  ring   : Nat
  rot    : Bool
  line   : Bool
  deriving DecidableEq, Repr

/-- A JOIN cell (R282). -/
structure JoinCell where
  addr : Nat
  crc  : Nat
  west : Nat
  east : Nat
  cand : Bool
  deriving DecidableEq, Repr

/-- A SYNC time cell (R310). -/
structure SyncCell where
  /-- 0 A, 1 B, 2 wall -/
  domain   : Nat
  srcAddr  : Nat
  seq      : Nat
  originSec : Nat
  originFrac : Nat
  /-- signed, ns × 2^16 -/
  correction : Int
  errBound : Nat
  gmAddr   : Nat
  hops     : Nat
  gmUnset  : Bool
  following : Bool
  deriving DecidableEq, Repr

/-- A management request (R374, R375), as it reaches the half that executes it. -/
structure MgmtReq where
  dest    : Nat
  src     : Nat
  tag     : Nat
  /-- 0–7 engine, 8 service-port host -/
  origin  : Nat
  opcode  : Nat
  hops    : Nat
  len     : Nat
  payload : List Byte
  deriving DecidableEq, Repr

/-- Who makes a request: originating station address, origin, and how it arrived (R372). -/
structure Requester where
  station : Nat
  origin  : Nat
  /-- arrived on this module's service port -/
  service : Bool
  deriving DecidableEq, Repr

/-- A management completion or event (R374, R376, R383). -/
structure MgmtRsp where
  event   : Bool
  dest    : Nat
  src     : Nat
  tag     : Nat
  origin  : Nat
  opcode  : Nat
  hops    : Nat
  len     : Nat
  status  : Nat
  payload : List Byte
  deriving DecidableEq, Repr

/-- The commands and events of the module, in the order of the table. -/
inductive Instr where
  | vaonRise
  | vaonLow
  | pwrEnRaise
  | pwrGoodRise
  | pwrGoodTimeout
  | pwrRetry
  /-- the ten supplies in mV in the order of the telemetry offset 0x10 (R388), PWR_GOOD, the four sensors in °C -/
  | supplySample (mv : List Nat) (pwrGood : Bool) (temps : List Int)
  | vcoreHalfRelease (h : HalfId)
  | thermalTrip (temps : List Int)
  | tripRelease (temps : List Int)
  | resetNAssert
  | resetNRelease
  /-- the converter codes of up to three STRAP measurements of 16 conversions (R55, R57) -/
  | start (codes : List (List Nat))
  | islandQualified (h : HalfId) (i : Island)
  | lossOfClock (h : HalfId) (i : Island)
  | steps13LimitExpire
  /-- the SFDP table as read; none where it cannot be read (R70) -/
  | imageHeadersRead (sfdp : Option Sfdp)
  | sectionArrival
  | loadLimitExpire
  /-- bit n: channel n passed training (R170) -/
  | trainingDone (h : HalfId) (passed : Nat)
  | startLimitExpire
  | falseStartHoldEnd
  | step8Timeout
  | step9Timeout
  | fsCountClear60s
  | halfResetRelease (h : HalfId)
  | halfStartLimitExpire (h : HalfId)
  | halffsClear60s (h : HalfId)
  | restart (h : HalfId) (m : Nat) (key : Byte)
  | resetHalf (h : HalfId) (m : Nat) (key : Byte)
  | clearFs (h : HalfId) (m : Nat) (key : Byte)
  | clearHalffs (h : HalfId) (m : Nat) (key : Byte)
  | kick (h : HalfId) (m : Nat)
  | stewardWatchdogExpire (h : HalfId)
  | blkrst (h : HalfId) (m : Nat) (blocks : Nat)
  | blockResetComplete (h : HalfId)
  | flitReceive (h : HalfId) (f : Flit)
  | batonSend (h : HalfId)
  | batonReceive (h : HalfId) (b : Baton)
  | batonSilence2ms (h : HalfId)
  | batonSilence (h : HalfId)
  /-- the lamplighter grants the standing request of half `h` -/
  | peerResetGrant (h : HalfId)
  | lamplighterWatchdogExpire
  | lamplighterSample
  | healthToggle (h : HalfId)
  | liveOkHoldoffEnd
  /-- bypass pair `k` (0–3) of the half (R120) -/
  | bypassClose (h : HalfId) (k : Nat)
  | lmpHeartStop (h : HalfId)
  | rest (m : Nat) (key : Byte)
  | restPowerOff
  | wakeTimerExpire
  | cdrLock (h : HalfId) (p : Nat)
  | cdrLossOfLock (h : HalfId) (p : Nat)
  /-- line bits as they arrive, stuffed and scrambled, and the local-base stamp of the first bit of the cell's mark -/
  | cellReceive (h : HalfId) (p : Nat) (bits : List Bool) (stamp : Nat)
  | bringupTimeout (h : HalfId) (p : Nat)
  | qualifyDone (h : HalfId) (p : Nat)
  | mapoutRetryExpire (h : HalfId) (p : Nat)
  /-- link record `l` of the port plan, or 16 + p for the single-lane native port p of the half -/
  | txCellRow (h : HalfId) (l : Nat)
  | enableLane (h : HalfId) (p : Nat) (m : Nat) (on : Bool)
  | openPair (h : HalfId) (p : Nat) (m : Nat) (on : Bool)
  | mapout (h : HalfId) (p : Nat) (m : Nat) (on : Bool)
  | retry (h : HalfId) (p : Nat) (m : Nat)
  | txidle (h : HalfId) (p : Nat) (m : Nat) (on : Bool)
  | genen (h : HalfId) (p : Nat) (m : Nat) (on : Bool)
  | chken (h : HalfId) (p : Nat) (m : Nat) (on : Bool)
  | fire (h : HalfId) (p : Nat) (m : Nat)
  /-- the LANE_STATUS.RATE code of the locked rate, and ST 424 level B -/
  | sdiLock (h : HalfId) (p : Nat) (rate : Nat) (levelB : Bool)
  | sdiRateHuntTimeout (h : HalfId) (p : Nat)
  | sdiLockLoss (h : HalfId) (p : Nat)
  /-- the four meters' handshake counts of the gate -/
  | paceGate (h : HalfId) (counts : List Nat)
  | paceEvaluation (h : HalfId)
  /-- every transaction acknowledged with a good PEC; READ_VOUT in mV; STATUS_WORD -/
  | regulatorReadback (h : HalfId) (ack : Bool) (mv : Nat) (status : Nat)
  | pmbAlert (h : HalfId) (ack : Bool) (status : Nat)
  | counterDrain (h : HalfId) (p : Nat)
  /-- source window `i`; arrival stamp; ST 352 identifier if one was received; active lines and samples per line counted -/
  | sdiFrameStart (h : HalfId) (i : Nat) (stamp : Nat) (pid : Option Word) (lines samples : Nat)
  /-- the frame that has ended -/
  | sdiFrameComplete (h : HalfId) (i : Nat) (picture : SdiPicture)
  | tileCellArrival (h : HalfId) (src : CellFrom) (c : TileCell) (stamp : Nat)
  | nosigTimeout (h : HalfId) (i : Nat)
  | sourceEnable (h : HalfId) (i : Nat) (m : Nat) (on : Bool)
  /-- a tile row of the source or proxy in window `i` -/
  | publishRow (h : HalfId) (i : Nat) (row : WrittenRow)
  /-- half-relative addresses found with a corrected and with an uncorrectable error -/
  | scrubPass (h : HalfId) (corrected uncorrectable : List Nat)
  /-- the half's local base when the command is met: the boundary stands at its own instant (R253) where that is later -/
  | lapBoundary (h : HalfId) (stamp : Nat)
  | latchRecordReceive (h : HalfId) (r : LatchRecord)
  | latchRecordTimeout (h : HalfId) (layer : Nat)
  | pipeFree (h : HalfId) (pipe : Nat)
  /-- fetch tag `tag`, and the memory errors that its access met -/
  | fetchComplete (h : HalfId) (tag : Nat) (errors : AccessErrors)
  /-- output tile (tx, ty) of the half -/
  | tileReady (h : HalfId) (tx ty : Nat)
  | lapDeadline (h : HalfId)
  | scenesel (h : HalfId) (m : Nat) (scene : Nat)
  | gsel (h : HalfId) (m : Nat) (layer : Nat) (setState setAlpha : Bool) (state alpha : Nat)
  | force (h : HalfId) (m : Nat) (on : Bool)
  | ident (h : HalfId) (f : PanelFlags) (i : PanelIdent)
  | modedecl (h : HalfId) (f : PanelFlags) (r : ModeRecord)
  | ready (h : HalfId) (f : PanelFlags) (c : BlankingCell) (stamp : Nat)
  | blankingReport (h : HalfId) (f : PanelFlags) (c : BlankingCell) (stamp : Nat)
  /-- RESULT 0 MATCH, 1 MISMATCH, 2 NOOPEN -/
  | echo (h : HalfId) (f : PanelFlags) (pseq hallmark result : Nat)
  | kaecho (h : HalfId) (f : PanelFlags) (token : Nat) (stamp : Nat)
  | panelFault (h : HalfId) (f : PanelFlags) (code : Nat)
  | keepaliveSend (h : HalfId)
  | blankingReportWaitExpire (h : HalfId)
  | panelInitRetry (h : HalfId)
  | reinit (h : HalfId) (m : Nat)
  | pnlRun (h : HalfId) (m : Nat) (on : Bool)
  | modesel (h : HalfId) (m : Nat) (mode : Nat)
  | modeChangeTimeout (h : HalfId)
  | sublinkDownExpire (h : HalfId)
  | ringLapStart (h : HalfId) (r : Nat)
  /-- arriving across the west or the east segment -/
  | lapstart (h : HalfId) (r : Nat) (side : Side) (c : LapStart)
  | lapstartTimeout (h : HalfId) (r : Nat) (side : Side)
  | segmentHealed (h : HalfId) (r : Nat) (side : Side)
  | join (h : HalfId) (r : Nat) (c : JoinCell)
  | joinack (h : HalfId) (r : Nat) (dest result : Nat)
  | leave (h : HalfId) (r : Nat) (addr : Nat)
  | joinen (h : HalfId) (r : Nat) (m : Nat) (on : Bool)
  | masterCandidateTimeout (h : HalfId) (r : Nat)
  /-- across the west or east segment, given to the segment's port no earlier than local base `t1`; T1 itself is the mark of the cell -/
  | pdreqSend (h : HalfId) (r : Nat) (side : Side) (t1 : Nat)
  /-- SEQ; T2, the receive mark stamp; the answer is given to its port no earlier than local base `t3`, and T3 is its mark -/
  | pdreq (h : HalfId) (r : Nat) (side : Side) (seq t2 t3 : Nat)
  /-- SEQ, T2, T3 of the responder and T4 of this station -/
  | pdresp (h : HalfId) (r : Nat) (side : Side) (seq t2 t3 t4 : Nat)
  /-- with its receive mark stamp; the forwarded cell is given to its port no earlier than local base `tx` -/
  | sync (h : HalfId) (r : Nat) (side : Side) (c : SyncCell) (rx tx : Nat)
  | domainTimeout (h : HalfId) (d : Domain)
  | revertExpire (h : HalfId)
  | slewDone (h : HalfId)
  | bridgeSyncSend (h : HalfId) (l : Nat)
  | gmcmdSlew (h : HalfId) (m : Nat) (d : Domain)
  | gmcmdStep (h : HalfId) (m : Nat) (d : Domain)
  | cvuEnable (h : HalfId) (n : Nat) (m : Nat) (on : Bool)
  /-- the oldest result that waits at unit `n`, written no earlier than local base `stamp`; `data` are the bytes of its unit of
  computation where that is a flit which this model does not spell (R333, log entry 132) -/
  | cvuResult (h : HalfId) (n : Nat) (data : List Byte) (stamp : Nat)
  | feed4 (h : HalfId) (n : Nat) (m : Nat) (v : Word)
  | feed1 (h : HalfId) (n : Nat) (m : Nat) (v : Byte)
  | feedend (h : HalfId) (n : Nat) (m : Nat)
  /-- a read, by master `m`, of the latching word at offset `off` of the half's register space -/
  | latchRead (h : HalfId) (m : Nat) (off : Nat)
  | acrSwitch (h : HalfId) (m : Nat)
  | switchRetired (h : HalfId)
  /-- engine E0–E7 -/
  | engineInstruction (e : Nat)
  | halt (h : HalfId) (n : Nat) (m : Nat)
  | resume (h : HalfId) (n : Nat) (m : Nat)
  | beat (h : HalfId) (n : Nat) (m : Nat)
  | beatlimitExpire (h : HalfId) (n : Nat)
  | irqclaim (h : HalfId) (n : Nat) (m : Nat)
  | timecmphi (h : HalfId) (n : Nat) (m : Nat) (v : Word)
  | timerInterrupt (e : Nat)
  /-- the bytes that the host sends in one exchange -/
  | svcFrame (bytes : List Byte)
  | poll (rack : Nat) (resend : Bool)
  | request (rack : Nat) (resend : Bool) (r : MgmtReq)
  | passthruRead (addr len : Nat) (sfdp : Option Sfdp)
  | passthruProgram (addr : Nat) (data : List Byte) (sfdp : Option Sfdp)
  | passthruErase4k (addr : Nat) (sfdp : Option Sfdp)
  | passthruErase64k (addr : Nat) (sfdp : Option Sfdp)
  | passthruReadStatus (status : Byte) (sfdp : Option Sfdp)
  | fuse (digest : List Byte) (magic : List Byte)
  /-- a request of `q` with tag `tag` that half `h` receives; R373 names the half that executes it -/
  | read (h : HalfId) (q : Requester) (tag : Nat) (addr count : Nat)
  | write (h : HalfId) (q : Requester) (tag : Nat) (addr : Nat) (v : Word)
  | writeMasked (h : HalfId) (q : Requester) (tag : Nat) (addr : Nat) (v mask : Word)
  | blockWrite (h : HalfId) (q : Requester) (tag : Nat) (addr : Nat) (data : List Byte)
  | sceneSelect (h : HalfId) (q : Requester) (tag : Nat) (scene : Nat)
  | graphicState (h : HalfId) (q : Requester) (tag : Nat) (layer : Nat) (setState setAlpha : Bool) (state alpha : Nat)
  /-- WHAT 0: scene in `a`; WHAT 1: layer, flags, state, alpha in `a`, `b`, `c`, `d`; T and E as seconds and fraction -/
  | schedule (h : HalfId) (q : Requester) (tag : Nat) (what a b c d tSec tFrac eSec eFrac : Nat)
  | eventSubscribe (h : HalfId) (q : Requester) (tag : Nat) (mask : Nat)
  /-- a passing management cell: its bytes 0–255 with the CRC valid or not, on ring `r` -/
  | mgmtRelay (h : HalfId) (r : Nat) (crcOk : Bool) (request : Bool) (c : MgmtRsp)
  | mgmtCompletion (h : HalfId) (c : MgmtRsp)
  | esend (h : HalfId) (n : Nat) (m : Nat)
  | epop (h : HalfId) (n : Nat) (m : Nat)
  | i2cPointerWrite (bytes : List Byte)
  | i2cRead (n : Nat)
  | scan (m : Nat) (on : Bool)
  /-- mutual samples [group][column][interval], self raw counts of the self electrodes, self raw counts of the matrix rows
  and columns (wet matrix mode), local base at the end of the measurement -/
  | touchFrame (samples : List (List (List Int))) (selfRaw rowSelf colSelf : List Int) (stamp : Nat)
  | touchStatusWaitExpire
  | ringRoomResync
  /-- the converter codes of groups 0 to 2 -/
  | restScan (codes : List Nat)
  /-- pin levels of KEY0–KEY15, bit n high -/
  | keySample (levels : Nat)
  | keyStuck (k : Nat)
  | keyEventRead (m : Nat)
  | swadd (h : HalfId) (m : Nat)
  /-- the 48 bytes of the entry -/
  | ledgerMirrorReceive (h : HalfId) (entry : List Byte)
  /-- by master `m`, issued in half `h`, at a 40-bit device address -/
  | registerWrite (h : HalfId) (m : Nat) (addr : Nat) (v : Word)
  | liveOkToggleExpire
  | grandmasterStartWaitExpire (h : HalfId) (d : Domain)
  | patternBitsReceive (h : HalfId) (p : Nat) (bits : List Bool)
  | flashStatusPoll (status : Byte)
  | passthruQualifyTimeout
  deriving DecidableEq, Repr

end Sys2Proof
end

