-- ==== Sys2Proof/Decode.lean ====
section
/-!
DEFINITION. The command that a word of the opcode table spells. The table gives no row any bits: commands come from outside the
part, as events and accesses and not as words, so no word spells one.
-/
namespace Sys2Proof

/-- The command spelled by a word of `nbits` bits: none, since spec/opcode_table.json gives no row bits. -/
def decodeTableWord (_nbits _w : Nat) : Option Instr := none

end Sys2Proof
end

