-- ==== Sys2Proof/Config.lean ====
section
/-!
DEFINITION. What the manual leaves open (free values, without a body: nothing can be proved of them but what holds of every
value) and what one implementation or one board fixes.
-/
namespace Sys2Proof.Config

/-- A free value: the value of an undetermined result. The first argument names the unit that uses it (0 half 0, 1 half 1,
2 lamplighter), the second is that unit's counter of free values used. -/
opaque freeValue : Nat → Nat → Nat

/-- The token of a keepalive is not fixed by the manual (R247, R269): any value may result. -/
opaque freeToken : Nat → Nat → Nat

/-- The result of class O blending within its accuracy (R194, R220): it depends only on its inputs, which are PREMUL, top and
bottom colour, per-pixel alpha and layer alpha. -/
opaque classO : Bool → Nat → Nat → Nat → Nat → Nat

/-- One step of simulated time when no command waits: one REFCLK period, 40 ns (R307). -/
def idleTick : Nat := 40

end Sys2Proof.Config
end

