-- ==== Sys2Proof/Machine/Fields.lean ====
section
/-!
DEFINITION. The named register fields of the manual: each is a half-relative register offset (for LMP and KEY fields, an
offset in the lamplighter range), the lowest bit and the width, exactly as the field tables of the chapters give them.
Copies take an index: port within the half, source window, engine window, unit, ring (0 first, 1 second), word.
-/
namespace Sys2Proof.Machine

/-- A named field of a register: where its register lies, its lowest bit and its width. -/
structure Field where
  off   : Nat
  lo    : Nat
  width : Nat
  deriving DecidableEq, Repr

namespace F

/-! SYS_ID (01_architecture.md) -/
def SYS_ID_word : Field := ⟨0x0, 0, 32⟩
def SYS_ID_PART : Field := ⟨0x0, 16, 16⟩
def SYS_ID_MAJOR : Field := ⟨0x0, 8, 8⟩
def SYS_ID_MINOR : Field := ⟨0x0, 0, 8⟩
/-! SYS_HALF (01_architecture.md) -/
def SYS_HALF_word : Field := ⟨0x4, 0, 32⟩
def SYS_HALF_ALONE : Field := ⟨0x4, 3, 1⟩
def SYS_HALF_PEER_UP : Field := ⟨0x4, 2, 1⟩
def SYS_HALF_COMMIT_OWNER : Field := ⟨0x4, 1, 1⟩
def SYS_HALF_HALF : Field := ⟨0x4, 0, 1⟩
/-! SYS_SEALTALLY (01_architecture.md) -/
def SYS_SEALTALLY_word : Field := ⟨0xC, 0, 32⟩
def SYS_SEALTALLY_CLEAR : Field := ⟨0xC, 31, 1⟩
def SYS_SEALTALLY_COUNT : Field := ⟨0xC, 0, 16⟩
/-! LNK_STATUS (01_architecture.md) -/
def LNK_STATUS_word : Field := ⟨0x130000, 0, 32⟩
def LNK_STATUS_FAILED : Field := ⟨0x130000, 2, 1⟩
def LNK_STATUS_PEER_RESET : Field := ⟨0x130000, 1, 1⟩
def LNK_STATUS_UP : Field := ⟨0x130000, 0, 1⟩
/-! LNK_LOAD (01_architecture.md) -/
def LNK_LOAD_word : Field := ⟨0x130004, 0, 32⟩
def LNK_LOAD_CLEAR_PEAK : Field := ⟨0x130004, 31, 1⟩
def LNK_LOAD_PEAK_FETCH : Field := ⟨0x130004, 16, 8⟩
def LNK_LOAD_HOST : Field := ⟨0x130004, 8, 8⟩
def LNK_LOAD_FETCH : Field := ⟨0x130004, 0, 8⟩
/-! LNK_TALLY (01_architecture.md) -/
def LNK_TALLY_word : Field := ⟨0x130008, 0, 32⟩
def LNK_TALLY_RESENDS : Field := ⟨0x130008, 0, 16⟩
/-! RST_STATE (03_start_reset_recovery.md) -/
def RST_STATE_word : Field := ⟨0x10000, 0, 32⟩
def RST_STATE_FSCOUNT : Field := ⟨0x10000, 24, 4⟩
def RST_STATE_HALFFS : Field := ⟨0x10000, 20, 4⟩
def RST_STATE_PEERHELD : Field := ⟨0x10000, 16, 1⟩
def RST_STATE_MODE : Field := ⟨0x10000, 8, 4⟩
def RST_STATE_STEP : Field := ⟨0x10000, 0, 4⟩
/-! RST_STRAP (03_start_reset_recovery.md) -/
def RST_STRAP_word : Field := ⟨0x10004, 0, 32⟩
def RST_STRAP_CODE : Field := ⟨0x10004, 16, 12⟩
def RST_STRAP_SPREAD : Field := ⟨0x10004, 8, 8⟩
def RST_STRAP_TRIES : Field := ⟨0x10004, 4, 2⟩
def RST_STRAP_INDEX : Field := ⟨0x10004, 0, 4⟩
/-! RST_CAUSE (03_start_reset_recovery.md) -/
def RST_CAUSE_word : Field := ⟨0x10008, 0, 32⟩
def RST_CAUSE_LAST : Field := ⟨0x10008, 24, 8⟩
def RST_CAUSE_CAUSES : Field := ⟨0x10008, 1, 16⟩
/-! RST_CMD (03_start_reset_recovery.md) -/
def RST_CMD_word : Field := ⟨0x1000C, 0, 32⟩
def RST_CMD_KEY : Field := ⟨0x1000C, 24, 8⟩
def RST_CMD_CLEAR_HALFFS : Field := ⟨0x1000C, 3, 1⟩
def RST_CMD_CLEAR_FS : Field := ⟨0x1000C, 2, 1⟩
def RST_CMD_RESET_HALF : Field := ⟨0x1000C, 1, 1⟩
def RST_CMD_RESTART : Field := ⟨0x1000C, 0, 1⟩
/-! RST_WDOG (03_start_reset_recovery.md) -/
def RST_WDOG_word : Field := ⟨0x10010, 0, 32⟩
def RST_WDOG_ARMED : Field := ⟨0x10010, 1, 1⟩
def RST_WDOG_KICK : Field := ⟨0x10010, 0, 1⟩
/-! RST_BLKRST (03_start_reset_recovery.md) -/
def RST_BLKRST_word : Field := ⟨0x10014, 0, 32⟩
def RST_BLKRST_BLOCKS : Field := ⟨0x10014, 0, 10⟩
/-! RST_BLKSTAT (03_start_reset_recovery.md) -/
def RST_BLKSTAT_word : Field := ⟨0x10018, 0, 32⟩
def RST_BLKSTAT_NOTIDLE : Field := ⟨0x10018, 16, 10⟩
def RST_BLKSTAT_RESULT : Field := ⟨0x10018, 0, 2⟩
/-! RST_IDLE (03_start_reset_recovery.md) -/
def RST_IDLE_word : Field := ⟨0x1001C, 0, 32⟩
def RST_IDLE_IDLE : Field := ⟨0x1001C, 0, 10⟩
/-! RST_QUAL (03_start_reset_recovery.md) -/
def RST_QUAL_word : Field := ⟨0x10020, 0, 32⟩
def RST_QUAL_PHY : Field := ⟨0x10020, 8, 8⟩
def RST_QUAL_PORTPLL : Field := ⟨0x10020, 2, 6⟩
def RST_QUAL_QSPI : Field := ⟨0x10020, 1, 1⟩
def RST_QUAL_TIME : Field := ⟨0x10020, 0, 1⟩
/-! RST_QUALFAIL (03_start_reset_recovery.md) -/
def RST_QUALFAIL_word : Field := ⟨0x10024, 0, 32⟩
def RST_QUALFAIL_PHY : Field := ⟨0x10024, 8, 8⟩
def RST_QUALFAIL_PORTPLL : Field := ⟨0x10024, 2, 6⟩
def RST_QUALFAIL_QSPI : Field := ⟨0x10024, 1, 1⟩
def RST_QUALFAIL_TIME : Field := ⟨0x10024, 0, 1⟩
/-! RST_STEPTIME (03_start_reset_recovery.md) -/
def RST_STEPTIME_word (i : Nat) : Field := ⟨0x10040 + 0x4 * (i - 1), 0, 32⟩
def RST_STEPTIME_MS (i : Nat) : Field := ⟨0x10040 + 0x4 * (i - 1), 0, 16⟩
/-! LDR_STATUS (04_configuration_image.md) -/
def LDR_STATUS_word : Field := ⟨0x20000, 0, 32⟩
def LDR_STATUS_RESULT : Field := ⟨0x20000, 24, 8⟩
def LDR_STATUS_STATE : Field := ⟨0x20000, 16, 4⟩
def LDR_STATUS_KEY : Field := ⟨0x20000, 8, 2⟩
def LDR_STATUS_FALLBACK : Field := ⟨0x20000, 4, 1⟩
def LDR_STATUS_SLOT : Field := ⟨0x20000, 0, 2⟩
/-! LDR_SLOTCODE (04_configuration_image.md) -/
def LDR_SLOTCODE_word : Field := ⟨0x20004, 0, 32⟩
def LDR_SLOTCODE_B : Field := ⟨0x20004, 8, 8⟩
def LDR_SLOTCODE_A : Field := ⟨0x20004, 0, 8⟩
/-! LDR_SERIALA (04_configuration_image.md) -/
def LDR_SERIALA_word : Field := ⟨0x20008, 0, 32⟩
def LDR_SERIALA_SERIAL : Field := ⟨0x20008, 0, 32⟩
/-! LDR_SERIALB (04_configuration_image.md) -/
def LDR_SERIALB_word : Field := ⟨0x2000C, 0, 32⟩
def LDR_SERIALB_SERIAL : Field := ⟨0x2000C, 0, 32⟩
/-! LDR_FLASH (04_configuration_image.md) -/
def LDR_FLASH_word : Field := ⟨0x20010, 0, 32⟩
def LDR_FLASH_DENSITY : Field := ⟨0x20010, 16, 8⟩
def LDR_FLASH_ADDR : Field := ⟨0x20010, 8, 2⟩
def LDR_FLASH_MODE : Field := ⟨0x20010, 0, 2⟩
/-! LDR_LIMIT (04_configuration_image.md) -/
def LDR_LIMIT_word : Field := ⟨0x20014, 0, 32⟩
def LDR_LIMIT_MS : Field := ⟨0x20014, 0, 16⟩
/-! LDR_FAIL (04_configuration_image.md) -/
def LDR_FAIL_word : Field := ⟨0x20018, 0, 32⟩
def LDR_FAIL_TYPE : Field := ⟨0x20018, 0, 16⟩
/-! LDR_FAILOFS (04_configuration_image.md) -/
def LDR_FAILOFS_word : Field := ⟨0x2001C, 0, 32⟩
def LDR_FAILOFS_OFFSET : Field := ⟨0x2001C, 0, 32⟩
/-! LDR_SUBST (04_configuration_image.md) -/
def LDR_SUBST_word : Field := ⟨0x20020, 0, 32⟩
def LDR_SUBST_WATCHOFF : Field := ⟨0x20020, 24, 8⟩
def LDR_SUBST_SETREJ : Field := ⟨0x20020, 16, 8⟩
def LDR_SUBST_CFGRUNS : Field := ⟨0x20020, 0, 16⟩
/-! LDR_TAPSUB (04_configuration_image.md) -/
def LDR_TAPSUB_word : Field := ⟨0x20024, 0, 32⟩
def LDR_TAPSUB_RUNS : Field := ⟨0x20024, 0, 16⟩
/-! LDR_DESIGN (04_configuration_image.md) -/
def LDR_DESIGN_word : Field := ⟨0x20028, 0, 32⟩
def LDR_DESIGN_MAXREFRESH : Field := ⟨0x20028, 16, 16⟩
def LDR_DESIGN_PACE : Field := ⟨0x20028, 0, 16⟩
/-! LDR_KEYHASH (04_configuration_image.md) -/
def LDR_KEYHASH_word (i : Nat) : Field := ⟨0x20040 + 0x4 * i, 0, 32⟩
def LDR_KEYHASH_HASH (i : Nat) : Field := ⟨0x20040 + 0x4 * i, 0, 32⟩
/-! LANE_CTRL (05_serial_ports.md) -/
def LANE_CTRL_word (i : Nat) : Field := ⟨0x30000 + 0x800 * i, 0, 32⟩
def LANE_CTRL_OPEN (i : Nat) : Field := ⟨0x30000 + 0x800 * i, 11, 1⟩
def LANE_CTRL_MAPOUT (i : Nat) : Field := ⟨0x30000 + 0x800 * i, 8, 1⟩
def LANE_CTRL_RETRY (i : Nat) : Field := ⟨0x30000 + 0x800 * i, 7, 1⟩
def LANE_CTRL_TXIDLE (i : Nat) : Field := ⟨0x30000 + 0x800 * i, 1, 1⟩
def LANE_CTRL_ENABLE (i : Nat) : Field := ⟨0x30000 + 0x800 * i, 0, 1⟩
/-! LANE_STATUS (05_serial_ports.md) -/
def LANE_STATUS_word (i : Nat) : Field := ⟨0x30004 + 0x800 * i, 0, 32⟩
def LANE_STATUS_OVR (i : Nat) : Field := ⟨0x30004 + 0x800 * i, 31, 1⟩
def LANE_STATUS_LINK (i : Nat) : Field := ⟨0x30004 + 0x800 * i, 20, 5⟩
def LANE_STATUS_POS (i : Nat) : Field := ⟨0x30004 + 0x800 * i, 18, 2⟩
def LANE_STATUS_SKEW (i : Nat) : Field := ⟨0x30004 + 0x800 * i, 16, 2⟩
def LANE_STATUS_RATE (i : Nat) : Field := ⟨0x30004 + 0x800 * i, 12, 4⟩
def LANE_STATUS_POLINV (i : Nat) : Field := ⟨0x30004 + 0x800 * i, 9, 1⟩
def LANE_STATUS_BYPASS (i : Nat) : Field := ⟨0x30004 + 0x800 * i, 8, 1⟩
def LANE_STATUS_STATE (i : Nat) : Field := ⟨0x30004 + 0x800 * i, 0, 4⟩
/-! LANE_EQ (05_serial_ports.md) -/
def LANE_EQ_word (i : Nat) : Field := ⟨0x30008 + 0x800 * i, 0, 32⟩
def LANE_EQ_POST (i : Nat) : Field := ⟨0x30008 + 0x800 * i, 28, 4⟩
def LANE_EQ_PRE (i : Nat) : Field := ⟨0x30008 + 0x800 * i, 24, 3⟩
def LANE_EQ_SWING (i : Nat) : Field := ⟨0x30008 + 0x800 * i, 20, 3⟩
def LANE_EQ_DFEFREEZE (i : Nat) : Field := ⟨0x30008 + 0x800 * i, 9, 1⟩
def LANE_EQ_DFEOFF (i : Nat) : Field := ⟨0x30008 + 0x800 * i, 8, 1⟩
def LANE_EQ_CTLE (i : Nat) : Field := ⟨0x30008 + 0x800 * i, 0, 8⟩
/-! LANE_DFE (05_serial_ports.md) -/
def LANE_DFE_word (i : Nat) : Field := ⟨0x3000C + 0x800 * i, 0, 32⟩
def LANE_DFE_CTLE (i : Nat) : Field := ⟨0x3000C + 0x800 * i, 28, 4⟩
def LANE_DFE_TAP1 (i : Nat) : Field := ⟨0x3000C + 0x800 * i, 21, 7⟩
def LANE_DFE_TAP2 (i : Nat) : Field := ⟨0x3000C + 0x800 * i, 16, 5⟩
def LANE_DFE_TAP3 (i : Nat) : Field := ⟨0x3000C + 0x800 * i, 11, 5⟩
def LANE_DFE_TAP4 (i : Nat) : Field := ⟨0x3000C + 0x800 * i, 6, 5⟩
def LANE_DFE_TAP5 (i : Nat) : Field := ⟨0x3000C + 0x800 * i, 1, 5⟩
/-! LANE_PEER (05_serial_ports.md) -/
def LANE_PEER_word (i : Nat) : Field := ⟨0x30010 + 0x800 * i, 0, 32⟩
def LANE_PEER_VALID (i : Nat) : Field := ⟨0x30010 + 0x800 * i, 31, 1⟩
def LANE_PEER_RXUP (i : Nat) : Field := ⟨0x30010 + 0x800 * i, 26, 4⟩
def LANE_PEER_LANES (i : Nat) : Field := ⟨0x30010 + 0x800 * i, 23, 3⟩
def LANE_PEER_SPORT (i : Nat) : Field := ⟨0x30010 + 0x800 * i, 14, 6⟩
def LANE_PEER_ADDR (i : Nat) : Field := ⟨0x30010 + 0x800 * i, 0, 14⟩
/-! LANE_PATTERN (05_serial_ports.md) -/
def LANE_PATTERN_word (i : Nat) : Field := ⟨0x30020 + 0x800 * i, 0, 32⟩
def LANE_PATTERN_CHKLOCK (i : Nat) : Field := ⟨0x30020 + 0x800 * i, 8, 1⟩
def LANE_PATTERN_CHKEN (i : Nat) : Field := ⟨0x30020 + 0x800 * i, 7, 1⟩
def LANE_PATTERN_CHKSEL (i : Nat) : Field := ⟨0x30020 + 0x800 * i, 4, 3⟩
def LANE_PATTERN_GENEN (i : Nat) : Field := ⟨0x30020 + 0x800 * i, 3, 1⟩
def LANE_PATTERN_GENSEL (i : Nat) : Field := ⟨0x30020 + 0x800 * i, 0, 3⟩
/-! LANE_PATUSR0 (05_serial_ports.md) -/
def LANE_PATUSR0_word (i : Nat) : Field := ⟨0x30024 + 0x800 * i, 0, 32⟩
def LANE_PATUSR0_BITS (i : Nat) : Field := ⟨0x30024 + 0x800 * i, 0, 32⟩
/-! LANE_PATUSR1 (05_serial_ports.md) -/
def LANE_PATUSR1_word (i : Nat) : Field := ⟨0x30028 + 0x800 * i, 0, 32⟩
def LANE_PATUSR1_BITS (i : Nat) : Field := ⟨0x30028 + 0x800 * i, 0, 32⟩
/-! LANE_INJECT (05_serial_ports.md) -/
def LANE_INJECT_word (i : Nat) : Field := ⟨0x3002C + 0x800 * i, 0, 32⟩
def LANE_INJECT_FIRE (i : Nat) : Field := ⟨0x3002C + 0x800 * i, 31, 1⟩
def LANE_INJECT_BURST (i : Nat) : Field := ⟨0x3002C + 0x800 * i, 16, 7⟩
def LANE_INJECT_EXP (i : Nat) : Field := ⟨0x3002C + 0x800 * i, 8, 4⟩
/-! LANE_CHKERR (05_serial_ports.md) -/
def LANE_CHKERR_word (i : Nat) : Field := ⟨0x30030 + 0x800 * i, 0, 32⟩
def LANE_CHKERR_ERRORS (i : Nat) : Field := ⟨0x30030 + 0x800 * i, 0, 32⟩
/-! LANE_CHKBITS (05_serial_ports.md) -/
def LANE_CHKBITS_word (i : Nat) : Field := ⟨0x30034 + 0x800 * i, 0, 32⟩
def LANE_CHKBITS_UNITS (i : Nat) : Field := ⟨0x30034 + 0x800 * i, 0, 32⟩
/-! LANE_TALLY0 (05_serial_ports.md) -/
def LANE_TALLY0_word (i : Nat) : Field := ⟨0x30040 + 0x800 * i, 0, 32⟩
def LANE_TALLY0_CRCERR (i : Nat) : Field := ⟨0x30040 + 0x800 * i, 16, 16⟩
def LANE_TALLY0_MARKLOSS (i : Nat) : Field := ⟨0x30040 + 0x800 * i, 0, 16⟩
/-! LANE_TALLY1 (05_serial_ports.md) -/
def LANE_TALLY1_word (i : Nat) : Field := ⟨0x30044 + 0x800 * i, 0, 32⟩
def LANE_TALLY1_STUFFERR (i : Nat) : Field := ⟨0x30044 + 0x800 * i, 24, 8⟩
def LANE_TALLY1_SEQGAP (i : Nat) : Field := ⟨0x30044 + 0x800 * i, 16, 8⟩
def LANE_TALLY1_DROPS (i : Nat) : Field := ⟨0x30044 + 0x800 * i, 8, 8⟩
def LANE_TALLY1_MAPOUTS (i : Nat) : Field := ⟨0x30044 + 0x800 * i, 0, 8⟩
/-! LANE_SDI (05_serial_ports.md) -/
def LANE_SDI_word (i : Nat) : Field := ⟨0x30050 + 0x800 * i, 0, 32⟩
def LANE_SDI_LINECRC (i : Nat) : Field := ⟨0x30050 + 0x800 * i, 16, 16⟩
def LANE_SDI_TRSERR (i : Nat) : Field := ⟨0x30050 + 0x800 * i, 8, 8⟩
def LANE_SDI_LEVELB (i : Nat) : Field := ⟨0x30050 + 0x800 * i, 2, 1⟩
def LANE_SDI_PIDVALID (i : Nat) : Field := ⟨0x30050 + 0x800 * i, 1, 1⟩
def LANE_SDI_LOCK (i : Nat) : Field := ⟨0x30050 + 0x800 * i, 0, 1⟩
/-! LANE_SDIPID (05_serial_ports.md) -/
def LANE_SDIPID_word (i : Nat) : Field := ⟨0x30054 + 0x800 * i, 0, 32⟩
def LANE_SDIPID_PID (i : Nat) : Field := ⟨0x30054 + 0x800 * i, 0, 32⟩
/-! PACE_NOW01 (06_clockless_core_and_crossings.md) -/
def PACE_NOW01_word : Field := ⟨0x120000, 0, 32⟩
def PACE_NOW01_METER1 : Field := ⟨0x120000, 16, 16⟩
def PACE_NOW01_METER0 : Field := ⟨0x120000, 0, 16⟩
/-! PACE_NOW23 (06_clockless_core_and_crossings.md) -/
def PACE_NOW23_word : Field := ⟨0x120004, 0, 32⟩
def PACE_NOW23_METER3 : Field := ⟨0x120004, 16, 16⟩
def PACE_NOW23_METER2 : Field := ⟨0x120004, 0, 16⟩
/-! PACE_HALF (06_clockless_core_and_crossings.md) -/
def PACE_HALF_word : Field := ⟨0x120008, 0, 32⟩
def PACE_HALF_FAILED : Field := ⟨0x120008, 28, 4⟩
def PACE_HALF_MARGIN : Field := ⟨0x120008, 16, 12⟩
def PACE_HALF_MEAN : Field := ⟨0x120008, 0, 16⟩
/-! PACE_REG (06_clockless_core_and_crossings.md) -/
def PACE_REG_word : Field := ⟨0x12000C, 0, 32⟩
def PACE_REG_REGFAIL : Field := ⟨0x12000C, 31, 1⟩
def PACE_REG_VOUT : Field := ⟨0x12000C, 16, 10⟩
def PACE_REG_SETTING : Field := ⟨0x12000C, 0, 7⟩
/-! PACE_SHED (06_clockless_core_and_crossings.md) -/
def PACE_SHED_word : Field := ⟨0x120010, 0, 32⟩
def PACE_SHED_EMERG : Field := ⟨0x120010, 5, 1⟩
def PACE_SHED_PEERMEM : Field := ⟨0x120010, 4, 1⟩
def PACE_SHED_PEERPACE : Field := ⟨0x120010, 3, 1⟩
def PACE_SHED_OWNMEM : Field := ⟨0x120010, 2, 1⟩
def PACE_SHED_OWNPACE : Field := ⟨0x120010, 1, 1⟩
def PACE_SHED_ACTIVE : Field := ⟨0x120010, 0, 1⟩
/-! PACE_CTRL (06_clockless_core_and_crossings.md) -/
def PACE_CTRL_word : Field := ⟨0x120014, 0, 32⟩
def PACE_CTRL_DOWNTH : Field := ⟨0x120014, 16, 12⟩
def PACE_CTRL_FLOOR : Field := ⟨0x120014, 0, 7⟩
/-! PACE_TALLY (06_clockless_core_and_crossings.md) -/
def PACE_TALLY_word : Field := ⟨0x120018, 0, 32⟩
def PACE_TALLY_SHEDS : Field := ⟨0x120018, 24, 8⟩
def PACE_TALLY_DOWN : Field := ⟨0x120018, 8, 8⟩
def PACE_TALLY_UP : Field := ⟨0x120018, 0, 8⟩
/-! PACE_LOW (06_clockless_core_and_crossings.md) -/
def PACE_LOW_word : Field := ⟨0x12001C, 0, 32⟩
def PACE_LOW_CLEAR : Field := ⟨0x12001C, 31, 1⟩
def PACE_LOW_MARGIN : Field := ⟨0x12001C, 16, 12⟩
def PACE_LOW_MEAN : Field := ⟨0x12001C, 0, 16⟩
/-! SYS_XOVR (06_clockless_core_and_crossings.md) -/
def SYS_XOVR_word : Field := ⟨0x10, 0, 32⟩
def SYS_XOVR_LMP : Field := ⟨0x10, 7, 1⟩
def SYS_XOVR_LNK : Field := ⟨0x10, 6, 1⟩
def SYS_XOVR_PNL : Field := ⟨0x10, 5, 1⟩
def SYS_XOVR_SVC : Field := ⟨0x10, 4, 1⟩
def SYS_XOVR_QSPI : Field := ⟨0x10, 3, 1⟩
def SYS_XOVR_TIME : Field := ⟨0x10, 2, 1⟩
def SYS_XOVR_PHY : Field := ⟨0x10, 1, 1⟩
def SYS_XOVR_LANE : Field := ⟨0x10, 0, 1⟩
/-! SYS_XDISC (06_clockless_core_and_crossings.md) -/
def SYS_XDISC_word : Field := ⟨0x14, 0, 32⟩
def SYS_XDISC_COUNT : Field := ⟨0x14, 0, 16⟩
/-! INK_GTALLY (07_intake_and_frame_store.md) -/
def INK_GTALLY_word : Field := ⟨0x40000, 0, 32⟩
def INK_GTALLY_UNKNOWN : Field := ⟨0x40000, 0, 16⟩
/-! INK_SDESC (07_intake_and_frame_store.md) -/
def INK_SDESC_word (i : Nat) : Field := ⟨0x41000 + 0x40 * i, 0, 32⟩
def INK_SDESC_PORT (i : Nat) : Field := ⟨0x41000 + 0x40 * i, 24, 8⟩
def INK_SDESC_PUBLISH (i : Nat) : Field := ⟨0x41000 + 0x40 * i, 20, 1⟩
def INK_SDESC_HELD (i : Nat) : Field := ⟨0x41000 + 0x40 * i, 19, 1⟩
def INK_SDESC_KIND (i : Nat) : Field := ⟨0x41000 + 0x40 * i, 16, 3⟩
def INK_SDESC_ID (i : Nat) : Field := ⟨0x41000 + 0x40 * i, 0, 12⟩
/-! INK_SCTRL (07_intake_and_frame_store.md) -/
def INK_SCTRL_word (i : Nat) : Field := ⟨0x41004 + 0x40 * i, 0, 32⟩
def INK_SCTRL_FREEZEW (i : Nat) : Field := ⟨0x41004 + 0x40 * i, 8, 8⟩
def INK_SCTRL_ENABLE (i : Nat) : Field := ⟨0x41004 + 0x40 * i, 0, 1⟩
/-! INK_SSTAT (07_intake_and_frame_store.md) -/
def INK_SSTAT_word (i : Nat) : Field := ⟨0x41008 + 0x40 * i, 0, 32⟩
def INK_SSTAT_REPEATS (i : Nat) : Field := ⟨0x41008 + 0x40 * i, 24, 8⟩
def INK_SSTAT_NEWEST (i : Nat) : Field := ⟨0x41008 + 0x40 * i, 22, 2⟩
def INK_SSTAT_PIN (i : Nat) : Field := ⟨0x41008 + 0x40 * i, 19, 3⟩
def INK_SSTAT_SLOTS (i : Nat) : Field := ⟨0x41008 + 0x40 * i, 13, 6⟩
def INK_SSTAT_BASE (i : Nat) : Field := ⟨0x41008 + 0x40 * i, 12, 1⟩
def INK_SSTAT_NOPID (i : Nat) : Field := ⟨0x41008 + 0x40 * i, 11, 1⟩
def INK_SSTAT_NOTIME (i : Nat) : Field := ⟨0x41008 + 0x40 * i, 10, 1⟩
def INK_SSTAT_FROZEN (i : Nat) : Field := ⟨0x41008 + 0x40 * i, 9, 1⟩
def INK_SSTAT_REASON (i : Nat) : Field := ⟨0x41008 + 0x40 * i, 3, 3⟩
def INK_SSTAT_STATUS (i : Nat) : Field := ⟨0x41008 + 0x40 * i, 0, 2⟩
/-! INK_SSEQ (07_intake_and_frame_store.md) -/
def INK_SSEQ_word (i : Nat) : Field := ⟨0x4100C + 0x40 * i, 0, 32⟩
def INK_SSEQ_WRITING (i : Nat) : Field := ⟨0x4100C + 0x40 * i, 16, 16⟩
def INK_SSEQ_NEWEST (i : Nat) : Field := ⟨0x4100C + 0x40 * i, 0, 16⟩
/-! INK_SCAPLO (07_intake_and_frame_store.md) -/
def INK_SCAPLO_word (i : Nat) : Field := ⟨0x41010 + 0x40 * i, 0, 32⟩
def INK_SCAPLO_NS (i : Nat) : Field := ⟨0x41010 + 0x40 * i, 0, 32⟩
/-! INK_SCAPHI (07_intake_and_frame_store.md) -/
def INK_SCAPHI_word (i : Nat) : Field := ⟨0x41014 + 0x40 * i, 0, 32⟩
def INK_SCAPHI_NS (i : Nat) : Field := ⟨0x41014 + 0x40 * i, 0, 32⟩
/-! INK_SARRLO (07_intake_and_frame_store.md) -/
def INK_SARRLO_word (i : Nat) : Field := ⟨0x41018 + 0x40 * i, 0, 32⟩
def INK_SARRLO_NS (i : Nat) : Field := ⟨0x41018 + 0x40 * i, 0, 32⟩
/-! INK_SARRHI (07_intake_and_frame_store.md) -/
def INK_SARRHI_word (i : Nat) : Field := ⟨0x4101C + 0x40 * i, 0, 32⟩
def INK_SARRHI_NS (i : Nat) : Field := ⟨0x4101C + 0x40 * i, 0, 32⟩
/-! INK_SFCRC (07_intake_and_frame_store.md) -/
def INK_SFCRC_word (i : Nat) : Field := ⟨0x41020 + 0x40 * i, 0, 32⟩
def INK_SFCRC_F (i : Nat) : Field := ⟨0x41020 + 0x40 * i, 0, 32⟩
/-! INK_STALLY0 (07_intake_and_frame_store.md) -/
def INK_STALLY0_word (i : Nat) : Field := ⟨0x41024 + 0x40 * i, 0, 32⟩
def INK_STALLY0_GAPS (i : Nat) : Field := ⟨0x41024 + 0x40 * i, 16, 16⟩
def INK_STALLY0_SEQREJ (i : Nat) : Field := ⟨0x41024 + 0x40 * i, 8, 8⟩
def INK_STALLY0_INCOMPLETE (i : Nat) : Field := ⟨0x41024 + 0x40 * i, 0, 8⟩
/-! INK_STALLY1 (07_intake_and_frame_store.md) -/
def INK_STALLY1_word (i : Nat) : Field := ⟨0x41028 + 0x40 * i, 0, 32⟩
def INK_STALLY1_TIMEERR (i : Nat) : Field := ⟨0x41028 + 0x40 * i, 24, 8⟩
def INK_STALLY1_BADCELL (i : Nat) : Field := ⟨0x41028 + 0x40 * i, 16, 8⟩
def INK_STALLY1_PUBOVR (i : Nat) : Field := ⟨0x41028 + 0x40 * i, 8, 8⟩
def INK_STALLY1_FROZENS (i : Nat) : Field := ⟨0x41028 + 0x40 * i, 0, 8⟩
/-! INK_STALLY2 (07_intake_and_frame_store.md) -/
def INK_STALLY2_word (i : Nat) : Field := ⟨0x4102C + 0x40 * i, 0, 32⟩
def INK_STALLY2_NOSIGS (i : Nat) : Field := ⟨0x4102C + 0x40 * i, 8, 8⟩
def INK_STALLY2_DAMAGED (i : Nat) : Field := ⟨0x4102C + 0x40 * i, 0, 8⟩
/-! FST_CHMAP (07_intake_and_frame_store.md) -/
def FST_CHMAP_word : Field := ⟨0x50000, 0, 32⟩
def FST_CHMAP_FAILED : Field := ⟨0x50000, 16, 8⟩
def FST_CHMAP_INSERVICE : Field := ⟨0x50000, 8, 8⟩
def FST_CHMAP_N : Field := ⟨0x50000, 0, 4⟩
/-! FST_ECC (07_intake_and_frame_store.md) -/
def FST_ECC_word : Field := ⟨0x50004, 0, 32⟩
def FST_ECC_CORR : Field := ⟨0x50004, 16, 16⟩
def FST_ECC_UNCORR : Field := ⟨0x50004, 0, 16⟩
/-! FST_ECCADDR (07_intake_and_frame_store.md) -/
def FST_ECCADDR_word : Field := ⟨0x50008, 0, 32⟩
def FST_ECCADDR_VALID : Field := ⟨0x50008, 31, 1⟩
def FST_ECCADDR_ADDR : Field := ⟨0x50008, 0, 31⟩
/-! FST_SCRUB (07_intake_and_frame_store.md) -/
def FST_SCRUB_word : Field := ⟨0x5000C, 0, 32⟩
def FST_SCRUB_ENABLE : Field := ⟨0x5000C, 16, 1⟩
def FST_SCRUB_PASSES : Field := ⟨0x5000C, 0, 16⟩
/-! FST_WINBASE (07_intake_and_frame_store.md) -/
def FST_WINBASE_word (i : Nat) : Field := ⟨0x50010 + 0x4 * i, 0, 32⟩
def FST_WINBASE_HALF (i : Nat) : Field := ⟨0x50010 + 0x4 * i, 0, 1⟩
/-! RBK_SCENE (08_route_book_and_scenes.md) -/
def RBK_SCENE_word : Field := ⟨0x60000, 0, 32⟩
def RBK_SCENE_PENDING : Field := ⟨0x60000, 24, 1⟩
def RBK_SCENE_NEXT : Field := ⟨0x60000, 16, 8⟩
def RBK_SCENE_CURRENT : Field := ⟨0x60000, 0, 8⟩
/-! RBK_LAP (08_route_book_and_scenes.md) -/
def RBK_LAP_word : Field := ⟨0x60004, 0, 32⟩
def RBK_LAP_LAP : Field := ⟨0x60004, 0, 32⟩
/-! RBK_SWITCHLAP (08_route_book_and_scenes.md) -/
def RBK_SWITCHLAP_word : Field := ⟨0x60008, 0, 32⟩
def RBK_SWITCHLAP_LAP : Field := ⟨0x60008, 0, 32⟩
/-! RBK_SCENESEL (08_route_book_and_scenes.md) -/
def RBK_SCENESEL_word : Field := ⟨0x6000C, 0, 32⟩
def RBK_SCENESEL_GO : Field := ⟨0x6000C, 8, 1⟩
def RBK_SCENESEL_SCENE : Field := ⟨0x6000C, 0, 8⟩
/-! RBK_SELSTAT (08_route_book_and_scenes.md) -/
def RBK_SELSTAT_word : Field := ⟨0x60010, 0, 32⟩
def RBK_SELSTAT_SCENE : Field := ⟨0x60010, 8, 8⟩
def RBK_SELSTAT_RESULT : Field := ⟨0x60010, 0, 3⟩
/-! RBK_SET (08_route_book_and_scenes.md) -/
def RBK_SET_word : Field := ⟨0x60014, 0, 32⟩
def RBK_SET_REGIONS : Field := ⟨0x60014, 16, 11⟩
def RBK_SET_SET : Field := ⟨0x60014, 0, 2⟩
/-! RBK_LAPWORK (08_route_book_and_scenes.md) -/
def RBK_LAPWORK_word : Field := ⟨0x60018, 0, 32⟩
def RBK_LAPWORK_REGIONS : Field := ⟨0x60018, 16, 16⟩
def RBK_LAPWORK_RUNS : Field := ⟨0x60018, 0, 16⟩
/-! RBK_VARIANTS0 (08_route_book_and_scenes.md) -/
def RBK_VARIANTS0_word : Field := ⟨0x6001C, 0, 32⟩
def RBK_VARIANTS0_LATE : Field := ⟨0x6001C, 16, 16⟩
def RBK_VARIANTS0_NORMAL : Field := ⟨0x6001C, 0, 16⟩
/-! RBK_VARIANTS1 (08_route_book_and_scenes.md) -/
def RBK_VARIANTS1_word : Field := ⟨0x60020, 0, 32⟩
def RBK_VARIANTS1_STALE : Field := ⟨0x60020, 16, 16⟩
def RBK_VARIANTS1_REDUCED : Field := ⟨0x60020, 0, 16⟩
/-! RBK_TAGS (08_route_book_and_scenes.md) -/
def RBK_TAGS_word : Field := ⟨0x60024, 0, 32⟩
def RBK_TAGS_CLEAR_PEAK : Field := ⟨0x60024, 31, 1⟩
def RBK_TAGS_PEAK : Field := ⟨0x60024, 16, 10⟩
def RBK_TAGS_INUSE : Field := ⟨0x60024, 0, 10⟩
/-! RBK_FETCHLOC (08_route_book_and_scenes.md) -/
def RBK_FETCHLOC_word : Field := ⟨0x60028, 0, 32⟩
def RBK_FETCHLOC_TILES : Field := ⟨0x60028, 0, 32⟩
/-! RBK_FETCHX (08_route_book_and_scenes.md) -/
def RBK_FETCHX_word : Field := ⟨0x6002C, 0, 32⟩
def RBK_FETCHX_TILES : Field := ⟨0x6002C, 0, 32⟩
/-! RBK_NOTREADY (08_route_book_and_scenes.md) -/
def RBK_NOTREADY_word : Field := ⟨0x60030, 0, 32⟩
def RBK_NOTREADY_COUNT : Field := ⟨0x60030, 0, 16⟩
/-! RBK_TALLY (08_route_book_and_scenes.md) -/
def RBK_TALLY_word : Field := ⟨0x60034, 0, 32⟩
def RBK_TALLY_ABANDONED : Field := ⟨0x60034, 16, 16⟩
def RBK_TALLY_LATESW : Field := ⟨0x60034, 8, 8⟩
def RBK_TALLY_REJECTED : Field := ⟨0x60034, 0, 8⟩
/-! CMP_GSEL (09_composition_pipeline.md) -/
def CMP_GSEL_word : Field := ⟨0x70000, 0, 32⟩
def CMP_GSEL_GO : Field := ⟨0x70000, 25, 1⟩
def CMP_GSEL_SETALPHA : Field := ⟨0x70000, 24, 1⟩
def CMP_GSEL_SETSTATE : Field := ⟨0x70000, 23, 1⟩
def CMP_GSEL_LAYER : Field := ⟨0x70000, 16, 3⟩
def CMP_GSEL_ALPHA : Field := ⟨0x70000, 8, 8⟩
def CMP_GSEL_STATE : Field := ⟨0x70000, 0, 6⟩
/-! CMP_GSELSTAT (09_composition_pipeline.md) -/
def CMP_GSELSTAT_word : Field := ⟨0x70004, 0, 32⟩
def CMP_GSELSTAT_LAYER : Field := ⟨0x70004, 16, 3⟩
def CMP_GSELSTAT_RESULT : Field := ⟨0x70004, 0, 3⟩
/-! CMP_GLAYER (09_composition_pipeline.md) -/
def CMP_GLAYER_word (i : Nat) : Field := ⟨0x70010 + 0x4 * i, 0, 32⟩
def CMP_GLAYER_SET (i : Nat) : Field := ⟨0x70010 + 0x4 * i, 24, 8⟩
def CMP_GLAYER_STATE (i : Nat) : Field := ⟨0x70010 + 0x4 * i, 16, 6⟩
def CMP_GLAYER_ALPHA (i : Nat) : Field := ⟨0x70010 + 0x4 * i, 8, 8⟩
def CMP_GLAYER_USED (i : Nat) : Field := ⟨0x70010 + 0x4 * i, 0, 1⟩
/-! CMP_UNDERRUN (09_composition_pipeline.md) -/
def CMP_UNDERRUN_word : Field := ⟨0x70030, 0, 32⟩
def CMP_UNDERRUN_TILES : Field := ⟨0x70030, 16, 16⟩
def CMP_UNDERRUN_REGIONS : Field := ⟨0x70030, 0, 16⟩
/-! CMP_PATCHK (09_composition_pipeline.md) -/
def CMP_PATCHK_word : Field := ⟨0x70034, 0, 32⟩
def CMP_PATCHK_FAIL : Field := ⟨0x70034, 0, 16⟩
/-! CMP_WATCHDIS0 (09_composition_pipeline.md) -/
def CMP_WATCHDIS0_word : Field := ⟨0x70040, 0, 32⟩
def CMP_WATCHDIS0_RECTS : Field := ⟨0x70040, 0, 32⟩
/-! CMP_WATCHDIS1 (09_composition_pipeline.md) -/
def CMP_WATCHDIS1_word : Field := ⟨0x70044, 0, 32⟩
def CMP_WATCHDIS1_RECTS : Field := ⟨0x70044, 0, 32⟩
/-! CMP_WATCHEN0 (09_composition_pipeline.md) -/
def CMP_WATCHEN0_word : Field := ⟨0x70048, 0, 32⟩
def CMP_WATCHEN0_RECTS : Field := ⟨0x70048, 0, 32⟩
/-! CMP_WATCHEN1 (09_composition_pipeline.md) -/
def CMP_WATCHEN1_word : Field := ⟨0x7004C, 0, 32⟩
def CMP_WATCHEN1_RECTS : Field := ⟨0x7004C, 0, 32⟩
/-! CMP_WATCHOWN0 (09_composition_pipeline.md) -/
def CMP_WATCHOWN0_word : Field := ⟨0x70050, 0, 32⟩
def CMP_WATCHOWN0_RECTS : Field := ⟨0x70050, 0, 32⟩
/-! CMP_WATCHOWN1 (09_composition_pipeline.md) -/
def CMP_WATCHOWN1_word : Field := ⟨0x70054, 0, 32⟩
def CMP_WATCHOWN1_RECTS : Field := ⟨0x70054, 0, 32⟩
/-! CMP_WATCHFAIL0 (09_composition_pipeline.md) -/
def CMP_WATCHFAIL0_word : Field := ⟨0x70058, 0, 32⟩
def CMP_WATCHFAIL0_RECTS : Field := ⟨0x70058, 0, 32⟩
/-! CMP_WATCHFAIL1 (09_composition_pipeline.md) -/
def CMP_WATCHFAIL1_word : Field := ⟨0x7005C, 0, 32⟩
def CMP_WATCHFAIL1_RECTS : Field := ⟨0x7005C, 0, 32⟩
/-! CMP_WATCHSEL (09_composition_pipeline.md) -/
def CMP_WATCHSEL_word : Field := ⟨0x70060, 0, 32⟩
def CMP_WATCHSEL_INDEX : Field := ⟨0x70060, 0, 6⟩
/-! CMP_WATCHLAST (09_composition_pipeline.md) -/
def CMP_WATCHLAST_word : Field := ⟨0x70064, 0, 32⟩
def CMP_WATCHLAST_VALUE : Field := ⟨0x70064, 0, 32⟩
/-! CMP_WATCHEXP (09_composition_pipeline.md) -/
def CMP_WATCHEXP_word : Field := ⟨0x70068, 0, 32⟩
def CMP_WATCHEXP_EXPECT : Field := ⟨0x70068, 0, 32⟩
/-! CMP_WATCHSTAT (09_composition_pipeline.md) -/
def CMP_WATCHSTAT_word : Field := ⟨0x7006C, 0, 32⟩
def CMP_WATCHSTAT_LAP : Field := ⟨0x7006C, 16, 16⟩
def CMP_WATCHSTAT_RESULT : Field := ⟨0x7006C, 0, 3⟩
/-! CMP_WATCHTALLY (09_composition_pipeline.md) -/
def CMP_WATCHTALLY_word : Field := ⟨0x70070, 0, 32⟩
def CMP_WATCHTALLY_CHECKS : Field := ⟨0x70070, 16, 16⟩
def CMP_WATCHTALLY_MISMATCH : Field := ⟨0x70070, 8, 8⟩
def CMP_WATCHTALLY_SKIPPED : Field := ⟨0x70070, 0, 8⟩
/-! COEF_DESC (09_composition_pipeline.md) -/
def COEF_DESC_word (i : Nat) : Field := ⟨0x500000 + 0x4 * i, 0, 32⟩
def COEF_DESC_PRESENT (i : Nat) : Field := ⟨0x500000 + 0x4 * i, 31, 1⟩
def COEF_DESC_REJECTED (i : Nat) : Field := ⟨0x500000 + 0x4 * i, 30, 1⟩
def COEF_DESC_DIR (i : Nat) : Field := ⟨0x500000 + 0x4 * i, 24, 1⟩
def COEF_DESC_TAPS (i : Nat) : Field := ⟨0x500000 + 0x4 * i, 16, 4⟩
def COEF_DESC_RUNS (i : Nat) : Field := ⟨0x500000 + 0x4 * i, 0, 16⟩
/-! COEF_MDESC (09_composition_pipeline.md) -/
def COEF_MDESC_word (i : Nat) : Field := ⟨0x500100 + 0x4 * i, 0, 32⟩
def COEF_MDESC_PRESENT (i : Nat) : Field := ⟨0x500100 + 0x4 * i, 31, 1⟩
def COEF_MDESC_REJECTED (i : Nat) : Field := ⟨0x500100 + 0x4 * i, 30, 1⟩
def COEF_MDESC_LAYERS (i : Nat) : Field := ⟨0x500100 + 0x4 * i, 0, 16⟩
/-! AGE_CTRL (10_age_gate.md) -/
def AGE_CTRL_word : Field := ⟨0x80000, 0, 32⟩
def AGE_CTRL_FORCE : Field := ⟨0x80000, 31, 1⟩
def AGE_CTRL_MAXERR : Field := ⟨0x80000, 0, 16⟩
/-! AGE_SCANOUT (10_age_gate.md) -/
def AGE_SCANOUT_word : Field := ⟨0x80004, 0, 32⟩
def AGE_SCANOUT_NS : Field := ⟨0x80004, 0, 32⟩
/-! AGE_PERIOD (10_age_gate.md) -/
def AGE_PERIOD_word : Field := ⟨0x80008, 0, 32⟩
def AGE_PERIOD_NS : Field := ⟨0x80008, 0, 32⟩
/-! AGE_FLIPDECL (10_age_gate.md) -/
def AGE_FLIPDECL_word : Field := ⟨0x8000C, 0, 32⟩
def AGE_FLIPDECL_FLIPPPM : Field := ⟨0x8000C, 16, 16⟩
def AGE_FLIPDECL_FLIPERR : Field := ⟨0x8000C, 0, 16⟩
/-! AGE_APPLYLO (10_age_gate.md) -/
def AGE_APPLYLO_word : Field := ⟨0x80010, 0, 32⟩
def AGE_APPLYLO_NS : Field := ⟨0x80010, 0, 32⟩
/-! AGE_APPLYHI (10_age_gate.md) -/
def AGE_APPLYHI_word : Field := ⟨0x80014, 0, 32⟩
def AGE_APPLYHI_NS : Field := ⟨0x80014, 0, 32⟩
/-! AGE_WOFSLO (10_age_gate.md) -/
def AGE_WOFSLO_word : Field := ⟨0x80018, 0, 32⟩
def AGE_WOFSLO_NS : Field := ⟨0x80018, 0, 32⟩
/-! AGE_WOFSHI (10_age_gate.md) -/
def AGE_WOFSHI_word : Field := ⟨0x8001C, 0, 32⟩
def AGE_WOFSHI_NS : Field := ⟨0x8001C, 0, 32⟩
/-! AGE_WERR (10_age_gate.md) -/
def AGE_WERR_word : Field := ⟨0x80020, 0, 32⟩
def AGE_WERR_TRUSTED : Field := ⟨0x80020, 31, 1⟩
def AGE_WERR_NS : Field := ⟨0x80020, 0, 31⟩
/-! AGE_STATE (10_age_gate.md) -/
def AGE_STATE_word : Field := ⟨0x80024, 0, 32⟩
def AGE_STATE_LAG : Field := ⟨0x80024, 24, 8⟩
def AGE_STATE_HOLD : Field := ⟨0x80024, 8, 1⟩
def AGE_STATE_PREDICT : Field := ⟨0x80024, 0, 1⟩
/-! AGE_COUNT (10_age_gate.md) -/
def AGE_COUNT_word (i : Nat) : Field := ⟨0x80030 + 0x4 * i, 0, 32⟩
def AGE_COUNT_HIGH (i : Nat) : Field := ⟨0x80030 + 0x4 * i, 16, 16⟩
def AGE_COUNT_LOW (i : Nat) : Field := ⟨0x80030 + 0x4 * i, 0, 16⟩
/-! AGE_TALLY (10_age_gate.md) -/
def AGE_TALLY_word : Field := ⟨0x80040, 0, 32⟩
def AGE_TALLY_OVERSTAY : Field := ⟨0x80040, 16, 16⟩
def AGE_TALLY_NOPREDICT : Field := ⟨0x80040, 8, 8⟩
def AGE_TALLY_NOLATCH : Field := ⟨0x80040, 0, 8⟩
/-! AGE_OVERSTAY (10_age_gate.md) -/
def AGE_OVERSTAY_word : Field := ⟨0x80044, 0, 32⟩
def AGE_OVERSTAY_LAP : Field := ⟨0x80044, 16, 16⟩
def AGE_OVERSTAY_REGION : Field := ⟨0x80044, 0, 10⟩
/-! AGE_LAYER (10_age_gate.md) -/
def AGE_LAYER_word (i : Nat) : Field := ⟨0x80080 + 0x4 * i, 0, 32⟩
def AGE_LAYER_AGE (i : Nat) : Field := ⟨0x80080 + 0x4 * i, 16, 16⟩
def AGE_LAYER_VERDICT (i : Nat) : Field := ⟨0x80080 + 0x4 * i, 12, 3⟩
def AGE_LAYER_SOURCE (i : Nat) : Field := ⟨0x80080 + 0x4 * i, 0, 12⟩
/-! AGE_REASON (10_age_gate.md) -/
def AGE_REASON_word : Field := ⟨0x800A0, 0, 32⟩
def AGE_REASON_LAYERS : Field := ⟨0x800A0, 0, 24⟩
/-! AGE_REGSTAT (10_age_gate.md) -/
def AGE_REGSTAT_word (i : Nat) : Field := ⟨0x81000 + 0x4 * i, 0, 32⟩
def AGE_REGSTAT_AGE (i : Nat) : Field := ⟨0x81000 + 0x4 * i, 16, 16⟩
def AGE_REGSTAT_LAYER (i : Nat) : Field := ⟨0x81000 + 0x4 * i, 12, 4⟩
def AGE_REGSTAT_OVER (i : Nat) : Field := ⟨0x81000 + 0x4 * i, 11, 1⟩
def AGE_REGSTAT_STATUS (i : Nat) : Field := ⟨0x81000 + 0x4 * i, 0, 3⟩
/-! PNL_CTRL (11_panel_port.md) -/
def PNL_CTRL_word : Field := ⟨0x90000, 0, 32⟩
def PNL_CTRL_MARGIN : Field := ⟨0x90000, 16, 8⟩
def PNL_CTRL_REINIT : Field := ⟨0x90000, 1, 1⟩
def PNL_CTRL_RUN : Field := ⟨0x90000, 0, 1⟩
/-! PNL_STATUS (11_panel_port.md) -/
def PNL_STATUS_word : Field := ⟨0x90004, 0, 32⟩
def PNL_STATUS_LANESUP : Field := ⟨0x90004, 16, 4⟩
def PNL_STATUS_UNHEALTHY : Field := ⟨0x90004, 13, 1⟩
def PNL_STATUS_PENDING : Field := ⟨0x90004, 12, 1⟩
def PNL_STATUS_HMFAULT : Field := ⟨0x90004, 11, 1⟩
def PNL_STATUS_PFAULT : Field := ⟨0x90004, 10, 1⟩
def PNL_STATUS_SHUTTER : Field := ⟨0x90004, 9, 1⟩
def PNL_STATUS_REQALL : Field := ⟨0x90004, 8, 1⟩
def PNL_STATUS_STATE : Field := ⟨0x90004, 0, 4⟩
/-! PNL_IDENT (11_panel_port.md) -/
def PNL_IDENT_word : Field := ⟨0x90008, 0, 32⟩
def PNL_IDENT_MODES : Field := ⟨0x90008, 28, 4⟩
def PNL_IDENT_HEIGHT : Field := ⟨0x90008, 16, 9⟩
def PNL_IDENT_WIDTH : Field := ⟨0x90008, 0, 9⟩
/-! PNL_MODE (11_panel_port.md) -/
def PNL_MODE_word : Field := ⟨0x9000C, 0, 32⟩
def PNL_MODE_REFRESH : Field := ⟨0x9000C, 16, 16⟩
def PNL_MODE_CUTLINES : Field := ⟨0x9000C, 8, 8⟩
def PNL_MODE_MODE : Field := ⟨0x9000C, 0, 8⟩
/-! PNL_MODESEL (11_panel_port.md) -/
def PNL_MODESEL_word : Field := ⟨0x90010, 0, 32⟩
def PNL_MODESEL_GO : Field := ⟨0x90010, 8, 1⟩
def PNL_MODESEL_MODE : Field := ⟨0x90010, 0, 8⟩
/-! PNL_MODESTAT (11_panel_port.md) -/
def PNL_MODESTAT_word : Field := ⟨0x90014, 0, 32⟩
def PNL_MODESTAT_MODE : Field := ⟨0x90014, 8, 8⟩
def PNL_MODESTAT_RESULT : Field := ⟨0x90014, 0, 3⟩
/-! PNL_LAPCOUNT (11_panel_port.md) -/
def PNL_LAPCOUNT_word : Field := ⟨0x90018, 0, 32⟩
def PNL_LAPCOUNT_FLIPS : Field := ⟨0x90018, 0, 32⟩
/-! PNL_FLIPTIMELO (11_panel_port.md) -/
def PNL_FLIPTIMELO_word : Field := ⟨0x9001C, 0, 32⟩
def PNL_FLIPTIMELO_NS : Field := ⟨0x9001C, 0, 32⟩
/-! PNL_FLIPTIMEHI (11_panel_port.md) -/
def PNL_FLIPTIMEHI_word : Field := ⟨0x90020, 0, 32⟩
def PNL_FLIPTIMEHI_NS : Field := ⟨0x90020, 0, 32⟩
/-! PNL_LASTLAP (11_panel_port.md) -/
def PNL_LASTLAP_word : Field := ⟨0x90024, 0, 32⟩
def PNL_LASTLAP_LAP : Field := ⟨0x90024, 0, 32⟩
/-! PNL_LINK (11_panel_port.md) -/
def PNL_LINK_word : Field := ⟨0x90028, 0, 32⟩
def PNL_LINK_LINKDLY : Field := ⟨0x90028, 16, 16⟩
def PNL_LINK_RTT : Field := ⟨0x90028, 0, 16⟩
/-! PNL_CUT (11_panel_port.md) -/
def PNL_CUT_word : Field := ⟨0x9002C, 0, 32⟩
def PNL_CUT_NS : Field := ⟨0x9002C, 0, 32⟩
/-! PNL_PSEQ (11_panel_port.md) -/
def PNL_PSEQ_word : Field := ⟨0x90030, 0, 32⟩
def PNL_PSEQ_NEXT : Field := ⟨0x90030, 0, 32⟩
/-! PNL_HMLAST (11_panel_port.md) -/
def PNL_HMLAST_word : Field := ⟨0x90034, 0, 32⟩
def PNL_HMLAST_HALLMARK : Field := ⟨0x90034, 0, 32⟩
/-! PNL_HMECHO (11_panel_port.md) -/
def PNL_HMECHO_word : Field := ⟨0x90038, 0, 32⟩
def PNL_HMECHO_HALLMARK : Field := ⟨0x90038, 0, 32⟩
/-! PNL_TALLY0 (11_panel_port.md) -/
def PNL_TALLY0_word : Field := ⟨0x90040, 0, 32⟩
def PNL_TALLY0_MISMATCH : Field := ⟨0x90040, 16, 16⟩
def PNL_TALLY0_LATECOMMIT : Field := ⟨0x90040, 8, 8⟩
def PNL_TALLY0_NOREPORT : Field := ⟨0x90040, 0, 8⟩
/-! PNL_TALLY1 (11_panel_port.md) -/
def PNL_TALLY1_word : Field := ⟨0x90044, 0, 32⟩
def PNL_TALLY1_SHUTTERS : Field := ⟨0x90044, 24, 8⟩
def PNL_TALLY1_REQALL : Field := ⟨0x90044, 16, 8⟩
def PNL_TALLY1_BADMODE : Field := ⟨0x90044, 8, 8⟩
def PNL_TALLY1_PANELFAULTS : Field := ⟨0x90044, 0, 8⟩
/-! PNL_HMFAULT (11_panel_port.md) -/
def PNL_HMFAULT_word : Field := ⟨0x90048, 0, 32⟩
def PNL_HMFAULT_LAP : Field := ⟨0x90048, 16, 16⟩
def PNL_HMFAULT_REGION : Field := ⟨0x90048, 0, 10⟩
/-! RNG_CTRL (12_ring_and_cascade.md) -/
def RNG_CTRL_word (i : Nat) : Field := ⟨0xA0000 + 0x100 * i, 0, 32⟩
def RNG_CTRL_JOINEN (i : Nat) : Field := ⟨0xA0000 + 0x100 * i, 0, 1⟩
/-! RNG_STATE (12_ring_and_cascade.md) -/
def RNG_STATE_word (i : Nat) : Field := ⟨0xA0004 + 0x100 * i, 0, 32⟩
def RNG_STATE_STATION (i : Nat) : Field := ⟨0xA0004 + 0x100 * i, 24, 8⟩
def RNG_STATE_LINE (i : Nat) : Field := ⟨0xA0004 + 0x100 * i, 15, 1⟩
def RNG_STATE_SPLIT (i : Nat) : Field := ⟨0xA0004 + 0x100 * i, 14, 1⟩
def RNG_STATE_ENDW (i : Nat) : Field := ⟨0xA0004 + 0x100 * i, 13, 1⟩
def RNG_STATE_ENDE (i : Nat) : Field := ⟨0xA0004 + 0x100 * i, 12, 1⟩
def RNG_STATE_HEAD (i : Nat) : Field := ⟨0xA0004 + 0x100 * i, 11, 1⟩
def RNG_STATE_MASTER (i : Nat) : Field := ⟨0xA0004 + 0x100 * i, 10, 1⟩
def RNG_STATE_CAND (i : Nat) : Field := ⟨0xA0004 + 0x100 * i, 9, 1⟩
def RNG_STATE_JOINRES (i : Nat) : Field := ⟨0xA0004 + 0x100 * i, 4, 4⟩
def RNG_STATE_STATE (i : Nat) : Field := ⟨0xA0004 + 0x100 * i, 0, 4⟩
/-! RNG_MASTER (12_ring_and_cascade.md) -/
def RNG_MASTER_word (i : Nat) : Field := ⟨0xA0008 + 0x100 * i, 0, 32⟩
def RNG_MASTER_ADDR (i : Nat) : Field := ⟨0xA0008 + 0x100 * i, 0, 14⟩
/-! RNG_TOPO (12_ring_and_cascade.md) -/
def RNG_TOPO_word (i : Nat) : Field := ⟨0xA000C + 0x100 * i, 0, 32⟩
def RNG_TOPO_WEND (i : Nat) : Field := ⟨0xA000C + 0x100 * i, 24, 8⟩
def RNG_TOPO_EEND (i : Nat) : Field := ⟨0xA000C + 0x100 * i, 16, 8⟩
def RNG_TOPO_LINES (i : Nat) : Field := ⟨0xA000C + 0x100 * i, 8, 8⟩
def RNG_TOPO_HEADSTN (i : Nat) : Field := ⟨0xA000C + 0x100 * i, 0, 8⟩
/-! RNG_PLANCRC (12_ring_and_cascade.md) -/
def RNG_PLANCRC_word (i : Nat) : Field := ⟨0xA0010 + 0x100 * i, 0, 32⟩
def RNG_PLANCRC_CRC (i : Nat) : Field := ⟨0xA0010 + 0x100 * i, 0, 32⟩
/-! RNG_MPLANCRC (12_ring_and_cascade.md) -/
def RNG_MPLANCRC_word (i : Nat) : Field := ⟨0xA0014 + 0x100 * i, 0, 32⟩
def RNG_MPLANCRC_CRC (i : Nat) : Field := ⟨0xA0014 + 0x100 * i, 0, 32⟩
/-! RNG_LAP (12_ring_and_cascade.md) -/
def RNG_LAP_word (i : Nat) : Field := ⟨0xA0018 + 0x100 * i, 0, 32⟩
def RNG_LAP_LAPNUM (i : Nat) : Field := ⟨0xA0018 + 0x100 * i, 0, 16⟩
/-! RNG_BYPASS (12_ring_and_cascade.md) -/
def RNG_BYPASS_word (i : Nat) : Field := ⟨0xA001C + 0x100 * i, 0, 32⟩
def RNG_BYPASS_OVER (i : Nat) : Field := ⟨0xA001C + 0x100 * i, 31, 1⟩
def RNG_BYPASS_LIMIT (i : Nat) : Field := ⟨0xA001C + 0x100 * i, 8, 8⟩
def RNG_BYPASS_RUNMAX (i : Nat) : Field := ⟨0xA001C + 0x100 * i, 0, 8⟩
/-! RNG_SEEN (12_ring_and_cascade.md) -/
def RNG_SEEN_word (i : Nat) (j : Nat) : Field := ⟨0xA0020 + 0x100 * i + 0x4 * j, 0, 32⟩
def RNG_SEEN_MAP (i : Nat) (j : Nat) : Field := ⟨0xA0020 + 0x100 * i + 0x4 * j, 0, 32⟩
/-! RNG_CAND (12_ring_and_cascade.md) -/
def RNG_CAND_word (i : Nat) (j : Nat) : Field := ⟨0xA0030 + 0x100 * i + 0x4 * j, 0, 32⟩
def RNG_CAND_MAP (i : Nat) (j : Nat) : Field := ⟨0xA0030 + 0x100 * i + 0x4 * j, 0, 32⟩
/-! RNG_EDGE (12_ring_and_cascade.md) -/
def RNG_EDGE_word (i : Nat) (j : Nat) : Field := ⟨0xA0040 + 0x100 * i + 0x4 * j, 0, 32⟩
def RNG_EDGE_MAP (i : Nat) (j : Nat) : Field := ⟨0xA0040 + 0x100 * i + 0x4 * j, 0, 32⟩
/-! RNG_TALLY0 (12_ring_and_cascade.md) -/
def RNG_TALLY0_word (i : Nat) : Field := ⟨0xA0050 + 0x100 * i, 0, 32⟩
def RNG_TALLY0_COLLIDE (i : Nat) : Field := ⟨0xA0050 + 0x100 * i, 24, 8⟩
def RNG_TALLY0_TOPOCHG (i : Nat) : Field := ⟨0xA0050 + 0x100 * i, 16, 8⟩
def RNG_TALLY0_MASTERCHG (i : Nat) : Field := ⟨0xA0050 + 0x100 * i, 8, 8⟩
def RNG_TALLY0_TURNDROP (i : Nat) : Field := ⟨0xA0050 + 0x100 * i, 0, 8⟩
/-! RNG_TALLY1 (12_ring_and_cascade.md) -/
def RNG_TALLY1_word (i : Nat) : Field := ⟨0xA0054 + 0x100 * i, 0, 32⟩
def RNG_TALLY1_FWDOVR (i : Nat) : Field := ⟨0xA0054 + 0x100 * i, 24, 8⟩
def RNG_TALLY1_REFUSED (i : Nat) : Field := ⟨0xA0054 + 0x100 * i, 16, 8⟩
def RNG_TALLY1_NOLAP (i : Nat) : Field := ⟨0xA0054 + 0x100 * i, 8, 8⟩
def RNG_TALLY1_SOFTDROP (i : Nat) : Field := ⟨0xA0054 + 0x100 * i, 0, 8⟩
/-! TIM_LOCALLO (13_time_domains.md) -/
def TIM_LOCALLO_word : Field := ⟨0xB0000, 0, 32⟩
def TIM_LOCALLO_NS : Field := ⟨0xB0000, 0, 32⟩
/-! TIM_LOCALHI (13_time_domains.md) -/
def TIM_LOCALHI_word : Field := ⟨0xB0004, 0, 32⟩
def TIM_LOCALHI_NS : Field := ⟨0xB0004, 0, 32⟩
/-! TIM_STATUS (13_time_domains.md) -/
def TIM_STATUS_word : Field := ⟨0xB0008, 0, 32⟩
def TIM_STATUS_GMUNSET : Field := ⟨0xB0008, 15, 1⟩
def TIM_STATUS_GMB : Field := ⟨0xB0008, 14, 1⟩
def TIM_STATUS_GMA : Field := ⟨0xB0008, 13, 1⟩
def TIM_STATUS_FOLLOW : Field := ⟨0xB0008, 12, 1⟩
def TIM_STATUS_SLEWING : Field := ⟨0xB0008, 11, 1⟩
def TIM_STATUS_TRUSTED : Field := ⟨0xB0008, 10, 1⟩
def TIM_STATUS_EXISTS : Field := ⟨0xB0008, 9, 1⟩
def TIM_STATUS_PEERFEED : Field := ⟨0xB0008, 8, 1⟩
def TIM_STATUS_REF : Field := ⟨0xB0008, 6, 2⟩
def TIM_STATUS_BSTATE : Field := ⟨0xB0008, 3, 3⟩
def TIM_STATUS_ASTATE : Field := ⟨0xB0008, 0, 3⟩
/-! TIM_WALLSECLO (13_time_domains.md) -/
def TIM_WALLSECLO_word : Field := ⟨0xB0010, 0, 32⟩
def TIM_WALLSECLO_VALUE : Field := ⟨0xB0010, 0, 32⟩
/-! TIM_WALLSECHI (13_time_domains.md) -/
def TIM_WALLSECHI_word : Field := ⟨0xB0014, 0, 32⟩
def TIM_WALLSECHI_VALUE : Field := ⟨0xB0014, 0, 32⟩
/-! TIM_WALLFRAC (13_time_domains.md) -/
def TIM_WALLFRAC_word : Field := ⟨0xB0018, 0, 32⟩
def TIM_WALLFRAC_VALUE : Field := ⟨0xB0018, 0, 32⟩
/-! TIM_AB (13_time_domains.md) -/
def TIM_AB_word : Field := ⟨0xB001C, 0, 32⟩
def TIM_AB_NS : Field := ⟨0xB001C, 0, 32⟩
/-! TIM_SLEW (13_time_domains.md) -/
def TIM_SLEW_word : Field := ⟨0xB0020, 0, 32⟩
def TIM_SLEW_NS : Field := ⟨0xB0020, 0, 32⟩
/-! TIM_ERRA (13_time_domains.md) -/
def TIM_ERRA_word : Field := ⟨0xB0024, 0, 32⟩
def TIM_ERRA_NS : Field := ⟨0xB0024, 0, 32⟩
/-! TIM_ERRB (13_time_domains.md) -/
def TIM_ERRB_word : Field := ⟨0xB0028, 0, 32⟩
def TIM_ERRB_NS : Field := ⟨0xB0028, 0, 32⟩
/-! TIM_EW (13_time_domains.md) -/
def TIM_EW_word : Field := ⟨0xB002C, 0, 32⟩
def TIM_EW_TRUSTED : Field := ⟨0xB002C, 31, 1⟩
def TIM_EW_NS : Field := ⟨0xB002C, 0, 31⟩
/-! TIM_SEGDLY (13_time_domains.md) -/
def TIM_SEGDLY_word : Field := ⟨0xB0030, 0, 32⟩
def TIM_SEGDLY_WEST : Field := ⟨0xB0030, 16, 16⟩
def TIM_SEGDLY_EAST : Field := ⟨0xB0030, 0, 16⟩
/-! TIM_DSW (13_time_domains.md) -/
def TIM_DSW_word : Field := ⟨0xB0034, 0, 32⟩
def TIM_DSW_NS : Field := ⟨0xB0034, 0, 32⟩
/-! TIM_GMSETSECLO (13_time_domains.md) -/
def TIM_GMSETSECLO_word : Field := ⟨0xB0040, 0, 32⟩
def TIM_GMSETSECLO_VALUE : Field := ⟨0xB0040, 0, 32⟩
/-! TIM_GMSETSECHI (13_time_domains.md) -/
def TIM_GMSETSECHI_word : Field := ⟨0xB0044, 0, 32⟩
def TIM_GMSETSECHI_VALUE : Field := ⟨0xB0044, 0, 32⟩
/-! TIM_GMSETFRAC (13_time_domains.md) -/
def TIM_GMSETFRAC_word : Field := ⟨0xB0048, 0, 32⟩
def TIM_GMSETFRAC_VALUE : Field := ⟨0xB0048, 0, 32⟩
/-! TIM_GMCMD (13_time_domains.md) -/
def TIM_GMCMD_word : Field := ⟨0xB004C, 0, 32⟩
def TIM_GMCMD_STEP : Field := ⟨0xB004C, 2, 1⟩
def TIM_GMCMD_DOMAIN : Field := ⟨0xB004C, 1, 1⟩
def TIM_GMCMD_GO : Field := ⟨0xB004C, 0, 1⟩
/-! TIM_TALLY (13_time_domains.md) -/
def TIM_TALLY_word : Field := ⟨0xB0050, 0, 32⟩
def TIM_TALLY_PHASEJUMP : Field := ⟨0xB0050, 24, 8⟩
def TIM_TALLY_SWITCHES : Field := ⟨0xB0050, 16, 8⟩
def TIM_TALLY_LOSTB : Field := ⟨0xB0050, 8, 8⟩
def TIM_TALLY_LOSTA : Field := ⟨0xB0050, 0, 8⟩
/-! CVU_CTRL (14_check_value_units.md) -/
def CVU_CTRL_word (i : Nat) : Field := ⟨0xC0000 + 0x80 * i, 0, 32⟩
def CVU_CTRL_WIDTH (i : Nat) : Field := ⟨0xC0000 + 0x80 * i, 24, 8⟩
def CVU_CTRL_PRESET (i : Nat) : Field := ⟨0xC0000 + 0x80 * i, 16, 3⟩
def CVU_CTRL_FOLDLEN (i : Nat) : Field := ⟨0xC0000 + 0x80 * i, 12, 4⟩
def CVU_CTRL_FOLDAUTO (i : Nat) : Field := ⟨0xC0000 + 0x80 * i, 11, 1⟩
def CVU_CTRL_INVERT (i : Nat) : Field := ⟨0xC0000 + 0x80 * i, 10, 1⟩
def CVU_CTRL_REFOUT (i : Nat) : Field := ⟨0xC0000 + 0x80 * i, 9, 1⟩
def CVU_CTRL_REFIN (i : Nat) : Field := ⟨0xC0000 + 0x80 * i, 8, 1⟩
def CVU_CTRL_COMPARE (i : Nat) : Field := ⟨0xC0000 + 0x80 * i, 3, 1⟩
def CVU_CTRL_ONESHOT (i : Nat) : Field := ⟨0xC0000 + 0x80 * i, 2, 1⟩
def CVU_CTRL_ENABLE (i : Nat) : Field := ⟨0xC0000 + 0x80 * i, 0, 1⟩
/-! CVU_SNOOP (14_check_value_units.md) -/
def CVU_SNOOP_word (i : Nat) : Field := ⟨0xC0004 + 0x80 * i, 0, 32⟩
def CVU_SNOOP_POINT (i : Nat) : Field := ⟨0xC0004 + 0x80 * i, 28, 4⟩
def CVU_SNOOP_SEL (i : Nat) : Field := ⟨0xC0004 + 0x80 * i, 16, 6⟩
def CVU_SNOOP_FILTER (i : Nat) : Field := ⟨0xC0004 + 0x80 * i, 0, 16⟩
/-! CVU_POLYLO (14_check_value_units.md) -/
def CVU_POLYLO_word (i : Nat) : Field := ⟨0xC0008 + 0x80 * i, 0, 32⟩
def CVU_POLYLO_VALUE (i : Nat) : Field := ⟨0xC0008 + 0x80 * i, 0, 32⟩
/-! CVU_POLYHI (14_check_value_units.md) -/
def CVU_POLYHI_word (i : Nat) : Field := ⟨0xC000C + 0x80 * i, 0, 32⟩
def CVU_POLYHI_VALUE (i : Nat) : Field := ⟨0xC000C + 0x80 * i, 0, 32⟩
/-! CVU_INITLO (14_check_value_units.md) -/
def CVU_INITLO_word (i : Nat) : Field := ⟨0xC0010 + 0x80 * i, 0, 32⟩
def CVU_INITLO_VALUE (i : Nat) : Field := ⟨0xC0010 + 0x80 * i, 0, 32⟩
/-! CVU_INITHI (14_check_value_units.md) -/
def CVU_INITHI_word (i : Nat) : Field := ⟨0xC0014 + 0x80 * i, 0, 32⟩
def CVU_INITHI_VALUE (i : Nat) : Field := ⟨0xC0014 + 0x80 * i, 0, 32⟩
/-! CVU_FOLD0 (14_check_value_units.md) -/
def CVU_FOLD0_word (i : Nat) : Field := ⟨0xC0018 + 0x80 * i, 0, 32⟩
def CVU_FOLD0_VALUE (i : Nat) : Field := ⟨0xC0018 + 0x80 * i, 0, 32⟩
/-! CVU_FOLD1 (14_check_value_units.md) -/
def CVU_FOLD1_word (i : Nat) : Field := ⟨0xC001C + 0x80 * i, 0, 32⟩
def CVU_FOLD1_VALUE (i : Nat) : Field := ⟨0xC001C + 0x80 * i, 0, 32⟩
/-! CVU_FOLD2 (14_check_value_units.md) -/
def CVU_FOLD2_word (i : Nat) : Field := ⟨0xC0020 + 0x80 * i, 0, 32⟩
def CVU_FOLD2_VALUE (i : Nat) : Field := ⟨0xC0020 + 0x80 * i, 0, 32⟩
/-! CVU_EXPLO (14_check_value_units.md) -/
def CVU_EXPLO_word (i : Nat) : Field := ⟨0xC0024 + 0x80 * i, 0, 32⟩
def CVU_EXPLO_VALUE (i : Nat) : Field := ⟨0xC0024 + 0x80 * i, 0, 32⟩
/-! CVU_EXPHI (14_check_value_units.md) -/
def CVU_EXPHI_word (i : Nat) : Field := ⟨0xC0028 + 0x80 * i, 0, 32⟩
def CVU_EXPHI_VALUE (i : Nat) : Field := ⟨0xC0028 + 0x80 * i, 0, 32⟩
/-! CVU_RESLO (14_check_value_units.md) -/
def CVU_RESLO_word (i : Nat) : Field := ⟨0xC002C + 0x80 * i, 0, 32⟩
def CVU_RESLO_VALUE (i : Nat) : Field := ⟨0xC002C + 0x80 * i, 0, 32⟩
/-! CVU_RESHI (14_check_value_units.md) -/
def CVU_RESHI_word (i : Nat) : Field := ⟨0xC0030 + 0x80 * i, 0, 32⟩
def CVU_RESHI_VALUE (i : Nat) : Field := ⟨0xC0030 + 0x80 * i, 0, 32⟩
/-! CVU_STATUS (14_check_value_units.md) -/
def CVU_STATUS_word (i : Nat) : Field := ⟨0xC0034 + 0x80 * i, 0, 32⟩
def CVU_STATUS_VALID (i : Nat) : Field := ⟨0xC0034 + 0x80 * i, 31, 1⟩
def CVU_STATUS_MISMATCH (i : Nat) : Field := ⟨0xC0034 + 0x80 * i, 30, 1⟩
def CVU_STATUS_ABORTS (i : Nat) : Field := ⟨0xC0034 + 0x80 * i, 16, 8⟩
def CVU_STATUS_COUNT (i : Nat) : Field := ⟨0xC0034 + 0x80 * i, 0, 16⟩
/-! CVU_TALLY (14_check_value_units.md) -/
def CVU_TALLY_word (i : Nat) : Field := ⟨0xC0038 + 0x80 * i, 0, 32⟩
def CVU_TALLY_MISMATCH (i : Nat) : Field := ⟨0xC0038 + 0x80 * i, 0, 16⟩
/-! CVU_FEED4 (14_check_value_units.md) -/
def CVU_FEED4_word (i : Nat) : Field := ⟨0xC003C + 0x80 * i, 0, 32⟩
def CVU_FEED4_DATA (i : Nat) : Field := ⟨0xC003C + 0x80 * i, 0, 32⟩
/-! CVU_FEED1 (14_check_value_units.md) -/
def CVU_FEED1_word (i : Nat) : Field := ⟨0xC0040 + 0x80 * i, 0, 32⟩
def CVU_FEED1_DATA (i : Nat) : Field := ⟨0xC0040 + 0x80 * i, 0, 8⟩
/-! CVU_FEEDEND (14_check_value_units.md) -/
def CVU_FEEDEND_word (i : Nat) : Field := ⟨0xC0044 + 0x80 * i, 0, 32⟩
def CVU_FEEDEND_END (i : Nat) : Field := ⟨0xC0044 + 0x80 * i, 0, 1⟩
/-! ACR_EPOCH (15_access_rules.md) -/
def ACR_EPOCH_word : Field := ⟨0xD0000, 0, 32⟩
def ACR_EPOCH_SWITCHING : Field := ⟨0xD0000, 31, 1⟩
def ACR_EPOCH_RESULT : Field := ⟨0xD0000, 24, 3⟩
def ACR_EPOCH_REGIONS : Field := ⟨0xD0000, 16, 8⟩
def ACR_EPOCH_EPOCH : Field := ⟨0xD0000, 0, 16⟩
/-! ACR_SWITCH (15_access_rules.md) -/
def ACR_SWITCH_word : Field := ⟨0xD0004, 0, 32⟩
def ACR_SWITCH_GO : Field := ⟨0xD0004, 0, 1⟩
/-! ACR_VIOLSTARTLO (15_access_rules.md) -/
def ACR_VIOLSTARTLO_word : Field := ⟨0xD0010, 0, 32⟩
def ACR_VIOLSTARTLO_ADDR : Field := ⟨0xD0010, 0, 32⟩
/-! ACR_VIOLFIRSTLO (15_access_rules.md) -/
def ACR_VIOLFIRSTLO_word : Field := ⟨0xD0018, 0, 32⟩
def ACR_VIOLFIRSTLO_ADDR : Field := ⟨0xD0018, 0, 32⟩
/-! ACR_VIOLSTARTHI (15_access_rules.md) -/
def ACR_VIOLSTARTHI_word : Field := ⟨0xD0014, 0, 32⟩
def ACR_VIOLSTARTHI_ADDR : Field := ⟨0xD0014, 0, 8⟩
/-! ACR_VIOLFIRSTHI (15_access_rules.md) -/
def ACR_VIOLFIRSTHI_word : Field := ⟨0xD001C, 0, 32⟩
def ACR_VIOLFIRSTHI_ADDR : Field := ⟨0xD001C, 0, 8⟩
/-! ACR_VIOLINFO (15_access_rules.md) -/
def ACR_VIOLINFO_word : Field := ⟨0xD0020, 0, 32⟩
def ACR_VIOLINFO_VALID : Field := ⟨0xD0020, 31, 1⟩
def ACR_VIOLINFO_CAUSE : Field := ⟨0xD0020, 24, 3⟩
def ACR_VIOLINFO_REGION : Field := ⟨0xD0020, 16, 8⟩
def ACR_VIOLINFO_KIND : Field := ⟨0xD0020, 8, 2⟩
def ACR_VIOLINFO_MASTER : Field := ⟨0xD0020, 0, 5⟩
/-! ACR_TALLY (15_access_rules.md) -/
def ACR_TALLY_word : Field := ⟨0xD0024, 0, 32⟩
def ACR_TALLY_VIOLATIONS : Field := ⟨0xD0024, 16, 16⟩
def ACR_TALLY_LOST : Field := ⟨0xD0024, 8, 8⟩
def ACR_TALLY_QUIET : Field := ⟨0xD0024, 0, 8⟩
/-! ENG_CTRL (16_engines_and_lamplighter.md) -/
def ENG_CTRL_word (i : Nat) : Field := ⟨0xE0000 + 0x100 * i, 0, 32⟩
def ENG_CTRL_RESUME (i : Nat) : Field := ⟨0xE0000 + 0x100 * i, 1, 1⟩
def ENG_CTRL_HALT (i : Nat) : Field := ⟨0xE0000 + 0x100 * i, 0, 1⟩
/-! ENG_STATE (16_engines_and_lamplighter.md) -/
def ENG_STATE_word (i : Nat) : Field := ⟨0xE0004 + 0x100 * i, 0, 32⟩
def ENG_STATE_FAILS (i : Nat) : Field := ⟨0xE0004 + 0x100 * i, 24, 4⟩
def ENG_STATE_TWIN (i : Nat) : Field := ⟨0xE0004 + 0x100 * i, 17, 1⟩
def ENG_STATE_OWN (i : Nat) : Field := ⟨0xE0004 + 0x100 * i, 16, 1⟩
def ENG_STATE_BEATLIMIT (i : Nat) : Field := ⟨0xE0004 + 0x100 * i, 8, 8⟩
def ENG_STATE_STATE (i : Nat) : Field := ⟨0xE0004 + 0x100 * i, 0, 4⟩
/-! ENG_BEAT (16_engines_and_lamplighter.md) -/
def ENG_BEAT_word (i : Nat) : Field := ⟨0xE0008 + 0x100 * i, 0, 32⟩
def ENG_BEAT_BEAT (i : Nat) : Field := ⟨0xE0008 + 0x100 * i, 0, 1⟩
/-! ENG_TIMECMPLO (16_engines_and_lamplighter.md) -/
def ENG_TIMECMPLO_word (i : Nat) : Field := ⟨0xE0010 + 0x100 * i, 0, 32⟩
def ENG_TIMECMPLO_NS (i : Nat) : Field := ⟨0xE0010 + 0x100 * i, 0, 32⟩
/-! ENG_TIMECMPHI (16_engines_and_lamplighter.md) -/
def ENG_TIMECMPHI_word (i : Nat) : Field := ⟨0xE0014 + 0x100 * i, 0, 32⟩
def ENG_TIMECMPHI_NS (i : Nat) : Field := ⟨0xE0014 + 0x100 * i, 0, 32⟩
/-! ENG_IRQEN (16_engines_and_lamplighter.md) -/
def ENG_IRQEN_word (i : Nat) : Field := ⟨0xE0018 + 0x100 * i, 0, 32⟩
def ENG_IRQEN_EN (i : Nat) : Field := ⟨0xE0018 + 0x100 * i, 0, 32⟩
/-! ENG_IRQPEND (16_engines_and_lamplighter.md) -/
def ENG_IRQPEND_word (i : Nat) : Field := ⟨0xE001C + 0x100 * i, 0, 32⟩
def ENG_IRQPEND_PEND (i : Nat) : Field := ⟨0xE001C + 0x100 * i, 0, 32⟩
/-! ENG_IRQCLAIM (16_engines_and_lamplighter.md) -/
def ENG_IRQCLAIM_word (i : Nat) : Field := ⟨0xE0020 + 0x100 * i, 0, 32⟩
def ENG_IRQCLAIM_SOURCE (i : Nat) : Field := ⟨0xE0020 + 0x100 * i, 0, 8⟩
/-! ENG_IRQOVR (16_engines_and_lamplighter.md) -/
def ENG_IRQOVR_word (i : Nat) : Field := ⟨0xE0024 + 0x100 * i, 0, 32⟩
def ENG_IRQOVR_OVR (i : Nat) : Field := ⟨0xE0024 + 0x100 * i, 0, 32⟩
/-! ENG_IRQTSLO (16_engines_and_lamplighter.md) -/
def ENG_IRQTSLO_word (i : Nat) : Field := ⟨0xE0028 + 0x100 * i, 0, 32⟩
def ENG_IRQTSLO_NS (i : Nat) : Field := ⟨0xE0028 + 0x100 * i, 0, 32⟩
/-! ENG_IRQTSHI (16_engines_and_lamplighter.md) -/
def ENG_IRQTSHI_word (i : Nat) : Field := ⟨0xE002C + 0x100 * i, 0, 32⟩
def ENG_IRQTSHI_NS (i : Nat) : Field := ⟨0xE002C + 0x100 * i, 0, 32⟩
/-! ENG_SWI (16_engines_and_lamplighter.md) -/
def ENG_SWI_word (i : Nat) : Field := ⟨0xE0030 + 0x100 * i, 0, 32⟩
def ENG_SWI_MSIP (i : Nat) : Field := ⟨0xE0030 + 0x100 * i, 0, 1⟩
/-! ENG_FAULT (16_engines_and_lamplighter.md) -/
def ENG_FAULT_word (i : Nat) : Field := ⟨0xE0034 + 0x100 * i, 0, 32⟩
def ENG_FAULT_ORIGIN (i : Nat) : Field := ⟨0xE0034 + 0x100 * i, 20, 4⟩
def ENG_FAULT_ACRCAUSE (i : Nat) : Field := ⟨0xE0034 + 0x100 * i, 16, 4⟩
def ENG_FAULT_MCAUSE (i : Nat) : Field := ⟨0xE0034 + 0x100 * i, 0, 8⟩
/-! ENG_FAULTADDR (16_engines_and_lamplighter.md) -/
def ENG_FAULTADDR_word (i : Nat) : Field := ⟨0xE0038 + 0x100 * i, 0, 32⟩
def ENG_FAULTADDR_ADDR (i : Nat) : Field := ⟨0xE0038 + 0x100 * i, 0, 32⟩
/-! ENG_SUPV (16_engines_and_lamplighter.md) -/
def ENG_SUPV_word : Field := ⟨0xE0800, 0, 32⟩
def ENG_SUPV_LMPSTOP : Field := ⟨0xE0800, 31, 1⟩
def ENG_SUPV_BATONAGE : Field := ⟨0xE0800, 16, 8⟩
def ENG_SUPV_TWINOF : Field := ⟨0xE0800, 8, 4⟩
def ENG_SUPV_FAILED : Field := ⟨0xE0800, 0, 4⟩
/-! LMP_STATUS (16_engines_and_lamplighter.md) -/
def LMP_STATUS_word : Field := ⟨0x0, 0, 32⟩
def LMP_STATUS_HEART : Field := ⟨0x0, 24, 8⟩
def LMP_STATUS_LIVEOK : Field := ⟨0x0, 19, 1⟩
def LMP_STATUS_HOLD1 : Field := ⟨0x0, 18, 1⟩
def LMP_STATUS_HOLD0 : Field := ⟨0x0, 17, 1⟩
def LMP_STATUS_KICK1 : Field := ⟨0x0, 5, 1⟩
def LMP_STATUS_KICK0 : Field := ⟨0x0, 4, 1⟩
def LMP_STATUS_STATE : Field := ⟨0x0, 0, 4⟩
/-! LMP_LIVE (16_engines_and_lamplighter.md) -/
def LMP_LIVE_word : Field := ⟨0x4, 0, 32⟩
def LMP_LIVE_HOLDOFF : Field := ⟨0x4, 7, 1⟩
def LMP_LIVE_KEYOPEN : Field := ⟨0x4, 6, 1⟩
def LMP_LIVE_GRANT : Field := ⟨0x4, 5, 1⟩
def LMP_LIVE_H1BAD : Field := ⟨0x4, 4, 1⟩
def LMP_LIVE_H0BAD : Field := ⟨0x4, 3, 1⟩
def LMP_LIVE_NOTRUNNING : Field := ⟨0x4, 2, 1⟩
def LMP_LIVE_LIVE : Field := ⟨0x4, 0, 1⟩
/-! LMP_REST (16_engines_and_lamplighter.md) -/
def LMP_REST_word : Field := ⟨0x8, 0, 32⟩
def LMP_REST_KEY : Field := ⟨0x8, 24, 8⟩
def LMP_REST_GO : Field := ⟨0x8, 0, 1⟩
/-! LMP_WAKE (16_engines_and_lamplighter.md) -/
def LMP_WAKE_word : Field := ⟨0xC, 0, 32⟩
def LMP_WAKE_TIMER : Field := ⟨0xC, 16, 16⟩
def LMP_WAKE_CAUSE : Field := ⟨0xC, 8, 8⟩
def LMP_WAKE_TOUCHEN : Field := ⟨0xC, 1, 1⟩
def LMP_WAKE_KEYEN : Field := ⟨0xC, 0, 1⟩
/-! HST_CTRL (17_host_access.md) -/
def HST_CTRL_word : Field := ⟨0xF0000, 0, 32⟩
def HST_CTRL_MGTEN : Field := ⟨0xF0000, 1, 1⟩
def HST_CTRL_IRQEN : Field := ⟨0xF0000, 0, 1⟩
/-! HST_SESSION (17_host_access.md) -/
def HST_SESSION_word : Field := ⟨0xF0004, 0, 32⟩
def HST_SESSION_SESSION : Field := ⟨0xF0004, 0, 16⟩
/-! HST_SVCSTAT (17_host_access.md) -/
def HST_SVCSTAT_word : Field := ⟨0xF0008, 0, 32⟩
def HST_SVCSTAT_QUEUE : Field := ⟨0xF0008, 24, 8⟩
def HST_SVCSTAT_UNACKED : Field := ⟨0xF0008, 16, 8⟩
def HST_SVCSTAT_OSEQ : Field := ⟨0xF0008, 8, 8⟩
def HST_SVCSTAT_RACK : Field := ⟨0xF0008, 0, 8⟩
/-! HST_SVCTALLY (17_host_access.md) -/
def HST_SVCTALLY_word : Field := ⟨0xF000C, 0, 32⟩
def HST_SVCTALLY_CRCERR : Field := ⟨0xF000C, 24, 8⟩
def HST_SVCTALLY_BADFRAME : Field := ⟨0xF000C, 16, 8⟩
def HST_SVCTALLY_RESENDS : Field := ⟨0xF000C, 8, 8⟩
def HST_SVCTALLY_EVDROP : Field := ⟨0xF000C, 0, 8⟩
/-! HST_MGTTALLY (17_host_access.md) -/
def HST_MGTTALLY_word : Field := ⟨0xF0010, 0, 32⟩
def HST_MGTTALLY_REQS : Field := ⟨0xF0010, 16, 16⟩
def HST_MGTTALLY_NOROUTE : Field := ⟨0xF0010, 8, 8⟩
def HST_MGTTALLY_DISCARD : Field := ⟨0xF0010, 0, 8⟩
/-! HST_LOAD (17_host_access.md) -/
def HST_LOAD_word : Field := ⟨0xF0014, 0, 32⟩
def HST_LOAD_SUBS : Field := ⟨0xF0014, 16, 5⟩
def HST_LOAD_OUTSTANDING : Field := ⟨0xF0014, 0, 11⟩
/-! HST_ESEND (17_host_access.md) -/
def HST_ESEND_word (i : Nat) : Field := ⟨0xF1100 + 0x400 * i, 0, 32⟩
def HST_ESEND_GO (i : Nat) : Field := ⟨0xF1100 + 0x400 * i, 0, 1⟩
/-! HST_ESTAT (17_host_access.md) -/
def HST_ESTAT_word (i : Nat) : Field := ⟨0xF1104 + 0x400 * i, 0, 32⟩
def HST_ESTAT_INCOUNT (i : Nat) : Field := ⟨0xF1104 + 0x400 * i, 16, 8⟩
def HST_ESTAT_BUSY (i : Nat) : Field := ⟨0xF1104 + 0x400 * i, 8, 1⟩
def HST_ESTAT_RESULT (i : Nat) : Field := ⟨0xF1104 + 0x400 * i, 0, 3⟩
/-! HST_EPOP (17_host_access.md) -/
def HST_EPOP_word (i : Nat) : Field := ⟨0xF1300 + 0x400 * i, 0, 32⟩
def HST_EPOP_POP (i : Nat) : Field := ⟨0xF1300 + 0x400 * i, 0, 1⟩
/-! TCH_CTRL (18_touch_and_operator_inputs.md) -/
def TCH_CTRL_word : Field := ⟨0x100000, 0, 32⟩
def TCH_CTRL_SCAN : Field := ⟨0x100000, 0, 1⟩
/-! TCH_STATUS (18_touch_and_operator_inputs.md) -/
def TCH_STATUS_word : Field := ⟨0x100004, 0, 32⟩
def TCH_STATUS_STARTNODES : Field := ⟨0x100004, 16, 16⟩
def TCH_STATUS_CONTACTS : Field := ⟨0x100004, 8, 5⟩
def TCH_STATUS_OVERFLOW : Field := ⟨0x100004, 6, 1⟩
def TCH_STATUS_WET : Field := ⟨0x100004, 5, 1⟩
def TCH_STATUS_NOMAP : Field := ⟨0x100004, 4, 1⟩
def TCH_STATUS_STATE : Field := ⟨0x100004, 0, 4⟩
/-! TCH_FRAME (18_touch_and_operator_inputs.md) -/
def TCH_FRAME_word : Field := ⟨0x100008, 0, 32⟩
def TCH_FRAME_FRAME : Field := ⟨0x100008, 0, 32⟩
/-! TCH_RING (18_touch_and_operator_inputs.md) -/
def TCH_RING_word : Field := ⟨0x10000C, 0, 32⟩
def TCH_RING_BASE : Field := ⟨0x10000C, 0, 9⟩
/-! TCH_RINGPTR (18_touch_and_operator_inputs.md) -/
def TCH_RINGPTR_word : Field := ⟨0x100010, 0, 32⟩
def TCH_RINGPTR_RD : Field := ⟨0x100010, 16, 6⟩
def TCH_RINGPTR_WR : Field := ⟨0x100010, 0, 6⟩
/-! TCH_TALLY (18_touch_and_operator_inputs.md) -/
def TCH_TALLY_word : Field := ⟨0x100014, 0, 32⟩
def TCH_TALLY_DROPPED : Field := ⟨0x100014, 24, 8⟩
def TCH_TALLY_REFUSED : Field := ⟨0x100014, 16, 8⟩
def TCH_TALLY_WATER : Field := ⟨0x100014, 8, 8⟩
def TCH_TALLY_EXTRA : Field := ⟨0x100014, 0, 8⟩
/-! TCH_NODESEL (18_touch_and_operator_inputs.md) -/
def TCH_NODESEL_word : Field := ⟨0x100018, 0, 32⟩
def TCH_NODESEL_SELF : Field := ⟨0x100018, 15, 1⟩
def TCH_NODESEL_ROW : Field := ⟨0x100018, 8, 6⟩
def TCH_NODESEL_COL : Field := ⟨0x100018, 0, 7⟩
/-! TCH_NODEVAL (18_touch_and_operator_inputs.md) -/
def TCH_NODEVAL_word : Field := ⟨0x10001C, 0, 32⟩
def TCH_NODEVAL_BASE : Field := ⟨0x10001C, 16, 16⟩
def TCH_NODEVAL_RAW : Field := ⟨0x10001C, 0, 16⟩
/-! KEY_STATE (18_touch_and_operator_inputs.md) -/
def KEY_STATE_word : Field := ⟨0x100, 0, 32⟩
def KEY_STATE_STUCK : Field := ⟨0x100, 16, 16⟩
def KEY_STATE_PRESSED : Field := ⟨0x100, 0, 16⟩
/-! KEY_CHATTER (18_touch_and_operator_inputs.md) -/
def KEY_CHATTER_word : Field := ⟨0x104, 0, 32⟩
def KEY_CHATTER_CHATTER : Field := ⟨0x104, 0, 16⟩
/-! KEY_EVENT (18_touch_and_operator_inputs.md) -/
def KEY_EVENT_word : Field := ⟨0x108, 0, 32⟩
def KEY_EVENT_VALID : Field := ⟨0x108, 31, 1⟩
def KEY_EVENT_KIND : Field := ⟨0x108, 28, 3⟩
def KEY_EVENT_KEY : Field := ⟨0x108, 24, 4⟩
def KEY_EVENT_LEVEL : Field := ⟨0x108, 17, 1⟩
def KEY_EVENT_STUCKFLAG : Field := ⟨0x108, 16, 1⟩
def KEY_EVENT_TIME : Field := ⟨0x108, 0, 16⟩
/-! KEY_LAMP (18_touch_and_operator_inputs.md) -/
def KEY_LAMP_word : Field := ⟨0x10C, 0, 32⟩
def KEY_LAMP_LIVE : Field := ⟨0x10C, 16, 8⟩
def KEY_LAMP_BLINK : Field := ⟨0x10C, 8, 8⟩
def KEY_LAMP_ON : Field := ⟨0x10C, 0, 8⟩
/-! KEY_GANGCTRL (18_touch_and_operator_inputs.md) -/
def KEY_GANGCTRL_word : Field := ⟨0x110, 0, 32⟩
def KEY_GANGCTRL_TH : Field := ⟨0x110, 24, 8⟩
def KEY_GANGCTRL_PERIOD : Field := ⟨0x110, 8, 12⟩
def KEY_GANGCTRL_GROUPS : Field := ⟨0x110, 0, 3⟩
/-! KEY_GANGSTAT (18_touch_and_operator_inputs.md) -/
def KEY_GANGSTAT_word : Field := ⟨0x114, 0, 32⟩
def KEY_GANGSTAT_NOSUPPLY : Field := ⟨0x114, 31, 1⟩
def KEY_GANGSTAT_DETECT : Field := ⟨0x114, 16, 3⟩
def KEY_GANGSTAT_SCANS : Field := ⟨0x114, 0, 16⟩
/-! KEY_TALLY (18_touch_and_operator_inputs.md) -/
def KEY_TALLY_word : Field := ⟨0x118, 0, 32⟩
def KEY_TALLY_CHATTERS : Field := ⟨0x118, 8, 8⟩
def KEY_TALLY_EVDROP : Field := ⟨0x118, 0, 8⟩
/-! KEY_CFG (18_touch_and_operator_inputs.md) -/
def KEY_CFG_word (i : Nat) : Field := ⟨0x140 + 0x4 * i, 0, 32⟩
def KEY_CFG_LIMIT (i : Nat) : Field := ⟨0x140 + 0x4 * i, 16, 16⟩
def KEY_CFG_WAKE (i : Nat) : Field := ⟨0x140 + 0x4 * i, 1, 1⟩
def KEY_CFG_ACTLOW (i : Nat) : Field := ⟨0x140 + 0x4 * i, 0, 1⟩
/-! FLT_HEAD (19_faults_and_degraded_operation.md) -/
def FLT_HEAD_word : Field := ⟨0x140000, 0, 32⟩
def FLT_HEAD_SEQ : Field := ⟨0x140000, 0, 32⟩
/-! FLT_STATUS (19_faults_and_degraded_operation.md) -/
def FLT_STATUS_word : Field := ⟨0x140004, 0, 32⟩
def FLT_STATUS_WRAPPED : Field := ⟨0x140004, 31, 1⟩
def FLT_STATUS_MIRROR : Field := ⟨0x140004, 16, 8⟩
def FLT_STATUS_LMPQ : Field := ⟨0x140004, 8, 4⟩
def FLT_STATUS_NEXT : Field := ⟨0x140004, 0, 8⟩
/-! FLT_CLASS (19_faults_and_degraded_operation.md) -/
def FLT_CLASS_word (i : Nat) : Field := ⟨0x140010 + 0x4 * i, 0, 32⟩
def FLT_CLASS_C3 (i : Nat) : Field := ⟨0x140010 + 0x4 * i, 24, 8⟩
def FLT_CLASS_C2 (i : Nat) : Field := ⟨0x140010 + 0x4 * i, 16, 8⟩
def FLT_CLASS_C1 (i : Nat) : Field := ⟨0x140010 + 0x4 * i, 8, 8⟩
def FLT_CLASS_C0 (i : Nat) : Field := ⟨0x140010 + 0x4 * i, 0, 8⟩
/-! FLT_SWBUF (19_faults_and_degraded_operation.md) -/
def FLT_SWBUF_word (i : Nat) : Field := ⟨0x140100 + 0x4 * i, 0, 32⟩
def FLT_SWBUF_BYTES (i : Nat) : Field := ⟨0x140100 + 0x4 * i, 0, 32⟩
/-! FLT_SWADD (19_faults_and_degraded_operation.md) -/
def FLT_SWADD_word : Field := ⟨0x140130, 0, 32⟩
def FLT_SWADD_GO : Field := ⟨0x140130, 0, 1⟩
/-! HST_EOUT (17_host_access.md) -/
def HST_EOUT_word (i : Nat) (j : Nat) : Field := ⟨0xF1000 + 0x400 * i + 0x4 * j, 0, 32⟩
def HST_EOUT_BYTES (i : Nat) (j : Nat) : Field := ⟨0xF1000 + 0x400 * i + 0x4 * j, 0, 32⟩
/-! ACR_BASE (15_access_rules.md) -/
def ACR_BASE_word (i : Nat) : Field := ⟨0xD0100 + 0x10 * i, 0, 32⟩
def ACR_BASE_PAGE (i : Nat) : Field := ⟨0xD0100 + 0x10 * i, 0, 28⟩
/-! ACR_PAGES (15_access_rules.md) -/
def ACR_PAGES_word (i : Nat) : Field := ⟨0xD0104 + 0x10 * i, 0, 32⟩
def ACR_PAGES_COUNT (i : Nat) : Field := ⟨0xD0104 + 0x10 * i, 0, 29⟩
/-! ACR_RMASK (15_access_rules.md) -/
def ACR_RMASK_word (i : Nat) : Field := ⟨0xD0108 + 0x10 * i, 0, 32⟩
def ACR_RMASK_MASK (i : Nat) : Field := ⟨0xD0108 + 0x10 * i, 0, 32⟩
/-! ACR_WMASK (15_access_rules.md) -/
def ACR_WMASK_word (i : Nat) : Field := ⟨0xD010C + 0x10 * i, 0, 32⟩
def ACR_WMASK_MASK (i : Nat) : Field := ⟨0xD010C + 0x10 * i, 0, 32⟩
/-! ACR_SHBASE (15_access_rules.md) -/
def ACR_SHBASE_word (i : Nat) : Field := ⟨0xD0500 + 0x10 * i, 0, 32⟩
def ACR_SHBASE_PAGE (i : Nat) : Field := ⟨0xD0500 + 0x10 * i, 0, 28⟩
/-! ACR_SHPAGES (15_access_rules.md) -/
def ACR_SHPAGES_word (i : Nat) : Field := ⟨0xD0504 + 0x10 * i, 0, 32⟩
def ACR_SHPAGES_COUNT (i : Nat) : Field := ⟨0xD0504 + 0x10 * i, 0, 29⟩
/-! ACR_SHRMASK (15_access_rules.md) -/
def ACR_SHRMASK_word (i : Nat) : Field := ⟨0xD0508 + 0x10 * i, 0, 32⟩
def ACR_SHRMASK_MASK (i : Nat) : Field := ⟨0xD0508 + 0x10 * i, 0, 32⟩
/-! ACR_SHWMASK (15_access_rules.md) -/
def ACR_SHWMASK_word (i : Nat) : Field := ⟨0xD050C + 0x10 * i, 0, 32⟩
def ACR_SHWMASK_MASK (i : Nat) : Field := ⟨0xD050C + 0x10 * i, 0, 32⟩

end F

end Sys2Proof.Machine
end

