-- ==== Sys2Proof/Machine/RegTable.lean ====
section
/-!
DEFINITION. The register index of R432 as data: for every register of the module its offset within the register space of
its half (or, for the lamplighter, its offset from 0x01_0200_0000), the stride and number of its copies, its reset value
and, per access code of R6, the mask of the bits that carry the code. A bit in no mask is read only for a write (RO), acts
as its register describes (WO) or is reserved (R9). Taken from the register tables of the chapters that R432 names.
-/
namespace Sys2Proof.Machine

/-- One row of the register index (R432): `count` copies, `stride` bytes apart, from `base`. -/
structure RegSpec where
  base   : Nat
  stride : Nat
  count  : Nat
  reset  : Word
  /-- bits of access code RW -/
  rw     : Word
  /-- bits of access code W1C -/
  w1c    : Word
  /-- bits of access code W1S -/
  w1s    : Word
  /-- bits of access code RWS, sealed from RUNNING (R7, R8) -/
  rws    : Word
  deriving DecidableEq, Repr

/-- Registers of the SYS block (chapter 01, 06). -/
def sysRegs : List RegSpec :=
  [⟨0x0, 0x4, 1, 0x48160100, 0x0, 0x0, 0x0, 0x0⟩,  -- SYS_ID
   ⟨0x4, 0x4, 1, 0x2, 0x0, 0x0, 0x0, 0x0⟩,  -- SYS_HALF
   ⟨0xC, 0x4, 1, 0x0, 0x0, 0x0, 0x0, 0x0⟩,  -- SYS_SEALTALLY
   ⟨0x10, 0x4, 1, 0x0, 0x0, 0xFF, 0x0, 0x0⟩,  -- SYS_XOVR
   ⟨0x14, 0x4, 1, 0x0, 0x0, 0xFFFF, 0x0, 0x0⟩]  -- SYS_XDISC

/-- Registers of the LNK block (chapter 01). -/
def lnkRegs : List RegSpec :=
  [⟨0x130000, 0x4, 1, 0x0, 0x0, 0x0, 0x0, 0x0⟩,  -- LNK_STATUS
   ⟨0x130004, 0x4, 1, 0x0, 0x0, 0x0, 0x0, 0x0⟩,  -- LNK_LOAD
   ⟨0x130008, 0x4, 1, 0x0, 0x0, 0xFFFF, 0x0, 0x0⟩]  -- LNK_TALLY

/-- Registers of the RST block (chapter 03). -/
def rstRegs : List RegSpec :=
  [⟨0x10000, 0x4, 1, 0x0, 0x0, 0x0, 0x0, 0x0⟩,  -- RST_STATE
   ⟨0x10004, 0x4, 1, 0x0, 0x0, 0x0, 0x0, 0x0⟩,  -- RST_STRAP
   ⟨0x10008, 0x4, 1, 0x0, 0x0, 0x1FFFE, 0x0, 0x0⟩,  -- RST_CAUSE
   ⟨0x1000C, 0x4, 1, 0x0, 0x0, 0x0, 0x0, 0x0⟩,  -- RST_CMD
   ⟨0x10010, 0x4, 1, 0x0, 0x0, 0x0, 0x0, 0x0⟩,  -- RST_WDOG
   ⟨0x10014, 0x4, 1, 0x0, 0x0, 0x0, 0x3FF, 0x0⟩,  -- RST_BLKRST
   ⟨0x10018, 0x4, 1, 0x0, 0x0, 0x0, 0x0, 0x0⟩,  -- RST_BLKSTAT
   ⟨0x1001C, 0x4, 1, 0x0, 0x0, 0x0, 0x0, 0x0⟩,  -- RST_IDLE
   ⟨0x10020, 0x4, 1, 0x0, 0x0, 0x0, 0x0, 0x0⟩,  -- RST_QUAL
   ⟨0x10024, 0x4, 1, 0x0, 0x0, 0xFFFF, 0x0, 0x0⟩,  -- RST_QUALFAIL
   ⟨0x10040, 0x4, 12, 0xFFFF, 0x0, 0x0, 0x0, 0x0⟩]  -- RST_STEPTIME

/-- Registers of the LDR block (chapter 04). -/
def ldrRegs : List RegSpec :=
  [⟨0x20000, 0x4, 1, 0x0, 0x0, 0x0, 0x0, 0x0⟩,  -- LDR_STATUS
   ⟨0x20004, 0x4, 1, 0x101, 0x0, 0x0, 0x0, 0x0⟩,  -- LDR_SLOTCODE
   ⟨0x20008, 0x4, 1, 0x0, 0x0, 0x0, 0x0, 0x0⟩,  -- LDR_SERIALA
   ⟨0x2000C, 0x4, 1, 0x0, 0x0, 0x0, 0x0, 0x0⟩,  -- LDR_SERIALB
   ⟨0x20010, 0x4, 1, 0x0, 0x0, 0x0, 0x0, 0x0⟩,  -- LDR_FLASH
   ⟨0x20014, 0x4, 1, 0x0, 0x0, 0x0, 0x0, 0x0⟩,  -- LDR_LIMIT
   ⟨0x20018, 0x4, 1, 0x0, 0x0, 0x0, 0x0, 0x0⟩,  -- LDR_FAIL
   ⟨0x2001C, 0x4, 1, 0x0, 0x0, 0x0, 0x0, 0x0⟩,  -- LDR_FAILOFS
   ⟨0x20020, 0x4, 1, 0x0, 0x0, 0x0, 0x0, 0x0⟩,  -- LDR_SUBST
   ⟨0x20024, 0x4, 1, 0x0, 0x0, 0x0, 0x0, 0x0⟩,  -- LDR_TAPSUB
   ⟨0x20028, 0x4, 1, 0x0, 0x0, 0x0, 0x0, 0x0⟩,  -- LDR_DESIGN
   ⟨0x20040, 0x4, 8, 0x0, 0x0, 0x0, 0x0, 0x0⟩]  -- LDR_KEYHASH

/-- Registers of the LANE block (chapter 05). -/
def laneRegs : List RegSpec :=
  [⟨0x30000, 0x800, 24, 0x0, 0x903, 0x0, 0x0, 0x0⟩,  -- LANE_CTRL
   ⟨0x30004, 0x800, 24, 0x1F00000, 0x0, 0x80000000, 0x0, 0x0⟩,  -- LANE_STATUS
   ⟨0x30008, 0x800, 24, 0xFF, 0xF77003FF, 0x0, 0x0, 0x0⟩,  -- LANE_EQ
   ⟨0x3000C, 0x800, 24, 0x0, 0x0, 0x0, 0x0, 0x0⟩,  -- LANE_DFE
   ⟨0x30010, 0x800, 24, 0x3FFF, 0x0, 0x0, 0x0, 0x0⟩,  -- LANE_PEER
   ⟨0x30020, 0x800, 24, 0x0, 0xFF, 0x0, 0x0, 0x0⟩,  -- LANE_PATTERN
   ⟨0x30024, 0x800, 24, 0x0, 0xFFFFFFFF, 0x0, 0x0, 0x0⟩,  -- LANE_PATUSR0
   ⟨0x30028, 0x800, 24, 0x0, 0xFFFFFFFF, 0x0, 0x0, 0x0⟩,  -- LANE_PATUSR1
   ⟨0x3002C, 0x800, 24, 0x10000, 0x7F0F00, 0x0, 0x0, 0x0⟩,  -- LANE_INJECT
   ⟨0x30030, 0x800, 24, 0x0, 0x0, 0xFFFFFFFF, 0x0, 0x0⟩,  -- LANE_CHKERR
   ⟨0x30034, 0x800, 24, 0x0, 0x0, 0x0, 0x0, 0x0⟩,  -- LANE_CHKBITS
   ⟨0x30040, 0x800, 24, 0x0, 0x0, 0xFFFFFFFF, 0x0, 0x0⟩,  -- LANE_TALLY0
   ⟨0x30044, 0x800, 24, 0x0, 0x0, 0xFFFFFFFF, 0x0, 0x0⟩,  -- LANE_TALLY1
   ⟨0x30050, 0x800, 24, 0x0, 0x0, 0xFFFFFF00, 0x0, 0x0⟩,  -- LANE_SDI
   ⟨0x30054, 0x800, 24, 0x0, 0x0, 0x0, 0x0, 0x0⟩]  -- LANE_SDIPID

/-- Registers of the PACE block (chapter 06). -/
def paceRegs : List RegSpec :=
  [⟨0x120000, 0x4, 1, 0x0, 0x0, 0x0, 0x0, 0x0⟩,  -- PACE_NOW01
   ⟨0x120004, 0x4, 1, 0x0, 0x0, 0x0, 0x0, 0x0⟩,  -- PACE_NOW23
   ⟨0x120008, 0x4, 1, 0x0, 0x0, 0x0, 0x0, 0x0⟩,  -- PACE_HALF
   ⟨0x12000C, 0x4, 1, 0x50, 0x0, 0x0, 0x0, 0x0⟩,  -- PACE_REG
   ⟨0x120010, 0x4, 1, 0x0, 0x0, 0x0, 0x0, 0x0⟩,  -- PACE_SHED
   ⟨0x120014, 0x4, 1, 0x47E0050, 0x0, 0x0, 0x0, 0xFFF007F⟩,  -- PACE_CTRL
   ⟨0x120018, 0x4, 1, 0x0, 0x0, 0xFF00FFFF, 0x0, 0x0⟩,  -- PACE_TALLY
   ⟨0x12001C, 0x4, 1, 0xFFFFFFF, 0x0, 0x0, 0x0, 0x0⟩]  -- PACE_LOW

/-- Registers of the INK block (chapter 07). -/
def inkRegs : List RegSpec :=
  [⟨0x40000, 0x4, 1, 0x0, 0x0, 0xFFFF, 0x0, 0x0⟩,  -- INK_GTALLY
   ⟨0x41000, 0x40, 48, 0x0, 0x0, 0x0, 0x0, 0x0⟩,  -- INK_SDESC
   ⟨0x41004, 0x40, 48, 0x0, 0x1, 0x0, 0x0, 0xFF00⟩,  -- INK_SCTRL
   ⟨0x41008, 0x40, 48, 0xC0000A, 0x0, 0x0, 0x0, 0x0⟩,  -- INK_SSTAT
   ⟨0x4100C, 0x40, 48, 0x0, 0x0, 0x0, 0x0, 0x0⟩,  -- INK_SSEQ
   ⟨0x41010, 0x40, 48, 0x0, 0x0, 0x0, 0x0, 0x0⟩,  -- INK_SCAPLO
   ⟨0x41014, 0x40, 48, 0x0, 0x0, 0x0, 0x0, 0x0⟩,  -- INK_SCAPHI
   ⟨0x41018, 0x40, 48, 0x0, 0x0, 0x0, 0x0, 0x0⟩,  -- INK_SARRLO
   ⟨0x4101C, 0x40, 48, 0x0, 0x0, 0x0, 0x0, 0x0⟩,  -- INK_SARRHI
   ⟨0x41020, 0x40, 48, 0x0, 0x0, 0x0, 0x0, 0x0⟩,  -- INK_SFCRC
   ⟨0x41024, 0x40, 48, 0x0, 0x0, 0xFFFFFFFF, 0x0, 0x0⟩,  -- INK_STALLY0
   ⟨0x41028, 0x40, 48, 0x0, 0x0, 0xFFFFFFFF, 0x0, 0x0⟩,  -- INK_STALLY1
   ⟨0x4102C, 0x40, 48, 0x0, 0x0, 0xFFFF, 0x0, 0x0⟩]  -- INK_STALLY2

/-- Registers of the FST block (chapter 07). -/
def fstRegs : List RegSpec :=
  [⟨0x50000, 0x4, 1, 0x0, 0x0, 0x0, 0x0, 0x0⟩,  -- FST_CHMAP
   ⟨0x50004, 0x4, 1, 0x0, 0x0, 0xFFFFFFFF, 0x0, 0x0⟩,  -- FST_ECC
   ⟨0x50008, 0x4, 1, 0x0, 0x0, 0x80000000, 0x0, 0x0⟩,  -- FST_ECCADDR
   ⟨0x5000C, 0x4, 1, 0x10000, 0x0, 0x0, 0x0, 0x10000⟩,  -- FST_SCRUB
   ⟨0x50010, 0x4, 4, 0x0, 0x1, 0x0, 0x0, 0x0⟩]  -- FST_WINBASE

/-- Registers of the RBK block (chapter 08). -/
def rbkRegs : List RegSpec :=
  [⟨0x60000, 0x4, 1, 0x0, 0x0, 0x0, 0x0, 0x0⟩,  -- RBK_SCENE
   ⟨0x60004, 0x4, 1, 0x0, 0x0, 0x0, 0x0, 0x0⟩,  -- RBK_LAP
   ⟨0x60008, 0x4, 1, 0x0, 0x0, 0x0, 0x0, 0x0⟩,  -- RBK_SWITCHLAP
   ⟨0x6000C, 0x4, 1, 0x0, 0x0, 0x0, 0x0, 0x0⟩,  -- RBK_SCENESEL
   ⟨0x60010, 0x4, 1, 0x0, 0x0, 0x0, 0x0, 0x0⟩,  -- RBK_SELSTAT
   ⟨0x60014, 0x4, 1, 0x3, 0x0, 0x0, 0x0, 0x0⟩,  -- RBK_SET
   ⟨0x60018, 0x4, 1, 0x0, 0x0, 0x0, 0x0, 0x0⟩,  -- RBK_LAPWORK
   ⟨0x6001C, 0x4, 1, 0x0, 0x0, 0x0, 0x0, 0x0⟩,  -- RBK_VARIANTS0
   ⟨0x60020, 0x4, 1, 0x0, 0x0, 0x0, 0x0, 0x0⟩,  -- RBK_VARIANTS1
   ⟨0x60024, 0x4, 1, 0x0, 0x0, 0x0, 0x0, 0x0⟩,  -- RBK_TAGS
   ⟨0x60028, 0x4, 1, 0x0, 0x0, 0x0, 0x0, 0x0⟩,  -- RBK_FETCHLOC
   ⟨0x6002C, 0x4, 1, 0x0, 0x0, 0x0, 0x0, 0x0⟩,  -- RBK_FETCHX
   ⟨0x60030, 0x4, 1, 0x0, 0x0, 0xFFFF, 0x0, 0x0⟩,  -- RBK_NOTREADY
   ⟨0x60034, 0x4, 1, 0x0, 0x0, 0xFFFFFFFF, 0x0, 0x0⟩]  -- RBK_TALLY

/-- Registers of the CMP block (chapter 09). -/
def cmpRegs : List RegSpec :=
  [⟨0x70000, 0x4, 1, 0x0, 0x0, 0x0, 0x0, 0x0⟩,  -- CMP_GSEL
   ⟨0x70004, 0x4, 1, 0x0, 0x0, 0x0, 0x0, 0x0⟩,  -- CMP_GSELSTAT
   ⟨0x70010, 0x4, 8, 0x0, 0x0, 0x0, 0x0, 0x0⟩,  -- CMP_GLAYER
   ⟨0x70030, 0x4, 1, 0x0, 0x0, 0xFFFFFFFF, 0x0, 0x0⟩,  -- CMP_UNDERRUN
   ⟨0x70034, 0x4, 1, 0x0, 0x0, 0xFFFF, 0x0, 0x0⟩,  -- CMP_PATCHK
   ⟨0x70040, 0x4, 1, 0x0, 0x0, 0x0, 0x0, 0x0⟩,  -- CMP_WATCHDIS0
   ⟨0x70044, 0x4, 1, 0x0, 0x0, 0x0, 0x0, 0x0⟩,  -- CMP_WATCHDIS1
   ⟨0x70048, 0x4, 1, 0xFFFFFFFF, 0x0, 0x0, 0x0, 0xFFFFFFFF⟩,  -- CMP_WATCHEN0
   ⟨0x7004C, 0x4, 1, 0xFFFFFFFF, 0x0, 0x0, 0x0, 0xFFFFFFFF⟩,  -- CMP_WATCHEN1
   ⟨0x70050, 0x4, 1, 0x0, 0x0, 0x0, 0x0, 0x0⟩,  -- CMP_WATCHOWN0
   ⟨0x70054, 0x4, 1, 0x0, 0x0, 0x0, 0x0, 0x0⟩,  -- CMP_WATCHOWN1
   ⟨0x70058, 0x4, 1, 0x0, 0x0, 0xFFFFFFFF, 0x0, 0x0⟩,  -- CMP_WATCHFAIL0
   ⟨0x7005C, 0x4, 1, 0x0, 0x0, 0xFFFFFFFF, 0x0, 0x0⟩,  -- CMP_WATCHFAIL1
   ⟨0x70060, 0x4, 1, 0x0, 0x3F, 0x0, 0x0, 0x0⟩,  -- CMP_WATCHSEL
   ⟨0x70064, 0x4, 1, 0x0, 0x0, 0x0, 0x0, 0x0⟩,  -- CMP_WATCHLAST
   ⟨0x70068, 0x4, 1, 0x0, 0x0, 0x0, 0x0, 0x0⟩,  -- CMP_WATCHEXP
   ⟨0x7006C, 0x4, 1, 0x0, 0x0, 0x0, 0x0, 0x0⟩,  -- CMP_WATCHSTAT
   ⟨0x70070, 0x4, 1, 0x0, 0x0, 0xFFFFFFFF, 0x0, 0x0⟩]  -- CMP_WATCHTALLY

/-- Registers of the COEF block (chapter 09). -/
def coefRegs : List RegSpec :=
  [⟨0x500000, 0x4, 64, 0x0, 0x0, 0x0, 0x0, 0x0⟩,  -- COEF_DESC
   ⟨0x500100, 0x4, 8, 0x0, 0x0, 0x0, 0x0, 0x0⟩]  -- COEF_MDESC

/-- Registers of the AGE block (chapter 10). -/
def ageRegs : List RegSpec :=
  [⟨0x80000, 0x4, 1, 0x3E8, 0x80000000, 0x0, 0x0, 0xFFFF⟩,  -- AGE_CTRL
   ⟨0x80004, 0x4, 1, 0x0, 0x0, 0x0, 0x0, 0x0⟩,  -- AGE_SCANOUT
   ⟨0x80008, 0x4, 1, 0x0, 0x0, 0x0, 0x0, 0x0⟩,  -- AGE_PERIOD
   ⟨0x8000C, 0x4, 1, 0x0, 0x0, 0x0, 0x0, 0x0⟩,  -- AGE_FLIPDECL
   ⟨0x80010, 0x4, 1, 0x0, 0x0, 0x0, 0x0, 0x0⟩,  -- AGE_APPLYLO
   ⟨0x80014, 0x4, 1, 0x0, 0x0, 0x0, 0x0, 0x0⟩,  -- AGE_APPLYHI
   ⟨0x80018, 0x4, 1, 0x0, 0x0, 0x0, 0x0, 0x0⟩,  -- AGE_WOFSLO
   ⟨0x8001C, 0x4, 1, 0x0, 0x0, 0x0, 0x0, 0x0⟩,  -- AGE_WOFSHI
   ⟨0x80020, 0x4, 1, 0x0, 0x0, 0x0, 0x0, 0x0⟩,  -- AGE_WERR
   ⟨0x80024, 0x4, 1, 0x0, 0x0, 0x0, 0x0, 0x0⟩,  -- AGE_STATE
   ⟨0x80030, 0x4, 4, 0x0, 0x0, 0x0, 0x0, 0x0⟩,  -- AGE_COUNT
   ⟨0x80040, 0x4, 1, 0x0, 0x0, 0xFFFFFFFF, 0x0, 0x0⟩,  -- AGE_TALLY
   ⟨0x80044, 0x4, 1, 0x0, 0x0, 0x0, 0x0, 0x0⟩,  -- AGE_OVERSTAY
   ⟨0x80080, 0x4, 8, 0x7000, 0x0, 0x0, 0x0, 0x0⟩,  -- AGE_LAYER
   ⟨0x800A0, 0x4, 1, 0x0, 0x0, 0x0, 0x0, 0x0⟩,  -- AGE_REASON
   ⟨0x81000, 0x4, 1024, 0xFFFFF000, 0x0, 0x0, 0x0, 0x0⟩]  -- AGE_REGSTAT

/-- Registers of the PNL block (chapter 11). -/
def pnlRegs : List RegSpec :=
  [⟨0x90000, 0x4, 1, 0x140000, 0x1, 0x0, 0x0, 0xFF0000⟩,  -- PNL_CTRL
   ⟨0x90004, 0x4, 1, 0x0, 0x0, 0x0, 0x0, 0x0⟩,  -- PNL_STATUS
   ⟨0x90008, 0x4, 1, 0x0, 0x0, 0x0, 0x0, 0x0⟩,  -- PNL_IDENT
   ⟨0x9000C, 0x4, 1, 0x0, 0x0, 0x0, 0x0, 0x0⟩,  -- PNL_MODE
   ⟨0x90010, 0x4, 1, 0x0, 0x0, 0x0, 0x0, 0x0⟩,  -- PNL_MODESEL
   ⟨0x90014, 0x4, 1, 0x0, 0x0, 0x0, 0x0, 0x0⟩,  -- PNL_MODESTAT
   ⟨0x90018, 0x4, 1, 0x0, 0x0, 0x0, 0x0, 0x0⟩,  -- PNL_LAPCOUNT
   ⟨0x9001C, 0x4, 1, 0x0, 0x0, 0x0, 0x0, 0x0⟩,  -- PNL_FLIPTIMELO
   ⟨0x90020, 0x4, 1, 0x0, 0x0, 0x0, 0x0, 0x0⟩,  -- PNL_FLIPTIMEHI
   ⟨0x90024, 0x4, 1, 0x0, 0x0, 0x0, 0x0, 0x0⟩,  -- PNL_LASTLAP
   ⟨0x90028, 0x4, 1, 0x0, 0x0, 0x0, 0x0, 0x0⟩,  -- PNL_LINK
   ⟨0x9002C, 0x4, 1, 0x0, 0x0, 0x0, 0x0, 0x0⟩,  -- PNL_CUT
   ⟨0x90030, 0x4, 1, 0x0, 0x0, 0x0, 0x0, 0x0⟩,  -- PNL_PSEQ
   ⟨0x90034, 0x4, 1, 0x0, 0x0, 0x0, 0x0, 0x0⟩,  -- PNL_HMLAST
   ⟨0x90038, 0x4, 1, 0x0, 0x0, 0x0, 0x0, 0x0⟩,  -- PNL_HMECHO
   ⟨0x90040, 0x4, 1, 0x0, 0x0, 0xFFFFFFFF, 0x0, 0x0⟩,  -- PNL_TALLY0
   ⟨0x90044, 0x4, 1, 0x0, 0x0, 0xFFFFFFFF, 0x0, 0x0⟩,  -- PNL_TALLY1
   ⟨0x90048, 0x4, 1, 0x0, 0x0, 0x0, 0x0, 0x0⟩]  -- PNL_HMFAULT

/-- Registers of the RNG block (chapter 12). -/
def rngRegs : List RegSpec :=
  [⟨0xA0000, 0x100, 2, 0x0, 0x1, 0x0, 0x0, 0x0⟩,  -- RNG_CTRL
   ⟨0xA0004, 0x100, 2, 0xFF0000F0, 0x0, 0x0, 0x0, 0x0⟩,  -- RNG_STATE
   ⟨0xA0008, 0x100, 2, 0x3FFF, 0x0, 0x0, 0x0, 0x0⟩,  -- RNG_MASTER
   ⟨0xA000C, 0x100, 2, 0xFFFF00FF, 0x0, 0x0, 0x0, 0x0⟩,  -- RNG_TOPO
   ⟨0xA0010, 0x100, 2, 0x0, 0x0, 0x0, 0x0, 0x0⟩,  -- RNG_PLANCRC
   ⟨0xA0014, 0x100, 2, 0x0, 0x0, 0x0, 0x0, 0x0⟩,  -- RNG_MPLANCRC
   ⟨0xA0018, 0x100, 2, 0x0, 0x0, 0x0, 0x0, 0x0⟩,  -- RNG_LAP
   ⟨0xA001C, 0x100, 2, 0x0, 0x0, 0x0, 0x0, 0x0⟩,  -- RNG_BYPASS
   ⟨0xA0020, 0x100, 2, 0x0, 0x0, 0x0, 0x0, 0x0⟩,  -- RNG_SEEN
   ⟨0xA0024, 0x100, 2, 0x0, 0x0, 0x0, 0x0, 0x0⟩,  -- RNG_SEEN
   ⟨0xA0028, 0x100, 2, 0x0, 0x0, 0x0, 0x0, 0x0⟩,  -- RNG_SEEN
   ⟨0xA002C, 0x100, 2, 0x0, 0x0, 0x0, 0x0, 0x0⟩,  -- RNG_SEEN
   ⟨0xA0030, 0x100, 2, 0x0, 0x0, 0x0, 0x0, 0x0⟩,  -- RNG_CAND
   ⟨0xA0034, 0x100, 2, 0x0, 0x0, 0x0, 0x0, 0x0⟩,  -- RNG_CAND
   ⟨0xA0038, 0x100, 2, 0x0, 0x0, 0x0, 0x0, 0x0⟩,  -- RNG_CAND
   ⟨0xA003C, 0x100, 2, 0x0, 0x0, 0x0, 0x0, 0x0⟩,  -- RNG_CAND
   ⟨0xA0040, 0x100, 2, 0x0, 0x0, 0x0, 0x0, 0x0⟩,  -- RNG_EDGE
   ⟨0xA0044, 0x100, 2, 0x0, 0x0, 0x0, 0x0, 0x0⟩,  -- RNG_EDGE
   ⟨0xA0048, 0x100, 2, 0x0, 0x0, 0x0, 0x0, 0x0⟩,  -- RNG_EDGE
   ⟨0xA004C, 0x100, 2, 0x0, 0x0, 0x0, 0x0, 0x0⟩,  -- RNG_EDGE
   ⟨0xA0050, 0x100, 2, 0x0, 0x0, 0xFFFFFFFF, 0x0, 0x0⟩,  -- RNG_TALLY0
   ⟨0xA0054, 0x100, 2, 0x0, 0x0, 0xFFFFFFFF, 0x0, 0x0⟩]  -- RNG_TALLY1

/-- Registers of the TIM block (chapter 13). -/
def timRegs : List RegSpec :=
  [⟨0xB0000, 0x4, 1, 0x0, 0x0, 0x0, 0x0, 0x0⟩,  -- TIM_LOCALLO
   ⟨0xB0004, 0x4, 1, 0x0, 0x0, 0x0, 0x0, 0x0⟩,  -- TIM_LOCALHI
   ⟨0xB0008, 0x4, 1, 0x0, 0x0, 0x0, 0x0, 0x0⟩,  -- TIM_STATUS
   ⟨0xB0010, 0x4, 1, 0x0, 0x0, 0x0, 0x0, 0x0⟩,  -- TIM_WALLSECLO
   ⟨0xB0014, 0x4, 1, 0x0, 0x0, 0x0, 0x0, 0x0⟩,  -- TIM_WALLSECHI
   ⟨0xB0018, 0x4, 1, 0x0, 0x0, 0x0, 0x0, 0x0⟩,  -- TIM_WALLFRAC
   ⟨0xB001C, 0x4, 1, 0x80000000, 0x0, 0x0, 0x0, 0x0⟩,  -- TIM_AB
   ⟨0xB0020, 0x4, 1, 0x0, 0x0, 0x0, 0x0, 0x0⟩,  -- TIM_SLEW
   ⟨0xB0024, 0x4, 1, 0xFFFFFFFF, 0x0, 0x0, 0x0, 0x0⟩,  -- TIM_ERRA
   ⟨0xB0028, 0x4, 1, 0xFFFFFFFF, 0x0, 0x0, 0x0, 0x0⟩,  -- TIM_ERRB
   ⟨0xB002C, 0x4, 1, 0x7FFFFFFF, 0x0, 0x0, 0x0, 0x0⟩,  -- TIM_EW
   ⟨0xB0030, 0x4, 1, 0x0, 0x0, 0x0, 0x0, 0x0⟩,  -- TIM_SEGDLY
   ⟨0xB0034, 0x4, 1, 0x0, 0x0, 0x0, 0x0, 0x0⟩,  -- TIM_DSW
   ⟨0xB0040, 0x4, 1, 0x0, 0xFFFFFFFF, 0x0, 0x0, 0x0⟩,  -- TIM_GMSETSECLO
   ⟨0xB0044, 0x4, 1, 0x0, 0xFFFFFFFF, 0x0, 0x0, 0x0⟩,  -- TIM_GMSETSECHI
   ⟨0xB0048, 0x4, 1, 0x0, 0xFFFFFFFF, 0x0, 0x0, 0x0⟩,  -- TIM_GMSETFRAC
   ⟨0xB004C, 0x4, 1, 0x0, 0x0, 0x0, 0x0, 0x0⟩,  -- TIM_GMCMD
   ⟨0xB0050, 0x4, 1, 0x0, 0x0, 0xFFFFFFFF, 0x0, 0x0⟩]  -- TIM_TALLY

/-- Registers of the CVU block (chapter 14). -/
def cvuRegs : List RegSpec :=
  [⟨0xC0000, 0x80, 16, 0x0, 0xFF07FF0D, 0x0, 0x0, 0x0⟩,  -- CVU_CTRL
   ⟨0xC0004, 0x80, 16, 0x0, 0xF03FFFFF, 0x0, 0x0, 0x0⟩,  -- CVU_SNOOP
   ⟨0xC0008, 0x80, 16, 0x0, 0xFFFFFFFF, 0x0, 0x0, 0x0⟩,  -- CVU_POLYLO
   ⟨0xC000C, 0x80, 16, 0x0, 0xFFFFFFFF, 0x0, 0x0, 0x0⟩,  -- CVU_POLYHI
   ⟨0xC0010, 0x80, 16, 0x0, 0xFFFFFFFF, 0x0, 0x0, 0x0⟩,  -- CVU_INITLO
   ⟨0xC0014, 0x80, 16, 0x0, 0xFFFFFFFF, 0x0, 0x0, 0x0⟩,  -- CVU_INITHI
   ⟨0xC0018, 0x80, 16, 0x0, 0xFFFFFFFF, 0x0, 0x0, 0x0⟩,  -- CVU_FOLD0
   ⟨0xC001C, 0x80, 16, 0x0, 0xFFFFFFFF, 0x0, 0x0, 0x0⟩,  -- CVU_FOLD1
   ⟨0xC0020, 0x80, 16, 0x0, 0xFFFFFFFF, 0x0, 0x0, 0x0⟩,  -- CVU_FOLD2
   ⟨0xC0024, 0x80, 16, 0x0, 0xFFFFFFFF, 0x0, 0x0, 0x0⟩,  -- CVU_EXPLO
   ⟨0xC0028, 0x80, 16, 0x0, 0xFFFFFFFF, 0x0, 0x0, 0x0⟩,  -- CVU_EXPHI
   ⟨0xC002C, 0x80, 16, 0x0, 0x0, 0x0, 0x0, 0x0⟩,  -- CVU_RESLO
   ⟨0xC0030, 0x80, 16, 0x0, 0x0, 0x0, 0x0, 0x0⟩,  -- CVU_RESHI
   ⟨0xC0034, 0x80, 16, 0x0, 0x0, 0xC0FFFFFF, 0x0, 0x0⟩,  -- CVU_STATUS
   ⟨0xC0038, 0x80, 16, 0x0, 0x0, 0xFFFF, 0x0, 0x0⟩,  -- CVU_TALLY
   ⟨0xC003C, 0x80, 16, 0x0, 0x0, 0x0, 0x0, 0x0⟩,  -- CVU_FEED4
   ⟨0xC0040, 0x80, 16, 0x0, 0x0, 0x0, 0x0, 0x0⟩,  -- CVU_FEED1
   ⟨0xC0044, 0x80, 16, 0x0, 0x0, 0x0, 0x0, 0x0⟩]  -- CVU_FEEDEND

/-- Registers of the ACR block (chapter 15). -/
def acrRegs : List RegSpec :=
  [⟨0xD0000, 0x4, 1, 0x0, 0x0, 0x0, 0x0, 0x0⟩,  -- ACR_EPOCH
   ⟨0xD0004, 0x4, 1, 0x0, 0x0, 0x0, 0x0, 0x0⟩,  -- ACR_SWITCH
   ⟨0xD0010, 0x4, 1, 0x0, 0x0, 0x0, 0x0, 0x0⟩,  -- ACR_VIOLSTARTLO
   ⟨0xD0018, 0x4, 1, 0x0, 0x0, 0x0, 0x0, 0x0⟩,  -- ACR_VIOLFIRSTLO
   ⟨0xD0014, 0x4, 1, 0x0, 0x0, 0x0, 0x0, 0x0⟩,  -- ACR_VIOLSTARTHI
   ⟨0xD001C, 0x4, 1, 0x0, 0x0, 0x0, 0x0, 0x0⟩,  -- ACR_VIOLFIRSTHI
   ⟨0xD0020, 0x4, 1, 0xFF0000, 0x0, 0x80000000, 0x0, 0x0⟩,  -- ACR_VIOLINFO
   ⟨0xD0024, 0x4, 1, 0x0, 0x0, 0xFFFFFFFF, 0x0, 0x0⟩,  -- ACR_TALLY
   ⟨0xD0100, 0x10, 64, 0x0, 0x0, 0x0, 0x0, 0x0⟩,  -- ACR_BASE
   ⟨0xD0104, 0x10, 64, 0x0, 0x0, 0x0, 0x0, 0x0⟩,  -- ACR_PAGES
   ⟨0xD0108, 0x10, 64, 0x0, 0x0, 0x0, 0x0, 0x0⟩,  -- ACR_RMASK
   ⟨0xD010C, 0x10, 64, 0x0, 0x0, 0x0, 0x0, 0x0⟩,  -- ACR_WMASK
   ⟨0xD0500, 0x10, 64, 0x0, 0xFFFFFFF, 0x0, 0x0, 0x0⟩,  -- ACR_SHBASE
   ⟨0xD0504, 0x10, 64, 0x0, 0x1FFFFFFF, 0x0, 0x0, 0x0⟩,  -- ACR_SHPAGES
   ⟨0xD0508, 0x10, 64, 0x0, 0xFFFFFFFF, 0x0, 0x0, 0x0⟩,  -- ACR_SHRMASK
   ⟨0xD050C, 0x10, 64, 0x0, 0xFFFFFFFF, 0x0, 0x0, 0x0⟩]  -- ACR_SHWMASK

/-- Registers of the ENG block (chapter 16). -/
def engRegs : List RegSpec :=
  [⟨0xE0000, 0x100, 4, 0x0, 0x0, 0x0, 0x0, 0x0⟩,  -- ENG_CTRL
   ⟨0xE0004, 0x100, 4, 0x0, 0x0, 0x0, 0x0, 0x0⟩,  -- ENG_STATE
   ⟨0xE0008, 0x100, 4, 0x0, 0x0, 0x0, 0x0, 0x0⟩,  -- ENG_BEAT
   ⟨0xE0010, 0x100, 4, 0xFFFFFFFF, 0xFFFFFFFF, 0x0, 0x0, 0x0⟩,  -- ENG_TIMECMPLO
   ⟨0xE0014, 0x100, 4, 0xFFFFFFFF, 0xFFFFFFFF, 0x0, 0x0, 0x0⟩,  -- ENG_TIMECMPHI
   ⟨0xE0018, 0x100, 4, 0x0, 0xFFFFFFFF, 0x0, 0x0, 0x0⟩,  -- ENG_IRQEN
   ⟨0xE001C, 0x100, 4, 0x0, 0x0, 0xFFFFFFFF, 0x0, 0x0⟩,  -- ENG_IRQPEND
   ⟨0xE0020, 0x100, 4, 0xFF, 0x0, 0x0, 0x0, 0x0⟩,  -- ENG_IRQCLAIM
   ⟨0xE0024, 0x100, 4, 0x0, 0x0, 0xFFFFFFFF, 0x0, 0x0⟩,  -- ENG_IRQOVR
   ⟨0xE0028, 0x100, 4, 0x0, 0x0, 0x0, 0x0, 0x0⟩,  -- ENG_IRQTSLO
   ⟨0xE002C, 0x100, 4, 0x0, 0x0, 0x0, 0x0, 0x0⟩,  -- ENG_IRQTSHI
   ⟨0xE0030, 0x100, 4, 0x0, 0x1, 0x0, 0x0, 0x0⟩,  -- ENG_SWI
   ⟨0xE0034, 0x100, 4, 0x0, 0x0, 0x0, 0x0, 0x0⟩,  -- ENG_FAULT
   ⟨0xE0038, 0x100, 4, 0x0, 0x0, 0x0, 0x0, 0x0⟩,  -- ENG_FAULTADDR
   ⟨0xE0800, 0x4, 1, 0xFF0000, 0x0, 0x0, 0x0, 0x0⟩]  -- ENG_SUPV

/-- Registers of the LMPKEY block (chapter 16, 18). -/
def lmpkeyRegs : List RegSpec :=
  [⟨0x0, 0x4, 1, 0x0, 0x0, 0x0, 0x0, 0x0⟩,  -- LMP_STATUS
   ⟨0x4, 0x4, 1, 0x84, 0x0, 0x0, 0x0, 0x0⟩,  -- LMP_LIVE
   ⟨0x8, 0x4, 1, 0x0, 0x0, 0x0, 0x0, 0x0⟩,  -- LMP_REST
   ⟨0xC, 0x4, 1, 0x1, 0xFFFF0003, 0x0, 0x0, 0x0⟩,  -- LMP_WAKE
   ⟨0x100, 0x4, 1, 0x0, 0x0, 0x0, 0x0, 0x0⟩,  -- KEY_STATE
   ⟨0x104, 0x4, 1, 0x0, 0x0, 0x0, 0x0, 0x0⟩,  -- KEY_CHATTER
   ⟨0x108, 0x4, 1, 0x0, 0x0, 0x0, 0x0, 0x0⟩,  -- KEY_EVENT
   ⟨0x10C, 0x4, 1, 0x0, 0xFFFFFF, 0x0, 0x0, 0x0⟩,  -- KEY_LAMP
   ⟨0x110, 0x4, 1, 0x10006400, 0xFF0FFF07, 0x0, 0x0, 0x0⟩,  -- KEY_GANGCTRL
   ⟨0x114, 0x4, 1, 0x0, 0x0, 0x0, 0x0, 0x0⟩,  -- KEY_GANGSTAT
   ⟨0x118, 0x4, 1, 0x0, 0x0, 0xFFFF, 0x0, 0x0⟩,  -- KEY_TALLY
   ⟨0x140, 0x4, 16, 0x3, 0xFFFF0003, 0x0, 0x0, 0x0⟩]  -- KEY_CFG

/-- Registers of the HST block (chapter 17). -/
def hstRegs : List RegSpec :=
  [⟨0xF0000, 0x4, 1, 0x2, 0x3, 0x0, 0x0, 0x0⟩,  -- HST_CTRL
   ⟨0xF0004, 0x4, 1, 0x0, 0x0, 0x0, 0x0, 0x0⟩,  -- HST_SESSION
   ⟨0xF0008, 0x4, 1, 0x0, 0x0, 0x0, 0x0, 0x0⟩,  -- HST_SVCSTAT
   ⟨0xF000C, 0x4, 1, 0x0, 0x0, 0xFFFFFFFF, 0x0, 0x0⟩,  -- HST_SVCTALLY
   ⟨0xF0010, 0x4, 1, 0x0, 0x0, 0xFFFFFFFF, 0x0, 0x0⟩,  -- HST_MGTTALLY
   ⟨0xF0014, 0x4, 1, 0x0, 0x0, 0x0, 0x0, 0x0⟩,  -- HST_LOAD
   ⟨0xF1100, 0x400, 4, 0x0, 0x0, 0x0, 0x0, 0x0⟩,  -- HST_ESEND
   ⟨0xF1104, 0x400, 4, 0x0, 0x0, 0x0, 0x0, 0x0⟩,  -- HST_ESTAT
   ⟨0xF1300, 0x400, 4, 0x0, 0x0, 0x0, 0x0, 0x0⟩,  -- HST_EPOP
   ⟨0xF1000, 0x4, 64, 0x0, 0xFFFFFFFF, 0x0, 0x0, 0x0⟩,  -- HST_EOUT
   ⟨0xF1400, 0x4, 64, 0x0, 0xFFFFFFFF, 0x0, 0x0, 0x0⟩,  -- HST_EOUT
   ⟨0xF1800, 0x4, 64, 0x0, 0xFFFFFFFF, 0x0, 0x0, 0x0⟩,  -- HST_EOUT
   ⟨0xF1C00, 0x4, 64, 0x0, 0xFFFFFFFF, 0x0, 0x0, 0x0⟩]  -- HST_EOUT

/-- Registers of the TCH block (chapter 18). -/
def tchRegs : List RegSpec :=
  [⟨0x100000, 0x4, 1, 0x0, 0x1, 0x0, 0x0, 0x0⟩,  -- TCH_CTRL
   ⟨0x100004, 0x4, 1, 0x0, 0x0, 0x40, 0x0, 0x0⟩,  -- TCH_STATUS
   ⟨0x100008, 0x4, 1, 0x0, 0x0, 0x0, 0x0, 0x0⟩,  -- TCH_FRAME
   ⟨0x10000C, 0x4, 1, 0x0, 0x1FF, 0x0, 0x0, 0x0⟩,  -- TCH_RING
   ⟨0x100010, 0x4, 1, 0x0, 0x3F0000, 0x0, 0x0, 0x0⟩,  -- TCH_RINGPTR
   ⟨0x100014, 0x4, 1, 0x0, 0x0, 0xFFFFFFFF, 0x0, 0x0⟩,  -- TCH_TALLY
   ⟨0x100018, 0x4, 1, 0x0, 0xBF7F, 0x0, 0x0, 0x0⟩,  -- TCH_NODESEL
   ⟨0x10001C, 0x4, 1, 0x0, 0x0, 0x0, 0x0, 0x0⟩]  -- TCH_NODEVAL

/-- Registers of the FLT block (chapter 19). -/
def fltRegs : List RegSpec :=
  [⟨0x140000, 0x4, 1, 0x0, 0x0, 0x0, 0x0, 0x0⟩,  -- FLT_HEAD
   ⟨0x140004, 0x4, 1, 0x0, 0x0, 0x80000000, 0x0, 0x0⟩,  -- FLT_STATUS
   ⟨0x140010, 0x4, 4, 0x0, 0x0, 0xFFFFFFFF, 0x0, 0x0⟩,  -- FLT_CLASS
   ⟨0x140100, 0x4, 12, 0x0, 0xFFFFFFFF, 0x0, 0x0, 0x0⟩,  -- FLT_SWBUF
   ⟨0x140130, 0x4, 1, 0x0, 0x0, 0x0, 0x0, 0x0⟩]  -- FLT_SWADD

/-- The rows of the 64 KiB block that holds half-relative register offset `off` (R430). -/
def blockRegs (off : Nat) : List RegSpec :=
  match off / 0x10000 with
  | 0x0 => sysRegs
  | 0x13 => lnkRegs
  | 0x1 => rstRegs
  | 0x2 => ldrRegs
  | 0x3 => laneRegs
  | 0x12 => paceRegs
  | 0x4 => inkRegs
  | 0x5 => fstRegs
  | 0x6 => rbkRegs
  | 0x7 => cmpRegs
  | 0x50 => coefRegs
  | 0x8 => ageRegs
  | 0x9 => pnlRegs
  | 0xA => rngRegs
  | 0xB => timRegs
  | 0xC => cvuRegs
  | 0xD => acrRegs
  | 0xE => engRegs
  | 0xF => hstRegs
  | 0x10 => tchRegs
  | 0x14 => fltRegs
  | _ => []

/-- The row of a list that holds offset `off`, if one does. -/
def findReg (rows : List RegSpec) (off : Nat) : Option RegSpec :=
  rows.find? fun r => decide (r.base ≤ off) && decide ((off - r.base) % r.stride = 0) && decide ((off - r.base) / r.stride < r.count)

/-- The register row at a half-relative offset. -/
def regSpec (off : Nat) : Option RegSpec := findReg (blockRegs off) off

/-- The register row at an offset of the lamplighter range. -/
def lmpRegSpec (off : Nat) : Option RegSpec := findReg lmpkeyRegs off

end Sys2Proof.Machine
end

