-- ==== Sys2Proof/Machine/Sparse.lean ====
section
/-!
DEFINITION. Sparse storage in canonical form: a list of (address, value) pairs with addresses strictly rising and no pair
equal to what an unlisted address reads as. Registers and memories of the module are stored so, so that equal contents are
equal data. What an unlisted address reads as is the argument `d`.
-/
namespace Sys2Proof.Machine

/-- What address `a` holds. -/
def sparseGet {α : Type} (d : Nat → α) : List (Nat × α) → Nat → α
  | [], a => d a
  | (k, v) :: rest, a => if a = k then v else if a < k then d a else sparseGet d rest a

/-- The pairs of a list after address `a`: in the canonical form the list itself. -/
def sparseAfter {α : Type} (a : Nat) : List (Nat × α) → List (Nat × α)
  | [] => []
  | (k, v) :: rest => if k ≤ a then sparseAfter a rest else (k, v) :: rest

/-- The storage after `v` is written to address `a`. -/
def sparsePut {α : Type} [DecidableEq α] (d : Nat → α) : List (Nat × α) → Nat → α → List (Nat × α)
  | [], a, v => if v = d a then [] else [(a, v)]
  | (k, w) :: rest, a, v =>
    if a = k then (if v = d a then sparseAfter a rest else (k, v) :: rest)
    else if a < k then (if v = d a then (k, w) :: rest else (a, v) :: (k, w) :: rest)
    else (k, w) :: sparsePut d rest a v

/-- Every listed address lies above `b`, addresses rise strictly and no pair repeats the unlisted value. -/
def sparseAbove {α : Type} [DecidableEq α] (d : Nat → α) : Nat → List (Nat × α) → Bool
  | _, [] => true
  | b, (k, v) :: rest => decide (b < k) && decide (v ≠ d k) && sparseAbove d k rest

/-- The canonical form. -/
def sparseWf {α : Type} [DecidableEq α] (d : Nat → α) : List (Nat × α) → Bool
  | [] => true
  | (k, v) :: rest => decide (v ≠ d k) && sparseAbove d k rest

/-- Drops every pair whose address satisfies `p`: those addresses then read as unlisted. -/
def sparseClear {α : Type} (p : Nat → Bool) (l : List (Nat × α)) : List (Nat × α) :=
  l.filter fun c => !p c.1

/-- Memory read of `n` bytes from address `a`; an unlisted byte reads 0. -/
def memRead (m : List (Nat × Byte)) (a : Nat) : Nat → List Byte
  | 0 => []
  | n + 1 => sparseGet (fun _ => 0) m a :: memRead m (a + 1) n

/-- Memory after the bytes `bs` are written from address `a` upwards. -/
def memWrite (m : List (Nat × Byte)) (a : Nat) : List Byte → List (Nat × Byte)
  | [] => m
  | b :: bs => memWrite (sparsePut (fun _ => 0) m a b) (a + 1) bs

/-- The canonical form of a memory, whose unlisted bytes read 0. -/
def Memory.wf (m : List (Nat × Byte)) : Bool := sparseWf (fun _ => (0 : Byte)) m

end Sys2Proof.Machine
end

