-- ==== Sys2Proof/Machine/Parts.lean ====
section
/-!
DEFINITION. The parts of the state beyond the registers: for each block of a half, and for the lamplighter, the memories,
queues, counters and running values that the manual gives it. Plain data throughout. Times are nanoseconds of the module's
one simulated clock unless a field says local base.
-/
namespace Sys2Proof.Machine

/-- Contents of a byte memory: (address, byte) pairs in the canonical form of Sparse. -/
abbrev Mem := List Host.Cell

/-- Contents of a register space: (offset, word) pairs in the canonical form of Sparse. -/
abbrev RegFile := List (Nat × Word)

/-! ## Engines (R352 to R361) -/

/-- The machine-mode control registers of an engine that hold state of their own (R352). -/
structure Csrs where
  mie      : Bool
  mpie     : Bool
  mieBits  : Word
  mtvec    : Word
  mscratch : Word
  mepc     : Word
  mcause   : Word
  mtval    : Word
  /-- mcycle and minstret, which both count instructions retired -/
  mcycle   : Nat
  minstret : Nat
  deriving DecidableEq, Repr

/-- Engine n of a half. Its ENG window registers lie in the register file. -/
structure Engine where
  pc       : Word
  /-- x0 to x31; x0 reads 0 -/
  x        : List Word
  csr      : Csrs
  /-- 128 KiB local SRAM -/
  sram     : Mem
  /-- ENTRY of its program section; none before one is loaded -/
  entry    : Option Nat
  /-- an exception is being handled: set at an exception, cleared by MRET (R359) -/
  handling : Bool
  /-- the compare value applied by the last write of ENG_TIMECMPHI (R357) -/
  timecmp  : Nat
  /-- time of the last ENG_BEAT, or of the start of running -/
  beatAt   : Nat
  /-- ENG_BEAT has been written since the engine started -/
  beaten   : Bool
  /-- restarted by block reset after a failure, first beat awaited (R361) -/
  returning : Bool
  /-- completions and events waiting in HST_EIN, oldest first -/
  inbox    : List MgmtRsp
  /-- (station, tag) of its requests outstanding at other stations -/
  sent     : List (Nat × Nat)
  deriving DecidableEq, Repr

/-! ## Ledger (R417 to R421) -/

/-- A ledger entry with its read mark (R418). -/
structure LedgerRec where
  bytes : List Byte
  read  : Bool
  deriving DecidableEq, Repr

/-- The ledger of a half. FLT_HEAD and FLT_CLASS lie in the register file and follow it. -/
structure LedgerSt where
  /-- entries, newest first, at most 256 -/
  entries : List LedgerRec
  /-- mirrored entries of the peer, oldest first, at most 64 -/
  mirror  : List (List Byte)
  /-- master and local time of the last ACC entry of each master (R350) -/
  accAt   : List (Nat × Nat)
  deriving DecidableEq, Repr

/-! ## Half link and baton (R12 to R17, R362, R363) -/

/-- What a half hands to the half link, beyond batons (R13). -/
inductive LinkMsg where
  /-- a ledger entry for the peer's mirror (R420) -/
  | ledger (bytes : List Byte)
  /-- a latch record (R236) -/
  | latch (r : LatchRecord)
  /-- a baton flit sent (R362) -/
  | baton (b : Baton)
  /-- a flit returned to be sent again (R15) -/
  | resend (cls : FlitClass)
  deriving DecidableEq, Repr

/-- The state of a half's end of the half link and of its baton. -/
structure LinkSt where
  /-- messages given to the link that its arbiter has not granted, oldest first -/
  out       : List LinkMsg
  /-- messages granted, on the wires toward the peer, in the order of their grants (R13) -/
  wire      : List LinkMsg
  /-- grants to other classes since the host class last had one or waited for none -/
  hostWait  : Nat
  /-- times of the resends of the last 1 ms -/
  resendAt  : List Nat
  /-- BSEQ of the next baton flit -/
  bseq      : Nat
  /-- when a baton flit was last sent, and what it said -/
  sent      : Option (Nat × Baton)
  /-- BSEQ of the last accepted flit of the peer -/
  lastBseq  : Option Nat
  /-- when a baton was last accepted -/
  lastAt    : Option Nat
  /-- the last accepted baton -/
  peer      : Option Baton
  /-- time from which the present silence runs -/
  silentFrom : Nat
  /-- a baton is being sent: since step 6, unless R276 stops it -/
  stopped   : Bool
  /-- bytes of fetch and host class sent in this lap, for LNK_LOAD -/
  fetchBytes : Nat
  hostBytes  : Nat
  /-- the peer has entered a reset, and this half does not yet run alone (R193) -/
  lost       : Bool
  /-- a baton of this half has been accepted by the peer (R61) -/
  exchanged  : Bool
  exchangedAt : Nat
  deriving DecidableEq, Repr

/-! ## Starter (R49 to R69) -/

/-- What the starter of a half holds beyond the RST registers. -/
structure StarterSt where
  /-- when the reset of this half was released -/
  releasedAt : Nat
  /-- time of the last kick of the steward watchdog (R53) -/
  wdogAt     : Nat
  /-- channels that passed training, once training has ended (R170) -/
  trained    : Option Nat
  /-- steps whose condition has been met, by number; a step is done in order (R60) -/
  ready      : List Nat
  /-- when step 4 began and when it ended -/
  step4From  : Nat
  step4At    : Nat
  /-- when steps 7, 8, 9 began -/
  step7From  : Nat
  step8From  : Nat
  step9From  : Nat
  /-- READY and KAECHO received on this half's sub-link (R60 step 10) -/
  gotReady   : Bool
  gotKaecho  : Bool
  /-- the return lap, once named (R61) -/
  returnLap  : Option Nat
  /-- blocks isolated by a block reset in progress (R67) -/
  isolated   : Nat
  /-- writes that wait at an isolated block (R68): master, offset and word, oldest first -/
  waiting    : List (Nat × Nat × Word)
  deriving DecidableEq, Repr

/-! ## Time (R307 to R327) -/

/-- States of a domain (R314). -/
inductive DomainState where
  | none | acquiring | tracked | lost
  deriving DecidableEq, Repr

/-- One domain as a half tracks it (R314, R315). -/
structure DomainSt where
  st      : DomainState
  /-- domain time at the anchor in units of 2^-32 ns, and the anchor on the local base -/
  base    : Int
  anchor  : Nat
  /-- rate: ns of domain time per ns of local base -/
  num     : Nat
  den     : Nat
  /-- phase still to be taken up from the anchor, at 50 µs/s, in units of 2^-32 ns -/
  slew    : Int
  /-- consecutive SYNCs within ±1 µs -/
  good    : Nat
  /-- (SRCADDR, SEQ) of the last accepted SYNC of each source -/
  seqs    : List (Nat × Nat)
  /-- ERRBOUND of the last accepted SYNC, with HOPERR and SERVOERR -/
  bound   : Nat
  /-- local base at the last accepted SYNC and the estimate then -/
  lastAt  : Nat
  lastEst : Option Int
  /-- local base since which the domain is TRACKED without interruption -/
  since   : Nat
  /-- taken from the peer half (R316) -/
  peerFed : Bool
  /-- this station's own SYNC sequence of the domain -/
  seq     : Nat
  /-- a grandmaster not yet set (R318) -/
  unset   : Bool
  /-- HOPS and FLAGS.FOLLOWING of the last SYNC -/
  hops    : Nat
  following : Bool
  deriving DecidableEq, Repr

/-- The time configuration (R327), defaults applied. -/
structure TimeConf where
  gmA       : Bool
  gmB       : Bool
  preferB   : Bool
  revert    : Bool
  follow    : Bool
  gmAddrA   : Nat
  gmAddrB   : Nat
  upRingA   : Nat
  upRingB   : Nat
  timeout   : Nat
  peerErr   : Nat
  asym      : Nat
  servoErr  : Nat
  holdRate  : Nat
  gmErr     : Nat
  expiry    : Nat
  deriving DecidableEq, Repr

/-- Segment delay measurement across one segment (R313). -/
structure SegDelay where
  /-- SEQ of the PDREQ awaiting its answer, and T1 once it has been sent -/
  asked : Option (Nat × Option Nat)
  /-- when the last PDREQ was due -/
  askedAt : Option Nat
  /-- the last 8 measurements, newest first -/
  vals  : List Int
  deriving DecidableEq, Repr

/-- Time state of a half. -/
structure TimeSt where
  conf    : Option TimeConf
  a       : DomainSt
  b       : DomainSt
  /-- wall time exists, and its reference domain (R320, R321) -/
  refB    : Option Bool
  /-- offset O in units of 2^-32 ns at its anchor on the local base, and Dsw in ns -/
  off     : Int
  offAt   : Nat
  dsw     : Nat
  /-- west and east segment of the first ring, then of a second ring -/
  seg     : List SegDelay
  pdSeq   : Nat
  /-- of each link with a camera bridge: its number, the SEQ of its next SYNC, and when the last one was due -/
  bridge  : List (Nat × Nat × Nat)
  deriving DecidableEq, Repr

/-! ## Host (R372 to R387) -/

/-- A frame of the service port's output queue (R385). -/
structure SvcOut where
  /-- 1 COMPLETION, 2 EVENT, 3 REPLY -/
  kind  : Nat
  body  : List Byte
  /-- its OSEQ, once sent -/
  oseq  : Option Nat
  deriving DecidableEq, Repr

/-- A request outstanding in a half (R377). -/
structure OutReq where
  who : Requester
  tag : Nat
  deriving DecidableEq, Repr

/-- A kept completion (R381) with the request that it answers. -/
structure Kept where
  who     : Requester
  tag     : Nat
  opcode  : Nat
  len     : Nat
  payload : List Byte
  rsp     : MgmtRsp
  deriving DecidableEq, Repr

/-- A subscription (R383). -/
structure Sub where
  who  : Requester
  tag  : Nat
  mask : Nat
  eseq : Nat
  /-- the latest data of each class waiting for the end of the lap -/
  due  : List (Nat × List Byte)
  deriving DecidableEq, Repr

/-- Host block state of a half. -/
structure HostSt where
  outstanding : List OutReq
  /-- newest first -/
  kept  : List Kept
  subs  : List Sub
  /-- output queue of the service port, oldest first (R386) -/
  queue : List SvcOut
  /-- the next frame sent is the oldest that awaits acknowledgement -/
  resend : Bool
  /-- the module frame of the last exchange -/
  miso  : List Byte
  deriving DecidableEq, Repr

/-! ## Ports, lanes and links (R94 to R121) -/

/-- A Bamnor cell without MARK, LSEQ and CRC (R102): TYPE, the header bits 16 to 95 as one number, bit 16 the most
significant, and the 240 payload bytes. -/
structure Cell where
  type    : Nat
  hdr     : Nat
  payload : List Byte
  deriving DecidableEq, Repr

/-- A link record of the port plan (R97), ports counted within the half. -/
structure LinkRec where
  kind     : Nat
  first    : Nat
  lanes    : Nat
  rate     : Nat
  minLanes : Nat
  deriving DecidableEq, Repr

/-- A port record of the port plan (R97). -/
structure PortRec where
  role  : Nat
  link  : Nat
  rate  : Nat
  swing : Nat
  pre   : Nat
  post  : Nat
  ctle  : Nat
  dfe   : Nat
  deriving DecidableEq, Repr

/-- Receive side of a lane. Its state code lies in LANE_STATUS.STATE. -/
structure LaneRx where
  /-- run of identical line bits (R101) -/
  runBit  : Bool
  runLen  : Nat
  /-- the last 58 unstuffed line bits, the newest in bit 0 (R100) -/
  taps    : Nat
  /-- unstuffed bits taken since DESCRAMBLE was entered -/
  fill    : Nat
  /-- descrambled bits not yet consumed, oldest first; the mark says that a stuff error fell before the bit -/
  buf     : List (Bool × Bool)
  /-- cells that CHECK has found good -/
  checked : Nat
  /-- consecutive missing marks in UP -/
  misses  : Nat
  /-- cells counted in UP, and the numbers of those with a bad CRC among the last 1,024 -/
  cells   : Nat
  bads    : List Nat
  /-- times of the departures from UP within the last 10 s (R111) -/
  drops   : List Nat
  /-- the lane returns from MAPPED_OUT and passes through QUALIFY (R111) -/
  returning : Bool
  /-- the lane's clock recovery holds lock -/
  locked  : Bool
  /-- a stuff error fell after the last bit of the buffer -/
  errNext : Bool
  /-- the receiver inverts the lane (R106) -/
  inv     : Bool
  /-- cells received and not yet part of a whole row, oldest first: LSEQ, cell and stamp of its mark -/
  fifo    : List (Nat × Cell × Nat)
  lastSeq : Option Nat
  deriving DecidableEq, Repr

/-- Transmit side of a lane. -/
structure LaneTx where
  runBit : Bool
  runLen : Nat
  /-- the last 58 scrambled bits, the newest in bit 0 (R100) -/
  taps   : Nat
  /-- line bits sent since the lane was enabled -/
  sent   : Nat
  /-- the line bits of the last cell sent -/
  line   : List Bool
  /-- bits of a burst still to be inverted (R119) -/
  burst  : Nat
  /-- line bits left in the present rate-injection interval, and the bit of it to invert -/
  rateLeft : Nat
  rateBit  : Nat
  /-- pattern generator register and, for the user pattern, its next bit (R117) -/
  gen    : Nat
  deriving DecidableEq, Repr

/-- The pattern checker of a lane (R118). -/
structure LaneChk where
  /-- received or generated bits, the newest in bit 0 -/
  reg   : Nat
  /-- bits taken into the register since seeding began, at most 64 -/
  have_ : Nat
  /-- consecutive agreeing bits while unlocked -/
  agree : Nat
  /-- errors among the last 64 compared bits, one bit each -/
  errs  : Nat
  /-- bits compared below one unit of LANE_CHKBITS -/
  bits  : Nat
  deriving DecidableEq, Repr

/-- A lane. -/
structure Lane where
  rx  : LaneRx
  tx  : LaneTx
  chk : LaneChk
  /-- island tally events not yet taken by the core: events per tally field (R136) -/
  isle : List (Nat × Nat)
  /-- when the lane entered the state whose time its rules limit: bring-up, QUALIFY, MAPPED_OUT or the rate hunted -/
  since : Nat
  /-- line bits that a closed bypass pair passed last to the transmit balls of this port (R35) -/
  pass : List Bool
  deriving DecidableEq, Repr

/-- A link as it runs: a link record, or a single-lane native port. -/
structure LinkRun where
  /-- LSEQ of the next row (R108) -/
  lseq  : Nat
  /-- the RXUP mask of the last idle row -/
  mask  : Nat
  /-- the RXUP mask of the peer's last idle cell on any lane of the link -/
  peerUp : Nat
  /-- cells waiting to be sent, oldest first -/
  queue : List Cell
  /-- reported up to its user block (R112) -/
  up    : Bool
  /-- when the event crossing last took "link down" (R135) -/
  downAt : Option Nat
  /-- LSEQ of the last row taken or discarded while a lane is UP -/
  rxRow : Option Nat
  /-- ports that sent in the last row (R109) -/
  sending : List Nat
  deriving DecidableEq, Repr

/-- Ports, lanes and links of a half. -/
structure PortSt where
  links : List LinkRec
  ports : List PortRec
  lanes : List Lane
  /-- links 0 to 15 by link record, 16 + p the single-lane native port p -/
  runs  : List LinkRun
  deriving DecidableEq, Repr

/-! ## Rings (R277 to R305) -/

/-- A stream record of a slot plan (R291). -/
structure StreamRec where
  source    : Nat
  publisher : Nat
  /-- on the westbound rotation -/
  westward  : Bool
  sublink   : Nat
  forward   : Bool
  lane      : Nat
  first     : Nat
  count     : Nat
  cells     : Nat
  subs      : Nat
  deriving DecidableEq, Repr

/-- A gateway record of a slot plan (R291). -/
structure GatewayRec where
  station : Nat
  other   : Nat
  reach   : Nat
  deriving DecidableEq, Repr

/-- The plan block of a ring (R290) with its plan CRC. -/
structure RingPlan where
  ring     : Nat
  rate     : Nat
  order    : List Nat
  head     : Nat
  root     : Nat
  streams  : List StreamRec
  gateways : List GatewayRec
  crc      : Nat
  deriving DecidableEq, Repr

/-- A rotation of a ring plane as a station passes it on: it arrives across one segment and leaves across the other. -/
structure RotSt where
  /-- row of the last cell that arrived -/
  row    : Nat
  /-- cells of the row being passed on, by lane -/
  part   : List (Nat × Cell)
  /-- whole rows waiting to be sent, oldest first -/
  out    : List (Nat × List Cell)
  /-- as head: the next row of the lap being sent, 4,096 once it is whole; none while the station does not head the rotation -/
  next   : Option Nat
  /-- as head: row 0 of a further lap is due -/
  due    : Bool
  /-- LAPSTART of the lap that the station heads -/
  start  : Option Cell
  /-- turned cells by row and lane: of the lap being sent, and those collected for the lap after (R286) -/
  turn    : List (Nat × Nat × Cell)
  turning : List (Nat × Nat × Cell)
  /-- service cells waiting for a free slot, oldest first -/
  wait   : List Cell
  /-- SEEN, CAND and EDGE of the last LAPSTART that ended here -/
  ended  : Option (Nat × Nat × Nat)
  /-- KCAND of the latest LAPSTART -/
  kcand  : Nat
  /-- laps begun on the rotation since the station joined, up to 2 -/
  laps   : Nat
  /-- LAPNUM of the next lap of the rotation -/
  num    : Nat
  /-- when the last valid LAPSTART of the rotation arrived, or the station joined (R297) -/
  heardAt : Nat
  deriving DecidableEq, Repr

/-- Cells of a forwarded stream that wait for their slots (R303). -/
structure FwdSt where
  source  : Nat
  waiting : List Cell
  /-- sequence of the frame whose rest is not forwarded -/
  cut     : Option Nat
  deriving DecidableEq, Repr

/-- A ring on the plane of a half. STATE and JOINRES lie in RNG_STATE. -/
structure RingSt where
  plan    : Option RingPlan
  /-- eastbound rotation, and westbound rotation -/
  east    : RotSt
  west    : RotSt
  /-- the segments at this station that it treats as broken (R297, R299) -/
  brokenW : Bool
  brokenE : Bool
  /-- the station west of the west segment when that broke, whose bit of EDGE stands for it (R283) -/
  edgeW   : Nat
  /-- since when the west and the east segment have been fit to be whole: link up, run within the limit (R298, R299) -/
  wholeW  : Option Nat
  wholeE  : Option Nat
  /-- KSEEN and KEDGE in force, and as last learned (R289) -/
  seen    : Nat
  edge    : Nat
  newSeen : Nat
  newEdge : Nat
  /-- MASTER of the latest LAPSTART, none before the first -/
  heard   : Option Nat
  /-- the master that the last computation named (R300) -/
  named   : Option Nat
  /-- the station heads as a line of one, naming itself master, and no LAPSTART from elsewhere has reached it (R295) -/
  alone   : Bool
  /-- when row 0 of the last lap that the station heads was due (R279) -/
  lapAt   : Option Nat
  /-- a leaving station has passed its lap boundary: the rotation on which it counts the lap period until its bypass closes (R296) -/
  leaveOn : Option Side
  fwd     : List FwdSt
  deriving DecidableEq, Repr

/-! ## Touch (R390 to R407) -/

/-- A touch configuration (R390); `self` holds pin and threshold of each self electrode. -/
structure TouchConf where
  mode    : Nat
  rows    : Nat
  cols    : Nat
  rate    : Nat
  flags   : Nat
  touchTh : Nat
  relTh   : Nat
  selfTh  : Nat
  waterTh : Nat
  startTh : Nat
  hold    : Nat
  xorg    : Nat
  yorg    : Nat
  xpitch  : Nat
  ypitch  : Nat
  maxArea : Nat
  track   : Nat
  drift   : Nat
  self    : List (Nat × Nat)
  deriving DecidableEq, Repr

/-- A matrix node or self electrode. -/
structure NodeSt where
  /-- baseline in 1/256 count -/
  base  : Int
  raw   : Int
  /-- touched or pressed -/
  down  : Bool
  /-- touched at start: the reference value stays its baseline (R399) -/
  start : Bool
  /-- released since: raw values of the following frames, count and sum -/
  relearn : Option (Nat × Int)
  /-- consecutive frames with the delta below −RELEASETH (R397) -/
  low   : Nat
  /-- pressed since (self electrodes) -/
  since : Nat
  deriving DecidableEq, Repr

/-- A contact (R400, R401). -/
structure Contact where
  ident    : Nat
  /-- position in 1/256 node: column and row -/
  cq       : Nat × Nat
  pos      : Nat × Nat
  area     : Nat
  strength : Nat
  since    : Nat
  start    : Bool
  deriving DecidableEq, Repr

/-- A report of a frame before its status is known (R402, R405). -/
structure TouchRep where
  kind     : Nat
  ident    : Nat
  flags    : Nat
  pos      : Nat × Nat
  area     : Nat
  strength : Nat
  top      : Nat
  region   : Option (HalfId × Nat)
  /-- UNKNOWN whatever the region's words say -/
  unknown  : Bool
  deriving DecidableEq, Repr

/-- A frame whose reports wait for a blanking report (R406). -/
structure TouchHeld where
  frame : Nat
  reps  : List TouchRep
  start : Nat
  stop  : Nat
  deriving DecidableEq, Repr

/-- The region words that a half showed from a blanking on. -/
structure ShownRec where
  half  : HalfId
  since : Int
  words : List Nat
  deriving DecidableEq, Repr

/-- The touch block of half 0. -/
structure TouchSt where
  conf   : Option TouchConf
  refMap : Option (List Int)
  nodes  : List NodeSt
  selfs  : List NodeSt
  /-- row and column self channels of wet matrix mode -/
  rowE   : List NodeSt
  colE   : List NodeSt
  /-- frames since SCAN was set, the discarded one among them -/
  frames : Nat
  contacts : List Contact
  /-- reports were lost: a RESYNC sequence is due (R403) -/
  resync : Bool
  held   : Option TouchHeld
  /-- newest first -/
  shown  : List ShownRec
  deriving DecidableEq, Repr

/-! ## Pace (R122 to R132) -/

/-- A change of shed causes that waits for its switch lap (R130). -/
structure ShedDue where
  lap   : Nat
  /-- the lap in which the half named it -/
  named : Nat
  peer  : Bool
  pace  : Bool
  mem   : Bool
  deriving DecidableEq, Repr

/-- The pace block of a half beyond its registers. -/
structure PaceSt where
  /-- handshake counts of each meter, newest first, at most 256 -/
  gates   : List (List Nat)
  /-- when the last step was commanded -/
  stepAt  : Option Nat
  /-- when the last gate and the last evaluation ended (R123, R125) -/
  gateAt  : Nat
  evalAt  : Nat
  /-- a command awaits its readback (R127): when it was given, and the setting before it -/
  reading : Bool
  askedAt : Nat
  before  : Nat
  /-- consecutive evaluations at or above DOWNTH, at or above 1,080, and below 1,000 -/
  downRun : Nat
  endRun  : Nat
  lows    : Nat
  /-- two or more meters have failed since the reset (R124) -/
  forced  : Bool
  due     : List ShedDue
  /-- causes in force since their switch laps: own pace, own memory, peer pace, peer memory -/
  force   : List Bool
  /-- switch lap of the last change of this half's causes -/
  shedLap : Nat
  deriving DecidableEq, Repr

/-! ## Check-value units (R328 to R338) -/

/-- A unit's computation in progress at the FEED point: its register, once a byte has been fed. -/
structure CvuSt where
  feed  : Option Nat
  /-- a unit of computation was in progress at the point when ENABLE was set: it is skipped (R335) -/
  skip  : Bool
  /-- results of units of computation that have passed the point and wait to be written (R336), oldest first; none for a flit which the
  model does not spell, whose check value CVU_RESULT brings -/
  ready : List (Option Nat)
  deriving DecidableEq, Repr

/-! ## Lamplighter (R38 to R57, R364 to R371) -/

/-- Where the lamplighter stands with the module. -/
inductive LampPhase where
  /-- VAON below 1.62 V -/
  | noVaon
  /-- PWR_EN low, waiting 10 ms after power-on or for the retry of R41 -/
  | off
  /-- PWR_EN low, waiting for a wake event after three attempts (R41) -/
  | waitWake
  /-- PWR_EN high, waiting for PWR_GOOD -/
  | waitGood
  /-- a module reset is applied and held: RESET_N low -/
  | heldResetN
  /-- held for 1 s after a false start (R64) -/
  | heldFalse
  /-- held by a thermal trip (R45) -/
  | heldTrip
  /-- held until the VCORE that went out during a start has stayed in its window for 100 ms (R42, R54) -/
  | heldVcore
  /-- released: step 1 of the start follows -/
  | released
  /-- start steps 1 to 12 run -/
  | starting
  | running
  | recovery
  | laneTest
  /-- cores held in reset for 1 ms before PWR_EN falls (R369) -/
  | restEntry
  | rest
  deriving DecidableEq, Repr

/-- The scopes of a module start (R49). -/
inductive Scope where
  | powerOn | cold | warm
  deriving DecidableEq, Repr

/-- Why a half is held in reset. -/
inductive HalfHold where
  | none
  /-- 1 ms of a half reset (R61) -/
  | brief
  /-- own VCORE out of its window (R42) -/
  | vcore
  /-- three half false starts (R61) -/
  | falseStarts
  /-- frame store with too few channels (R170) -/
  | frameStore
  /-- the lamplighter has stopped (R370) -/
  | stopped
  deriving DecidableEq, Repr

/-- The reset requests of one lamplighter sample period (R49). -/
structure ResetAsk where
  /-- number of the period -/
  slot   : Nat
  /-- scope of the module reset applied in it; none while it saw half resets alone -/
  scope  : Option Scope
  /-- cause codes of its requests -/
  causes : List Nat
  /-- halves to which it applied a half reset, each with its RST_CAUSE word before and the causes asked -/
  halves : List (HalfId × Word × List Nat)
  /-- entries of class TIME code 3 that a half still writes if its own starter sees the loss of REFCLK too (R54); SEQ is open -/
  late   : List (HalfId × List Byte)
  deriving DecidableEq, Repr

/-- What the lamplighter keeps for one half. -/
structure LampHalf where
  hold     : HalfHold
  /-- when the half was last put into reset -/
  resetAt  : Nat
  /-- half false-start count (R61) -/
  falseStarts : Nat
  session  : Nat
  /-- level of the kick line and the time of its last change (R364) -/
  kickLine : Bool
  kickAt   : Option Nat
  healthLine : Bool
  healthAt : Option Nat
  /-- since when this half's request to reset its peer has stood (R16) -/
  request  : Option Nat
  /-- level of the bypass hold and the time of its last toggle (R366) -/
  holdLine : Bool
  holdAt   : Option Nat
  /-- VCORE was out of its window at the last sample; in window since -/
  vcoreOk  : Option Nat
  deriving DecidableEq, Repr

/-- One of the last eight entries the lamplighter detected (R417). -/
structure LampRec where
  cls     : Nat
  code    : Nat
  unit    : Nat
  wall    : Option Nat
  detail  : List Byte
  /-- already in the ledger of half 0, half 1 -/
  in0     : Bool
  in1     : Bool
  deriving DecidableEq, Repr

/-- A key of the operator inputs (R409 to R411). -/
structure KeySt where
  /-- accepted state: active -/
  active  : Bool
  /-- consecutive samples that differ from the accepted state -/
  differ  : Nat
  /-- times of the accepted transitions of the last second -/
  changes : List Nat
  stuck   : Bool
  chatter : Bool
  /-- level at the last sample, and consecutive samples without a change of it -/
  level   : Bool
  quiet   : Nat
  /-- since when the key has been accepted active, its time in CHATTER left out (R411); when it entered CHATTER -/
  since   : Nat
  chatterAt : Nat
  deriving DecidableEq, Repr

/-- A pass-through session of recovery mode (R387). -/
structure PassSt where
  /-- the density taken (R72), once the flash has been read -/
  learned : Option Nat
  /-- the frame waiting for the islands to qualify -/
  waiting : Option (List Byte)
  /-- a program or erase in progress since -/
  busy    : Option Nat
  /-- the flash's status byte, where the frame that waits came with it, and when it came -/
  status  : Option Byte := none
  askedAt : Nat := 0
  /-- when the status of a program or erase is polled next -/
  pollAt  : Nat := 0
  deriving DecidableEq, Repr

/-- When the lamplighter's next samples and scans are due (R49, R42, R409, R408). -/
structure LampDue where
  sample : Nat
  supply : Nat
  key    : Nat
  scan   : Nat
  deriving DecidableEq, Repr

/-- The lamplighter's own state. -/
structure Lamp where
  regs      : RegFile
  phase     : LampPhase
  /-- when the lamplighter entered its phase -/
  phaseAt   : Nat
  /-- scope and cause of the start in progress or next -/
  scope     : Scope
  cause     : Nat
  /-- false-start count (R63) -/
  fsCount   : Nat
  strap     : Nat
  pwrEn     : Bool
  pwrGood   : Bool
  /-- consecutive PWR_GOOD timeouts (R41) -/
  attempts  : Nat
  h0        : LampHalf
  h1        : LampHalf
  /-- bit n: supply n of R36 was outside its window at the last sample; bit 10: PWR_GOOD low -/
  outLast   : Nat
  /-- bit n: the action for supply n has been taken in the present excursion -/
  outActed  : Nat
  mv        : List Nat
  temps     : List Int
  resetNLow : Bool
  /-- a thermal trip stands: its release condition has not held since (R45) -/
  tripped   : Bool
  /-- reset requests of the present sample period (R49) -/
  asked     : Option ResetAsk
  /-- RESET_N fell or another wake event came during the 1 ms before PWR_EN falls (R369) -/
  wakeHeld  : Option Nat
  startAt   : Nat
  step3At   : Option Nat
  step4At   : Option Nat
  runningAt : Nat
  /-- time since which every condition of LIVE_OK has held (R368) -/
  liveFrom  : Option Nat
  /-- last retrigger of the LIVE_OK toggle -/
  liveTrig  : Nat
  liveFalls : Nat
  /-- half reset awaiting the survivor's alone commit (R368) -/
  grantFrom : Option HalfId
  recs      : List LampRec
  /-- the lamplighter has stopped (R370) -/
  stopped   : Bool
  heartAt   : Nat
  due       : LampDue
  free      : Nat
  keys      : List KeySt
  /-- key events not yet read, oldest first (R412) -/
  events    : List Word
  /-- ganged scan of each group (R408): sum of the first four codes, then four times the rest baseline; codes taken since entry
  to the rest state, up to 4; consecutive codes above the threshold; time of the last movement of the baselines -/
  gangBase  : List Nat
  gangSeen  : List Nat
  gangHits  : List Nat
  gangAt    : Nat
  i2cPtr    : Nat
  i2cOut    : List Byte
  /-- telemetry values mirrored from the core (R388) -/
  mirror    : List Byte
  pass      : PassSt
  deriving DecidableEq, Repr

end Sys2Proof.Machine
end

