-- ==== Sys2Proof/Machine/Picture.lean ====
section
/-!
DEFINITION. The parts of a half's state that make its picture: what the image placed in the half, its sources and frame
slots, the runs, fetches and regions of a lap, decided and scheduled changes, and the panel sub-link.
-/
namespace Sys2Proof.Machine

/-! ## What the image carries (R77, R143, R182, R209, R225, R257) -/

/-- The manifest's fixed part (R77) with the image serial. -/
structure Manifest where
  designPace : Nat
  roles      : Nat
  addr0      : Nat
  addr1      : Nat
  width      : Nat
  height     : Nat
  boundary   : Nat
  maxRefresh : Nat
  minSilicon : Nat
  serial     : Nat
  deriving DecidableEq, Repr

/-- A source directory record (R143). -/
structure SourceRec where
  ident    : Nat
  kind     : Nat
  half     : Nat
  port     : Nat
  flags    : Nat
  format   : Nat
  freezew  : Nat
  width    : Nat
  height   : Nat
  rate     : Nat
  uplat    : Nat
  parent   : Nat
  factor   : Nat
  nosign   : Nat
  slotbase : Nat
  deriving DecidableEq, Repr

/-- A layer record of a scene (R183); for a graphic layer GX and GY stand in `sx` and `sy`. -/
structure LayerRec where
  source : Nat
  flags  : Nat
  matrix : Nat
  dx     : Nat
  dy     : Nat
  dw     : Nat
  dh     : Nat
  sx     : Nat
  sy     : Nat
  sw     : Nat
  sh     : Nat
  hset   : Nat
  vset   : Nat
  budget : Nat
  warn   : Nat
  lalpha : Nat
  deriving DecidableEq, Repr

/-- What a scene names of one half (R182). -/
structure SceneHalf where
  bandFirst  : Nat
  bandCount  : Nat
  aloneFirst : Nat
  aloneCount : Nat
  bandRegions  : Nat
  aloneRegions : Nat
  deriving DecidableEq, Repr

/-- A scene record (R182). -/
structure Scene where
  valid      : Bool
  background : Nat
  h0         : SceneHalf
  h1         : SceneHalf
  layers     : List LayerRec
  deriving DecidableEq, Repr

/-- A graphic image (R209): its device address and tile grid. -/
structure GImage where
  number  : Nat
  half    : Nat
  format  : Nat
  palette : Nat
  tw      : Nat
  th      : Nat
  /-- device address of tile (0, 0) -/
  addr    : Nat
  deriving DecidableEq, Repr

/-- A graphic state set (R209): the image number of each state. -/
structure GSet where
  number  : Nat
  images  : List Nat
  default : Nat
  deriving DecidableEq, Repr

/-- A palette (R210): the device address of its first entry. -/
structure GPalette where
  number  : Nat
  half    : Nat
  entries : Nat
  addr    : Nat
  deriving DecidableEq, Repr

/-- A watch rectangle (R225). -/
structure WatchRec where
  number   : Nat
  flags    : Nat
  variants : Nat
  condmask : Nat
  x        : Nat
  y        : Nat
  w        : Nat
  h        : Nat
  expect   : Nat
  /-- 256 bits, bit s for scene s -/
  scenes   : Nat
  /-- state and alpha of G0 to G7 -/
  cond     : List (Nat × Nat)
  deriving DecidableEq, Repr

/-- The panel initialisation set (R257), defaults applied. -/
structure PanelSet where
  prefer   : List Nat
  kaperiod : Nat
  silence  : Nat
  shutcol  : Nat
  etx0     : Nat
  ety0     : Nat
  etw      : Nat
  eth      : Nat
  deriving DecidableEq, Repr

/-- What the image placed beyond registers and memories. -/
structure ImageSt where
  man      : Manifest
  /-- records of the route book in this half -/
  entries  : Nat
  scenes   : List Scene
  default  : Nat
  images   : List GImage
  gsets    : List GSet
  palettes : List GPalette
  /-- reduced-tap set of V0 to V7, 0xFF none -/
  reduced  : List Nat
  sources  : List SourceRec
  watch    : List WatchRec
  panel    : PanelSet
  deriving DecidableEq, Repr

/-- A load in progress (R62, R81 to R86): the loader reads the sections in manifest order. -/
structure LoadSt where
  /-- 1 slot A, 2 slot B -/
  slot   : Nat
  /-- flash offset of the slot -/
  base   : Nat
  /-- the other slot, where it passed step 3 under newest valid and has not been tried -/
  other  : Option Nat
  /-- places both halves: the start of the module; false for a half start -/
  both   : Bool
  /-- position of the next manifest entry to read -/
  next   : Nat
  /-- what has been read, with the route book lengths of both halves, the port plan and the ring plans as the device has them -/
  img    : ImageSt
  books  : List Nat
  links  : List LinkRec
  ports  : List PortRec
  rings  : List RingPlan
  /-- device address ranges of assets and palettes placed: first address and length -/
  placed : List (Nat × Nat)
  /-- touch configuration and reference map as read, and a configuration that breaks its rules (check 8 of R86) -/
  touch  : Option TouchConf
  map    : Option (Nat × Nat × Nat × List Int)
  badTouch : Bool
  deriving DecidableEq, Repr

/-! ## Intake (R146 to R167) -/

/-- A complete frame in a slot. -/
structure SlotFrame where
  fseq   : Nat
  /-- effective capture time, ns on the source's base -/
  cap    : Int
  arr    : Nat
  fval   : Nat
  noTime : Bool
  /-- wall error bound at arrival, for a native source -/
  ew     : Nat
  /-- order of completion in this source -/
  order  : Nat
  deriving DecidableEq, Repr

/-- A tile of which some cells have arrived. -/
structure PartTile where
  tile  : Nat
  cells : List (Nat × List Byte)
  deriving DecidableEq, Repr

/-- The frame being written. -/
structure Writing where
  slot    : Nat
  fseq    : Nat
  arr     : Nat
  wallArr : Option Int
  ew      : Nat
  csec    : Nat
  cfrac   : Nat
  badTime : Bool
  parts   : List PartTile
  /-- tiles written, with their CRC -/
  crcs    : List (Nat × Nat)
  deriving DecidableEq, Repr

/-- The publish stream of a source (R164, R165). -/
structure PubSt where
  /-- the next tile row due -/
  row     : Nat
  fseq    : Nat
  csec    : Nat
  cfrac   : Nat
  /-- cells of the row that waits for its slots -/
  waiting : List Cell
  /-- the rest of this frame is not sent -/
  cut     : Bool
  deriving DecidableEq, Repr

/-- A source window of a half. -/
structure SourceSt where
  rcd     : SourceRec
  /-- the frame of each slot that is COMPLETE or DAMAGED -/
  slots   : List (Option SlotFrame)
  writing : Option Writing
  /-- sequence of the frame discarded because a tile of it was refused (R340), until another frame begins -/
  refused : Option Nat
  /-- sequence that the next completed SDI frame takes -/
  nextSeq : Nat
  /-- the next frame to complete is taken whatever its sequence -/
  fresh   : Bool
  /-- a frame has completed since ENABLE was set -/
  seen    : Bool
  /-- when ENABLE was set or a frame completed last -/
  since   : Nat
  /-- ENABLE has been set once -/
  enabledOnce : Bool
  /-- consecutive SDI frames without a payload identifier -/
  noPid   : Nat
  badFormat : Bool
  timedOut  : Bool
  /-- slot latched for the present lap, and that lap -/
  latch   : Option Nat
  latchLap : Nat
  order   : Nat
  /-- carried capture fields of the newest frame -/
  carried : Nat × Nat
  /-- tiles of the last written frame, of a source that is published and not held -/
  kept    : List (Nat × List Byte)
  pub     : PubSt
  deriving DecidableEq, Repr

/-- The frame store of a half beyond its registers. -/
structure StoreSt where
  /-- channels mapped out by R171, bit n, kept until a start of power-on, cold or warm scope -/
  out   : Nat
  /-- uncorrectable errors of the last second: channel and time -/
  errAt : List (Nat × Nat)
  /-- 8-byte words that hold an uncorrectable error met so far and not yet overwritten (R169) -/
  bad   : List Nat
  /-- when the last pass of the scrubber ended -/
  scrubAt : Nat
  deriving DecidableEq, Repr

/-! ## A lap (R172 to R193, R222 to R244) -/

/-- Where a tile fetch reads. -/
inductive FetchSrc where
  /-- source of an identity held in a half, from the slot latched for the lap; tile index in the slot -/
  | frame (h : HalfId) (ident tile : Nat)
  /-- an asset tile at a device address -/
  | asset (addr : Nat)
  /-- granule of the pattern store -/
  | pattern (granule : Nat)
  deriving DecidableEq, Repr

/-- A tile that a run fetches: position of its contribution in the run's list, tile of the fetch window, bytes. -/
structure FetchPlan where
  con : Nat
  tx  : Nat
  ty  : Nat
  len : Nat
  src : FetchSrc
  deriving DecidableEq, Repr

/-- A fetch that holds a tag; `got` once it has completed: none inside for not ready. -/
structure FetchSt where
  tag  : Nat
  plan : FetchPlan
  lap  : Nat
  got  : Option (Option (List Byte))
  deriving DecidableEq, Repr

/-- A tile that a pipe has consumed; no bytes for a tile not ready. -/
structure GotTile where
  con   : Nat
  tx    : Nat
  ty    : Nat
  bytes : Option (List Byte)
  deriving DecidableEq, Repr

/-- A contribution entry as executed (R178). -/
structure Contrib where
  what   : Nat
  layer  : Nat
  opaqueC : Bool
  cross  : Bool
  ftx0   : Nat
  fty0   : Nat
  ftw    : Nat
  fth    : Nat
  len    : Nat
  hstart : Nat
  vstart : Nat
  deriving DecidableEq, Repr

/-- Codes of the list that a run executes. -/
inductive Variant where
  | normal | late | stale | rlive | rstale | cfgFault
  deriving DecidableEq, Repr

/-- A run of the lap: its entry, region, rectangle and chosen list. -/
structure RunWork where
  entry   : Nat
  region  : Nat
  tx0     : Nat
  ty0     : Nat
  tw      : Nat
  th      : Nat
  variant : Variant
  list    : List Contrib
  deriving DecidableEq, Repr

/-- A composition pipe. -/
structure PipeSt where
  run    : Option RunWork
  /-- fetches not yet issued -/
  todo   : List FetchPlan
  /-- fetches that hold tags, in the order of the run -/
  issued : List FetchSt
  /-- tiles consumed -/
  got    : List GotTile
  deriving DecidableEq, Repr

/-- An output tile finished by a pipe: its pixel words, none when not ready. -/
structure OutTile where
  tx     : Nat
  ty     : Nat
  pixels : Option (List Nat)
  deriving DecidableEq, Repr

/-- What was pushed for a region. -/
structure Pushed where
  lap      : Nat
  pseq     : Nat
  variants : List Variant
  /-- per video layer of the normal lists: layer, sequence and capture of the latched frame -/
  frames   : List (Nat × Nat × Int)
  deadline : Option Int
  status   : Nat
  /-- layer that sets the status, 0xF none -/
  layer    : Nat
  /-- per video layer whose picture the executed lists hold: its bound less the apply time -/
  held     : List (Nat × Int)
  /-- RESULT of the ECHO -/
  echo     : Option Nat
  deriving DecidableEq, Repr

/-- A region of the set in force. -/
structure RegionSt where
  tx0     : Nat
  ty0     : Nat
  tw      : Nat
  th      : Nat
  /-- the last push -/
  pushed  : Option Pushed
  /-- the content that the panel shows, with its deadline -/
  shown   : Option Pushed
  /-- abandoned, underrun, refused, mismatched or not applied: dirty again -/
  again   : Bool
  /-- pushed and not applied by the reports so far (R268) -/
  unapplied : Bool
  /-- consecutive results other than MATCH -/
  fails   : Nat
  /-- the overstay of the content shown has been counted (R241) -/
  counted : Bool
  deriving DecidableEq, Repr

/-- A region of a former set that may still be on the glass (R241). -/
structure FormerSt where
  region   : Nat
  status   : Nat
  deadline : Int
  /-- screen tiles not yet replaced -/
  tiles    : List (Nat × Nat)
  /-- its overstay has been counted -/
  counted  : Bool
  deriving DecidableEq, Repr

/-- The verdict of a video layer for the present lap (R235). -/
structure LayerVerdict where
  layer    : Nat
  verdict  : Verdict
  reason   : Nat
  bound    : Option Int
  /-- c + budget − S − E − W -/
  deadline : Int
  frame    : Option (Nat × Int)
  slot     : Option Nat
  deriving DecidableEq, Repr

/-- The region that the sub-link carries now. -/
structure OpenRegion where
  region : Nat
  pseq   : Nat
  /-- next tile in raster order -/
  pos    : Nat
  /-- the present tile row is being filled with background -/
  fill   : Bool
  filled : Nat
  /-- pixel words pushed so far, newest last, for hallmark and watch values -/
  words  : List Nat
  deriving DecidableEq, Repr

/-- The push stream of a lap. -/
structure PushSt where
  /-- the blanking report that ends the previous lap has come (R261) -/
  allowed : Bool
  /-- this lap pushes nothing (R261, R273, R276) -/
  barred  : Bool
  /-- dirty regions still to push, ascending -/
  next    : List Nat
  cur     : Option OpenRegion
  tiles   : List OutTile
  /-- PSEQ of the first and last region opened in this lap -/
  first   : Nat
  last    : Nat
  opened  : Bool
  /-- the band is done (R265) -/
  done    : Bool
  deriving DecidableEq, Repr

/-- The last check of a watch rectangle (CMP_WATCHLAST, CMP_WATCHSTAT). -/
structure WatchRes where
  number : Nat
  value  : Nat
  lap    : Nat
  result : Nat
  deriving DecidableEq, Repr

/-- The lap state of a half. -/
structure LapSt where
  /-- recent boundaries: lap number that begins there, local base, newest first -/
  bounds   : List (Nat × Nat)
  regions  : List RegionSt
  /-- regions of former sets, by their index there, whose last push a report may still apply (R241) -/
  old      : List (Nat × RegionSt)
  former   : List FormerSt
  verdicts : List LayerVerdict
  /-- video layers whose latch record is awaited -/
  awaiting : List Nat
  /-- latch records received for a lap not yet begun -/
  early    : List LatchRecord
  /-- AGE_CTRL.FORCE at the boundary of the lap (R235) -/
  forced   : Bool
  /-- every region is dirty: first lap of a scene or set -/
  fresh    : Bool
  /-- the panel asked for every region (R271) -/
  reqAll   : Bool
  /-- the runs of this lap, and those not yet handed to a pipe -/
  chosen   : List RunWork
  runs     : List RunWork
  pipes    : List PipeSt
  push     : PushSt
  /-- the lap deadline has passed, and when -/
  late     : Bool
  cutAt    : Option Nat
  /-- this lap carries no COMMIT (R19) -/
  noCommit : Bool
  /-- T_b of the last reported blanking and the lap it ended (R234); none while cleared -/
  blank    : Option (Int × Nat)
  /-- runs executed in this lap: normal, late, stale, reduced -/
  counts   : List Nat
  dirty    : Nat
  fetchLoc : Nat
  fetchX   : Nat
  /-- state and layer alpha of G0 to G7 in the lap before -/
  gPrev    : List (Nat × Nat)
  /-- palette bytes read at the boundary, by layer -/
  palettes : List (Nat × List Byte)
  /-- the newest lap for which a COMMIT was sent, with its SUBMASK and ranges FIRST0, LAST0, FIRST1, LAST1 -/
  commit   : Option (Nat × Nat × List Nat)
  /-- the COMMITs that no report has applied yet, newest first, in the same form -/
  commits  : List (Nat × Nat × List Nat)
  /-- this half's newest range: lap, FIRST, LAST -/
  range    : Option (Nat × Nat × Nat)
  /-- that COMMIT has not been applied by a report yet -/
  commitOpen : Bool
  /-- the COMMIT of this lap is handed to the peer (R275) -/
  forward  : Bool
  /-- lap of the first alone commit after the last grant, once sent -/
  aloneLap : Option Nat
  watch    : List WatchRes
  deriving DecidableEq, Repr

/-! ## Decided and scheduled changes (R188 to R192, R213, R273, R326) -/

/-- Who is told of the completion of a selection or change. -/
inductive Origin where
  | none
  /-- the status register of a half, for the selection of this number written there -/
  | reg (h : HalfId) (n : Nat)
  /-- a management request executed by a half -/
  | host (h : HalfId) (who : Requester) (tag opcode len : Nat) (payload : List Byte)
  deriving DecidableEq, Repr

/-- What a change does. -/
inductive Change where
  | scene (n : Nat)
  | graphic (layer : Nat) (setState setAlpha : Bool) (state alpha : Nat)
  | mode (n : Nat)
  deriving DecidableEq, Repr

/-- A change held by the commit owner. -/
structure Action where
  order  : Nat
  what   : Change
  /-- wall time T and expiry E in ns of a scheduled change -/
  sched  : Option (Int × Int)
  /-- the switch lap, once named -/
  lap    : Option Nat
  late   : Bool
  /-- wall time was not trusted when it was judged (R326) -/
  untrusted : Bool
  /-- received before lap 0 -/
  early  : Bool
  origin : Origin
  deriving DecidableEq, Repr

/-- A change named in the baton by the commit owner, as a half applies it. -/
structure NamedG where
  lap : Nat
  g   : GChange
  deriving DecidableEq, Repr

/-- Changes known to a half. -/
structure ActSt where
  acts   : List Action
  order  : Nat
  /-- scene switches named for a lap: lap and scene -/
  scenes : List (Nat × Nat)
  /-- graphic changes named for a lap, for this half to apply -/
  named  : List NamedG
  /-- graphic changes still to be sent in baton flits -/
  toSend : List NamedG
  /-- joining peer: SYNC entries still to be sent -/
  sync   : List Nat
  /-- selections written to registers of this half, and the last of each kind: scene, graphic, mode -/
  selNo  : Nat
  lastSel  : Nat
  lastG    : Nat
  lastMode : Nat
  deriving DecidableEq, Repr

/-! ## The panel sub-link (R245 to R276) -/

/-- A timing-mode change in progress (R273, R274). -/
structure ModeChange where
  mode   : Nat
  former : Nat
  /-- switch lap, and the local base of its boundary -/
  lap    : Nat
  began  : Nat
  /-- MODE cells sent, and the time since which the answer is awaited -/
  sentAt : Option Nat
  /-- going back to the former mode -/
  back   : Bool
  deriving DecidableEq, Repr

/-- The panel sub-link of a half. -/
structure PanelSt where
  ident    : Option PanelIdent
  /-- MODE of the last status cell -/
  reported : Option Nat
  /-- switch lap and mode of each change decided by the commit owner and not yet begun -/
  dueModes : List (Nat × Nat)
  /-- modes that the panel declared validly -/
  modes    : List ModeRecord
  /-- mode numbers of the MODEDECL cells since the last IDENT -/
  declared : List Nat
  /-- when initialisation failed, while it is to be retried (R259) -/
  failedAt : Option Nat
  /-- KEPT of the last IDENT, once one has come after a SETUP (R260, R272) -/
  rejoin   : Option Bool
  /-- the present or last SETUP had JOIN set -/
  joinSetup : Bool
  /-- a SETUP has been sent since the sub-link last came up -/
  setup    : Bool
  ready    : Bool
  echoed   : Bool
  /-- keepalives not yet answered: TOKEN and, once sent, the transmit stamp of its mark -/
  tokens   : List (Nat × Option Nat)
  /-- the last TOKEN given, and when -/
  lastTok  : Option Nat
  keepAt   : Nat
  /-- LINKDLY in force (R252); PNL_LINK shows it saturated -/
  linkDly  : Nat
  /-- the blanking of the last READY, local base (R253) -/
  readyTb  : Option Int
  /-- READY and BLANKING cells held until LINKDLY is known, with their stamps -/
  held     : List (Bool × BlankingCell × PanelFlags × Nat)
  /-- PSEQ of the shutter push that awaits its echo, and pushes without MATCH -/
  shutter  : Option Nat
  shutterFails : Nat
  change   : Option ModeChange
  /-- local base of the last BLANKING report -/
  reportAt : Option Nat
  /-- keepalives and commits stopped by R274 -/
  silent   : Bool
  /-- the sub-link is down since -/
  downFrom : Option Nat
  /-- pushing and committing suspended until READY (R272) -/
  waiting  : Bool
  deriving DecidableEq, Repr

/-! ## Reset values -/

/-- No publish stream. -/
def PubSt.reset : PubSt := { row := 0, fseq := 0, csec := 0, cfrac := 0, waiting := [], cut := true }

/-- An idle pipe. -/
def PipeSt.reset : PipeSt := { run := none, todo := [], issued := [], got := [] }

/-- A push stream before its lap. -/
def PushSt.reset : PushSt :=
  { allowed := false, barred := false, next := [], cur := none, tiles := [], first := 0, last := 0, opened := false,
    done := false }

/-- Lap state before lap 0. -/
def LapSt.reset : LapSt :=
  { bounds := [], regions := [], old := [], former := [], verdicts := [], awaiting := [], early := [], forced := false, fresh := false, reqAll := false, cutAt := none,
    chosen := [], runs := [], pipes := List.replicate 4 PipeSt.reset, push := PushSt.reset, late := false, noCommit := false, blank := none,
    counts := [0, 0, 0, 0], dirty := 0, fetchLoc := 0, fetchX := 0, gPrev := [], palettes := [], commit := none, commits := [], commitOpen := false,
    range := none, forward := false, aloneLap := none,
    watch := [] }

/-- No changes held. -/
def ActSt.reset : ActSt := { acts := [], order := 0, scenes := [], named := [], toSend := [], sync := [], selNo := 0, lastSel := 0, lastG := 0, lastMode := 0 }

/-- A panel sub-link that is down. -/
def PanelSt.reset : PanelSt :=
  { ident := none, reported := none, dueModes := [], modes := [], declared := [], failedAt := none, rejoin := none, joinSetup := false, setup := false,
    ready := false, echoed := false, tokens := [], lastTok := none, keepAt := 0, linkDly := 0, readyTb := none,
    held := [], shutter := none, shutterFails := 0, change := none, reportAt := none, silent := false, downFrom := none,
    waiting := false }

end Sys2Proof.Machine
end

