-- ==== Sys2Proof/Machine/State.lean ====
section
/-!
DEFINITION. The state of the module: two halves, the lamplighter, the flash and the key fuse, one simulated clock and the
queue of waiting commands; the reasons a step can stop; and the state after a lamplighter power-on reset.
-/
namespace Sys2Proof.Machine

/-- One half: its registers, memories and the running state of its blocks. -/
structure Half where
  id      : HalfId
  /-- held in reset: no command reaches it and its address range is absent (R425) -/
  inReset : Bool
  /-- time of the release of the time island: the local base counts from here (R307); none before it -/
  epoch   : Option Nat
  /-- the model's own count of free values used by this half -/
  free    : Nat
  regs    : RegFile
  /-- lap 0 has begun since the reset of this half (R173) -/
  lapBegun : Bool
  /-- frame store, by half-relative address -/
  fst     : Mem
  /-- shared SRAM, by offset -/
  sram    : Mem
  starter : StarterSt
  link    : LinkSt
  engines : List Engine
  flt     : LedgerSt
  time    : TimeSt
  host    : HostSt
  port    : PortSt
  /-- the first ring of the half's plane, and a gateway's second -/
  rings   : List RingSt
  cvu     : List CvuSt
  pace    : PaceSt
  /-- what the image placed, once the sections have been placed -/
  image   : Option ImageSt
  /-- the load that this half's loader has in progress -/
  load    : Option LoadSt
  /-- source windows, in directory order -/
  sources : List SourceSt
  store   : StoreSt
  /-- picture lines, runs, regions and pushes of the present lap -/
  lap     : LapSt
  acts    : ActSt
  panel   : PanelSt
  /-- captured words of latched register groups (R445), by the offset at which they are read -/
  latch   : RegFile
  /-- the touch block, of half 0 only (R18) -/
  touch   : TouchSt
  deriving DecidableEq, Repr

/-- The flash device on the QSPI pins: its bytes (an unlisted byte reads 0xFF, erased) and its SFDP table. -/
structure Flash where
  bytes : Mem
  sfdp  : Option Sfdp
  deriving DecidableEq, Repr

/-- The module. -/
structure Module where
  half0 : Half
  half1 : Half
  lamp  : Lamp
  flash : Flash
  /-- the key-hash fuse, 32 bytes once programmed (R79, R387) -/
  fuse  : Option (List Byte)
  deriving DecidableEq, Repr

/-- Why the block stops on a command: the manual gives every command of the table an effect, so no command faults. -/
inductive Fault where
  deriving DecidableEq, Repr

/-- Why the model has no meaning for a command. -/
inductive Refusal where
  /-- the command of this mnemonic has no meaning yet; raised by an arm of exec; safe, since nothing then runs -/
  | notModelled (mnemonic : String)
  deriving DecidableEq, Repr

/-- The state of the machine: the module, the simulated clock in ns and the commands that wait, first in first out. -/
structure State where
  now     : Nat
  mod     : Module
  pending : List Instr
  deriving DecidableEq, Repr

/-! ## Reset values -/

/-- Control registers of an engine at reset: interrupts disabled (R354). -/
def Csrs.reset : Csrs :=
  { mie := false, mpie := false, mieBits := 0, mtvec := 0, mscratch := 0, mepc := 0, mcause := 0, mtval := 0,
    mcycle := 0, minstret := 0 }

/-- An engine in reset. -/
def Engine.reset : Engine :=
  { pc := 0, x := List.replicate 32 0, csr := Csrs.reset, sram := [], entry := none, handling := false,
    timecmp := 2 ^ 64 - 1, beatAt := 0, beaten := false, returning := false, inbox := [], sent := [] }

/-- An empty ledger. -/
def LedgerSt.reset : LedgerSt := { entries := [], mirror := [], accAt := [] }

/-- The half link after a reset of the half. -/
def LinkSt.reset : LinkSt :=
  { out := [], wire := [], hostWait := 0, resendAt := [], bseq := 0, sent := none, lastBseq := none, lastAt := none, peer := none, silentFrom := 0,
    stopped := false, fetchBytes := 0, hostBytes := 0, lost := false, exchanged := false, exchangedAt := 0 }

/-- The starter after a reset of the half. -/
def StarterSt.reset : StarterSt :=
  { releasedAt := 0, wdogAt := 0, trained := none, ready := [], step4From := 0, step4At := 0, step7From := 0,
    step8From := 0, step9From := 0, gotReady := false, gotKaecho := false, returnLap := none, isolated := 0,
    waiting := [] }

/-- A domain in state NONE. -/
def DomainSt.reset : DomainSt :=
  { st := .none, base := 0, anchor := 0, num := 1, den := 1, slew := 0, good := 0, seqs := [], bound := 0, lastAt := 0,
    lastEst := none, since := 0, peerFed := false, seq := 0, unset := false, hops := 0, following := false }

/-- No measurement of a segment. -/
def SegDelay.reset : SegDelay := { asked := none, askedAt := none, vals := [] }

/-- Time state after a reset of the half. -/
def TimeSt.reset : TimeSt :=
  { conf := none, a := DomainSt.reset, b := DomainSt.reset, refB := none, off := 0, offAt := 0, dsw := 0,
    seg := List.replicate 4 SegDelay.reset, pdSeq := 0, bridge := [] }

/-- Host block after a reset of the half. -/
def HostSt.reset : HostSt :=
  { outstanding := [], kept := [], subs := [], queue := [], resend := false, miso := [] }

/-- A receiver that is OFF. -/
def LaneRx.reset : LaneRx :=
  { runBit := false, runLen := 0, taps := 0, fill := 0, buf := [], checked := 0, misses := 0, cells := 0, bads := [],
    drops := [], returning := false, locked := false, errNext := false, inv := false, fifo := [], lastSeq := none }

/-- A transmitter as its lane is enabled: the scrambler holds all ones (R100). -/
def LaneTx.reset : LaneTx :=
  { runBit := false, runLen := 0, taps := 2 ^ 58 - 1, sent := 0, line := [], burst := 0, rateLeft := 0, rateBit := 0,
    gen := 0 }

/-- A checker not seeded. -/
def LaneChk.reset : LaneChk := { reg := 0, have_ := 0, agree := 0, errs := 0, bits := 0 }

/-- A lane in reset. -/
def Lane.reset : Lane := { rx := LaneRx.reset, tx := LaneTx.reset, chk := LaneChk.reset, isle := [], since := 0, pass := [] }

/-- A link that carries nothing. -/
def LinkRun.reset : LinkRun := { lseq := 0, mask := 0, peerUp := 0, queue := [], up := false, downAt := none, rxRow := none, sending := [] }

/-- A port that the plan leaves OFF. -/
def PortRec.off : PortRec :=
  { role := 0, link := 0xFF, rate := 0, swing := 0, pre := 0, post := 0, ctle := 0xFF, dfe := 0 }

/-- Ports of a half before a port plan is placed. -/
def PortSt.reset : PortSt :=
  { links := [], ports := List.replicate 24 PortRec.off, lanes := List.replicate 24 Lane.reset,
    runs := List.replicate 40 LinkRun.reset }

/-- A rotation on which nothing has passed. -/
def RotSt.reset : RotSt :=
  { row := 0, part := [], out := [], next := none, due := false, start := none, turn := [], turning := [], wait := [],
    ended := none, kcand := 0, laps := 0, num := 0, heardAt := 0 }

/-- A ring before its plan is placed. -/
def RingSt.reset : RingSt :=
  { plan := none, east := RotSt.reset, west := RotSt.reset, brokenW := false, brokenE := false,
    edgeW := 0, wholeW := none, wholeE := none, seen := 0, edge := 0, newSeen := 0, newEdge := 0, heard := none, named := none,
    alone := false, lapAt := none, leaveOn := none, fwd := [] }

/-- The pace block after a reset of the half. -/
def PaceSt.reset : PaceSt :=
  { gates := List.replicate 4 [], stepAt := none, gateAt := 0, evalAt := 0, reading := false, askedAt := 0, before := 0, downRun := 0, endRun := 0, lows := 0, forced := false,
    due := [], force := [false, false, false, false], shedLap := 0 }

/-- The touch block after a reset. -/
def TouchSt.reset : TouchSt :=
  { conf := none, refMap := none, nodes := [], selfs := [], rowE := [], colE := [], frames := 0, contacts := [], resync := false,
    held := none, shown := [] }

/-- A check-value unit that holds no computation. -/
def CvuSt.reset : CvuSt := { feed := none, skip := false, ready := [] }

/-- A half in reset, every register at its reset value. -/
def Half.reset (id : HalfId) : Half :=
  { id := id, inReset := true, epoch := none, free := 0, lapBegun := false, regs := [], fst := [], sram := [],
    starter := StarterSt.reset, link := LinkSt.reset, engines := List.replicate 4 Engine.reset, flt := LedgerSt.reset,
    time := TimeSt.reset, host := HostSt.reset, port := PortSt.reset, rings := [RingSt.reset, RingSt.reset],
    cvu := List.replicate 16 CvuSt.reset, pace := PaceSt.reset, image := none, load := none, sources := [], store := { out := 0, errAt := [], bad := [], scrubAt := 0 },
    lap := LapSt.reset, acts := ActSt.reset, panel := PanelSt.reset, latch := [], touch := TouchSt.reset }

/-- What the lamplighter keeps for a half after its own power-on reset. -/
def LampHalf.reset : LampHalf :=
  { hold := .none, resetAt := 0, falseStarts := 0, session := 0, kickLine := false, kickAt := none, healthLine := false,
    healthAt := none, request := none, holdLine := false, holdAt := none, vcoreOk := none }

/-- A key not active. -/
def KeySt.reset : KeySt :=
  { active := false, differ := 0, changes := [], stuck := false, chatter := false, level := false, quiet := 0, since := 0, chatterAt := 0 }

/-- The lamplighter after its power-on reset. -/
def Lamp.reset : Lamp :=
  { regs := [], phase := .off, phaseAt := 0, scope := .powerOn, cause := 1, fsCount := 0, strap := 0, pwrEn := false, pwrGood := false,
    attempts := 0, h0 := LampHalf.reset, h1 := LampHalf.reset, outLast := 0, outActed := 0, mv := List.replicate 10 0,
    temps := List.replicate 4 0, resetNLow := false, tripped := false, asked := none, wakeHeld := none, startAt := 0, step3At := none,
    step4At := none, runningAt := 0, liveFrom := none, liveTrig := 0, liveFalls := 0, grantFrom := none, recs := [],
    stopped := false, heartAt := 0, due := { sample := 0, supply := 0, key := 0, scan := 0 }, free := 0, keys := List.replicate 16 KeySt.reset, events := [],
    gangBase := [0, 0, 0], gangSeen := [0, 0, 0], gangHits := [0, 0, 0], gangAt := 0, i2cPtr := 0, i2cOut := [],
    mirror := [], pass := { learned := none, waiting := none, busy := none } }

/-- A half held by a lamplighter power-on reset: every register at its reset value, but RST_CAUSE, which R50 clears and then
gives cause 1. -/
def Half.poweredOn (id : HalfId) : Half := { Half.reset id with regs := [(0x10008, 0x01000002)] }

/-- The module after a lamplighter power-on reset: PWR_EN low, both halves in reset. -/
def Module.reset : Module :=
  { half0 := Half.poweredOn .h0, half1 := Half.poweredOn .h1, lamp := Lamp.reset, flash := { bytes := [], sfdp := none },
    fuse := none }

/-- The machine right after reset. -/
def State.reset : State := { now := 0, mod := Module.reset, pending := [] }

end Sys2Proof.Machine
end

