-- ==== Sys2Proof/Machine/Ops.lean ====
section
/-!
DEFINITION. The named operations over the state that every block uses: registers and their fields, memories, lists, free
values, the local base and wall time (R307, R308, R314, R320), and the choice of a half.
-/
namespace Sys2Proof.Machine

/-! ## Registers -/

/-- Reset value of the register word at a half-relative offset: that of R432, with the values that differ in half 1. -/
def resetWord (id : HalfId) (off : Nat) : Word :=
  if id = .h1 ∧ off = 0x4 then 1
  else if id = .h1 ∧ 0x50010 ≤ off ∧ off ≤ 0x5001C then 1
  else match regSpec off with
    | some r => r.reset
    | none => 0

/-- The word with `v` in the `n` bits from `lo`. -/
def putBits (w : Word) (lo n v : Nat) : Word :=
  BitVec.ofNat 32 (w.toNat - bitsAt w.toNat lo n * 2 ^ lo + v % 2 ^ n * 2 ^ lo)

/-- The stored register word at a half-relative offset. -/
def Half.reg (h : Half) (off : Nat) : Word := sparseGet (resetWord h.id) h.regs off

/-- The half with a register word stored. -/
def Half.setReg (h : Half) (off : Nat) (w : Word) : Half :=
  { h with regs := sparsePut (resetWord h.id) h.regs off w }

/-- The value of a field. -/
def Half.get (h : Half) (f : Field) : Nat := bitsAt (h.reg f.off).toNat f.lo f.width

/-- A one-bit field as a Boolean. -/
def Half.flag (h : Half) (f : Field) : Bool := h.get f == 1

/-- The half with a field set; the register's other fields stay. -/
def Half.set (h : Half) (f : Field) (v : Nat) : Half := h.setReg f.off (putBits (h.reg f.off) f.lo f.width v)

/-- The half with a one-bit field set from a Boolean. -/
def Half.setFlag (h : Half) (f : Field) (b : Bool) : Half := h.set f (bit b)

/-- Adds to a tally, which stops at its highest value. -/
def Half.tally (h : Half) (f : Field) (n : Nat) : Half := h.set f (satAdd f.width (h.get f) n)

/-- Several fields set in turn. -/
def Half.sets (h : Half) : List (Field × Nat) → Half
  | [] => h
  | (f, v) :: rest => (h.set f v).sets rest

/-- Bit `i` of a field. -/
def Half.getBit (h : Half) (f : Field) (i : Nat) : Bool := bitAt (h.get f) i

/-- A field with bit `i` set or cleared. -/
def setBitNat (v i : Nat) (b : Bool) : Nat := v - bit (bitAt v i) * 2 ^ i + bit b * 2 ^ i

/-- Sets or clears bit `i` of a field. -/
def Half.setBit (h : Half) (f : Field) (i : Nat) (b : Bool) : Half := h.set f (setBitNat (h.get f) i b)

/-- Reset value of a lamplighter register. -/
def lampResetWord (off : Nat) : Word := match lmpRegSpec off with
  | some r => r.reset
  | none => 0

/-- The stored lamplighter register word. -/
def Lamp.reg (l : Lamp) (off : Nat) : Word := sparseGet lampResetWord l.regs off

/-- The lamplighter with a register word stored. -/
def Lamp.setReg (l : Lamp) (off : Nat) (w : Word) : Lamp := { l with regs := sparsePut lampResetWord l.regs off w }

/-- The value of a lamplighter field. -/
def Lamp.get (l : Lamp) (f : Field) : Nat := bitsAt (l.reg f.off).toNat f.lo f.width

/-- A one-bit lamplighter field as a Boolean. -/
def Lamp.flag (l : Lamp) (f : Field) : Bool := l.get f == 1

/-- The lamplighter with a field set. -/
def Lamp.set (l : Lamp) (f : Field) (v : Nat) : Lamp := l.setReg f.off (putBits (l.reg f.off) f.lo f.width v)

/-- The lamplighter with a one-bit field set. -/
def Lamp.setFlag (l : Lamp) (f : Field) (b : Bool) : Lamp := l.set f (bit b)

/-- Adds to a lamplighter tally, which stops at its highest value. -/
def Lamp.tally (l : Lamp) (f : Field) (n : Nat) : Lamp := l.set f (satAdd f.width (l.get f) n)

/-! ## Choice of a half -/

/-- The half of a given number. -/
def Module.half (m : Module) : HalfId → Half
  | .h0 => m.half0
  | .h1 => m.half1

/-- The module with a half replaced. -/
def Module.setHalf (m : Module) (h : HalfId) (x : Half) : Module :=
  match h with
  | .h0 => { m with half0 := x }
  | .h1 => { m with half1 := x }

/-- The module with a half changed. -/
def Module.onHalf (m : Module) (h : HalfId) (f : Half → Half) : Module := m.setHalf h (f (m.half h))

/-- The module with a half changed, when that half is out of reset; nothing reaches a half in reset (R425). -/
def Module.onLive (m : Module) (h : HalfId) (f : Half → Half) : Module :=
  if (m.half h).inReset then m else m.onHalf h f

/-- The module with both halves changed. -/
def Module.onBoth (m : Module) (f : Half → Half) : Module := { m with half0 := f m.half0, half1 := f m.half1 }

/-- The module with the lamplighter changed. -/
def Module.onLamp (m : Module) (f : Lamp → Lamp) : Module := { m with lamp := f m.lamp }

/-- What the lamplighter keeps of a half. -/
def Lamp.half (l : Lamp) : HalfId → LampHalf
  | .h0 => l.h0
  | .h1 => l.h1

/-- The lamplighter with its view of one half changed. -/
def Lamp.onHalf (l : Lamp) (h : HalfId) (f : LampHalf → LampHalf) : Lamp :=
  match h with
  | .h0 => { l with h0 := f l.h0 }
  | .h1 => { l with h1 := f l.h1 }

/-- Engine `n` (0 to 3) of a half. -/
def Half.engine (h : Half) (n : Nat) : Engine := h.engines.getD n Engine.reset

/-- The half with engine `n` changed. -/
def Half.onEngine (h : Half) (n : Nat) (f : Engine → Engine) : Half :=
  { h with engines := h.engines.modify n f }

/-! ## Free values -/

/-- A fresh free value of a half: the value, and the half with its counter advanced. -/
def Half.takeFree (h : Half) : Nat × Half := (Config.freeValue h.id.num h.free, { h with free := h.free + 1 })

/-- A fresh free value of the lamplighter. -/
def Lamp.takeFree (l : Lamp) : Nat × Lamp := (Config.freeValue 2 l.free, { l with free := l.free + 1 })

/-! ## Time -/

/-- One millisecond in ns. -/
def msNs : Nat := 1000000

/-- One second in ns. -/
def secNs : Nat := 1000000000

/-- The local base of a half at time `t` (R307); 0 before the release of its time island. -/
def Half.lb (h : Half) (t : Nat) : Nat := match h.epoch with
  | some e => t - e
  | none => 0

/-- A time of R308 in units of 2^-32 s from its seconds and 32-bit fraction. -/
def timeTicks (sec frac : Nat) : Int := ((sec * 2 ^ 32 + frac : Nat) : Int)

/-- Seconds of a time in units of 2^-32 s. -/
def tickSec (x : Int) : Nat := (x / 2 ^ 32).toNat

/-- The fraction of a time in units of 2^-32 s. -/
def tickFrac (x : Int) : Nat := (x % 2 ^ 32).toNat

/-- A time in ns from one in units of 2^-32 s (R308). -/
def ticksNs (x : Int) : Int := x * (secNs : Int) / 2 ^ 32

/-- A time in units of 2^-32 s that is worth `x` ns (R308): the earliest. -/
def nsTicks (x : Int) : Int := -(-(x * 2 ^ 32) / (secNs : Int))

/-- A time of R308 in ns from its seconds and 32-bit fraction. -/
def r308ns (sec frac : Nat) : Int := ticksNs (timeTicks sec frac)

/-- Seconds of a time in ns. -/
def nsSec (x : Int) : Nat := (x / (secNs : Int)).toNat

/-- A time in ns as the module keeps domain times, in units of 2^-32 ns: whole ns and whole 2^-32 s are both exact in it. -/
def fineOf (ns : Int) : Int := ns * 2 ^ 32

/-- A time in units of 2^-32 s as the module keeps domain times. -/
def fineOfTicks (x : Int) : Int := x * (secNs : Int)

/-- A kept time in units of 2^-32 s, rounded up: whole ns keep their value in ns (R308). -/
def fineTicks (x : Int) : Int := -(-x / (secNs : Int))

/-- A kept time in ns (R308). -/
def fineNs (x : Int) : Int := ticksNs (fineTicks x)

/-- Movement toward zero of a phase of `x` units of 2^-32 ns in `dt` ns, at 50 µs/s (R314, R320). -/
def slewed (x : Int) (dt : Nat) : Int :=
  let lim : Int := (dt * 50 * 2 ^ 32 / 1000000 : Nat)
  if x < 0 then max x (-lim) else min x lim

/-- Domain time at local base `lb` (R314) in units of 2^-32 ns: the anchor value, the local interval at the domain's rate, and the
part of the phase taken up since. -/
def DomainSt.fine (d : DomainSt) (lb : Nat) : Int :=
  let dt := lb - d.anchor
  d.base + ((dt * 2 ^ 32 * d.num / d.den : Nat) : Int) + slewed d.slew dt

/-- Domain time in ns at local base `lb`. -/
def DomainSt.at (d : DomainSt) (lb : Nat) : Int := fineNs (d.fine lb)

/-- A domain of a half's time state. -/
def TimeSt.dom (s : TimeSt) : Domain → DomainSt
  | .a => s.a
  | .b => s.b

/-- The time state with one domain changed. -/
def TimeSt.onDom (s : TimeSt) (d : Domain) (f : DomainSt → DomainSt) : TimeSt :=
  match d with
  | .a => { s with a := f s.a }
  | .b => { s with b := f s.b }

/-- The offset O at local base `lb` (R320), in units of 2^-32 ns. -/
def TimeSt.offset (s : TimeSt) (lb : Nat) : Int := s.off - slewed s.off (lb - s.offAt)

/-- Wall time at local base `lb`, while it exists (R320), in units of 2^-32 ns. -/
def TimeSt.wallFine (s : TimeSt) (lb : Nat) : Option Int :=
  s.refB.map fun isB => (if isB then s.b.fine lb else s.a.fine lb) + s.offset lb

/-- Wall time in ns at local base `lb`, while it exists. -/
def TimeSt.wall (s : TimeSt) (lb : Nat) : Option Int := (s.wallFine lb).map fineNs

/-- Wall time of a half at time `t`, in ns. -/
def Half.wall (h : Half) (t : Nat) : Option Int := h.time.wall (h.lb t)

/-- Wall time of a half at time `t`, in units of 2^-32 s. -/
def Half.wallTicks (h : Half) (t : Nat) : Option Int := (h.time.wallFine (h.lb t)).map fineTicks

/-- RST_STATE.MODE codes. -/
def modeStart : Nat := 0
def modeRunning : Nat := 1
def modeRecovery : Nat := 2
def modeLaneTest : Nat := 3
def modeHalfStart : Nat := 4

/-- The mode of a half. -/
def Half.mode (h : Half) : Nat := h.get F.RST_STATE_MODE

/-- The last start step done. -/
def Half.step (h : Half) : Nat := h.get F.RST_STATE_STEP

/-- The half has declared RUNNING; its RWS fields are sealed (R7). -/
def Half.sealed (h : Half) : Bool := h.mode == modeRunning

/-! ## Lists -/

/-- The list without its first element that satisfies `p`. -/
def dropFirst {α : Type} (p : α → Bool) : List α → List α
  | [] => []
  | x :: xs => if p x then xs else x :: dropFirst p xs

/-- The last `n` elements of a list. -/
def lastN {α : Type} (n : Nat) (l : List α) : List α := l.drop (l.length - n)

/-- The numbers below `n`, in turn, folded over a half. -/
def Half.forBelow (n : Nat) (f : Half → Nat → Half) (h : Half) : Half := (List.range n).foldl f h

end Sys2Proof.Machine
end

