-- ==== Sys2Proof/Machine/Flags.lean ====
section
/-!
DEFINITION. What a half signals: interrupt sources and their overrun flags (R356), events to subscribers (R383) and ledger
entries with their tallies (R416 to R420).
-/
namespace Sys2Proof.Machine

/-- Source numbers of R356. -/
def irqLap : Nat := 0
def irqBaton : Nat := 1
def irqNoBaton : Nat := 2
def irqLedger : Nat := 3
def irqHost : Nat := 4
def irqRegion : Nat := 5
def irqPanel : Nat := 6
def irqSource : Nat := 7
def irqTime : Nat := 8
def irqRing : Nat := 9
def irqTouch : Nat := 10
def irqKey : Nat := 11
def irqCvu : Nat := 12
def irqAccess : Nat := 13
def irqShed : Nat := 14
def irqRole : Nat := 15

/-- An event of source `s` reaches the interrupt controller of engine `n`: it sets the pending bit, or is coalesced and sets
the overrun bit (R356). -/
def Half.raiseAt (h : Half) (n s : Nat) : Half :=
  if h.getBit (F.ENG_IRQPEND_PEND n) s then h.setBit (F.ENG_IRQOVR_OVR n) s true
  else h.setBit (F.ENG_IRQPEND_PEND n) s true

/-- An event of source `s` reaches the four controllers of the half (R356). -/
def Half.raise (h : Half) (s : Nat) : Half := (((h.raiseAt 0 s).raiseAt 1 s).raiseAt 2 s).raiseAt 3 s

/-- The event classes of R383. -/
def eventClasses : List Nat := [3, 5, 6, 7, 8, 9, 11, 13, 14, 15]

/-- The subscription with the latest data of a class, when its mask names the class. -/
def Sub.note (s : Sub) (cls : Nat) (data : List Byte) : Sub :=
  if bitAt s.mask cls then { s with due := s.due.filter (fun d => d.1 != cls) ++ [(cls, data)] } else s

/-- Data of an event class waits for the end of the lap, the latest in place of an earlier one (R383). -/
def Half.note (h : Half) (cls : Nat) (data : List Byte) : Half :=
  { h with host := { h.host with subs := h.host.subs.map fun s => s.note cls data } }

/-- A change of the register word at `off` raises source `s` and its event class (R356, R383). -/
def Half.signal (h : Half) (s off : Nat) : Half :=
  let h := h.raise s
  if eventClasses.contains s then h.note s (beBytes 4 (h.reg off).toNat) else h

/-- A change of the role of engine `n` (R360, R361) raises source 15 at engine `at_` and its event class, with the ENG_STATE word. -/
def Half.roleChange (h : Half) (at_ n : Nat) : Half :=
  (h.raiseAt at_ irqRole).note irqRole (beBytes 4 (h.reg (0xE0004 + 0x100 * n)).toNat)

/-- Applies a change and signals source `s` when the register word at `off` changed by it. -/
def Half.signalling (h : Half) (s off : Nat) (f : Half → Half) : Half :=
  let h' := f h
  if h'.reg off = h.reg off then h' else h'.signal s off

/-! ## The ledger -/

/-- Fault class codes of R416. -/
def clsLane : Nat := 0x01
def clsRing : Nat := 0x02
def clsLink : Nat := 0x03
def clsMem : Nat := 0x04
def clsSrc : Nat := 0x05
def clsAge : Nat := 0x06
def clsPnl : Nat := 0x07
def clsTime : Nat := 0x08
def clsAcc : Nat := 0x09
def clsCfg : Nat := 0x0A
def clsPace : Nat := 0x0B
def clsEng : Nat := 0x0C
def clsPwr : Nat := 0x0D
def clsTch : Nat := 0x0E
def clsStart : Nat := 0x0F
def clsHost : Nat := 0x10

/-- `n` bytes of a list, zero filled. -/
def padTo (n : Nat) (bs : List Byte) : List Byte := sliceBytes bs 0 n

/-- The 48 bytes of an entry (R418). -/
def entryBytes (seq cls code flags unit lap loc wall : Nat) (detail : List Byte) : List Byte :=
  leBytes 4 seq ++ [BitVec.ofNat 8 cls, BitVec.ofNat 8 code, BitVec.ofNat 8 flags, BitVec.ofNat 8 unit]
    ++ leBytes 4 lap ++ leBytes 8 loc ++ leBytes 4 wall ++ padTo 24 detail

/-- LAP of an entry: the lap number, or 0xFFFF_FFFF before lap 0 (R418). -/
def Half.entryLap (h : Half) : Nat := if h.lapBegun then h.get F.RBK_LAP_LAP else 2 ^ 32 - 1

/-- The field of FLT_CLASS that counts entries of class `cls`, 1 to 16. -/
def classField (cls : Nat) : Field := ⟨0x140010 + 4 * ((cls - 1) / 4), 8 * ((cls - 1) % 4), 8⟩

/-- The next entry overwrites one whose read mark is clear (R418). -/
def LedgerSt.losesUnread (l : LedgerSt) : Bool := match l.entries[255]? with
  | some r => !r.read
  | none => false

/-- The ledger with an entry added; the oldest of 256 goes. -/
def LedgerSt.add (l : LedgerSt) (bytes : List Byte) : LedgerSt :=
  { l with entries := (LedgerRec.mk bytes false :: l.entries).take 256 }

/-- A message given to the half link; one to a peer in reset is discarded by the crossing (R138). -/
def Half.send (h : Half) (x : LinkMsg) : Half :=
  if h.flag F.LNK_STATUS_PEER_RESET then h else { h with link := { h.link with out := h.link.out ++ [x] } }

/-- Writes an entry: SEQ and NEXT step, the oldest entry is overwritten, its class is counted, source 3 and event class 3 are
raised and the entry is handed to the half link (R418, R420, R421). -/
def Half.writeEntry (h : Half) (e : Nat → List Byte) (cls : Nat) : Half :=
  let seq := h.get F.FLT_HEAD_SEQ
  let bytes := e seq
  let h1 : Half := if h.flt.losesUnread then h.set F.FLT_STATUS_WRAPPED 1 else h
  let h2 : Half := { h1 with flt := h1.flt.add bytes }
  let h3 := ((h2.set F.FLT_HEAD_SEQ (seq + 1)).set F.FLT_STATUS_NEXT ((seq + 1) % 256)).tally (classField cls) 1
  ((h3.send (.ledger bytes)).raise irqLedger).note irqLedger bytes

/-- FLAGS of an entry: HALF, further bits, and WALL with WALLSEC valid (R418). -/
def Half.entryFlags (h : Half) (extra : Nat) (wall : Option Int) : Nat :=
  h.id.num + extra + (if wall.isSome then 8 else 0)

/-- Records a fault that this half detects at time `t` (R417). -/
def Half.fault (h : Half) (t cls code unit : Nat) (detail : List Byte) : Half :=
  let wall := h.wall t
  let sec := match wall with
    | some w => nsSec w
    | none => 0
  h.writeEntry (fun seq => entryBytes seq cls code (h.entryFlags 0 wall) unit h.entryLap (h.lb t) sec detail) cls

/-- The word at `off` as four bytes of DETAIL (R419). -/
def Half.wordBytes (h : Half) (off : Nat) : List Byte := leBytes 4 (h.reg off).toNat

end Sys2Proof.Machine
end

