-- ==== Sys2Proof/Machine/Pace.lean ====
section
/-!
DEFINITION. Pace, VCORE steps and load shedding (R122 to R132), with the PMBus readback of R127 and R389.
-/
namespace Sys2Proof.Machine

/-- Mean of a list of counts, rounded down; 0 of none. -/
def meanOf (l : List Nat) : Nat := l.sum / l.length

/-- The half with its pace state changed. -/
def Half.onPace (h : Half) (f : PaceSt → PaceSt) : Half := { h with pace := f h.pace }

/-- The field of PACE_NOW01 and PACE_NOW23 that holds PACE_NOW of meter `n`. -/
def paceNow (n : Nat) : Field := ⟨0x120000 + 4 * (n / 2), 16 * (n % 2), 16⟩

/-- Meter `n` is treated as failed (R124). -/
def Half.meterFailed (h : Half) (n : Nat) : Bool := decide (h.get (paceNow n) < 500) || decide (4000 < h.get (paceNow n))

/-- Meters that are treated as failed and were not before: fault class PACE code 1, with PACE_HALF (R124). -/
def Half.meterFault (h : Half) (t before n : Nat) : Half :=
  if h.meterFailed n && !bitAt before n then h.fault t clsPace 1 n (h.wordBytes F.PACE_HALF_word.off) else h

/-- Measured pace (R124): the mean over the meters not failed. With all four failed the manual states no value: a free one. -/
def Half.measure (h : Half) : Half :=
  let good := (List.range 4).filter fun n => !h.meterFailed n
  if good = [] then
    let f := h.takeFree
    f.2.set F.PACE_HALF_MEAN f.1
  else h.set F.PACE_HALF_MEAN (meanOf (good.map fun n => h.get (paceNow n)))

/-- A gate of 1 µs (R123, R124): each meter's count joins its last 256, and PACE_NOW, the measured pace and the failed meters
follow. Before 256 gates PACE_NOW is the mean of the gates there have been (log entry 122). -/
def Half.paceGate (h : Half) (t : Nat) (counts : List Nat) : Half :=
  let gates := (List.range 4).map fun n => (counts.getD n 0 :: h.pace.gates.getD n []).take 256
  let h1 := h.onPace fun (p : PaceSt) => { p with gates := gates, gateAt := t }
  let h2 := h1.forBelow 4 fun h n => h.set (paceNow n) (meanOf (gates.getD n []))
  let before := h2.get F.PACE_HALF_FAILED
  let failed := (List.range 4).filter h2.meterFailed
  let h3 := (h2.set F.PACE_HALF_FAILED (failed.foldl (fun b n => b + 2 ^ n) 0)).measure
  let h4 := h3.onPace fun (p : PaceSt) => { p with forced := p.forced || decide (2 ≤ failed.length) }
  h4.forBelow 4 fun h n => h.meterFault t before n

/-- FLOOR in force (PACE_CTRL). -/
def Half.floor (h : Half) : Nat := max 70 (min 90 (h.get F.PACE_CTRL_FLOOR))

/-- DOWNTH in force (PACE_CTRL). -/
def Half.downTh (h : Half) : Nat := max 1080 (h.get F.PACE_CTRL_DOWNTH)

/-! ## VCORE steps -/

/-- The pace block commands a setting over PMBus at time `t` and awaits its readback (R126, R127). -/
def Half.commandVcore (h : Half) (t setting : Nat) : Half :=
  (h.set F.PACE_REG_SETTING setting).onPace fun (p : PaceSt) => { p with
    reading := true, askedAt := t, before := h.get F.PACE_REG_SETTING }

/-- A step of 10 mV commanded at time `t`. -/
def Half.stepVcore (h : Half) (t setting : Nat) : Half :=
  (h.commandVcore t setting).onPace fun (p : PaceSt) => { p with stepAt := some t, downRun := 0 }

/-- No step has been commanded in the preceding 1 ms. -/
def PaceSt.mayStep (p : PaceSt) (t : Nat) : Bool := match p.stepAt with
  | some s => decide (s + msNs ≤ t)
  | none => true

/-- Steps of VCORE after an evaluation (R127, R128). A setting below FLOOR comes into the span by steps up alone (log entry 123). -/
def Half.paceStep (h : Half) (t margin : Nat) : Half :=
  let s := h.get F.PACE_REG_SETTING
  if h.flag F.PACE_REG_REGFAIL then h
  else if margin < 1050 then
    if s < 90 ∧ h.pace.mayStep t then (h.stepVcore t (s + 1)).tally F.PACE_TALLY_UP 1 else h
  else if 1000 ≤ h.pace.downRun ∧ h.floor < s ∧ h.flag F.PACE_SHED_OWNPACE = false ∧ h.pace.mayStep t then
    (h.stepVcore t (s - 1)).tally F.PACE_TALLY_DOWN 1
  else h

/-- The regulator has failed (R127): REGFAIL and fault class PWR code 4. -/
def Half.regFail (h : Half) (t : Nat) : Half :=
  if h.flag F.PACE_REG_REGFAIL then h
  else
    let h1 := h.set F.PACE_REG_REGFAIL 1
    h1.fault t clsPwr 4 h.id.num (h1.wordBytes F.PACE_REG_word.off)

/-- STATUS_WORD shows a fault bit (R389). -/
def statusFault (w : Nat) : Bool := [15, 14, 13, 6, 5, 4, 3, 2, 1].any (bitAt w)

/-- READ_VOUT differs from the setting by more than 2 % (R127). -/
def voutOff (setting mv : Nat) : Bool :=
  let want := 10 * setting
  decide (want * 102 < mv * 100) || decide (mv * 100 < want * 98)

/-- 500 µs after a command (R127): READ_VOUT and STATUS_WORD are judged. A command that was not acknowledged leaves the setting as it
was before (log entry 124). -/
def Half.readback (h : Half) (t : Nat) (ack : Bool) (mv status : Nat) : Half :=
  if h.pace.reading then
    let h1 := h.onPace fun (p : PaceSt) => { p with reading := false }
    let h2 := if ack then h1.set F.PACE_REG_VOUT mv else h1.set F.PACE_REG_SETTING h.pace.before
    if !ack || statusFault status || voutOff (h2.get F.PACE_REG_SETTING) mv then h2.regFail t else h2
  else h

/-- PMBx_ALERT_N low for 1 ms (R389): STATUS_WORD is read. -/
def Half.pmbAlert (h : Half) (t : Nat) (ack : Bool) (status : Nat) : Half :=
  if !ack || statusFault status then h.regFail t else h

/-! ## Load shedding -/

/-- The earlier of two laps (R4). -/
def earlierLap (a b : Nat) : Nat := if newer 32 a b then b else a

/-- A change of causes with its switch lap; when both halves name a switch in the same lap the earlier governs (R130). -/
def PaceSt.name (p : PaceSt) (x : ShedDue) : PaceSt :=
  let twins := p.due.filter fun d => d.peer != x.peer && d.named == x.named
  let lap := (twins.map fun d => d.lap).foldl earlierLap x.lap
  let old := p.due.map fun (d : ShedDue) => if d.peer != x.peer && d.named == x.named then { d with lap := lap } else d
  { p with due := old ++ [{ x with lap := lap }], shedLap := if x.peer then p.shedLap else x.lap }

/-- The half's own causes take new values at lap `lap` (R129, R130). -/
def Half.ownCauses (h : Half) (lap : Nat) (pace mem : Bool) : Half :=
  let wasPace := h.flag F.PACE_SHED_OWNPACE
  let wasMem := h.flag F.PACE_SHED_OWNMEM
  if pace = wasPace ∧ mem = wasMem then h
  else
    let h1 := h.signalling irqShed F.PACE_SHED_word.off fun h => (h.setFlag F.PACE_SHED_OWNPACE pace).setFlag F.PACE_SHED_OWNMEM mem
    let h2 := if (pace || mem) && !(wasPace || wasMem) then h1.tally F.PACE_TALLY_SHEDS 1 else h1
    h2.onPace fun p => p.name ⟨lap, h.get F.RBK_LAP_LAP, false, pace, mem⟩

/-- The lap in which a half decided that names switch lap `lap` (R130). -/
def decidedIn (lap : Nat) : Nat := (lap + 2 ^ 32 - 2) % 2 ^ 32

/-- The peer's causes as its baton states them, with its switch lap, two laps after the one in which the peer decided (R130). While this
half runs alone they stand at its next lap, for the return lap of the peer that joins. -/
def Half.peerCauses (h : Half) (lap : Nat) (pace mem : Bool) : Half :=
  if h.flag F.PACE_SHED_PEERPACE = pace ∧ h.flag F.PACE_SHED_PEERMEM = mem then h
  else
    let h1 := h.signalling irqShed F.PACE_SHED_word.off fun h => (h.setFlag F.PACE_SHED_PEERPACE pace).setFlag F.PACE_SHED_PEERMEM mem
    h1.onPace fun p => p.name ⟨if h.flag F.SYS_HALF_ALONE then h.get F.RBK_LAP_LAP else lap, decidedIn lap, true, pace, mem⟩

/-- The causes in force after a change takes its switch lap. -/
def ShedDue.into (force : List Bool) (d : ShedDue) : List Bool :=
  if d.peer then [force.getD 0 false, force.getD 1 false, d.pace, d.mem]
  else [d.pace, d.mem, force.getD 2 false, force.getD 3 false]

/-- At the start of lap `n` the changes named for it are taken up, those that a half found in its half start at once, and ACTIVE
follows (R130); alone, no variant is changed (R132). -/
def Half.shedLap (h : Half) (n : Nat) (alone : Bool) : Half :=
  let later (d : ShedDue) : Bool := newer 32 d.lap n && h.mode != modeHalfStart
  let now := h.pace.due.filter fun d => !later d
  let force := now.foldl ShedDue.into h.pace.force
  let h1 := h.onPace fun (p : PaceSt) => { p with due := p.due.filter later, force := force }
  h1.signalling irqShed F.PACE_SHED_word.off fun h => h.setFlag F.PACE_SHED_ACTIVE ((force.any fun b => b) && !alone)

/-- The half decides to shed for its own pace (R124, R129). -/
def Half.sheds (h : Half) (margin : Nat) : Bool :=
  h.pace.forced || decide (margin < 950)
    || (decide (2 ≤ h.pace.lows) && (h.get F.PACE_REG_SETTING == 90 || h.flag F.PACE_REG_REGFAIL))

/-- The pace cause after an evaluation (R129, R131). -/
def Half.paceCause (h : Half) (margin : Nat) : Half :=
  let lap := (h.get F.RBK_LAP_LAP + 2) % 2 ^ 32
  let mem := h.flag F.PACE_SHED_OWNMEM
  if h.flag F.PACE_SHED_OWNPACE then
    if 2000 ≤ h.pace.endRun ∧ h.pace.forced = false then (h.set F.PACE_SHED_EMERG 0).ownCauses lap false mem else h
  else if h.sheds margin then
    (h.setFlag F.PACE_SHED_EMERG (h.pace.forced || decide (margin < 950))).ownCauses lap true mem
  else h

/-- The margin of R125 at the design pace in force, cut at what MARGIN can hold (log entry 125). -/
def Half.margin (h : Half) : Nat := min 0xFFF (1000 * h.get F.PACE_HALF_MEAN / h.get F.LDR_DESIGN_PACE)

/-- The lowest margin and measured pace seen (PACE_LOW). -/
def Half.paceLow (h : Half) (margin : Nat) : Half :=
  (h.set F.PACE_LOW_MARGIN (min margin (h.get F.PACE_LOW_MARGIN))).set F.PACE_LOW_MEAN
    (min (h.get F.PACE_HALF_MEAN) (h.get F.PACE_LOW_MEAN))

/-- The half evaluates its margin: from the end of step 6 of a start, or in RUNNING (R125). -/
def Half.evaluates (h : Half) : Bool :=
  decide (6 ≤ h.step) && (h.mode == modeStart || h.mode == modeHalfStart || h.mode == modeRunning)

/-- An evaluation of the margin, once per millisecond from the end of step 6 (R125 to R131). -/
def Half.paceEvaluate (h : Half) (t : Nat) : Half :=
  if !h.evaluates then h
  else
    let m := h.margin
    let h1 := (h.set F.PACE_HALF_MARGIN m).paceLow m
    let h2 := h1.onPace fun (p : PaceSt) => { p with
      evalAt := t
      downRun := if h1.downTh ≤ m then p.downRun + 1 else 0
      endRun := if 1080 ≤ m then p.endRun + 1 else 0
      lows := if m < 1000 then p.lows + 1 else 0 }
    (h2.paceStep t m).paceCause m

end Sys2Proof.Machine
end

