-- ==== Sys2Proof/Machine/Operands.lean ====
section
/-!
DEFINITION. The operand forms of an access: the device address map (R428, R430), the access units of its ranges, the engine
view (R353, R431), the master identities of R340 and the ports, planes and windows that commands name.
-/
namespace Sys2Proof.Machine

/-- Kinds of access (R340). -/
inductive AccessKind where
  | read | write | fetch
  deriving DecidableEq, Repr

/-- KIND code of R349. -/
def AccessKind.code : AccessKind → Nat
  | .read => 0
  | .write => 1
  | .fetch => 2

/-- What a device address names (R428, R430), with the offset in the range. -/
inductive Target where
  /-- frame store, half-relative address -/
  | store (h : HalfId) (off : Nat)
  /-- register word space of a half: half-relative offset -/
  | reg (h : HalfId) (off : Nat)
  /-- shared SRAM of a half: offset in it -/
  | sram (h : HalfId) (off : Nat)
  /-- lamplighter range -/
  | lamp (off : Nat)
  | absent
  deriving DecidableEq, Repr

/-- The blocks that R430 places in the register space of a half, by 64 KiB number. -/
def blockPresent (b : Nat) : Bool := b ≤ 0x10 || b == 0x12 || b == 0x13 || b == 0x14
  || (0x40 ≤ b && b ≤ 0x43) || (0x50 ≤ b && b ≤ 0x53)

/-- The half of a number. -/
def halfOf (n : Nat) : HalfId := if n = 0 then .h0 else .h1

/-- The range that a device address falls in, by R428 and R430 alone. -/
def decodeAddr (a : Nat) : Target :=
  if a < 0x100000000 then .store (halfOf (a / 0x80000000)) (a % 0x80000000)
  else if a < 0x102000000 then
    let h := halfOf ((a - 0x100000000) / 0x1000000)
    let off := a % 0x1000000
    if blockPresent (off / 0x10000) then .reg h off
    else if 0x600000 ≤ off ∧ off < 0x700000 then .sram h (off - 0x600000)
    else .absent
  else if a < 0x102010000 then .lamp (a - 0x102000000)
  else .absent

/-- The half in whose range an address lies, if it lies in one. -/
def Target.half? : Target → Option HalfId
  | .store h _ => some h
  | .reg h _ => some h
  | .sram h _ => some h
  | .lamp _ => none
  | .absent => none

/-- The frame store of a half has lost its last eighth: its channel map has N = 7 (R170). -/
def Half.sevenChannels (h : Half) : Bool := h.get F.FST_CHMAP_N == 7

/-- A byte exists for a half that issues an access: not absent by R428, R430 or R170, not in a half held in reset (R425),
nor in the lamplighter range while the issuing half sees the lamplighter stopped (R429). -/
def Module.exists? (m : Module) (issuer : HalfId) (a : Nat) : Bool :=
  match decodeAddr a with
  | .store h off => !(m.half h).inReset && !((m.half h).sevenChannels && decide (0x60000000 ≤ off ∧ off < 0x70000000))
  | .reg h _ => !(m.half h).inReset
  | .sram h _ => !(m.half h).inReset
  | .lamp _ => !(m.half issuer).flag F.ENG_SUPV_LMPSTOP
  | .absent => false

/-- Access sizes: a single access, a tile fetch, or a host series of word accesses over `len` bytes (R430). -/
inductive AccessSize where
  | single (n : Nat)
  | tile
  | words (n : Nat)
  deriving DecidableEq, Repr

/-- Bytes of an access. -/
def AccessSize.bytes : AccessSize → Nat
  | .single n => n
  | .tile => 1024
  | .words n => 4 * n

/-- Memory ranges take an aligned 1, 2 or 4 bytes, or an aligned tile (R428, test 1 of R341). -/
def AccessSize.fitsMemory (z : AccessSize) (a : Nat) : Bool := match z with
  | .single n => (n == 1 || n == 2 || n == 4) && a % n == 0
  | .tile => a % 1024 == 0
  | .words _ => a % 4 == 0

/-- Register ranges take whole aligned words (R5, R430). -/
def AccessSize.fitsReg (z : AccessSize) (a : Nat) : Bool := match z with
  | .single n => n == 4 && a % 4 == 0
  | .tile => false
  | .words _ => a % 4 == 0

/-- Test 1 of R341: the size and alignment suit the range of the first byte; for an absent first byte, some range. -/
def AccessSize.fits (z : AccessSize) (a : Nat) : Bool := match decodeAddr a with
  | .store _ _ => z.fitsMemory a
  | .sram _ _ => z.fitsMemory a
  | .reg _ _ => z.fitsReg a
  | .lamp _ => z.fitsReg a
  | .absent => z.fitsMemory a || z.fitsReg a

/-- Device address of a half-relative register offset. -/
def regAddr (h : HalfId) (off : Nat) : Nat := 0x100000000 + 0x1000000 * h.num + off

/-- Device address of a half-relative frame store address. -/
def storeAddr (h : HalfId) (off : Nat) : Nat := 0x80000000 * h.num + off

/-- Where an engine address leads (R353, R431). -/
inductive EngineTarget where
  | sram (off : Nat)
  | device (d : Nat)
  | outside
  deriving DecidableEq, Repr

/-- The engine view of R431 for engine `n` of a half. -/
def Half.engineView (h : Half) (n : Nat) (a : Nat) : EngineTarget :=
  if a < 0x20000 then .sram a
  else if 0x100000 ≤ a ∧ a < 0x200000 then .device (0x100600000 + 0x1000000 * h.id.num + (a - 0x100000))
  else if 0x20000000 ≤ a ∧ a < 0x23000000 then .device (0x100000000 + (a - 0x20000000))
  else if 0x80000000 ≤ a ∧ a < 0x100000000 then .device (0x80000000 * h.get (F.FST_WINBASE_HALF n) + (a - 0x80000000))
  else .outside

/-- Master identity codes of R340. -/
def mLoader : Nat := 8
def mService : Nat := 9
def mDebug : Nat := 10
def mTouch : Nat := 11
def mFetch : Nat := 12
def mIntake : Nat := 13
def mPanel : Nat := 14
def mLamp : Nat := 15
def mWallMaster : Nat := 16
def mRingMaster : Nat := 17
def mRelayed : Nat := 18
def mOther : Nat := 19

/-- The half that holds the service port and the flash bus: half 0 while it is out of reset (R17). -/
def Module.holder (m : Module) : HalfId := if m.half0.inReset then .h1 else .h0

/-- The half in which an access of a master to half `target` is issued (R339): engines in their own half, the service port in
its holder, every other master in the half that it reaches. -/
def Module.issuer (m : Module) (master : Nat) (target : HalfId) : HalfId :=
  if master ≤ 3 then .h0
  else if master ≤ 7 then .h1
  else if master = mService then m.holder
  else target

/-- The identity of a half's steward (R340). -/
def stewardOf (h : HalfId) : Nat := 4 * h.num

/-- The device port number of port `p` of a half. -/
def devicePort (h : HalfId) (p : Nat) : Nat := 24 * h.num + p

end Sys2Proof.Machine
end

