-- ==== Sys2Proof/Machine/Acr.lean ====
section
/-!
DEFINITION. Access rules (chapter 15): the check of R341 with the fixed rules of R344 and the start rule of R345, the record
of a refusal (R349, R350), and the epoch switch (R347).
-/
namespace Sys2Proof.Machine

/-- Cause codes of R341. -/
def causeRegion : Nat := 0
def causeNoRegion : Nat := 1
def causeStraddle : Nat := 2
def causeFixed : Nat := 3
def causeAbsent : Nat := 4
def causeSize : Nat := 5

/-- A refusal: its cause, the region that holds the first byte (0xFF none) and the first refused address (R349). -/
structure Denial where
  cause  : Nat
  region : Nat
  first  : Nat
  deriving DecidableEq, Repr

/-- The start rule is in force: no switch has taken place since the reset of the half (R345). -/
def Half.startRule (h : Half) : Bool := h.get F.ACR_EPOCH_EPOCH == 0 && !h.flag F.ACR_EPOCH_SWITCHING

/-- Entry `i` of the active table covers page `p`. -/
def Half.covers (h : Half) (p i : Nat) : Bool :=
  let b := h.get (F.ACR_BASE_PAGE i)
  decide (b ≤ p) && decide (p < b + h.get (F.ACR_PAGES_COUNT i))

/-- The region of the active table that holds a byte. -/
def Half.regionOf (h : Half) (a : Nat) : Option Nat :=
  if h.startRule then none else (List.range 64).find? (h.covers (a / 4096))

/-- The region number of R349, 0xFF for none. -/
def Half.regionNumber (h : Half) (a : Nat) : Nat := (h.regionOf a).getD 0xFF

/-- The fixed rules of R344: `some true` grants, `some false` refuses, `none` leaves the access to the regions. A write of RST_CMD by
the service port is honoured in every epoch (R54, the paragraph after R345; log entry 43). -/
def fixedRule (a master : Nat) (kind : AccessKind) : Option Bool :=
  match decodeAddr a with
  | .reg _ off =>
    let blk := off / 0x10000
    if (0x40 ≤ blk && blk ≤ 0x43) || (0x50 ≤ blk && blk ≤ 0x53) then
      if kind == .write then some (master == mLoader) else none
    else if (off == 0xD0004 || (0xD0500 ≤ off && off < 0xD0900)) && kind == .write then some (master == mLoader)
    else if (blk == 0 || blk == 1 || blk == 0x14) && master == mLamp then some true
    else if off == F.RST_CMD_word.off && kind == .write && master == mService then some true
    else none
  | .store _ off =>
    if 0x7F000000 ≤ off then
      if kind == .write then (if master == mLoader then none else some false)
      else if master == mFetch || master == mPanel then some true
      else none
    else none
  | _ => none

/-- The start rule (R345): what it grants beyond the fixed rules. -/
def startGrants (a master : Nat) : Bool :=
  master == mLoader || (master == mService && (match decodeAddr a with
    | .reg .h0 off => off / 0x10000 == 1 || off / 0x10000 == 2
    | _ => false))

/-- The range of a half's frame store that a map of 7 channels leaves absent (R170); accesses to it are recorded with region NONE. -/
def Module.unmapped (m : Module) (a : Nat) : Bool := match decodeAddr a with
  | .store h off => (m.half h).sevenChannels && decide (0x60000000 ≤ off ∧ off < 0x70000000)
  | _ => false

/-- The first absent byte of an access of `n` bytes from `a`, if one is absent. -/
def Module.firstAbsent (m : Module) (issuer : HalfId) (a : Nat) : Nat → Option Nat
  | 0 => none
  | n + 1 => if m.exists? issuer a then m.firstAbsent issuer (a + 1) n else some a

/-- Tests 4 to 6 of R341: the regions of the issuing half. -/
def Half.regionCheck (h : Half) (a n master : Nat) (kind : AccessKind) : Option Denial :=
  match h.regionOf a with
  | none => some ⟨causeNoRegion, 0xFF, a⟩
  | some r =>
    let mask := if kind == .write then h.get (F.ACR_WMASK_MASK r) else h.get (F.ACR_RMASK_MASK r)
    if bitAt mask master then
      if h.covers ((a + n - 1) / 4096) r then none
      else some ⟨causeStraddle, r, (h.get (F.ACR_BASE_PAGE r) + h.get (F.ACR_PAGES_COUNT r)) * 4096⟩
    else some ⟨causeRegion, r, a⟩

/-- The check of R341, in its order. `none` lets the access take effect. -/
def Module.checkAccess (m : Module) (issuer : HalfId) (a : Nat) (z : AccessSize) (master : Nat) (kind : AccessKind) :
    Option Denial :=
  let h := m.half issuer
  if !z.fits a then some ⟨causeSize, h.regionNumber a, a⟩
  else match m.firstAbsent issuer a z.bytes with
  | some b => some ⟨causeAbsent, if m.unmapped b then 0xFF else h.regionNumber a, b⟩
  | none =>
    match fixedRule a master kind with
    | some true => none
    | some false => some ⟨causeFixed, h.regionNumber a, a⟩
    | none =>
      if h.startRule then
        if startGrants a master then none else some ⟨causeNoRegion, 0xFF, a⟩
      else h.regionCheck a z.bytes master kind

/-- DETAIL of class ACC (R419). -/
def denialDetail (a : Nat) (d : Denial) (master : Nat) (kind : AccessKind) : List Byte :=
  leBytes 5 a ++ leBytes 5 d.first ++ leBytes 1 kind.code ++ leBytes 1 master ++ leBytes 1 d.cause ++ leBytes 1 d.region

/-- The violation record of R349, written while VALID is 0. -/
def Half.violationRecord (h : Half) (a : Nat) (d : Denial) (master : Nat) (kind : AccessKind) : Half :=
  if h.flag F.ACR_VIOLINFO_VALID then h.tally F.ACR_TALLY_LOST 1
  else (h.sets
    [(F.ACR_VIOLSTARTLO_ADDR, a), (F.ACR_VIOLSTARTHI_ADDR, a / 2 ^ 32),
     (F.ACR_VIOLFIRSTLO_ADDR, d.first), (F.ACR_VIOLFIRSTHI_ADDR, d.first / 2 ^ 32),
     (F.ACR_VIOLINFO_CAUSE, d.cause), (F.ACR_VIOLINFO_REGION, d.region), (F.ACR_VIOLINFO_KIND, kind.code),
     (F.ACR_VIOLINFO_MASTER, master), (F.ACR_VIOLINFO_VALID, 1)]).signal irqAccess F.ACR_VIOLINFO_word.off

/-- An ACC entry of this master was made less than 1 ms before local base `lb` (R350). -/
def Half.recentAcc (h : Half) (master lb : Nat) : Bool :=
  h.flt.accAt.any fun x => x.1 == master && decide (lb < x.2 + msNs)

/-- A refusal in the half that checks (R349, R350): the tally, the record and the ledger entry, or QUIET. -/
def Half.refuse (h : Half) (t a : Nat) (d : Denial) (master : Nat) (kind : AccessKind) : Half :=
  let h := (h.tally F.ACR_TALLY_VIOLATIONS 1).violationRecord a d master kind
  if h.recentAcc master (h.lb t) then h.tally F.ACR_TALLY_QUIET 1
  else
    let h := h.fault t clsAcc 1 master (denialDetail a d master kind)
    { h with flt := { h.flt with accAt := (master, h.lb t) :: h.flt.accAt.filter fun x => x.1 != master } }

/-- The effect of an access that passes its check; a refused access leaves only the record of R349. -/
def Module.checked (m : Module) (t : Nat) (issuer : HalfId) (a : Nat) (z : AccessSize) (master : Nat) (kind : AccessKind)
    (f : Module → Module) : Module :=
  match m.checkAccess issuer a z master kind with
  | none => f m
  | some d => m.onHalf issuer fun h => h.refuse t a d master kind

/-- A write of a register of half `h` by a master, under the check (R339). -/
def Module.checkedReg (m : Module) (t : Nat) (h : HalfId) (off master : Nat) (f : Module → Module) : Module :=
  m.checked t (m.issuer master h) (regAddr h off) (.single 4) master .write f

/-! ## The epoch switch -/

/-- A shadow entry reaches beyond 0xFF_FFFF_FFFF (R347). -/
def Half.shadowRange (h : Half) (i : Nat) : Bool :=
  h.get (F.ACR_SHPAGES_COUNT i) ≠ 0 && decide (2 ^ 28 < h.get (F.ACR_SHBASE_PAGE i) + h.get (F.ACR_SHPAGES_COUNT i))

/-- Two shadow entries share a page (R347). -/
def Half.shadowOverlap (h : Half) (i j : Nat) : Bool :=
  let bi := h.get (F.ACR_SHBASE_PAGE i)
  let bj := h.get (F.ACR_SHBASE_PAGE j)
  let ni := h.get (F.ACR_SHPAGES_COUNT i)
  let nj := h.get (F.ACR_SHPAGES_COUNT j)
  decide (i < j) && ni ≠ 0 && nj ≠ 0 && decide (bi < bj + nj) && decide (bj < bi + ni)

/-- Copies shadow entry `i` into the active table. -/
def Half.copyEntry (h : Half) (i : Nat) : Half := h.sets
  [(F.ACR_BASE_word i, h.get (F.ACR_SHBASE_word i)), (F.ACR_PAGES_word i, h.get (F.ACR_SHPAGES_word i)),
   (F.ACR_RMASK_word i, h.get (F.ACR_SHRMASK_word i)), (F.ACR_WMASK_word i, h.get (F.ACR_SHWMASK_word i))]

/-- RESULT codes of ACR_EPOCH. -/
def acrDone : Nat := 1
def acrOverlap : Nat := 2
def acrRange : Nat := 3
def acrBusy : Nat := 4

/-- A write of ACR_SWITCH.GO by the loader (R347). -/
def Half.acrGo (h : Half) : Half :=
  if h.flag F.ACR_EPOCH_SWITCHING then h.set F.ACR_EPOCH_RESULT acrBusy
  else if (List.range 64).any h.shadowRange then h.set F.ACR_EPOCH_RESULT acrRange
  else if (List.range 64).any (fun i => (List.range 64).any (h.shadowOverlap i)) then h.set F.ACR_EPOCH_RESULT acrOverlap
  else
    let h := h.forBelow 64 Half.copyEntry
    let n := ((List.range 64).filter fun i => h.get (F.ACR_PAGES_COUNT i) ≠ 0).length
    (h.set F.ACR_EPOCH_REGIONS n).set F.ACR_EPOCH_SWITCHING 1

/-- Every access checked under the old table has retired (R347): one that waits at an isolated block retires with the reset of that block. -/
def Half.acrRetired (h : Half) : Half :=
  if h.flag F.ACR_EPOCH_SWITCHING && h.starter.waiting.isEmpty then
    ((h.set F.ACR_EPOCH_SWITCHING 0).set F.ACR_EPOCH_EPOCH (h.get F.ACR_EPOCH_EPOCH + 1)).set F.ACR_EPOCH_RESULT acrDone
  else h

end Sys2Proof.Machine
end

