-- ==== Sys2Proof/Machine/Store.lean ====
section
/-!
DEFINITION. The frame store (R168 to R171): channels, ECC errors, the patrol scrubber, damaged slots and the mapping out of a
channel.
-/
namespace Sys2Proof.Machine

/-- Channel numbers in service, ascending. -/
def Half.channels (h : Half) : List Nat := (List.range 8).filter fun n => h.getBit F.FST_CHMAP_INSERVICE n

/-- The channel of a half-relative address and the offset within it (R168); none where there is none. -/
def Half.channelPlace (h : Half) (a : Nat) : Option (Nat × Nat) :=
  let n := h.get F.FST_CHMAP_N
  let p := if n = 7 ∧ 0x70000000 ≤ a then a - 0x10000000 else a
  if n = 0 ∨ (n = 7 ∧ 0x60000000 ≤ a ∧ a < 0x70000000) then none
  else (h.channels[p / 1024 % n]?).map fun c => (c, p / 1024 / n * 1024 + p % 1024)

/-- The channel of a half-relative address; 0xFF where there is none. -/
def Half.channelOf (h : Half) (a : Nat) : Nat := ((h.channelPlace a).map fun p => p.1).getD 0xFF

/-- The first 8-byte word with an uncorrectable error among the `n` bytes from half-relative address `a` (R169). -/
def Half.errorIn (h : Half) (a n : Nat) : Option Nat := h.store.bad.find? fun b => decide (b < a + n) && decide (a < b + 8)

/-- The first such word that a write of those bytes would have to read: one that it does not replace whole. -/
def Half.errorUnder (h : Half) (a n : Nat) : Option Nat :=
  h.store.bad.find? fun b => decide (b < a + n) && decide (a < b + 8) && !(decide (a ≤ b) && decide (b + 8 ≤ a + n))

/-- A write into the frame store; the errors of the 8-byte words that it replaces whole are gone (R169). -/
def Half.storeWrite (h : Half) (a : Nat) (bs : List Byte) : Half :=
  { h with
    fst := memWrite h.fst a bs
    store := { h.store with bad := h.store.bad.filter fun b => !(decide (a ≤ b) && decide (b + 8 ≤ a + bs.length)) } }

/-- Tiles of a source's picture: columns and rows (R24). -/
def SourceRec.cols (r : SourceRec) : Nat := ceilDiv r.width 16
def SourceRec.rows (r : SourceRec) : Nat := ceilDiv r.height 16
def SourceRec.tiles (r : SourceRec) : Nat := r.cols * r.rows

/-- HELD and PUBLISH of a record (R143). -/
def SourceRec.held (r : SourceRec) : Bool := bitAt r.flags 0
def SourceRec.publish (r : SourceRec) : Bool := bitAt r.flags 1

/-- Payload bytes of a tile and its cells (R153). -/
def SourceRec.tileBytes (r : SourceRec) : Nat := if r.format = 0 then 640 else 960
def SourceRec.tileCells (r : SourceRec) : Nat := if r.format = 0 then 3 else 4

/-- Half-relative address of a tile's granule (R155). -/
def SourceRec.granule (r : SourceRec) (slot tile : Nat) : Nat := r.slotbase * 1024 + 1024 * (slot * r.tiles + tile)

/-- Slot states of INK_SSTAT.SLOTS. -/
def slotEmpty : Nat := 0
def slotWriting : Nat := 1
def slotComplete : Nat := 2
def slotDamaged : Nat := 3

/-- A source window. -/
def Half.source (h : Half) (i : Nat) : Option SourceSt := h.sources[i]?

/-- The half with a source window changed. -/
def Half.onSource (h : Half) (i : Nat) (f : SourceSt → SourceSt) : Half := { h with sources := h.sources.modify i f }

/-- The state of a slot. -/
def Half.slotState (h : Half) (i n : Nat) : Nat := bitsAt (h.get (F.INK_SSTAT_SLOTS i)) (2 * n) 2

/-- A slot put into a state. -/
def Half.setSlot (h : Half) (i n s : Nat) : Half :=
  let v := h.get (F.INK_SSTAT_SLOTS i)
  h.set (F.INK_SSTAT_SLOTS i) (v - bitsAt v (2 * n) 2 * 4 ^ n + s * 4 ^ n)

/-- The COMPLETE slot whose frame completed last, with its frame (R161). -/
def Half.newestSlot (h : Half) (i : Nat) : Option (Nat × SlotFrame) := match h.source i with
  | none => none
  | some s =>
    let full := (List.range 3).filterMap fun n =>
      if h.slotState i n = slotComplete then ((s.slots.getD n none).map fun f => (n, f)) else none
    full.foldl (fun best x => match best with
      | none => some x
      | some b => if b.2.order < x.2.order then some x else some b) none

/-- The registers of a source that follow its newest frame. -/
def Half.showNewest (h : Half) (i : Nat) : Half := match h.newestSlot i with
  | none => h.set (F.INK_SSTAT_NEWEST i) 3
  | some (n, f) =>
    let c := unsigned 64 f.cap
    h.sets [(F.INK_SSTAT_NEWEST i, n), (F.INK_SSTAT_NOTIME i, bit f.noTime), (F.INK_SSEQ_NEWEST i, f.fseq),
      (F.INK_SCAPLO_NS i, c), (F.INK_SCAPHI_NS i, c / 2 ^ 32), (F.INK_SARRLO_NS i, f.arr), (F.INK_SARRHI_NS i, f.arr / 2 ^ 32),
      (F.INK_SFCRC_F i, f.fval)]

/-- A COMPLETE slot that holds the granule becomes DAMAGED (R169). -/
def Half.damageSlot (h : Half) (a : Nat) (i : Nat) : Half := match h.source i with
  | none => h
  | some s =>
    if s.rcd.held then
      h.forBelow 3 fun h n =>
        let lo := s.rcd.granule n 0
        if lo ≤ a ∧ a < lo + 1024 * s.rcd.tiles ∧ h.slotState i n = slotComplete then
          ((h.setSlot i n slotDamaged).tally (F.INK_STALLY2_DAMAGED i) 1).showNewest i
        else h
    else h

/-- DETAIL of class MEM (R419). -/
def Half.memDetail (h : Half) (a : Nat) : List Byte := leBytes 4 a ++ leBytes 1 (h.get F.FST_CHMAP_INSERVICE)

/-- A running channel is mapped out (R171): fault MEM code 3, and the steward is halted until the half is reset. -/
def Half.mapOutChannel (h : Half) (t ch : Nat) : Half :=
  if ch < 8 ∧ h.getBit F.FST_CHMAP_INSERVICE ch then
    let h1 : Half := { h with store := { h.store with out := setBitNat h.store.out ch true } }
    let h2 := (h1.setBit F.FST_CHMAP_FAILED ch true).setBit F.FST_CHMAP_INSERVICE ch false
    let n := h2.channels.length
    let h3 := h2.set F.FST_CHMAP_N (if 7 ≤ n then n else 0)
    (h3.fault t clsMem 3 ch (h3.memDetail 0)).set (F.ENG_STATE_STATE 0) 2
  else h

/-- An access meets an uncorrectable error at a half-relative address (R169, R171). -/
def Half.uncorrectable (h : Half) (t a : Nat) : Half :=
  let ch := h.channelOf a
  let h1 := (h.tally F.FST_ECC_UNCORR 1).sets [(F.FST_ECCADDR_VALID, 1), (F.FST_ECCADDR_ADDR, a / 8 * 8)]
  let h2 := h1.fault t clsMem 1 ch (h1.memDetail (a / 8 * 8))
  let h3 := (List.range h2.sources.length).foldl (fun h i => h.damageSlot a i) h2
  let errs := (ch, t) :: h3.store.errAt.filter fun x => decide (t < x.2 + secNs)
  let b := a / 8 * 8
  let bad := if h3.store.bad.contains b then h3.store.bad else h3.store.bad ++ [b]
  let h4 : Half := { h3 with store := { h3.store with errAt := errs, bad := bad } }
  if 16 < (errs.filter fun x => x.1 == ch).length then h4.mapOutChannel t ch else h4

/-- The granule lies in a slot in WRITING. -/
def Half.inWriting (h : Half) (a : Nat) : Bool :=
  (List.range h.sources.length).any fun i => match h.source i with
    | none => false
    | some s => match s.writing with
      | none => false
      | some w => s.rcd.held && decide (s.rcd.granule w.slot 0 ≤ a) && decide (a < s.rcd.granule w.slot 0 + 1024 * s.rcd.tiles)

/-- A pass of the patrol scrubber (R169): corrected granules are rewritten and counted, uncorrectable errors act as in any
access; slots in WRITING are skipped. -/
def Half.scrub (h : Half) (t : Nat) (corrected bad : List Nat) : Half :=
  if h.flag F.FST_SCRUB_ENABLE then
    let seen (l : List Nat) : List Nat := l.filter fun a => decide (a < 2 ^ 31) && !h.inWriting a
    let h1 := h.tally F.FST_ECC_CORR (seen corrected).length
    let known := h.store.bad.filter fun b => !bad.any fun a => a / 8 * 8 == b
    let h2 := (seen (bad ++ known)).foldl (fun h a => h.uncorrectable t a) h1
    let h3 : Half := { h2 with store := { h2.store with scrubAt := t } }
    h3.set F.FST_SCRUB_PASSES (h3.get F.FST_SCRUB_PASSES + 1)
  else h

end Sys2Proof.Machine
end

