-- ==== Sys2Proof/Machine/Crc.lean ====
section
/-!
DEFINITION. The one computation behind every check value of the module (R328 to R332).
-/
namespace Sys2Proof.Machine

/-- The low `n` bits of a number, reversed end to end. -/
def reverseBits : Nat → Nat → Nat
  | 0, _ => 0
  | n + 1, v => v % 2 * 2 ^ n + reverseBits n (v / 2)

/-- The parameters of R328. -/
structure CrcParams where
  width  : Nat
  poly   : Nat
  init   : Nat
  refIn  : Bool
  refOut : Bool
  invert : Bool
  deriving DecidableEq, Repr

/-- One data bit through the register (R329). -/
def crcBit (w poly reg : Nat) (d : Bool) : Nat :=
  let top := (reg / 2 ^ (w - 1) % 2 == 1) != d
  let r := reg * 2 % 2 ^ w
  if top then r ^^^ (poly % 2 ^ w) else r

/-- One byte through the register (R329). -/
def crcByte (p : CrcParams) (reg : Nat) (b : Byte) : Nat :=
  let v := if p.refIn then reverseBits 8 b.toNat else b.toNat
  [7, 6, 5, 4, 3, 2, 1, 0].foldl (fun r i => crcBit p.width p.poly r (v / 2 ^ i % 2 == 1)) reg

/-- Bytes through the register from a running value. -/
def crcBytes (p : CrcParams) (reg : Nat) (bs : List Byte) : Nat := bs.foldl (crcByte p) reg

/-- REFOUT and INVERT (R329). -/
def crcFinish (p : CrcParams) (reg : Nat) : Nat :=
  let r := if p.refOut then reverseBits p.width reg else reg
  if p.invert then r ^^^ (2 ^ p.width - 1) else r

/-- The result over fold bytes and then data bytes (R329). -/
def crcValue (p : CrcParams) (fold data : List Byte) : Nat :=
  crcFinish p (crcBytes p (crcBytes p (p.init % 2 ^ p.width) fold) data)

/-- The presets of R331. -/
def crc32c : CrcParams := ⟨32, 0x1EDC6F41, 0xFFFFFFFF, true, true, true⟩
def crc32Ieee : CrcParams := ⟨32, 0x04C11DB7, 0xFFFFFFFF, true, true, true⟩
def crc16Ccitt : CrcParams := ⟨16, 0x1021, 0xFFFF, false, false, false⟩
def crc64Ecma : CrcParams := ⟨64, 0x42F0E1EBA9EA3693, 0, false, false, false⟩

/-- CRC-32C of a byte string without fold. -/
def crcOf (bs : List Byte) : Nat := crcValue crc32c [] bs

/-- The parameters of a PRESET code; `own` for code 0 and 5 to 7 (R331). -/
def presetParams (code : Nat) (own : CrcParams) : CrcParams := match code with
  | 1 => crc32c
  | 2 => crc32Ieee
  | 3 => crc16Ccitt
  | 4 => crc64Ecma
  | _ => own

end Sys2Proof.Machine
end

