-- ==== Sys2Proof/Machine/Cvu.lean ====
section
/-!
DEFINITION. Check-value units (chapter 14): enabling, feeding, results and aborted computations.
-/
namespace Sys2Proof.Machine

/-- The parameters of a unit's own fields, limited as R328 states. -/
def Half.cvuOwn (h : Half) (n : Nat) : CrcParams :=
  let w := max 8 (min 64 (h.get (F.CVU_CTRL_WIDTH n)))
  let wide (lo hi : Field) : Nat := (h.get lo + h.get hi * 2 ^ 32) % 2 ^ w
  ⟨w, wide (F.CVU_POLYLO_word n) (F.CVU_POLYHI_word n), wide (F.CVU_INITLO_word n) (F.CVU_INITHI_word n),
    h.flag (F.CVU_CTRL_REFIN n), h.flag (F.CVU_CTRL_REFOUT n), h.flag (F.CVU_CTRL_INVERT n)⟩

/-- The parameters in force at a unit (R331). -/
def Half.cvuParams (h : Half) (n : Nat) : CrcParams := presetParams (h.get (F.CVU_CTRL_PRESET n)) (h.cvuOwn n)

/-- The fold bytes of a unit (R330); `hall` is the hallmark fold word of the region at the PUSH point. -/
def Half.cvuFold (h : Half) (n hall : Nat) : List Byte :=
  if h.flag (F.CVU_CTRL_FOLDAUTO n) && h.get (F.CVU_SNOOP_POINT n) == 6 then beBytes 12 hall
  else
    let len := min 12 (h.get (F.CVU_CTRL_FOLDLEN n))
    beBytes len (h.get (F.CVU_FOLD0_word n) + h.get (F.CVU_FOLD1_word n) * 2 ^ 32 + h.get (F.CVU_FOLD2_word n) * 2 ^ 64)

/-- The state of a unit. -/
def Half.cvuUnit (h : Half) (n : Nat) : CvuSt := h.cvu.getD n CvuSt.reset

/-- The half with the state of a unit changed. -/
def Half.onCvu (h : Half) (n : Nat) (f : CvuSt → CvuSt) : Half := { h with cvu := h.cvu.modify n f }

/-- The half with a unit's feed state replaced. -/
def Half.setFeed (h : Half) (n : Nat) (x : Option Nat) : Half := h.onCvu n fun (u : CvuSt) => { u with feed := x }

/-- A result is written, compared and counted (R336). -/
def Half.cvuWrite (h : Half) (n result : Nat) : Half :=
  let expect := (h.get (F.CVU_EXPLO_word n) + h.get (F.CVU_EXPHI_word n) * 2 ^ 32) % 2 ^ (h.cvuParams n).width
  let h1 := ((h.set (F.CVU_RESLO_word n) result).set (F.CVU_RESHI_word n) (result / 2 ^ 32)).tally (F.CVU_STATUS_COUNT n) 1
  let h2 := h1.set (F.CVU_STATUS_VALID n) 1
  let h3 := if h2.flag (F.CVU_CTRL_COMPARE n) && result != expect then
      (h2.set (F.CVU_STATUS_MISMATCH n) 1).tally (F.CVU_TALLY_MISMATCH n) 1
    else h2
  let h4 := if h3.flag (F.CVU_CTRL_ONESHOT n) then (h3.set (F.CVU_CTRL_ENABLE n) 0).onCvu n fun _ => CvuSt.reset else h3
  h4.raise irqCvu

/-- The oldest result that waits at an enabled unit is written (R336); that of a flit which the model does not spell is the check value
of the bytes given. -/
def Half.cvuResult (h : Half) (n : Nat) (data : List Byte) : Half := match (h.cvuUnit n).ready with
  | [] => h
  | r :: rest =>
    if h.flag (F.CVU_CTRL_ENABLE n) then
      (h.onCvu n fun (u : CvuSt) => { u with ready := rest }).cvuWrite n (r.getD (crcValue (h.cvuParams n) (h.cvuFold n 0) data))
    else h

/-! ## Snoop points (R333) -/

/-- The unit is enabled, watches snoop point `point`, and its SEL and FILTER take the unit of computation. -/
def Half.cvuWatches (h : Half) (n point : Nat) (sel : Nat → Nat → Bool) : Bool :=
  h.flag (F.CVU_CTRL_ENABLE n) && h.get (F.CVU_SNOOP_POINT n) == point && sel (h.get (F.CVU_SNOOP_SEL n)) (h.get (F.CVU_SNOOP_FILTER n))

/-- A unit of computation has passed a point: every unit that watches it has its result, but for one that was in progress when the unit
was enabled (R335). `data` are its bytes, and at the LINK point, where the model does not spell a flit that it sends, none: CVU_RESULT
then brings them (log entry 132). -/
def Half.cvuTake (h : Half) (point : Nat) (sel : Nat → Nat → Bool) (data : Option (List Byte)) (hall : Nat) : Half :=
  h.forBelow 16 fun h n =>
    if h.cvuWatches n point sel then
      if (h.cvuUnit n).skip then h.onCvu n fun (u : CvuSt) => { u with skip := false }
      else
        let r := data.map fun bs => crcValue (h.cvuParams n) (h.cvuFold n hall) bs
        h.onCvu n fun (u : CvuSt) => { u with ready := u.ready ++ [r] }
    else h

/-- FILTER of the cell points: a mask of types, all where it is 0. -/
def typeTaken (type filter : Nat) : Bool := filter == 0 || bitAt filter type

/-- FILTER of a source identity, everything where it is 0. -/
def identTaken (ident : Option Nat) (filter : Nat) : Bool := filter % 4096 == 0 || some (filter % 4096) == ident

/-- A flit on the half link: SEL 0 outbound, 1 inbound; FILTER the classes baton, status, fetch and host. -/
def Half.cvuFlit (h : Half) (sel cls : Nat) (bytes : Option (List Byte)) : Half :=
  h.cvuTake 7 (fun s f => s == sel && (f % 16 == 0 || bitAt f cls)) bytes 0

/-- The region of FILTER at the PUSH point: one region, or every one with bit 15. -/
def regionTaken (region filter : Nat) : Bool := bitAt filter 15 || filter % 1024 == region

/-- A unit of computation is in progress at the point of a unit: a cell on its port, or the push of its region (R335). -/
def Half.cvuMidway (h : Half) (n : Nat) : Bool :=
  let sel := h.get (F.CVU_SNOOP_SEL n)
  match h.get (F.CVU_SNOOP_POINT n) with
  | 1 => sel / 24 == h.id.num && ((h.port.lanes[sel % 24]?).map fun x => x.rx.buf != []).getD false
  | 6 => (h.lap.push.cur.map fun c => regionTaken c.region (h.get (F.CVU_SNOOP_FILTER n))).getD false
  | _ => false

/-- A unit takes bytes at the FEED point while it is enabled (R338). -/
def Half.cvuFeeding (h : Half) (n : Nat) : Bool := h.flag (F.CVU_CTRL_ENABLE n) && h.get (F.CVU_SNOOP_POINT n) == 9

/-- The register of a unit before its first data byte. -/
def Half.cvuStart (h : Half) (n : Nat) : Nat :=
  let p := h.cvuParams n
  crcBytes p (p.init % 2 ^ p.width) (h.cvuFold n 0)

/-- Bytes fed to a unit (R338). -/
def Half.cvuFeed (h : Half) (n : Nat) (bs : List Byte) : Half :=
  if h.cvuFeeding n then
    h.setFeed n (some (crcBytes (h.cvuParams n) (((h.cvuUnit n).feed).getD (h.cvuStart n)) bs))
  else h

/-- The end of a unit of computation at the FEED point (R338). -/
def Half.cvuFeedEnd (h : Half) (n : Nat) : Half :=
  if h.cvuFeeding n then
    let reg := ((h.cvuUnit n).feed).getD (h.cvuStart n)
    (h.setFeed n none).cvuWrite n (crcFinish (h.cvuParams n) reg)
  else h

/-- A unit of computation in progress at the units that watch it is cut short (R335). One that was to be skipped is no longer. -/
def Half.cvuAbort (h : Half) (point : Nat) (sel : Nat → Nat → Bool) : Half :=
  h.forBelow 16 fun h n =>
    if h.cvuWatches n point sel then
      if (h.cvuUnit n).skip then h.onCvu n fun (u : CvuSt) => { u with skip := false } else h.tally (F.CVU_STATUS_ABORTS n) 1
    else h

/-- Units of computation that a unit has begun and whose results it has not written. -/
def Half.cvuOpen (h : Half) (n : Nat) : Nat :=
  let u := h.cvuUnit n
  u.ready.length + bit u.feed.isSome + bit (h.cvuMidway n && !u.skip)

/-- A write of CVU_CTRL (R335, R337): while ENABLE is 1 only ENABLE changes, and clearing it cuts computations short. -/
def Half.cvuCtrl (h : Half) (n : Nat) (v : Word) : Half :=
  let en := bitAt v.toNat 0
  if h.flag (F.CVU_CTRL_ENABLE n) then
    if en then h
    else
      let h1 := h.tally (F.CVU_STATUS_ABORTS n) (h.cvuOpen n)
      (h1.onCvu n fun _ => CvuSt.reset).set (F.CVU_CTRL_ENABLE n) 0
  else
    let h1 := h.setReg (F.CVU_CTRL_word n).off (v &&& 0xFF07FF0D)
    h1.onCvu n fun _ => { CvuSt.reset with skip := h1.cvuMidway n }

end Sys2Proof.Machine
end

