-- ==== Sys2Proof/Machine/Lanes.lean ====
section
/-!
DEFINITION. Ports and lanes (chapter 05): the line code, bring-up, deskew, tallies, rows of cells, patterns, injection and
the ring bypass. What a received cell means to its block stands with that block.
-/
namespace Sys2Proof.Machine

/-! ## Cells -/

/-- The 256 bytes of a cell with its LSEQ (R102). -/
def Cell.bytes (c : Cell) (lseq : Nat) : List Byte :=
  let head := [BitVec.ofNat 8 0xD5, BitVec.ofNat 8 (c.type % 16 * 16 + lseq % 16)] ++ beBytes 10 c.hdr ++ padTo 240 c.payload
  head ++ beBytes 4 (crcOf head)

/-- The LSEQ and the cell in 256 bytes. -/
def Cell.parse (bs : List Byte) : Nat × Cell :=
  (byteAt bs 1 % 16, { type := byteAt bs 1 / 16, hdr := beAt bs 2 10, payload := sliceBytes bs 12 240 })

/-- A field of the header: `n` bits from header bit `lo` (16 to 95), bit 16 first. -/
def Cell.field (c : Cell) (lo n : Nat) : Nat := bitsAt c.hdr (96 - lo - n) n

/-- The header number of a list of fields given as first bit, width and value. -/
def hdrOf : List (Nat × Nat × Nat) → Nat
  | [] => 0
  | (lo, n, v) :: rest => v % 2 ^ n * 2 ^ (96 - lo - n) + hdrOf rest

/-- An idle cell (R104). -/
def idleCell (addr sport rxup lanes : Nat) (align : Bool) : Cell :=
  { type := 0
    hdr := hdrOf [(16, 14, addr), (30, 6, sport), (36, 1, bit align), (40, 4, rxup), (44, 3, lanes)]
    payload := List.replicate 240 0 }

/-- A test cell: the user pattern 30 times (R104). -/
def testCell (pat : Nat) : Cell :=
  { type := 13, hdr := 0, payload := (List.replicate 30 (beBytes 8 pat)).flatten }

/-- The CRC of 256 cell bytes is valid (R102). -/
def cellCrcOk (bs : List Byte) : Bool := beAt bs 252 4 == crcOf (bs.take 252)

/-! ## Access to lanes and links -/

/-- Lane state codes of LANE_STATUS.STATE. -/
def lsOff : Nat := 0
def lsCdr : Nat := 1
def lsDescramble : Nat := 2
def lsHunt : Nat := 3
def lsCheck : Nat := 4
def lsDeskew : Nat := 5
def lsUp : Nat := 6
def lsQualify : Nat := 7
def lsMappedOut : Nat := 8
def lsPattern : Nat := 9
def lsSdiHunt : Nat := 10
def lsSdiLock : Nat := 11

/-- A cell that was not received: it fills a skipped LSEQ in its row. Its type is reserved, so no block takes it (R103). -/
def lostCell : Cell := { type := 15, hdr := 0, payload := [] }

/-- Lane `p` of a half. -/
def Half.lane (h : Half) (p : Nat) : Lane := h.port.lanes.getD p Lane.reset

/-- The half with a lane changed. -/
def Half.onLane (h : Half) (p : Nat) (f : Lane → Lane) : Half :=
  { h with port := { h.port with lanes := h.port.lanes.modify p f } }

/-- The half with a lane's receiver changed. -/
def Half.onRx (h : Half) (p : Nat) (f : LaneRx → LaneRx) : Half := h.onLane p fun (x : Lane) => { x with rx := f x.rx }

/-- The state code of a lane. -/
def Half.laneState (h : Half) (p : Nat) : Nat := h.get (F.LANE_STATUS_STATE p)

/-- The half with a lane in a state. -/
def Half.laneEnter (h : Half) (p s : Nat) : Half := h.set (F.LANE_STATUS_STATE p) s

/-- The plan's record of a port. -/
def Half.portRec (h : Half) (p : Nat) : PortRec := h.port.ports.getD p PortRec.off

/-- The link record of a running link; a port without a link record is a link of one lane, of KIND 6. -/
def Half.linkRec (h : Half) (l : Nat) : LinkRec :=
  if l < 16 then h.port.links.getD l ⟨0, 0, 0, 0, 1⟩ else ⟨6, l - 16, 1, (h.portRec (l - 16)).rate, 1⟩

/-- The running link of a lane: its link record, or 16 + p for a single-lane native port or a TEST port (log entry 116). -/
def Half.linkOf (h : Half) (p : Nat) : Option Nat :=
  let r := h.portRec p
  if r.role = 3 then some r.link else if r.role = 1 ∨ r.role = 4 then some (16 + p) else none

/-- The ports of a link. -/
def LinkRec.portList (r : LinkRec) : List Nat := (List.range r.lanes).map fun i => r.first + i

/-- The running state of a link. -/
def Half.run (h : Half) (l : Nat) : LinkRun := h.port.runs.getD l LinkRun.reset

/-- The half with a link's running state changed. -/
def Half.onRun (h : Half) (l : Nat) (f : LinkRun → LinkRun) : Half :=
  { h with port := { h.port with runs := h.port.runs.modify l f } }

/-- A cell given to a link for sending. -/
def Half.queueCell (h : Half) (l : Nat) (c : Cell) : Half := h.onRun l fun (r : LinkRun) => { r with queue := r.queue ++ [c] }

/-- The link of a KIND in this half, if the port plan has one (R98). -/
def Half.linkOfKind (h : Half) (kind : Nat) : Option Nat := (List.range 16).find? fun i => (h.linkRec i).kind == kind

/-- The lanes of a link that are UP. -/
def Half.upLanes (h : Half) (l : Nat) : List Nat := (h.linkRec l).portList.filter fun p => h.laneState p == lsUp

/-- The link has at least MINLANES lanes UP (R112). -/
def Half.linkUp (h : Half) (l : Nat) : Bool := decide ((h.linkRec l).minLanes ≤ (h.upLanes l).length)

/-! ## Island tallies (R136) -/

/-- The tallies that a lane's island counts, by code. -/
def laneTally (p code : Nat) : Field := match code with
  | 0 => F.LANE_TALLY0_CRCERR p
  | 1 => F.LANE_TALLY0_MARKLOSS p
  | 2 => F.LANE_TALLY1_STUFFERR p
  | 3 => F.LANE_TALLY1_SEQGAP p
  | 4 => F.LANE_TALLY1_DROPS p
  | 5 => F.LANE_TALLY1_MAPOUTS p
  | 6 => F.LANE_SDI_LINECRC p
  | _ => F.LANE_SDI_TRSERR p

/-- The events of one tally not yet taken by the core. -/
def Lane.held (x : Lane) (code : Nat) : Nat := match x.isle.find? fun c => c.1 == code with
  | some c => c.2
  | none => 0

/-- The lane with an island count replaced. -/
def Lane.setHeld (x : Lane) (code n : Nat) : Lane := { x with isle := x.isle.filter (fun c => c.1 != code) ++ [(code, n)] }

/-- `n` events of a lane's island counter: it stops at 255 events not yet taken, and then the overrun flags set (R136). -/
def Half.laneCount (h : Half) (p code n : Nat) : Half :=
  let v := (h.lane p).held code + n
  let h := h.onLane p fun x => x.setHeld code (min 255 v)
  if 255 ≤ v then (h.set (F.LANE_STATUS_OVR p) 1).set F.SYS_XOVR_LANE 1 else h

/-- The core takes the island counters of a lane into its tallies (R136). -/
def Half.drain (h : Half) (p : Nat) : Half :=
  let held := (h.lane p).isle
  let h := h.onLane p fun (x : Lane) => { x with isle := [] }
  held.foldl (fun h c => h.tally (laneTally p c.1) c.2) h

/-! ## Leaving and entering states -/

/-- What a lane's work means to the rest of the half. -/
inductive LaneEvent where
  /-- a cell of a whole row, or of a one-lane link: link, lane position, LSEQ, cell, stamp of its mark -/
  | cell (l pos lseq : Nat) (c : Cell) (stamp : Nat)
  | linkDown (l : Nat)
  | linkUp (l : Nat)
  /-- a lane left UP during a cell -/
  | dropped (p : Nat)
  deriving DecidableEq, Repr

/-- Round trip of an event crossing in ns (R134): 3 periods of 40 ns and 15 ns (log entry 63). -/
def roundTrip : Nat := 135

/-- An event that finds its crossing busy is coalesced with the one in transfer (R135). -/
def busyCrossing (last : Option Nat) (t : Nat) : Bool := match last with
  | some a => decide (t < a + roundTrip)
  | none => false

/-- The overrun flag of the crossing of "link down" (R135): PNL for the panel link, else LANE with the OVR of the link's first port. -/
def Half.downOverrun (h : Half) (l : Nat) : Half :=
  if (h.linkRec l).kind = 1 then h.set F.SYS_XOVR_PNL 1
  else (h.set F.SYS_XOVR_LANE 1).set (F.LANE_STATUS_OVR (h.linkRec l).first) 1

/-- The link reports a change of being up (R112). "Link down" is an event, which a busy crossing coalesces with the one before it
(R133, R135). -/
def Half.linkReport (h : Half) (t l : Nat) : Half × List LaneEvent :=
  let up := h.linkUp l
  let x := h.run l
  if up == x.up then (h, [])
  else if up then (h.onRun l fun (r : LinkRun) => { r with up := true }, [LaneEvent.linkUp l])
  else if busyCrossing x.downAt t then ((h.onRun l fun (r : LinkRun) => { r with up := false }).downOverrun l, [])
  else (h.onRun l fun (r : LinkRun) => { r with up := false, downAt := some t }, [LaneEvent.linkDown l])

/-- The report of the link of a lane, if it has one. -/
def Half.laneReport (h : Half) (t p : Nat) : Half × List LaneEvent := match h.linkOf p with
  | some l => h.linkReport t l
  | none => (h, [])

/-- The receiver forgets its cells and what it expects. -/
def LaneRx.clear (x : LaneRx) : LaneRx := { x with buf := [], checked := 0, misses := 0, cells := 0, bads := [], fifo := [], lastSeq := none }

/-- The lane's time in its present state begins. -/
def Half.laneSince (h : Half) (t p : Nat) : Half := h.onLane p fun (x : Lane) => { x with since := t }

/-- The lane goes to MAPPED_OUT (R105, R107, R109, R111) and records fault class LANE when a code is given. -/
def Half.mapOut (h : Half) (t p : Nat) (code : Option Nat) : Half :=
  let h1 := ((h.onRx p fun (x : LaneRx) => { x.clear with returning := true }).laneEnter p lsMappedOut).laneSince t p
  let h2 := h1.laneCount p 5 1
  match code with
  | some c => h2.fault t clsLane c (devicePort h.id p)
      (h2.wordBytes (F.LANE_STATUS_word p).off ++ h2.wordBytes (F.LANE_TALLY1_word p).off)
  | none => h2

/-- The row in progress on a link: that of the oldest waiting cell, or the one after `last`. -/
def Half.rowInProgress (h : Half) (l : Nat) (last : Option Nat) : Option Nat :=
  let heads := (h.upLanes l).filterMap fun p => ((h.lane p).rx.fifo.head?).map fun x => x.1
  match heads with
  | s :: rest => some (rest.foldl (fun a b => if newer 4 a b then b else a) s)
  | [] => last.map fun s => (s + 1) % 16

/-- A lane leaves UP in the middle of a row: that row is discarded on every lane of its link, which goes on from the next whole row
with the lanes that stay (R110). -/
def Half.breakRow (h : Half) (p : Nat) : Half := match h.linkOf p with
  | none => h
  | some l =>
    let r := if (h.upLanes l).all (fun q => q == p) then none else h.rowInProgress l (h.lane p).rx.lastSeq
    h.onRun l fun (x : LinkRun) => { x with rxRow := r.or (if (h.upLanes l).all (fun q => q == p) then none else x.rxRow) }

/-- A lane's receive island is reset with the loss of its clock (R138): the cell in flight and those waiting for their rows are discarded
and counted, and its counters return to zero. -/
def Half.isleReset (h : Half) (p : Nat) : Half :=
  let x := h.lane p
  let n := x.rx.fifo.length + bit (h.laneState p == lsUp && x.rx.buf != [])
  (h.onLane p fun (y : Lane) => { y with isle := [], rx := { y.rx with fifo := [], buf := [] } }).tally F.SYS_XDISC_COUNT n

/-- A lane leaves UP (R110, R111) for state `dst`: the drop is counted, the row in progress and its buffer discarded, and the fourth
drop within 10 s maps it out. -/
def Half.leaveUp (h : Half) (t p dst : Nat) : Half :=
  let recent := t :: (h.lane p).rx.drops.filter fun x => decide (t < x + 10 * secNs)
  let h0 := if h.laneState p = lsUp then h.breakRow p else h
  let h1 := (h0.onRx p fun (x : LaneRx) => { x with fifo := [], checked := 0, misses := 0, cells := 0, bads := [], drops := recent, lastSeq := none }).laneCount p 4 1
  if 4 ≤ recent.length then h1.mapOut t p (some 2) else (h1.laneEnter p dst).laneSince t p

/-- A lane in DESKEW that loses its cells hunts again; it was not UP, so no departure counts (R105). -/
def Half.leaveDeskew (h : Half) (t p : Nat) : Half :=
  ((h.onRx p fun (x : LaneRx) => { x with checked := 0, misses := 0, cells := 0, bads := [], lastSeq := none }).laneEnter p lsHunt).laneSince t p

/-- A lane whose cells fail goes back to HUNT: from UP or QUALIFY by R110, from DESKEW without a departure. -/
def Half.loseCells (h : Half) (t p : Nat) : Half := if h.laneState p = lsDeskew then h.leaveDeskew t p else h.leaveUp t p lsHunt

/-- A lane starts bring-up (R105): CDR with a fresh receiver. -/
def Half.startCdr (h : Half) (t p : Nat) : Half :=
  ((h.onRx p fun (x : LaneRx) => { LaneRx.reset with drops := x.drops, returning := x.returning }).laneEnter p lsCdr).laneSince t p

/-- The states that the lane's clock recovery carries: from DESCRAMBLE to QUALIFY. -/
def rxActive (s : Nat) : Bool := decide (lsDescramble ≤ s) && decide (s ≤ lsQualify)

/-! ## Receiving bits -/

/-- One line bit through unstuffing and descrambling (R100, R101); the flag of the result is a stuff error. A stuff bit between two
cells falls in the later one (log entry 117). -/
def LaneRx.bit (x : LaneRx) (y : Bool) : LaneRx × Bool :=
  if x.runLen = 24 then
    ({ x with runBit := y, runLen := 1, errNext := x.errNext || (y == x.runBit) }, y == x.runBit)
  else
    let d := y != (bitAt x.taps 38 != bitAt x.taps 57)
    let x1 : LaneRx := { x with
      runBit := y
      runLen := if y == x.runBit then x.runLen + 1 else 1
      taps := (x.taps * 2 + Sys2Proof.bit y) % 2 ^ 58
      fill := x.fill + 1 }
    if x.fill < 58 then (x1, false)
    else ({ x1 with buf := x1.buf ++ [(d, x.errNext)], errNext := false }, false)

/-- Line bits in turn, with the number of stuff errors. -/
def LaneRx.bits (x : LaneRx) : List Bool → LaneRx × Nat
  | [] => (x, 0)
  | y :: ys =>
    let r := x.bit y
    let s := r.1.bits ys
    (s.1, s.2 + Sys2Proof.bit r.2)

/-- The first 2,048 buffered bits as 256 bytes, inverted where the lane is. -/
def frameBytes (inv : Bool) (buf : List (Bool × Bool)) : List Byte := bitsBytes 256 ((buf.take 2048).map fun b => b.1 != inv)

/-- No stuff error fell in the first 2,048 buffered bits (R101). -/
def cleanCell (buf : List (Bool × Bool)) : Bool := !(buf.take 2048).any fun b => b.2

/-- HUNT (R105, R106): the first position whose cell has the mark or its complement and a valid CRC. The argument counts the
bits left. A cell with a stuff error is discarded here too. -/
def huntMark : Nat → List (Bool × Bool) → Option (Bool × List (Bool × Bool))
  | _, [] => none
  | n, b :: rest =>
    if n < 2048 then none
    else
      let m := bitsVal (((b :: rest).take 8).map fun x => x.1)
      if m = 0xD5 ∧ cellCrcOk (frameBytes false (b :: rest)) ∧ cleanCell (b :: rest) then some (false, b :: rest)
      else if m = 0x2A ∧ cellCrcOk (frameBytes true (b :: rest)) ∧ cleanCell (b :: rest) then some (true, b :: rest)
      else huntMark (n - 1) rest

/-- What an idle cell tells about the peer (LANE_PEER, R107, R108). -/
def Half.hearIdle (h : Half) (p : Nat) (c : Cell) : Half :=
  let h := h.sets [(F.LANE_PEER_ADDR p, c.field 16 14), (F.LANE_PEER_SPORT p, c.field 30 6), (F.LANE_PEER_RXUP p, c.field 40 4),
    (F.LANE_PEER_LANES p, c.field 44 3), (F.LANE_PEER_VALID p, 1)]
  match h.linkOf p with
  | some l => h.onRun l fun (r : LinkRun) => { r with peerUp := c.field 40 4 }
  | none => h

/-- Another lane of the link that reached CHECK has the same position (R107). -/
def Half.samePosition (h : Half) (p pos : Nat) : Bool := match h.linkOf p with
  | some l => (h.linkRec l).portList.any fun q =>
      q != p && (h.laneState q == lsUp || h.laneState q == lsDeskew || h.laneState q == lsQualify) && h.get (F.LANE_STATUS_POS q) == pos
  | none => false

/-- The newest LSEQ that a lane has received. -/
def Half.leadSeq (h : Half) (p : Nat) : Option Nat := (h.lane p).rx.lastSeq

/-- Cells by which a lane may lag (R109): 2 of skew on top of the transmitter's spread of one cell time. -/
def lagLimit : Nat := 3

/-- DESKEW (R109): cells of skew behind the earliest other lane UP, at most 2 shown, or none beyond the limit; 0 with no other lane UP. -/
def Half.skewOf (h : Half) (p seq : Nat) : Option Nat :=
  match h.linkOf p with
  | none => some 0
  | some l =>
    let others := ((h.upLanes l).filter fun q => q != p).filterMap h.leadSeq
    let behind := others.map fun o => (o + 16 - seq) % 16
    let ahead := others.map fun o => (seq + 16 - o) % 16
    if (behind.zip ahead).all fun x => decide (x.1 ≤ lagLimit) || decide (x.2 ≤ lagLimit) then
      some (min 2 ((behind.filter fun b => decide (b ≤ lagLimit)).foldl max 0))
    else none

/-- The lane has passed CHECK and DESKEW: UP, or QUALIFY when it returns from MAPPED_OUT (R111). -/
def Half.laneUp (h : Half) (t p : Nat) : Half :=
  if (h.lane p).rx.returning then (h.laneEnter p lsQualify).laneSince t p else h.laneEnter p lsUp

/-- The end of CHECK (R105, R107): DESKEW, or UP for a one-lane link; a doubled position maps the lane out. -/
def Half.passCheck (h : Half) (t p : Nat) : Half :=
  let lanes := match h.linkOf p with
    | some l => (h.linkRec l).lanes
    | none => 1
  if h.samePosition p (h.get (F.LANE_STATUS_POS p)) then h.mapOut t p (some 3)
  else if lanes = 1 then h.laneUp t p
  else h.laneEnter p lsDeskew

/-- One cell in CHECK: an idle cell gives the position and the peer's report. -/
def Half.checkCell (h : Half) (p : Nat) (c : Cell) : Half :=
  if c.type = 0 then (h.set (F.LANE_STATUS_POS p) (c.field 30 6 % 4)).hearIdle p c else h

/-- A cell taken in UP, QUALIFY or DESKEW: alignment idles and idle reports are consumed; LSEQ gaps are counted; in UP the cell
waits for its row, and the skipped LSEQs leave their places in theirs empty. -/
def Half.takeCell (h : Half) (p lseq : Nat) (c : Cell) (stamp : Nat) : Half :=
  let h1 := if c.type = 0 then h.hearIdle p c else h
  if c.type = 0 ∧ c.field 36 1 = 1 then h1
  else
    let gap := match (h1.lane p).rx.lastSeq with
      | some s => (lseq + 15 - s) % 16
      | none => 0
    let h2 := if gap = 0 then h1 else h1.laneCount p 3 gap
    let up := h2.laneState p == lsUp
    let lost := (List.range gap).map fun k => ((lseq + 16 - gap + k) % 16, lostCell, stamp)
    h2.onRx p fun (x : LaneRx) => { x with
      lastSeq := some lseq
      fifo := if up then x.fifo ++ lost ++ [(lseq, c, stamp)] else x.fifo }

/-- One whole cell of bits in UP, QUALIFY or DESKEW (R101, R103, R109, R110). -/
def Half.upCell (h : Half) (t p stamp : Nat) (bs : List Byte) (stuffErr : Bool) : Half :=
  if byteAt bs 0 ≠ 0xD5 then
    let misses := (h.lane p).rx.misses + 1
    let h1 := (h.onRx p fun (x : LaneRx) => { x with misses := misses, cells := x.cells + 1 }).laneCount p 1 1
    if 2 ≤ misses then h1.loseCells t p else h1
  else if !cellCrcOk bs then
    let n := (h.lane p).rx.cells
    let bads := n :: (h.lane p).rx.bads.filter fun k => decide (n < k + 1024)
    let h1 := (h.onRx p fun (x : LaneRx) => { x with misses := 0, cells := n + 1, bads := bads }).laneCount p 0 1
    if 32 ≤ bads.length then h1.loseCells t p else h1
  else
    let h1 := h.onRx p fun (x : LaneRx) => { x with misses := 0, cells := x.cells + 1 }
    let r := Cell.parse bs
    if stuffErr then h1
    else
      let h0 := if r.2.type = 15 then h1.laneCount p 0 1 else h1
      let h2 := h0.takeCell p r.1 r.2 stamp
      if h2.laneState p = lsDeskew ∧ ¬(r.2.type = 0 ∧ r.2.field 36 1 = 1) then
        match h2.skewOf p r.1 with
        | some k => (h2.set (F.LANE_STATUS_SKEW p) k).laneUp t p
        | none => h2.mapOut t p (some 4)
      else h2

/-- A cell received on a port passes the PORTRX point, whatever its CRC (R333, R335). -/
def Half.cvuCell (h : Half) (p : Nat) (bs : List Byte) : Half :=
  h.cvuTake 1 (fun s f => s == devicePort h.id p && typeTaken (byteAt bs 1 / 16) f) (some (bs.take 252)) 0

/-- Consumes what the buffer holds, by the lane's state. The argument bounds the number of cells taken. -/
def Half.laneWork : Nat → Nat → Nat → Nat → Half → Half
  | 0, _, _, _, h => h
  | n + 1, t, p, stamp, h =>
    let x := (h.lane p).rx
    let s := h.laneState p
    if s = lsHunt then
      match huntMark x.buf.length x.buf with
      | some (inv, buf) =>
        Half.laneWork n t p stamp (((h.onRx p fun (y : LaneRx) => { y with buf := buf, inv := inv, checked := 0 }).setFlag
          (F.LANE_STATUS_POLINV p) inv).set (F.LANE_PEER_VALID p) 0 |>.laneEnter p lsCheck)
      | none => h.onRx p fun (y : LaneRx) => { y with buf := lastN 2047 y.buf }
    else if s = lsCheck then
      if x.buf.length < 2048 * (x.checked + 2) then h
      else
        let bs := frameBytes x.inv (x.buf.drop (2048 * (x.checked + 1)))
        if byteAt bs 0 = 0xD5 ∧ cellCrcOk bs ∧ cleanCell (x.buf.drop (2048 * (x.checked + 1))) then
          let h1 := h.checkCell p (Cell.parse bs).2
          if x.checked = 2 then
            Half.laneWork n t p stamp ((h1.onRx p fun (y : LaneRx) =>
              { y with buf := y.buf.drop (2048 * 4), checked := 0, misses := 0, cells := 0, bads := [] }).passCheck t p)
          else Half.laneWork n t p stamp (h1.onRx p fun (y : LaneRx) => { y with checked := y.checked + 1 })
        else
          Half.laneWork n t p stamp ((h.onRx p fun (y : LaneRx) => { y with buf := y.buf.drop 1, checked := 0 }).laneEnter p lsHunt)
    else if s = lsUp ∨ s = lsQualify ∨ s = lsDeskew then
      if x.buf.length < 2048 then h
      else
        let bs := frameBytes x.inv x.buf
        let err := !cleanCell x.buf
        let h1 := h.onRx p fun (y : LaneRx) => { y with buf := y.buf.drop 2048 }
        Half.laneWork n t p stamp ((h1.cvuCell p bs).upCell t p stamp bs err)
    else h

/-! ## Rows (R107 to R109) -/

/-- The lanes of a link that are UP, in position order. -/
def Half.rowLanes (h : Half) (l : Nat) : List Nat :=
  (List.range 4).flatMap fun pos => (h.upLanes l).filter fun p => h.get (F.LANE_STATUS_POS p) == pos

/-- The head of a lane's waiting cells. -/
def Half.rowHead (h : Half) (p : Nat) : Option (Nat × Cell × Nat) := (h.lane p).rx.fifo.head?

/-- Cells of a row already taken or discarded leave a link's lanes. -/
def Half.dropOldRows (h : Half) (l : Nat) : Half := match (h.run l).rxRow with
  | none => h
  | some r => (h.upLanes l).foldl (fun (h : Half) p =>
      h.onRx p fun (x : LaneRx) => { x with fifo := x.fifo.dropWhile fun c => !newer 4 c.1 r }) h

/-- Takes whole rows from the waiting cells of a link; heads of an older row are discarded. The argument bounds the rows. -/
def Half.takeRows : Nat → Nat → Half → Half × List LaneEvent
  | 0, _, h => (h, [])
  | n + 1, l, h =>
    let lanes := h.rowLanes l
    let heads := lanes.filterMap h.rowHead
    if lanes = [] ∨ heads.length < lanes.length then (h, [])
    else
      let seqs := heads.map fun x => x.1
      let newest := seqs.foldl (fun a b => if newer 4 b a then b else a) (seqs.headD 0)
      let pop (h : Half) (p : Nat) : Half := h.onRx p fun (x : LaneRx) => { x with fifo := x.fifo.drop 1 }
      if seqs.all fun s => s == newest then
        let h1 := (lanes.foldl pop h).onRun l fun (r : LinkRun) => { r with rxRow := some newest }
        let evs := (lanes.zip heads).map fun x => LaneEvent.cell l (h.get (F.LANE_STATUS_POS x.1)) x.2.1 x.2.2.1 x.2.2.2
        let r := Half.takeRows n l h1
        (r.1, evs ++ r.2)
      else
        let old := lanes.filter fun p => match h.rowHead p with
          | some x => x.1 != newest
          | none => false
        Half.takeRows n l (old.foldl pop h)

/-- A lane of the link whose cells are later than the limit is mapped out (R109). -/
def Half.mapLate (h : Half) (t l : Nat) : Half :=
  let lanes := h.upLanes l
  if lanes.any fun p => decide (lagLimit < (h.lane p).rx.fifo.length) then
    (lanes.filter fun p => (h.lane p).rx.fifo.isEmpty).foldl (fun h p => h.mapOut t p (some 4)) h
  else h

/-- Line bits arrive at a lane (R99 to R112): the half, and what follows for the blocks. While the link has fewer than MINLANES lanes
UP its payload goes nowhere (R112). -/
def Half.receiveBits (h : Half) (t p stamp : Nat) (bits : List Bool) : Half × List LaneEvent :=
  if rxActive (h.laneState p) then
    let r := (h.lane p).rx.bits bits
    let h1 := h.onRx p fun _ => r.1
    let h2 := if r.2 = 0 then h1 else h1.laneCount p 2 r.2
    let h3 := if h2.laneState p = lsDescramble ∧ 58 ≤ r.1.fill then h2.laneEnter p lsHunt else h2
    let wasUp := h3.laneState p == lsUp || h3.laneState p == lsQualify
    let h4 := Half.laneWork 8 t p stamp h3
    let stillUp := h4.laneState p == lsUp || h4.laneState p == lsQualify
    let gone := if wasUp && !stillUp then [LaneEvent.dropped p] else []
    match h4.linkOf p with
    | none => (h4, gone)
    | some l =>
      let h5 := (h4.dropOldRows l).mapLate t l
      let rows := Half.takeRows 8 l h5
      let rep := rows.1.linkReport t l
      (rep.1, gone ++ (if h5.linkUp l then rows.2 else []) ++ rep.2)
  else (h, [])

/-! ## Commands on a lane -/

/-- The next lower rate of an SDI mask after hunting bit `b`, from the top again below the lowest (R115). -/
def nextRate (mask b : Nat) : Nat :=
  let order := [3, 2, 1, 0].filter fun i => bitAt mask i
  match order.find? fun i => decide (i < b) with
  | some i => i
  | none => order.headD 0

/-- Rate hunting starts at the highest rate of the mask (R115). The receiver's `fill` holds the hunted mask bit. -/
def Half.startHunt (h : Half) (t p : Nat) : Half :=
  ((h.onRx p fun (x : LaneRx) => { x with fill := nextRate (h.portRec p).rate 0 }).laneEnter p lsSdiHunt).laneSince t p

/-- The transmit PLL of a lane's group of four ports has qualified (R59, R95). -/
def Half.clocked (h : Half) (p : Nat) : Bool := h.getBit F.RST_QUAL_PORTPLL (p / 4)

/-- The generator at its start: the register value 1, or the first bit of the user pattern (R117). -/
def Half.seedGen (h : Half) (p : Nat) : Half :=
  let v := if h.get (F.LANE_PATTERN_GENSEL p) = 4 then 0 else 1
  h.onLane p fun (x : Lane) => { x with tx := { x.tx with gen := v } }

/-- The lane begins its work: pattern mode under its generator, rate hunting on an SDI port, or CDR (R105, R115, R117). -/
def Half.laneBegin (h : Half) (t p : Nat) : Half :=
  if h.flag (F.LANE_PATTERN_GENEN p) then ((h.onRx p LaneRx.clear).laneEnter p lsPattern).seedGen p
  else if (h.portRec p).role = 2 then h.startHunt t p
  else h.startCdr t p

/-- The lane is enabled with fresh transmitter and receiver (R105, R115): it begins at once, or waits for its PLL (R59). -/
def Half.laneEnable (h : Half) (t p : Nat) : Half :=
  let h1 := (h.onLane p fun (x : Lane) => { Lane.reset with pass := x.pass }).set (F.LANE_CTRL_ENABLE p) 1
  if h1.clocked p then h1.laneBegin t p else h1

/-- The lane is disabled: OFF. -/
def Half.laneDisable (h : Half) (p : Nat) : Half :=
  ((((h.onLane p fun (x : Lane) => { Lane.reset with pass := x.pass }).set (F.LANE_CTRL_ENABLE p) 0).laneEnter p lsOff).set
    (F.LANE_SDI_LOCK p) 0).set (F.LANE_STATUS_RATE p) 0

/-- The equaliser as it stands in LANE_DFE (R113): a fixed CTLE code as given; the taps zero or held; where the lane adapts, from CDR
to UP, an adapted CTLE code and adapted taps are free. -/
def Half.adaptEq (h : Half) (p : Nat) : Half :=
  let c := h.get (F.LANE_EQ_CTLE p)
  let s := h.laneState p
  let live := decide (lsCdr ≤ s) && decide (s ≤ lsQualify)
  let f := h.takeFree
  let h1 := if c < 16 then f.2.set (F.LANE_DFE_CTLE p) c else if live then f.2.set (F.LANE_DFE_CTLE p) (f.1 % 16) else h
  if h1.flag (F.LANE_EQ_DFEOFF p) then
    h1.sets [(F.LANE_DFE_TAP1 p, 0), (F.LANE_DFE_TAP2 p, 0), (F.LANE_DFE_TAP3 p, 0), (F.LANE_DFE_TAP4 p, 0), (F.LANE_DFE_TAP5 p, 0)]
  else if h1.flag (F.LANE_EQ_DFEFREEZE p) || !live then h1
  else
    let g := h1.takeFree
    g.2.sets [(F.LANE_DFE_TAP1 p, bitsAt g.1 0 7), (F.LANE_DFE_TAP2 p, bitsAt g.1 7 5), (F.LANE_DFE_TAP3 p, bitsAt g.1 12 5),
      (F.LANE_DFE_TAP4 p, bitsAt g.1 17 5), (F.LANE_DFE_TAP5 p, bitsAt g.1 22 5)]

/-- A write of LANE_EQ has been made: it acts on every lane that is not OFF (R113). -/
def Half.eqWritten (h : Half) (p : Nat) : Half := if h.laneState p = lsOff then h else h.adaptEq p

/-- CDR holds lock for 1,024 UI (R105). -/
def Half.cdrLock (h : Half) (p : Nat) : Half :=
  if h.laneState p = lsCdr then
    (((h.onRx p fun (x : LaneRx) => { x with locked := true, fill := 0, buf := [], runLen := 0 }).laneEnter p lsDescramble).set
      (F.LANE_STATUS_RATE p) (h.portRec p).rate).adaptEq p
  else h

/-- Clock recovery loses lock (R110): a lane UP counts a departure; any later state of bring-up starts again at CDR. -/
def Half.cdrLoss (h : Half) (t p : Nat) : Half × List LaneEvent :=
  let s := h.laneState p
  if s = lsUp ∨ s = lsQualify then
    let h1 := (h.isleReset p).leaveUp t p lsCdr
    let h2 := if h1.laneState p = lsCdr then h1.startCdr t p else h1
    let r := h2.laneReport t p
    (r.1, LaneEvent.dropped p :: r.2)
  else if rxActive s then ((h.isleReset p).startCdr t p, [])
  else (h, [])

/-- 20 ms without passing CHECK (R105). -/
def Half.bringupTimeout (h : Half) (t p : Nat) : Half :=
  let s := h.laneState p
  if lsCdr ≤ s ∧ s ≤ lsCheck then h.mapOut t p (some 1) else h

/-- 1 s in QUALIFY without leaving (R111). -/
def Half.qualifyDone (h : Half) (t p : Nat) : Half × List LaneEvent :=
  if h.laneState p = lsQualify then
    (((h.onRx p fun (x : LaneRx) => { x with returning := false }).laneEnter p lsUp).adaptEq p).laneReport t p
  else (h, [])

/-- Bring-up begins again from MAPPED_OUT, unless LANE_CTRL.MAPOUT holds it or its clock is gone (R95, R111). -/
def Half.retryLane (h : Half) (t p : Nat) : Half :=
  if h.laneState p = lsMappedOut ∧ h.flag (F.LANE_CTRL_MAPOUT p) = false ∧ h.clocked p then h.laneBegin t p else h

/-- The lanes of a group whose transmit PLL has qualified begin: those that waited for it and those mapped out (R59, R95). -/
def Half.groupClocked (h : Half) (t g : Nat) : Half :=
  [0, 1, 2, 3].foldl (fun (h : Half) k =>
    let p := 4 * g + k
    if h.flag (F.LANE_CTRL_ENABLE p) && h.laneState p == lsOff then h.laneBegin t p else h.retryLane t p) h

/-- A write of LANE_CTRL (R105, R111, R120): ENABLE, TXIDLE, MAPOUT, RETRY and OPEN of one word. -/
def Half.laneCtrl (h : Half) (t p : Nat) (v : Word) : Half × List LaneEvent :=
  let b (i : Nat) : Bool := bitAt v.toNat i
  let was := h.flag (F.LANE_CTRL_ENABLE p)
  let west := decide (16 ≤ p) && decide (p < 20)
  let h1 := (h.setFlag (F.LANE_CTRL_TXIDLE p) (b 1)).setFlag (F.LANE_CTRL_OPEN p) (b 11 && west)
  let h2 := if b 11 && west then h1 else h1.set (F.LANE_STATUS_BYPASS p) 0
  let h3 := if b 0 && !was then h2.laneEnable t p else if !b 0 && was then h2.laneDisable p else h2
  let h4 := h3.setFlag (F.LANE_CTRL_MAPOUT p) (b 8)
  let h5 := if b 8 && b 0 && h4.laneState p != lsMappedOut then h4.mapOut t p none else h4
  let h6 := if b 7 then h5.retryLane t p else h5
  h6.laneReport t p

/-! ## Patterns (R117, R118) -/

/-- Length and second tap of a PRBS selection, and whether its polarity is inverted (ITU-T O.150). -/
def prbs (sel : Nat) : Nat × Nat × Bool := match sel with
  | 0 => (7, 6, false)
  | 1 => (15, 14, true)
  | 2 => (23, 18, true)
  | _ => (31, 28, true)

/-- The next bit of a PRBS from its register of earlier bits, the newest in bit 0. -/
def prbsNext (sel reg : Nat) : Bool :=
  let q := prbs sel
  (bitAt reg (q.1 - 1) != bitAt reg (q.2.1 - 1)) != q.2.2

/-- The 64-bit user pattern of a lane. -/
def Half.userPattern (h : Half) (p : Nat) : Nat := h.get (F.LANE_PATUSR0_BITS p) + h.get (F.LANE_PATUSR1_BITS p) * 2 ^ 32

/-- `n` bits of the pattern generator: the bits and the generator afterwards. For the user pattern the register counts the
bits sent, from bit 63 down. -/
def patternBits (sel user : Nat) : Nat → Nat → List Bool × Nat
  | 0, reg => ([], reg)
  | n + 1, reg =>
    if sel = 4 then
      let r := patternBits sel user n ((reg + 1) % 64)
      (bitAt user (63 - reg % 64) :: r.1, r.2)
    else
      let d := prbsNext sel reg
      let r := patternBits sel user n ((reg * 2 + Sys2Proof.bit d) % 2 ^ 31)
      (d :: r.1, r.2)

/-- The rotation of the user pattern that equals 64 received bits, if one does: the next bit's place in the pattern. -/
def userPhase (user reg : Nat) : Option Nat :=
  (List.range 64).find? fun k => (List.range 64).all fun i => bitAt reg i == bitAt user (63 - (k + 63 - i) % 64)

/-- One received bit at the checker (R118). For a locked user pattern the register holds the place in the pattern. The result
says whether the bit was compared and whether it was in error. -/
def LaneChk.bit (c : LaneChk) (sel user : Nat) (locked : Bool) (y : Bool) : LaneChk × Bool × Bool × Bool :=
  if locked then
    let expect := if sel = 4 then bitAt user (63 - c.reg % 64) else prbsNext sel c.reg
    let err := y != expect
    let reg := if sel = 4 then (c.reg + 1) % 64 else (c.reg * 2 + Sys2Proof.bit expect) % 2 ^ 31
    let errs := (c.errs * 2 + Sys2Proof.bit err) % 2 ^ 64
    let lost := decide (16 ≤ ((List.range 64).filter fun i => bitAt errs i).length)
    ({ c with reg := if lost then 0 else reg, errs := if lost then 0 else errs, have_ := 0, agree := 0 }, !lost, true, err)
  else if sel = 4 then
    let reg := (c.reg * 2 + Sys2Proof.bit y) % 2 ^ 64
    let have_ := min 64 (c.have_ + 1)
    match (if have_ = 64 then userPhase user reg else none) with
    | some k => ({ c with reg := k, have_ := 0, errs := 0 }, true, false, false)
    | none => ({ c with reg := reg, have_ := have_ }, false, false, false)
  else
    let n := (prbs sel).1
    let ok := decide (n ≤ c.have_) && (prbsNext sel c.reg == y)
    let agree := if ok then c.agree + 1 else 0
    ({ c with reg := (c.reg * 2 + Sys2Proof.bit y) % 2 ^ 31, have_ := min n (c.have_ + 1), agree := agree, errs := 0 },
      decide (64 ≤ agree), false, false)

/-- Received line bits at the checker of a lane (R118). -/
def Half.checkBits (h : Half) (p : Nat) : List Bool → Half
  | [] => h
  | y :: ys =>
    let sel := min 4 (h.get (F.LANE_PATTERN_CHKSEL p))
    let sel := if 4 < h.get (F.LANE_PATTERN_CHKSEL p) then 3 else sel
    let r := (h.lane p).chk.bit sel (h.userPattern p) (h.flag (F.LANE_PATTERN_CHKLOCK p)) y
    let bits := r.1.bits + Sys2Proof.bit r.2.2.1
    let h1 := h.onLane p fun (x : Lane) => { x with chk := { r.1 with bits := bits % 65536 } }
    let h2 := if 65536 ≤ bits then h1.tally (F.LANE_CHKBITS_UNITS p) 1 else h1
    let h3 := if r.2.2.2 then h2.tally (F.LANE_CHKERR_ERRORS p) 1 else h2
    (h3.setFlag (F.LANE_PATTERN_CHKLOCK p) r.2.1).checkBits p ys

/-- The checker starts or stops (R118): a start from 0 clears its counts. -/
def Half.chkEnable (h : Half) (p : Nat) (on : Bool) : Half :=
  let h1 := h.setFlag (F.LANE_PATTERN_CHKEN p) on
  let h2 := (h1.onLane p fun (x : Lane) => { x with chk := LaneChk.reset }).set (F.LANE_PATTERN_CHKLOCK p) 0
  if on && !h.flag (F.LANE_PATTERN_CHKEN p) then (h2.set (F.LANE_CHKERR_ERRORS p) 0).set (F.LANE_CHKBITS_UNITS p) 0
  else if on then h1 else h2

/-- The generator starts or stops (R117): the lane leaves its link, or begins bring-up again, at once UP after it and not by way of
QUALIFY (log entry 118). While MAPOUT holds the lane, or its clock is gone, it goes to MAPPED_OUT instead (R95, R111). -/
def Half.genEnable (h : Half) (t p : Nat) (on : Bool) : Half × List LaneEvent :=
  let was := h.flag (F.LANE_PATTERN_GENEN p)
  let h1 := h.setFlag (F.LANE_PATTERN_GENEN p) on
  let start (h : Half) : Half := if h.flag (F.LANE_CTRL_MAPOUT p) || !h.clocked p then h.mapOut t p none else h.laneBegin t p
  if on && !was then (((h1.onRx p LaneRx.clear).laneEnter p lsPattern).seedGen p).laneReport t p
  else if !on && was then
    ((if (h1.portRec p).role = 2 ∨ h1.flag (F.LANE_CTRL_ENABLE p) then start h1 else h1.laneEnter p lsOff), [])
  else (h1, [])

/-! ## Sending (R99 to R101, R108, R109, R119) -/

/-- One cell bit through scrambler and stuffing, onto the line (R100, R101). -/
def LaneTx.bit (x : LaneTx) (d : Bool) : LaneTx :=
  let s := d != (bitAt x.taps 38 != bitAt x.taps 57)
  let len := if s == x.runBit then x.runLen + 1 else 1
  let taps := (x.taps * 2 + Sys2Proof.bit s) % 2 ^ 58
  if len = 24 then { x with taps := taps, runBit := !s, runLen := 1, line := x.line ++ [s, !s] }
  else { x with taps := taps, runBit := s, runLen := len, line := x.line ++ [s] }

/-- Cell bits in turn. -/
def LaneTx.bits (x : LaneTx) (ds : List Bool) : LaneTx := ds.foldl LaneTx.bit { x with line := [] }

/-- A cell's line bits, with the count of bits sent. -/
def LaneTx.cell (x : LaneTx) (c : Cell) (lseq : Nat) : LaneTx :=
  let y := x.bits (bytesBits (c.bytes lseq))
  { y with sent := y.sent + y.line.length }

/-- The rate-injection interval of a lane in line bits, 10^EXP for EXP 3 to 12 (R119); 0 for none. -/
def Half.injectEvery (h : Half) (p : Nat) : Nat :=
  let e := h.get (F.LANE_INJECT_EXP p)
  if 3 ≤ e ∧ e ≤ 12 then 10 ^ e else 0

/-- Error injection into the line bits of a lane (R119): a burst, and one bit at a freely drawn position in each interval. A bit that
both hit is inverted twice (log entry 119). -/
def injectBits (every : Nat) : List Bool → Half → LaneTx → List Bool × Half × LaneTx
  | [], h, x => ([], h, x)
  | y :: ys, h, x =>
    let hx : Half × LaneTx :=
      if every ≠ 0 ∧ x.rateLeft = 0 then
        let f := h.takeFree
        (f.2, { x with rateLeft := every, rateBit := f.1 % every })
      else (h, x)
    let x1 := hx.2
    let hit := every ≠ 0 && x1.rateLeft == x1.rateBit + 1
    let inv := decide (0 < x1.burst) != hit
    let x2 : LaneTx := { x1 with burst := x1.burst - 1, rateLeft := x1.rateLeft - 1 }
    let r := injectBits every ys hx.1 x2
    ((y != inv) :: r.1, r.2)

/-- Line bits of a lane after injection (R119). -/
def Half.injectLane (h : Half) (p : Nat) : Half :=
  let x := (h.lane p).tx
  let every := h.injectEvery p
  if every = 0 ∧ x.burst = 0 then h
  else
    let r := injectBits every x.line h x
    r.2.1.onLane p fun (y : Lane) => { y with tx := { r.2.2 with line := r.1 } }

/-- FIRE of LANE_INJECT (R119): one burst of BURST bits, 1 to 64, after those still to be sent. -/
def Half.fire (h : Half) (p : Nat) : Half :=
  let n := max 1 (min 64 (h.get (F.LANE_INJECT_BURST p)))
  h.onLane p fun (x : Lane) => { x with tx := { x.tx with burst := x.tx.burst + n } }

/-- A new rate of injection begins a new interval (R119). -/
def Half.restartRate (h : Half) (p : Nat) : Half := h.onLane p fun (x : Lane) => { x with tx := { x.tx with rateLeft := 0 } }

/-- A transmitter that sends: clocked, not electrically idle. -/
def Half.txOn (h : Half) (p : Nat) : Bool := h.clocked p && !h.flag (F.LANE_CTRL_TXIDLE p)

/-- A transmitter that sends cells: enabled, not in pattern mode, and not on an SDI port, where it stays electrically idle (R94). -/
def Half.txCells (h : Half) (p : Nat) : Bool :=
  h.flag (F.LANE_CTRL_ENABLE p) && h.txOn p && !h.flag (F.LANE_PATTERN_GENEN p) && (h.portRec p).role != 2

/-- The bypass pair of a ring port of the first ring is closed; its west port shows it (R120). -/
def Half.pairClosed (h : Half) (p : Nat) : Bool :=
  decide (16 ≤ p) && decide (p < 24) && !h.flag (F.LANE_STATUS_BYPASS (if p < 20 then p else p - 4))

/-- A lane on which this end sends payload: it has not mapped it out, and no closed bypass pair holds its transmitter (R105, R121). -/
def Half.carries (h : Half) (p : Nat) : Bool := h.laneState p != lsMappedOut && !h.pairClosed p

/-- The RXUP mask of a link: bit k for the receiver of lane position k UP (R104). -/
def Half.rxUp (h : Half) (l : Nat) : Nat := (h.upLanes l).foldl (fun m p => setBitNat m (h.get (F.LANE_STATUS_POS p)) true) 0

/-- A cell on a lane of a link, which passes the PORTTX point (R333). -/
def Half.sendOn (h : Half) (p lseq : Nat) (c : Cell) : Half :=
  let h1 := h.cvuTake 2 (fun s f => s == devicePort h.id p && typeTaken c.type f) (some ((c.bytes lseq).take 252)) 0
  (h1.onLane p fun (x : Lane) => { x with tx := x.tx.cell c lseq }).injectLane p

/-- A cell time of pattern bits on a lane (R117). -/
def Half.sendPattern (h : Half) (p : Nat) : Half :=
  let raw := h.get (F.LANE_PATTERN_GENSEL p)
  let r := patternBits (if 4 < raw then 3 else raw) (h.userPattern p) 2048 (h.lane p).tx.gen
  (h.onLane p fun (x : Lane) => { x with tx := { x.tx with line := r.1, gen := r.2, sent := x.tx.sent + 2048 } }).injectLane p

/-- The ports that a row of a link uses, in position order (R107, R108). -/
def Half.rowPorts (h : Half) (l : Nat) : List Nat :=
  let ps := (h.linkRec l).portList.filter fun p => decide (l < 16) || (h.portRec p).role != 3
  (List.range 4).flatMap fun k => ps.filter fun p => p % 4 == k

/-- Lanes that join a row count their line bits from those of the lanes already sending (R109). -/
def Half.levelLanes (h : Half) (l : Nat) (lanes : List Nat) : Half :=
  let stay := lanes.filter (h.run l).sending.contains
  let base := (stay.map fun p => (h.lane p).tx.sent).foldl max 0
  let h1 := (lanes.filter fun p => !stay.contains p).foldl (fun (h : Half) p =>
    h.onLane p fun (x : Lane) => { x with tx := { x.tx with sent := base } }) h
  h1.onRun l fun (r : LinkRun) => { r with sending := lanes }

/-- A TEST port fills its rows with test cells once its peer is UP (R104, log entry 116). -/
def Half.fillCell (h : Half) (p : Nat) (idle : Cell) : Cell := if (h.portRec p).role = 4 then testCell (h.userPattern p) else idle

/-- One row of cells on a link (R108, R109, R112): alignment idles when the leading lane is a full cell ahead; a row of idle
cells when the RXUP mask has changed or the link is down; otherwise waiting cells in position order on the lanes that the peer
reports UP and that carry payload at this end, idle cells on the rest. `addr` is the station address for idle cells, and `mark` what
happens at the transmit mark of a waiting cell (R309). -/
def Half.txRow (h : Half) (l addr : Nat) (mark : Half → Cell → Half × Cell) : Half :=
  let ports := h.rowPorts l
  let h0 := (ports.filter fun p => h.flag (F.LANE_PATTERN_GENEN p) && h.txOn p).foldl Half.sendPattern h
  let lanes := ports.filter h0.txCells
  let h0 := h0.levelLanes l lanes
  let mask := h0.rxUp l
  let idle (p : Nat) (align : Bool) : Cell := idleCell addr (devicePort h.id p) mask (h.linkRec l).lanes align
  let sent := lanes.map fun p => (h0.lane p).tx.sent
  let most := sent.foldl max 0
  let least := sent.foldl min most
  let run := h0.run l
  if 2048 ≤ most - least then
    (lanes.filter fun p => (h0.lane p).tx.sent != most).foldl (fun h p => h.sendOn p run.lseq (idle p true)) h0
  else
    let h1 := h0.onRun l fun (r : LinkRun) => { r with lseq := (r.lseq + 1) % 16, mask := mask }
    if mask ≠ run.mask ∨ !h0.linkUp l then lanes.foldl (fun h p => h.sendOn p run.lseq (idle p false)) h1
    else
      let carry := lanes.filter fun p => bitAt run.peerUp (p % 4) && h0.carries p
      let cells := run.queue.take carry.length
      let h2 := h1.onRun l fun (r : LinkRun) => { r with queue := r.queue.drop carry.length }
      let send (h : Half) (p : Nat) : Half := match (carry.zip cells).find? fun x => x.1 == p with
        | some x =>
          if x.2.type = 0 then h.sendOn p run.lseq (idle p false)
          else
            let w := mark h x.2
            w.1.sendOn p run.lseq w.2
        | none => h.sendOn p run.lseq (if carry.contains p then h0.fillCell p (idle p false) else idle p false)
      lanes.foldl send h2

/-! ## Bypass (R120) -/

/-- The pairs of a half whose OPEN is set open: their west ports show BYPASS (R120). -/
def Half.openPairs (h : Half) : Half :=
  [16, 17, 18, 19].foldl (fun h p => if h.flag (F.LANE_CTRL_OPEN p) then h.set (F.LANE_STATUS_BYPASS p) 1 else h) h

/-- Every pair of a half closes. -/
def Half.closePairs (h : Half) : Half := [16, 17, 18, 19].foldl (fun h p => h.set (F.LANE_STATUS_BYPASS p) 0) h

/-- The four west ports of a half with OPEN set or cleared. -/
def Half.askOpen (h : Half) (on : Bool) : Half :=
  let h1 := [16, 17, 18, 19].foldl (fun h p => h.setFlag (F.LANE_CTRL_OPEN p) on) h
  if on then h1 else h1.closePairs

/-! ## Configuration at step 7 -/

/-- Ports configured from the plan (R97, R60 step 7): equalisation, link index and ENABLE of every port not OFF. -/
def Half.configurePort (t : Nat) (h : Half) (p : Nat) : Half :=
  let r := h.portRec p
  if r.role = 0 then h
  else
    let h1 := h.sets [(F.LANE_EQ_SWING p, r.swing), (F.LANE_EQ_PRE p, r.pre), (F.LANE_EQ_POST p, r.post), (F.LANE_EQ_CTLE p, r.ctle),
      (F.LANE_EQ_DFEOFF p, r.dfe), (F.LANE_STATUS_LINK p, if r.role = 3 then r.link else 0x1F)]
    h1.laneEnable t p

/-- Bits that arrive at a ring port whose bypass pair is closed pass to the transmit balls of the paired port, whatever the half does
(R35, R120). -/
def Half.passBits (h : Half) (p : Nat) (bits : List Bool) : Half :=
  if h.pairClosed p then h.onLane (if p < 20 then p + 4 else p - 4) fun (x : Lane) => { x with pass := bits } else h

/-- Lane test (R58, R117): every port runs PRBS31 with its checker, and every pair asks to open. -/
def Half.laneTestPort (h : Half) (p : Nat) : Half :=
  let h1 := h.sets [(F.LANE_PATTERN_GENSEL p, 3), (F.LANE_PATTERN_CHKSEL p, 3), (F.LANE_CTRL_ENABLE p, 1), (F.LANE_PATTERN_GENEN p, 1),
    (F.LANE_PATTERN_CHKEN p, 1), (F.LANE_STATUS_RATE p, 4)]
  let h2 := h1.onLane p fun (x : Lane) => { Lane.reset with tx := { LaneTx.reset with gen := 1 }, pass := x.pass }
  if h2.clocked p then h2.laneEnter p lsPattern else h2

/-! ## SDI receivers (R115, R116) -/

/-- An SDI receiver locks at a hunted rate of its mask (R115). Rate codes 8 to 15 are those of LANE_STATUS.RATE. -/
def Half.sdiLock (h : Half) (p rate : Nat) (levelB : Bool) : Half :=
  if h.laneState p = lsSdiHunt ∧ 8 ≤ rate ∧ rate ≤ 15 ∧ (rate - 8) / 2 = (h.lane p).rx.fill ∧
      bitAt (h.portRec p).rate ((rate - 8) / 2) then
    ((h.laneEnter p lsSdiLock).set (F.LANE_STATUS_RATE p) rate).sets
      [(F.LANE_SDI_LOCK p, 1), (F.LANE_SDI_LEVELB p, bit (levelB && rate / 2 == 5))]
  else h

/-- 5 ms on a rate without lock: the next rate is hunted (R115); LANE_STATUS.RATE keeps reading 0 while hunting. -/
def Half.sdiNextRate (h : Half) (t p : Nat) : Half :=
  if h.laneState p = lsSdiHunt then
    (h.onRx p fun (x : LaneRx) => { x with fill := nextRate (h.portRec p).rate x.fill }).laneSince t p
  else h

/-- Eight expected timing references are missing (R116): the lock ends. -/
def Half.sdiUnlock (h : Half) (t p : Nat) : Half :=
  if h.laneState p = lsSdiLock then
    ((h.startHunt t p).sets [(F.LANE_STATUS_RATE p, 0), (F.LANE_SDI_LOCK p, 0), (F.LANE_SDI_LEVELB p, 0),
      (F.LANE_SDI_PIDVALID p, 0)]).laneCount p 7 8
  else h

end Sys2Proof.Machine
end

