-- ==== Sys2Proof/Machine/Time.lean ====
section
/-!
DEFINITION. Time bases (chapter 13): time cells, segment delays, tracking of the two domains, wall time with its reference
and error bound, grandmasters and camera bridges.
-/
namespace Sys2Proof

/-- The other side of a station. -/
def Side.other : Side → Side
  | .west => .east
  | .east => .west

/-- Number of a domain in a time cell. -/
def Domain.code : Domain → Nat
  | .a => 0
  | .b => 1

/-- The other domain. -/
def Domain.other : Domain → Domain
  | .a => .b
  | .b => .a

end Sys2Proof

namespace Sys2Proof.Machine

/-! ## Ring links and time cells -/

/-- The link of a ring on one side: KIND 2 and 3 of the first ring, 4 and 5 of the second (R97). -/
def Half.ringLink (h : Half) (r : Nat) (side : Side) : Option Nat :=
  h.linkOfKind (2 + 2 * r + (match side with
    | .west => 0
    | .east => 1))

/-- A cell given to a link, if the half has it. -/
def Half.queueOn (h : Half) (l : Option Nat) (c : Cell) : Half := match l with
  | some i => h.queueCell i c
  | none => h

/-- A ring of the half's plane. -/
def Half.ring (h : Half) (r : Nat) : RingSt := h.rings.getD r RingSt.reset

/-- The half with a ring changed. -/
def Half.onRing (h : Half) (r : Nat) (f : RingSt → RingSt) : Half := { h with rings := h.rings.modify r f }

/-- The rotation that leaves across a side: eastbound across the east segment (R278). -/
def RingSt.rot (x : RingSt) : Side → RotSt
  | .east => x.east
  | .west => x.west

/-- The ring with the rotation that leaves across a side changed. -/
def RingSt.onRot (x : RingSt) (side : Side) (f : RotSt → RotSt) : RingSt :=
  match side with
  | .east => { x with east := f x.east }
  | .west => { x with west := f x.west }

/-- The half with a rotation changed. -/
def Half.onRot (h : Half) (r : Nat) (side : Side) (f : RotSt → RotSt) : Half := h.onRing r fun x => x.onRot side f

/-- A slot without a cell; the transmitter sends an idle cell in it. -/
def emptySlot : Cell := { type := 0, hdr := 0, payload := [] }

/-- The row being passed on is whole: it waits to be sent. -/
def RotSt.flush (x : RotSt) : RotSt :=
  if x.part = [] then x
  else { x with
    out := x.out ++ [(x.row, (List.range 4).map fun p => ((x.part.find? fun y => y.1 == p).map fun y => y.2).getD emptySlot)]
    part := [] }

/-- A cell takes lane `pos` of the row being passed on. -/
def RotSt.place (x : RotSt) (pos : Nat) (c : Cell) : RotSt :=
  let y := if x.part.any fun p => p.1 == pos then x.flush else x
  let z : RotSt := { y with part := y.part ++ [(pos, c)] }
  if pos = 3 then z.flush else z

/-- The rotation that would leave across `side` ends at this station (R284, R285). -/
def Half.endsTo (h : Half) (r : Nat) (side : Side) : Bool :=
  h.flag (F.RNG_STATE_HEAD r) || (match side with
    | .east => h.flag (F.RNG_STATE_ENDE r)
    | .west => h.flag (F.RNG_STATE_ENDW r))

/-- This station heads the rotation that leaves across `side` (R285). -/
def Half.headsTo (h : Half) (r : Nat) (side : Side) : Bool :=
  h.flag (F.RNG_STATE_HEAD r) || (match side with
    | .east => h.flag (F.RNG_STATE_ENDW r)
    | .west => h.flag (F.RNG_STATE_ENDE r))

/-- A cell of row 0 passed on in its lane, unless the rotation ends here. -/
def Half.passOn (h : Half) (r : Nat) (side : Side) (pos : Nat) (c : Cell) : Half :=
  if h.endsTo r side then h else h.onRot r side fun x => x.place pos c

/-- A service cell that waits for a free slot of the rotation leaving across `side` (R280); on a camera link it is given to the
link. -/
def Half.serve (h : Half) (r : Nat) (side : Side) (c : Cell) : Half :=
  if r < 2 then h.onRot r side fun (x : RotSt) => { x with wait := x.wait ++ [c] } else h.queueCell (r - 2) c

/-- Index of a segment among the four that a half measures: west and east of the first ring, then of the second. -/
def segIndex (r : Nat) (side : Side) : Nat := 2 * r + (match side with
  | .west => 0
  | .east => 1)

/-- Mean of the measurements of a segment, rounded down, once the first is complete (R313). -/
def SegDelay.mean (s : SegDelay) : Option Int :=
  if s.vals = [] then none else some (s.vals.foldl (fun a b => a + b) 0 / (s.vals.length : Int))

/-- The delay of a segment. -/
def Half.segDelay (h : Half) (r : Nat) (side : Side) : Option Int := (h.time.seg.getD (segIndex r side) SegDelay.reset).mean

/-- Header of a time cell (R310). -/
def timeHdr (kind domain src seq : Nat) : Nat := hdrOf [(16, 4, kind), (20, 2, domain), (22, 14, src), (36, 16, seq)]

/-- An EMPTY time cell (R311). -/
def emptyTimeCell (d : Domain) (src : Nat) : Cell := { type := 3, hdr := timeHdr 0 d.code src 0, payload := [] }

/-- A SYNC as a cell (R310). -/
def syncToCell (c : SyncCell) : Cell :=
  { type := 3
    hdr := timeHdr 1 c.domain c.srcAddr c.seq
    payload := beBytes 8 c.originSec ++ beBytes 4 c.originFrac ++ beBytes 8 (unsigned 64 c.correction) ++ beBytes 4 c.errBound
      ++ beBytes 2 c.gmAddr ++ beBytes 1 c.hops ++ beBytes 1 (bit c.gmUnset + 2 * bit c.following) }

/-- A SYNC read from a cell. -/
def syncOfCell (c : Cell) : SyncCell :=
  { domain := c.field 20 2, srcAddr := c.field 22 14, seq := c.field 36 16
    originSec := beAt c.payload 0 8, originFrac := beAt c.payload 8 4, correction := signed 64 (beAt c.payload 12 8)
    errBound := beAt c.payload 20 4, gmAddr := beAt c.payload 24 2, hops := byteAt c.payload 26
    gmUnset := bitAt (byteAt c.payload 27) 0, following := bitAt (byteAt c.payload 27) 1 }

/-- A PDREQ (R310). -/
def pdreqCell (src seq : Nat) : Cell := { type := 3, hdr := timeHdr 2 0 src seq, payload := [] }

/-- A PDRESP with its stamps T2 and T3 (R310). -/
def pdrespCell (src seq t2 t3 : Nat) : Cell :=
  { type := 3, hdr := timeHdr 3 0 src seq, payload := beBytes 8 t2 ++ beBytes 8 t3 }

/-! ## The time configuration in force -/

/-- Configuration values before a time configuration is placed: the defaults of R327. -/
def TimeConf.default : TimeConf :=
  { gmA := false, gmB := false, preferB := false, revert := false, follow := false, gmAddrA := 0xFFFF, gmAddrB := 0xFFFF,
    upRingA := 0xFF, upRingB := 0xFF, timeout := 20, peerErr := 2000, asym := 20, servoErr := 32, holdRate := 1000, gmErr := 0,
    expiry := 1000 }

/-- The configuration of a half. -/
def Half.tconf (h : Half) : TimeConf := h.time.conf.getD TimeConf.default

/-- The half is a grandmaster of a domain. -/
def TimeConf.isGm (c : TimeConf) : Domain → Bool
  | .a => c.gmA
  | .b => c.gmB

/-- The grandmaster address of a domain. -/
def TimeConf.gmAddr (c : TimeConf) : Domain → Nat
  | .a => c.gmAddrA
  | .b => c.gmAddrB

/-- The ring number from which a gateway tracks a domain. -/
def TimeConf.upRing (c : TimeConf) : Domain → Nat
  | .a => c.upRingA
  | .b => c.upRingB

/-- The preferred domain (R321). -/
def TimeConf.prefer (c : TimeConf) : Domain := if c.preferB then .b else .a

/-- The half with its time state changed. -/
def Half.onTime (h : Half) (f : TimeSt → TimeSt) : Half := { h with time := f h.time }

/-- A station address of the half: of its first or second ring (R77). -/
def Half.stationAddr (h : Half) (r : Nat) : Nat := match h.image with
  | some i => if r = 0 then i.man.addr0 else i.man.addr1
  | none => 0x3FFF

/-- The ring from which a half tracks a domain: a gateway's UPRING, any station's first ring otherwise (R316, R317). -/
def Half.trackRing (h : Half) (d : Domain) : Nat :=
  let up := match d with
    | .a => h.tconf.upRingA
    | .b => h.tconf.upRingB
  if h.stationAddr 1 = 0xFFFF ∨ up = 0xFF ∨ h.stationAddr 0 / 128 = up then 0 else 1

/-- The ring number of an address (R77). -/
def ringOf (addr : Nat) : Nat := addr / 128

/-- Rate code of a ring's links. -/
def Half.ringRate (h : Half) (r : Nat) : Nat := match h.ringLink r .west with
  | some l => (h.linkRec l).rate
  | none => 4

/-- The lap period of a ring in ns at its rate: 4,096 rows of 2,048-bit cells (R279). -/
def ringLapNs (rate : Nat) : Nat := 524288 * 2 ^ (4 - min 4 rate)

/-- HOPERR (R312): twice the stamp uncertainty at the ring's rate, and ASYM. -/
def Half.hopErr (h : Half) (r : Nat) : Nat := 2 * (if 3 ≤ h.ringRate r then 4 else 8) + h.tconf.asym

/-! ## Error bounds and trust -/

/-- The own error bound Eown of a domain (R315, R316). -/
def Half.eown (h : Half) (d : Domain) (lb : Nat) : Nat :=
  let s := h.time.dom d
  if h.tconf.isGm d then h.tconf.gmErr
  else
    let age := lb - s.lastAt
    let grow := if 4 * ringLapNs (h.ringRate (h.trackRing d)) < age then ceilDiv (h.tconf.holdRate * age) secNs else 0
    s.bound + grow

/-- Eown has a meaning (R315). -/
def DomainState.bounded : DomainState → Bool
  | .tracked => true
  | .lost => true
  | _ => false

/-- The reference domain, while wall time exists. -/
def TimeSt.ref (s : TimeSt) : Option Domain := s.refB.map fun b => if b then .b else .a

/-- Wall time is trusted (R322). -/
def Half.trusted (h : Half) (lb : Nat) : Bool := match h.time.ref with
  | none => false
  | some d => (h.time.dom d).st == .tracked && decide (h.eown d lb ≤ h.tconf.peerErr)

/-- The published wall error bound Ew, while wall time exists (R322). -/
def Half.ew (h : Half) (lb : Nat) : Option Nat :=
  h.time.ref.map fun d => h.eown d lb + h.tconf.peerErr + h.time.dsw

/-- Wall time at a local base in units of 2^-32 s, while it is trusted. -/
def Half.trustedWall (h : Half) (lb : Nat) : Option Int := if h.trusted lb then (h.time.wallFine lb).map fineTicks else none

/-! ## TIM_STATUS -/

/-- State codes of TIM_STATUS. -/
def DomainState.code : DomainState → Nat
  | .none => 0
  | .acquiring => 1
  | .tracked => 2
  | .lost => 3

/-- TIM_STATUS follows the time state; a change raises source 8 and its event (R356, R383). -/
def Half.timeStatus (h : Half) (lb : Nat) : Half :=
  let c := h.tconf
  let s := h.time
  let gmUnset := (c.gmA && s.a.unset) || (c.gmB && s.b.unset)
  h.signalling irqTime F.TIM_STATUS_word.off fun h => h.sets
    [(F.TIM_STATUS_ASTATE, s.a.st.code), (F.TIM_STATUS_BSTATE, s.b.st.code),
     (F.TIM_STATUS_REF, match s.refB with
       | none => 0
       | some b => if b then 2 else 1),
     (F.TIM_STATUS_PEERFEED, bit (s.a.peerFed || s.b.peerFed)), (F.TIM_STATUS_EXISTS, bit s.refB.isSome),
     (F.TIM_STATUS_TRUSTED, bit (h.trusted lb)), (F.TIM_STATUS_SLEWING, bit (s.refB.isSome && s.offset lb != 0)),
     (F.TIM_STATUS_FOLLOW, bit (c.gmB && s.b.following)), (F.TIM_STATUS_GMA, bit c.gmA), (F.TIM_STATUS_GMB, bit c.gmB),
     (F.TIM_STATUS_GMUNSET, bit gmUnset)]

/-! ## Wall time (R320 to R322) -/

/-- A domain is changed at local base `lb`; wall time does not step: O takes up what its reference jumped (R320). -/
def TimeSt.steadily (s : TimeSt) (lb : Nat) (d : Domain) (f : DomainSt → DomainSt) : TimeSt :=
  let s1 := s.onDom d f
  match s.ref, s.wallFine lb with
  | some r, some w =>
    if r = d then { s1 with off := w - (s1.dom d).fine lb, offAt := lb } else s1
  | _, _ => s1

/-- The reference changes to domain `d`; O makes wall time continuous, and Dsw takes its size (R321, R322). -/
def TimeSt.switchTo (s : TimeSt) (lb : Nat) (d : Domain) : TimeSt := match s.wallFine lb with
  | some w =>
    let o := w - (s.dom d).fine lb
    { s with refB := some (d == .b), off := o, offAt := lb, dsw := ceilDiv o.natAbs (2 ^ 32) }
  | none => s

/-- A change of reference with its tally and fault class TIME code 2 (R321). -/
def Half.switchRef (h : Half) (t : Nat) (d : Domain) : Half :=
  let lb := h.lb t
  let h1 := ((h.onTime fun s => s.switchTo lb d).tally F.TIM_TALLY_SWITCHES 1).timeStatus lb
  h1.fault t clsTime 2 d.code (h1.wordBytes F.TIM_STATUS_word.off)

/-- A domain has become TRACKED: wall time comes into existence with the first (R320). -/
def TimeSt.wallFrom (s : TimeSt) (d : Domain) (lb : Nat) : TimeSt := match s.refB with
  | none => { s with refB := some (d == .b), off := 0, offAt := lb, dsw := 0 }
  | some _ => s

/-- A grandmaster's domain starts at a value, in units of 2^-32 ns (R318). -/
def DomainSt.start (d : DomainSt) (lb : Nat) (v : Int) (unset : Bool) : DomainSt :=
  { d with st := .tracked, base := v, anchor := lb, num := 1, den := 1, slew := 0, since := lb, unset := unset }

/-- The domain `d` becomes TRACKED at `lb`: wall time may begin, and a grandmaster of the other domain that has not started takes
its value once step 9 has begun (R318, R320). -/
def Half.nowTracked (h : Half) (lb : Nat) (d : Domain) : Half :=
  let h1 := h.onTime fun s => s.wallFrom d lb
  let o := d.other
  if h1.tconf.isGm o && (h1.time.dom o).st == .none && decide (8 ≤ h1.step) then
    h1.onTime fun s => s.onDom o fun x => x.start lb ((s.dom d).fine lb) false
  else h1

/-- The tally of entries to LOST of a domain. -/
def lostTally : Domain → Field
  | .a => F.TIM_TALLY_LOSTA
  | .b => F.TIM_TALLY_LOSTB

/-- A domain enters LOST (R314): its tally, fault class TIME code 1, and the reference changes when the other domain is TRACKED
(R321). -/
def Half.loseDomain (h : Half) (t : Nat) (d : Domain) : Half :=
  let lb := h.lb t
  let h1 := (h.onTime fun s => s.onDom d fun (x : DomainSt) => { x with st := .lost, good := 0, peerFed := false }).tally (lostTally d) 1
  let h2 := h1.timeStatus lb
  let h3 := h2.fault t clsTime 1 d.code (h2.wordBytes F.TIM_STATUS_word.off)
  if h3.time.ref = some d ∧ (h3.time.dom d.other).st = .tracked then h3.switchRef t d.other else h3

/-! ## Tracking (R314, R315) -/

/-- The rate that the last two estimates give; the old one where they give none. -/
def DomainSt.rated (d : DomainSt) (rx : Nat) (est : Int) : DomainSt := match d.lastEst with
  | some e =>
    if 0 < est - e ∧ d.lastAt < rx then { d with num := (est - e).toNat, den := rx - d.lastAt } else d
  | none => d

/-- What every accepted SYNC leaves in a domain. -/
def DomainSt.took (d : DomainSt) (c : SyncCell) (rx bound : Nat) (est : Int) : DomainSt :=
  { d with
    seqs := (c.srcAddr, c.seq) :: d.seqs.filter fun x => x.1 != c.srcAddr
    bound := bound, lastAt := rx, lastEst := some est, peerFed := false, unset := c.gmUnset, hops := c.hops
    following := c.following }

/-- A SYNC is newer than the last accepted one from its source (R314). -/
def DomainSt.isNew (d : DomainSt) (c : SyncCell) : Bool := match d.seqs.find? fun x => x.1 == c.srcAddr with
  | some x => newer 16 c.seq x.2
  | none => true

/-- A domain after an accepted SYNC whose estimate at the receive mark is `est` ns: set to it while acquiring, steered while
tracked (R314). -/
def DomainSt.accept (d : DomainSt) (c : SyncCell) (rx bound : Nat) (est : Int) : DomainSt :=
  let own := d.fine rx
  let err := est - d.at rx
  let d1 := (d.rated rx est).took c rx bound est
  match d.st with
  | .tracked => { d1 with base := own, anchor := rx, slew := fineOf est - own }
  | .acquiring =>
    let good := if err.natAbs ≤ 1000 then d.good + 1 else 0
    { d1 with st := if 8 ≤ good then .tracked else .acquiring, good := good, base := fineOf est, anchor := rx, slew := 0, since := rx }
  | _ => { d1 with st := .acquiring, good := 0, base := fineOf est, anchor := rx, slew := 0, since := rx }

/-- A SYNC whose error exceeds 1 ms in a domain that has a time (R314). -/
def DomainSt.jumps (d : DomainSt) (rx : Nat) (est : Int) : Bool := match d.st with
  | .tracked => decide (1000000 < (est - d.at rx).natAbs)
  | .acquiring => decide (1000000 < (est - d.at rx).natAbs)
  | _ => false

/-- The domain B grandmaster with FOLLOW steers B toward its estimate of A while A is TRACKED (R319). -/
def Half.followA (h : Half) (lb : Nat) : Half :=
  let c := h.tconf
  if c.follow && c.gmB then
    if h.time.a.st == .tracked && h.time.b.st == .tracked then
      h.onTime fun s => s.steadily lb .b fun (x : DomainSt) =>
        { x with base := x.fine lb, anchor := lb, num := s.a.num, den := s.a.den, slew := s.a.fine lb - x.fine lb, following := true }
    else h.onTime fun s => s.onDom .b fun (x : DomainSt) => { x with following := false }
  else h

/-- A SYNC that the station may use: of its configured grandmaster, newer, across a measured segment, on the ring that it
tracks, and not of a domain of which it is grandmaster. -/
def Half.usesSync (h : Half) (d : Domain) (r : Nat) (side : Side) (c : SyncCell) : Bool :=
  !h.tconf.isGm d && c.gmAddr == h.tconf.gmAddr d && (h.time.dom d).isNew c && (h.segDelay r side).isSome && r == h.trackRing d

/-- A SYNC of a domain tracked at local base `rx` (R314 to R316, R320, R321). -/
def Half.takeSync (h : Half) (t r : Nat) (side : Side) (d : Domain) (c : SyncCell) (rx : Nat) : Half :=
  if h.usesSync d r side c then
    let est := r308ns c.originSec c.originFrac + c.correction / 65536 + (h.segDelay r side).getD 0
    let bound := c.errBound + h.hopErr r + h.tconf.servoErr
    let s := h.time.dom d
    if s.jumps rx est then
      let h1 := h.onTime fun x => x.onDom d fun y => y.took c rx bound est
      (h1.tally F.TIM_TALLY_PHASEJUMP 1).loseDomain t d
    else
      let was := s.st
      let h1 := h.onTime fun x => x.steadily rx d fun y => y.accept c rx bound est
      let h2 := if (h1.time.dom d).st == .tracked && was != .tracked then h1.nowTracked rx d else h1
      (h2.followA rx).timeStatus rx
  else h

/-- The domain that a time cell names. -/
def domainOf (n : Nat) : Option Domain := match n with
  | 0 => some .a
  | 1 => some .b
  | _ => none

/-- The SYNC as forwarded (R312): segment delay and residence time in CORRECTION, HOPERR in ERRBOUND, one more hop. The transmit mark
is added when the cell is sent; until then CORRECTION lacks it. -/
def Half.forwardSync (h : Half) (r : Nat) (side : Side) (c : SyncCell) (rx : Nat) : SyncCell :=
  { c with
    correction := c.correction + ((h.segDelay r side).getD 0 - (rx : Int)) * 65536
    errBound := c.errBound + h.hopErr r
    hops := (c.hops + 1) % 256 }

/-- The SYNC that a domain source writes, for a transmit mark at `tx` (R311). -/
def Half.ownSync (h : Half) (d : Domain) (r tx : Nat) : SyncCell :=
  let s := h.time.dom d
  let v := fineTicks (s.fine tx)
  { domain := d.code, srcAddr := h.stationAddr r % 2 ^ 14, seq := s.seq % 2 ^ 16, originSec := tickSec v, originFrac := tickFrac v,
    correction := 0, errBound := h.eown d tx, gmAddr := h.tconf.gmAddr d, hops := 0,
    gmUnset := s.unset, following := s.following }

/-- The half writes the SYNCs of this domain on ring `r` (R311, R317): it is the grandmaster, which as a gateway also carries its domain
into its other ring, or the gateway that carries the domain into that ring while it is TRACKED. -/
def Half.isSource (h : Half) (d : Domain) (r : Nat) : Bool :=
  let up := h.tconf.upRing d
  (h.tconf.isGm d && (h.time.dom d).st == .tracked)
    || (h.stationAddr 1 != 0xFFFF && up != 0xFF && (h.time.dom d).st == .tracked && ringOf (h.stationAddr r) != up)

/-- The domain's SYNC sequence steps. -/
def Half.nextSync (h : Half) (d : Domain) : Half := h.onTime fun s => s.onDom d fun (x : DomainSt) => { x with seq := (x.seq + 1) % 2 ^ 16 }

/-- The time cell of a domain as it leaves on ring `r`: the source's SYNC, or an EMPTY (R311). Its SYNC is written again at its
transmit mark. -/
def Half.timeCell (h : Half) (d : Domain) (r tx : Nat) : Half × Cell :=
  if h.isSource d r then (h.nextSync d, syncToCell (h.ownSync d r tx)) else (h, emptyTimeCell d (h.stationAddr r % 2 ^ 14))

/-- A SYNC arrives at a station and is tracked and forwarded (R312, R314). -/
def Half.syncArrives (h : Half) (t r : Nat) (side : Side) (c : SyncCell) (rx : Nat) : Half :=
  match domainOf c.domain with
  | none => h
  | some d =>
    let h1 := h.takeSync t r side d c rx
    h1.passOn r side.other (1 + d.code) (syncToCell (h1.forwardSync r side c rx))

/-! ## Segment delays (R313) -/

/-- The half with a segment's measurement changed. -/
def Half.onSeg (h : Half) (i : Nat) (f : SegDelay → SegDelay) : Half :=
  h.onTime fun (s : TimeSt) => { s with seg := s.seg.modify i f }

/-- A PDREQ waits to be sent across a segment. -/
def Half.pdreqSend (h : Half) (t r : Nat) (side : Side) : Half :=
  let seq := h.time.pdSeq
  let h1 := h.onTime fun (s : TimeSt) => { s with pdSeq := (seq + 1) % 2 ^ 16 }
  let h2 := h1.onSeg (segIndex r side) fun (x : SegDelay) => { x with asked := some (seq, none), askedAt := some t }
  h2.serve r side (pdreqCell (h2.stationAddr r % 2 ^ 14) seq)

/-- A PDREQ is answered across its segment; T3 is written when the answer is sent. -/
def Half.pdreqArrives (h : Half) (r : Nat) (side : Side) (seq t2 : Nat) : Half :=
  h.serve r side (pdrespCell (if r < 2 then h.stationAddr r % 2 ^ 14 else 0x3FFF) seq t2 0)

/-- TIM_SEGDLY shows the measured delays of the half's first ring. -/
def Half.showDelays (h : Half) : Half :=
  let v (side : Side) : Nat := ((h.segDelay 0 side).getD 0).toNat
  (h.set F.TIM_SEGDLY_WEST (v .west)).set F.TIM_SEGDLY_EAST (v .east)

/-- A PDRESP that answers the standing PDREQ gives a measurement; the mean is over the last 8 (R313). -/
def Half.pdrespArrives (h : Half) (r : Nat) (side : Side) (seq t2 t3 t4 : Nat) : Half :=
  let i := segIndex r side
  match (h.time.seg.getD i SegDelay.reset).asked with
  | some (s, some t1) =>
    if s = seq then
      let d : Int := ((t4 : Int) - (t1 : Int) - ((t3 : Int) - (t2 : Int))) / 2
      (h.onSeg i fun (x : SegDelay) => { x with asked := none, vals := (d :: x.vals).take 8 }).showDelays
    else h
  | _ => h

/-! ## Timeouts, grandmasters and bridges -/

/-- The peer's time of a domain, as a half takes it over the half link (R316): at the peer's local base, which both share. -/
def Half.takePeerTime (h : Half) (p : Half) (lb : Nat) (d : Domain) : Half :=
  let s := p.time.dom d
  let b := p.eown d lb + 50
  (h.onTime fun x => x.steadily lb d fun (y : DomainSt) => { y with
    st := .tracked, base := s.fine lb, anchor := lb, num := s.num, den := s.den, slew := 0, bound := b, lastAt := lb, lastEst := none,
    peerFed := true }).timeStatus lb

/-- The peer's plane delivers a domain: TRACKED there, by itself. -/
def Half.givesTime (p : Half) (d : Domain) : Bool := !p.inReset && (p.time.dom d).st == .tracked && !(p.time.dom d).peerFed

/-- A half-link transfer between two halves is possible: both out of reset and neither end failed (R15). -/
def linkOk (h p : Half) : Bool := !h.inReset && !p.inReset && !h.flag F.LNK_STATUS_FAILED && !p.flag F.LNK_STATUS_FAILED

/-- No SYNC of a domain has been accepted for TIMEOUT (R314, R316). -/
def Half.domainTimeout (h : Half) (p : Half) (t : Nat) (d : Domain) : Half :=
  let s := h.time.dom d
  if h.tconf.isGm d || !(s.st == .tracked || s.st == .acquiring) || s.peerFed then h
  else if linkOk h p && p.givesTime d then h.takePeerTime p (h.lb t) d
  else h.loseDomain t d

/-- At an accepted baton a peer-fed domain is taken again, or is LOST when the peer no longer has it (R316). -/
def Half.refeed (h : Half) (p : Half) (t : Nat) (d : Domain) : Half :=
  if (h.time.dom d).peerFed then (if p.givesTime d then h.takePeerTime p (h.lb t) d else h.loseDomain t d) else h

/-- The preferred domain has been TRACKED for 10 s while not the reference (R321). -/
def Half.revert (h : Half) (t : Nat) : Half :=
  let d := h.tconf.prefer
  if h.tconf.revert && h.time.refB.isSome && h.time.ref != some d && (h.time.dom d).st == .tracked then h.switchRef t d else h

/-- O has reached 0 (R320); with the preferred domain as reference Dsw returns to 0 (R322). -/
def Half.slewDone (h : Half) (t : Nat) : Half :=
  let lb := h.lb t
  if h.time.refB.isSome && h.time.offset lb == 0 then
    (h.onTime fun (s : TimeSt) => { s with
      off := 0, offAt := lb, dsw := if s.ref = some h.tconf.prefer then 0 else s.dsw }).timeStatus lb
  else h

/-- 500 ms after step 9 began a grandmaster whose other domain is not TRACKED starts at 0 s, unset (R318). -/
def Half.gmStartWait (h : Half) (t : Nat) (d : Domain) : Half :=
  let lb := h.lb t
  if h.tconf.isGm d && (h.time.dom d).st == .none && decide (8 ≤ h.step) then
    ((h.onTime fun s => s.onDom d fun x => x.start lb 0 true).nowTracked lb d).timeStatus lb
  else h

/-- At the start of step 9 a grandmaster takes the value of the other domain when that is TRACKED (R318). -/
def Half.gmBegin (h : Half) (t : Nat) (d : Domain) : Half :=
  let lb := h.lb t
  if h.tconf.isGm d && (h.time.dom d).st == .none && (h.time.dom d.other).st == .tracked then
    ((h.onTime fun s => s.onDom d fun x => x.start lb ((s.dom d.other).fine lb) false).nowTracked lb d).timeStatus lb
  else h

/-- The time held in TIM_GMSETSECLO, TIM_GMSETSECHI and TIM_GMSETFRAC, as a domain keeps it. -/
def Half.gmSet (h : Half) : Int :=
  fineOfTicks (timeTicks (h.get F.TIM_GMSETSECLO_VALUE + h.get F.TIM_GMSETSECHI_VALUE * 2 ^ 32) (h.get F.TIM_GMSETFRAC_VALUE))

/-- A write of TIM_GMCMD with GO (R318): a grandmaster moves its domain to the held time at 50 µs/s, or steps it. -/
def Half.gmCmd (h : Half) (t : Nat) (d : Domain) (step : Bool) : Half :=
  let lb := h.lb t
  let v := h.gmSet
  if h.tconf.isGm d then
    let moved (x : DomainSt) : DomainSt :=
      if step then { x with base := v, anchor := lb, slew := 0, unset := false, st := .tracked }
      else { x with base := x.fine lb, anchor := lb, slew := v - x.fine lb, unset := false, st := .tracked }
    let was := (h.time.dom d).st
    let h1 := h.onTime fun s => s.steadily lb d moved
    let h2 := if was == .tracked then h1 else h1.nowTracked lb d
    h2.timeStatus lb
  else h

/-- The SYNC of wall time `w`, in units of 2^-32 s, for a transmit mark at `lb` on a camera link (R323). -/
def Half.wallSync (h : Half) (seq lb : Nat) (w : Int) : SyncCell :=
  { domain := 2, srcAddr := 0x3FFF, seq := seq, originSec := tickSec w, originFrac := tickFrac w
    correction := 0, errBound := (h.ew lb).getD 0 - h.tconf.peerErr
    gmAddr := ((h.time.ref).map h.tconf.gmAddr).getD 0, hops := 0, gmUnset := false, following := false }

/-- Every 1 ms a SYNC of wall time on a camera link while wall time is trusted (R323). -/
def Half.bridgeSync (h : Half) (t l : Nat) : Half :=
  let lb := h.lb t
  match h.trustedWall lb with
  | some w =>
    if (h.linkRec l).kind = 6 then
      let seq := ((h.time.bridge.find? fun b => b.1 == l).map fun b => b.2.1).getD 0
      (h.queueCell l (syncToCell (h.wallSync seq lb w))).onTime fun (s : TimeSt) => { s with
        bridge := (l, (seq + 1) % 2 ^ 16, t) :: s.bridge.filter fun b => b.1 != l }
    else h
  | none => h

/-! ## Transmit marks (R309) -/

/-- An 8-byte field of a cell's payload. -/
def Cell.withWord (c : Cell) (at_ v : Nat) : Cell := { c with payload := c.payload.take at_ ++ beBytes 8 v ++ c.payload.drop (at_ + 8) }

/-- A time cell at its transmit mark `tx` on the local base, leaving across a side of ring `r`: T1 of a PDREQ is kept, T3 of a PDRESP and
a SYNC of this station's own domain are written, and a forwarded SYNC takes its residence time (R311 to R313). -/
def Half.markTime (h : Half) (r : Nat) (side : Side) (tx : Nat) (c : Cell) : Half × Cell :=
  match c.field 16 4 with
  | 1 =>
    let x := syncOfCell c
    match domainOf x.domain with
    | none => (h, c)
    | some d =>
      if x.hops = 0 ∧ x.srcAddr = h.stationAddr r % 2 ^ 14 then (h, syncToCell { h.ownSync d r tx with seq := x.seq })
      else (h, syncToCell { x with correction := x.correction + (tx : Int) * 65536 })
  | 2 => (h.onSeg (segIndex r side) fun (x : SegDelay) => { x with asked := x.asked.map fun a =>
      (a.1, if a.1 = c.field 36 16 then some tx else a.2) }, c)
  | 3 => (h, c.withWord 8 tx)
  | _ => (h, c)

/-- A time cell at its transmit mark on a camera link: T3 of a PDRESP, and the wall time of a SYNC (R313, R323). -/
def Half.markBridge (h : Half) (tx : Nat) (c : Cell) : Cell := match c.field 16 4 with
  | 1 => match h.trustedWall tx with
    | some w => syncToCell (h.wallSync (syncOfCell c).seq tx w)
    | none => c
  | 3 => c.withWord 8 tx
  | _ => c

end Sys2Proof.Machine
end

