-- ==== Sys2Proof/Machine/Intake.lean ====
section
/-!
DEFINITION. Intake (R146 to R167): frames of SDI, native and ring sources, tiles and packing, sequence, freeze and signal
loss, the lap latch, publishing and proxies.
-/
namespace Sys2Proof.Machine

/-! ## Tiles (R153 to R155, R166) -/

/-- 10-bit samples packed most significant bit first (R153). -/
def packSamples (l : List Nat) : List Byte :=
  bitsBytes (l.length * 10 / 8) (l.flatMap fun v => (List.range 10).map fun i => bitAt v (9 - i))

/-- Sample `k` of a packed string (R153). -/
def sampleAt (bs : List Byte) (k : Nat) : Nat :=
  let b := 10 * k
  (byteAt bs (b / 8) * 256 + byteAt bs (b / 8 + 1)) / 2 ^ (6 - b % 8) % 1024

/-- A granule of a slot: payload, zeros to byte 959, tile CRC most significant byte first, zeros (R155, R169). -/
def granuleBytes (payload : List Byte) : List Byte := padTo 960 payload ++ beBytes 4 (crcOf payload) ++ padTo 60 []

/-- The samples of pixel pair or pixel `x` in a line of an SDI picture, the last active pixel repeated beyond it (R154): index
of the line's sample for sample `k` of the tile line that begins at pixel 16·tx. -/
def sdiSample (width : Nat) (line : List Nat) (x0 k : Nat) : Nat :=
  let x := x0 + k / 2
  let last := width - 1
  if k % 2 = 1 then line.getD (2 * min x last + 1) 0
  else line.getD (4 * (min x last / 2) + (if x % 2 = 0 then 0 else 2)) 0

/-- The payload of tile (tx, ty) of an SDI picture (R153, R154). -/
def sdiTile (r : SourceRec) (picture : List (List Nat)) (tx ty : Nat) : List Byte :=
  packSamples ((List.range 16).flatMap fun j =>
    let line := picture.getD (min (16 * ty + j) (r.height - 1)) []
    (List.range 32).map fun k => sdiSample r.width line (16 * tx) k)

/-! ## Source status (R158, R160) -/

/-- The port of a record within its half. -/
def SourceRec.localPort (r : SourceRec) : Nat := r.port % 24

/-- The running link of a native record: the link record of KIND 6 that starts at its port, or the single-lane native port. -/
def Half.nativeLink (h : Half) (r : SourceRec) : Nat :=
  ((List.range 16).find? fun l => (h.linkRec l).kind == 6 && (h.linkRec l).first == r.localPort).getD (16 + r.localPort)

/-- The half has joined its ring on this plane. -/
def Half.ringJoined (h : Half) (r : Nat) : Bool := h.get (F.RNG_STATE_STATE r) == 4

/-- Ring `r` of this half's plane carries a source to this station: a stream record that names it among its subscribers (R287). -/
def Half.feedsFrom (h : Half) (r : Nat) (x : SourceRec) : Bool := match (h.ring r).plan with
  | some p => p.streams.any fun s => s.source == x.ident && bitAt s.subs (h.stationAddr r % 128)
  | none => false

/-- Some ring link of the plane is up. -/
def Half.ringLinkUp (h : Half) (r : Nat) : Bool := [Side.west, Side.east].any fun s => match h.ringLink r s with
  | some l => (h.run l).up
  | none => false

/-- The signal of a source is absent (R160, NOLOCK). -/
def Half.noLock (h : Half) (r : SourceRec) : Bool := match r.kind with
  | 1 => !h.flag (F.LANE_SDI_LOCK r.localPort)
  | 2 => !(h.run (h.nativeLink r)).up
  | 3 => !(List.any [0, 1] fun k => h.feedsFrom k r && h.ringJoined k && h.ringLinkUp k)
  | _ => false

/-- A slot byte of the source lies in the range that is absent with seven channels (R170). -/
def Half.noMemory (h : Half) (r : SourceRec) : Bool :=
  r.held && h.sevenChannels && decide (0x60000000 < r.slotbase * 1024 + 3 * r.tiles * 1024)

/-- The first case of R160 that holds, as a REASON code; 0 none. -/
def Half.nosigReason (h : Half) (i : Nat) (s : SourceSt) : Nat :=
  if !h.flag (F.INK_SCTRL_ENABLE i) then 1
  else if h.noLock s.rcd then 2
  else if s.badFormat then 3
  else if h.noMemory s.rcd then 4
  else if s.timedOut || !s.seen then 5
  else 0

/-- The source is NOSIG. -/
def Half.isNosig (h : Half) (i : Nat) : Bool := h.get (F.INK_SSTAT_STATUS i) == 2

/-- STATUS from NOSIG and FROZEN; a change of it raises source 7 and its event (R356, R383). -/
def Half.showStatus (h : Half) (i : Nat) (nosig : Bool) (reason : Nat) : Half :=
  let status := if nosig then 2 else bit (h.flag (F.INK_SSTAT_FROZEN i))
  let was := h.get (F.INK_SSTAT_STATUS i)
  let h1 := (h.set (F.INK_SSTAT_REASON i) reason).set (F.INK_SSTAT_STATUS i) status
  if status = was then h1 else h1.signal irqSource (F.INK_SSTAT_word i).off

/-- DETAIL of class SRC (R419). -/
def Half.srcDetail (h : Half) (i : Nat) (s : SourceSt) : List Byte :=
  leBytes 2 s.rcd.ident ++ leBytes 2 0 ++ h.wordBytes (F.INK_SSTAT_word i).off

/-- NOSIG follows the cases of R160: an entry is counted and recorded, and leaves only at a completed frame. `done` says that
a frame has just completed. -/
def Half.followNosig (h : Half) (t i : Nat) (done : Bool) : Half := match h.source i with
  | none => h
  | some s =>
    let was := h.isNosig i
    let r := h.nosigReason i s
    if r ≠ 0 then
      let h1 := h.showStatus i true (if r = 1 ∧ s.enabledOnce = false then 1 else r)
      if was then h1
      else
        let h2 := (h1.tally (F.INK_STALLY2_NOSIGS i) 1).onSource i fun (x : SourceSt) => { x with fresh := true }
        h2.fault t clsSrc 2 i (h2.srcDetail i s)
    else if was && !done then h.showStatus i true 5
    else h.showStatus i false 0

/-- Every source of the half (R160). -/
def Half.followAllNosig (h : Half) (t : Nat) : Half :=
  (List.range h.sources.length).foldl (fun h i => h.followNosig t i false) h

/-! ## Frames -/

/-- The slot for a new frame (R162): neither newest nor pinned, with the older frame; EMPTY and DAMAGED count as oldest. -/
def Half.freeSlot (h : Half) (i : Nat) (s : SourceSt) : Nat :=
  let free := (List.range 3).filter fun n => h.get (F.INK_SSTAT_NEWEST i) != n && !h.getBit (F.INK_SSTAT_PIN i) n
  let age (n : Nat) : Nat := if h.slotState i n = slotComplete then ((s.slots.getD n none).map fun f => f.order + 1).getD 0 else 0
  free.foldl (fun b n => if age n < age b then n else b) (free.headD 0)

/-- The writing frame of a source is discarded: its slot becomes EMPTY (R162), with a tally when one is given. -/
def Half.discardFrame (h : Half) (i : Nat) (tally : Option Field) : Half := match h.source i with
  | none => h
  | some s => match s.writing with
    | none => h
    | some w =>
      let h1 := (h.onSource i fun (x : SourceSt) => { x with writing := none, slots := x.slots.set w.slot none }).setSlot i w.slot slotEmpty
      match tally with
      | some f => h1.tally f 1
      | none => h1

/-- A frame begins (R148, R151, R162): the slot, the arrival stamps and the carried capture fields. -/
def Half.beginFrame (h : Half) (i fseq stamp csec cfrac : Nat) : Half := match h.source i with
  | none => h
  | some s =>
    let slot := h.freeSlot i s
    let w : Writing := { slot := slot, fseq := fseq, arr := stamp, wallArr := h.trustedWall stamp, ew := (h.ew stamp).getD 0,
                         csec := csec, cfrac := cfrac, badTime := false, parts := [], crcs := [] }
    let h1 := h.onSource i fun (x : SourceSt) => { x with writing := some w, refused := none, slots := x.slots.set slot none, kept := [] }
    (h1.setSlot i slot slotWriting).set (F.INK_SSEQ_WRITING i) fseq

/-- The half with the writing frame of a source changed. -/
def Half.onWriting (h : Half) (i : Nat) (f : Writing → Writing) : Half :=
  h.onSource i fun (x : SourceSt) => { x with writing := x.writing.map f }

/-- A whole tile is written into the slot of the writing frame, as the intake's access to the frame store under the access
rules (R155, R169, R339): when it is refused the frame is discarded as INCOMPLETE (R340). A source that is only published keeps its
tiles. -/
def Module.writeTile (m : Module) (t : Nat) (h : HalfId) (i tile : Nat) (payload : List Byte) : Module :=
  match (m.half h).source i with
  | none => m
  | some s => match s.writing with
    | none => m
    | some w =>
      let m1 := m.onHalf h fun x => x.onWriting i fun (y : Writing) => { y with crcs := y.crcs ++ [(tile, crcOf payload)] }
      if s.rcd.held then
        let a := s.rcd.granule w.slot tile
        match m1.checkAccess h (storeAddr h a) .tile mIntake .write with
        | none => m1.onHalf h fun x =>
          (x.storeWrite a (granuleBytes payload)).cvuTake 4 (fun _ f => identTaken (some s.rcd.ident) f) (some payload) 0
        | some d => m1.onHalf h fun x => ((x.refuse t (storeAddr h a) d mIntake .write).discardFrame i
            (some (F.INK_STALLY0_INCOMPLETE i))).onSource i fun (y : SourceSt) => { y with refused := some w.fseq }
      else m1.onHalf h fun x => x.onSource i fun (y : SourceSt) => { y with kept := y.kept ++ [(tile, payload)] }

/-- The frame value F (R156): the CRC over the tile CRCs in raster order. -/
def frameValue (tiles : Nat) (crcs : List (Nat × Nat)) : Nat :=
  crcOf ((List.range tiles).flatMap fun k => beBytes 4 (((crcs.find? fun c => c.1 == k).map fun c => c.2).getD 0))

/-- Capture of a native or ring frame in wall time (R151, R324) in units of 2^-32 s, or none where the fields or trust give none. -/
def Writing.capture (w : Writing) : Option Int := match w.wallArr with
  | none => none
  | some a =>
    if w.csec = 0xFFFF ∧ w.cfrac = 0xFFFF then none
    else
      let sa := tickSec a
      some (timeTicks (sa - (sa + 65536 - w.csec % 65536) % 65536) (w.cfrac * 65536))

/-- The frame's capture time lies after its arrival. -/
def Writing.future (w : Writing) : Bool := match w.capture, w.wallArr with
  | some c, some a => decide (a < c)
  | _, _ => false

/-- The capture of a frame on its source's base; none for a frame marked NOTIME (R148, R151). -/
def Writing.captureOn (w : Writing) (r : SourceRec) : Option Int := match r.kind with
  | 1 => some ((w.arr : Int) - (r.uplat : Int) * 1000)
  | 3 => w.capture.map ticksNs
  | _ => match w.capture, w.wallArr with
    | some c, some a => some ((w.arr : Int) - (ticksNs a - ticksNs c))
    | _, _ => none

/-- The capture fields that a published frame carries (R164). -/
def Writing.carry (w : Writing) (r : SourceRec) : Nat × Nat :=
  let wall : Option Int := if r.kind = 1 then w.wallArr.map fun a => nsTicks (ticksNs a - (r.uplat : Int) * 1000) else w.capture
  match wall with
  | none => (0xFFFF, 0xFFFF)
  | some c =>
    let s := tickSec c % 65536
    let f := tickFrac c / 65536
    if s = 0xFFFF ∧ f = 0xFFFF then (0xFFFF, 0xFFFE) else (s, f)

/-- Repeat count, FROZEN and the effective capture time of a completed frame (R158, R159). -/
def Half.freeze (h : Half) (t i : Nat) (s : SourceSt) (old : Option SlotFrame) (f : SlotFrame) : Half × SlotFrame :=
  let win := h.get (F.INK_SCTRL_FREEZEW i)
  match old with
  | none => ((h.set (F.INK_SSTAT_REPEATS i) 0).set (F.INK_SSTAT_FROZEN i) 0, f)
  | some o =>
    if win ≠ 0 ∧ f.fval = o.fval then
      let k := min 255 (h.get (F.INK_SSTAT_REPEATS i) + 1)
      let h1 := h.set (F.INK_SSTAT_REPEATS i) k
      let was := h.flag (F.INK_SSTAT_FROZEN i)
      let h2 := h1.setFlag (F.INK_SSTAT_FROZEN i) (decide (win ≤ k))
      let h3 := if decide (win ≤ k) && !was then
          let h4 := h2.tally (F.INK_STALLY1_FROZENS i) 1
          h4.fault t clsSrc 1 i (h4.srcDetail i s)
        else h2
      (h3, { f with cap := o.cap, noTime := f.noTime || o.noTime })
    else ((h.set (F.INK_SSTAT_REPEATS i) 0).set (F.INK_SSTAT_FROZEN i) 0, f)

/-- Missing sequences before an accepted frame (R157). -/
def gapOf (s : SourceSt) (old : Option SlotFrame) (fseq : Nat) : Nat := match old with
  | some o => if s.fresh then 0 else (fseq + 65536 - o.fseq % 65536) % 65536 - 1
  | none => 0

/-- A frame is refused by its sequence (R157). -/
def staleSeq (s : SourceSt) (old : Option SlotFrame) (fseq : Nat) : Bool := match old with
  | some o => s.rcd.kind != 1 && !s.fresh && !newer 16 fseq o.fseq
  | none => false

/-- A frame completes (R156 to R160): its value, sequence, freeze and capture, and it becomes the newest slot. -/
def Half.completeFrame (h : Half) (t i : Nat) : Half := match h.source i with
  | none => h
  | some s => match s.writing with
    | none => h
    | some w =>
      let old := (h.newestSlot i).map fun x => x.2
      let cells := s.rcd.kind ≠ 1
      if cells ∧ (w.badTime || w.future) then h.discardFrame i (some (F.INK_STALLY1_TIMEERR i))
      else if staleSeq s old w.fseq then h.discardFrame i (some (F.INK_STALLY0_SEQREJ i))
      else
        let fr : Nat × Half := match w.captureOn s.rcd with
          | some _ => (0, h)
          | none => h.takeFree
        let cap : Int := (w.captureOn s.rcd).getD (fr.1 : Int)
        let f0 : SlotFrame := { fseq := w.fseq, cap := cap, arr := w.arr, fval := frameValue s.rcd.tiles w.crcs,
                                noTime := (w.captureOn s.rcd).isNone, ew := w.ew, order := s.order }
        let h1 := if s.rcd.kind = 1 then fr.2 else fr.2.tally (F.INK_STALLY0_GAPS i) (gapOf s old w.fseq)
        let p := h1.freeze t i s old f0
        let h2 := p.1.onSource i fun (x : SourceSt) => { x with
          slots := x.slots.set w.slot (some p.2), writing := none, fresh := false, seen := true, since := t, timedOut := false
          order := x.order + 1, carried := w.carry s.rcd
          nextSeq := if s.rcd.kind = 1 then (x.nextSeq + 1) % 65536 else x.nextSeq }
        let h3 := ((h2.setSlot i w.slot slotComplete).setFlag (F.INK_SSTAT_BASE i) (s.rcd.kind == 3)).showNewest i
        h3.followNosig t i true

/-! ## SDI frames (R146 to R149) -/

/-- Picture and rate that a ST 352 payload identifier declares, for progressive 4:2:2 pictures; byte 1 is the most significant
byte of the word (PRESUMED: SMPTE ST 352, log entry 20). -/
def pidFormat (w : Nat) : Option (Nat × Nat × Nat) :=
  let b1 := bitsAt w 24 8
  let b2 := bitsAt w 16 8
  let b3 := bitsAt w 8 8
  let size : Option (Nat × Nat) := match b1 with
    | 0x84 => some (1280, 720)
    | 0x85 => some (1920, 1080)
    | 0x89 => some (1920, 1080)
    | 0x8A => some (1920, 1080)
    | 0xC0 => some (3840, 2160)
    | 0xCE => some (3840, 2160)
    | _ => none
  let rate : Option Nat := match b2 % 16 with
    | 2 => some 23976
    | 3 => some 24000
    | 5 => some 25000
    | 6 => some 29970
    | 7 => some 30000
    | 9 => some 50000
    | 10 => some 59940
    | 11 => some 60000
    | _ => none
  match size, rate with
  | some s, some r => if b2 / 64 = 3 ∧ b3 % 16 = 0 then some (s.1, s.2, r) else none
  | _, _ => none

/-- The identifier's format equals the record's (R147). -/
def pidMatches (r : SourceRec) (w : Nat) : Bool := match pidFormat w with
  | some (x, y, f) => x == r.width && y == r.height && f == r.rate
  | none => false

/-- A source takes SDI frames: enabled, of kind SDI, its port locked, and its slots present (R146, R170). -/
def Half.takesSdi (h : Half) (i : Nat) (s : SourceSt) : Bool :=
  h.flag (F.INK_SCTRL_ENABLE i) && s.rcd.kind == 1 && h.flag (F.LANE_SDI_LOCK s.rcd.localPort) && !h.noMemory s.rcd

/-- The standard of R146 for a record's picture and rate, as the bit of an SDI mask, and whether the rate is one divided by 1.001. -/
def SourceRec.standard (r : SourceRec) : Nat × Bool :=
  let fast := decide (30000 < r.rate)
  (if r.height = 720 then 0 else if r.height = 1080 then bit fast else 2 + bit fast, [23976, 29970, 59940].contains r.rate)

/-- The frame rate that the measured line rate tells equals the record's (R147): the standard's rate, divided by 1.001 or not. -/
def Half.lineRateFits (h : Half) (r : SourceRec) : Bool :=
  let code := h.get (F.LANE_STATUS_RATE r.localPort)
  code == 8 + 2 * r.standard.1 + bit r.standard.2

/-- The payload identifier of a frame on a locked SDI port (R116). -/
def Half.readPid (h : Half) (p : Nat) (pid : Option Word) : Half :=
  (match pid with
    | some w => h.set (F.LANE_SDIPID_PID p) w.toNat
    | none => h).setFlag (F.LANE_SDI_PIDVALID p) pid.isSome

/-- Line CRC errors and bad timing references that a locked SDI receiver has met (R116). -/
def Half.sdiErrors (h : Half) (p lineCrc trs : Nat) : Half :=
  if h.flag (F.LANE_SDI_LOCK p) then (h.laneCount p 6 lineCrc).laneCount p 7 trs else h

/-- The errors of a frame on the port of an SDI source. -/
def Half.sdiFrameErrors (h : Half) (i lineCrc trs : Nat) : Half := match h.source i with
  | some s => if s.rcd.kind = 1 then h.sdiErrors s.rcd.localPort lineCrc trs else h
  | none => h

/-- The first active line of an SDI frame arrives (R146 to R148, R162). -/
def Half.sdiStart (h : Half) (t i stamp : Nat) (pid : Option Word) (lines samples : Nat) : Half := match h.source i with
  | none => h
  | some s =>
    let p := s.rcd.localPort
    let hp := if s.rcd.kind = 1 ∧ h.flag (F.LANE_SDI_LOCK p) then h.readPid p pid else h
    if h.takesSdi i s then
      let h0 := hp.discardFrame i (some (F.INK_STALLY0_INCOMPLETE i))
      let miss := if pid.isNone then s.noPid + 1 else 0
      let counted := 2 ≤ miss
      let ok := match pid with
        | some w => pidMatches s.rcd w.toNat
        | none => if counted then lines == s.rcd.height && samples == s.rcd.width && h.lineRateFits s.rcd else s.seen && !s.badFormat
      let bad := match pid with
        | some w => !pidMatches s.rcd w.toNat
        | none => if counted then !ok else s.badFormat
      let h1 := h0.onSource i fun (x : SourceSt) => { x with noPid := miss, badFormat := bad }
      let h2 := h1.setFlag (F.INK_SSTAT_NOPID i) (pid.isNone && counted && ok)
      let h3 := h2.followNosig t i false
      if ok then h3.beginFrame i s.nextSeq stamp 0 0 else h3
    else hp

/-- The tiles of an SDI picture in raster order. -/
def sdiTiles (r : SourceRec) : List (Nat × Nat × Nat) :=
  (List.range r.tiles).map fun k => (k, k % r.cols, k / r.cols)

/-- Tiles of the writing frame of an SDI source that are still to be written. -/
def SourceSt.unwritten (s : SourceSt) (k : Nat) : Bool := match s.writing with
  | some w => !w.crcs.any fun c => c.1 == k
  | none => false

/-- Tile rows of the writing frame of an SDI source, whole rows of `lines` from tile row `row` on, are written as their lines arrive
(R153, R154, R164). -/
def Module.sdiRows (m : Module) (t : Nat) (h : HalfId) (i row : Nat) (lines : List (List Nat)) : Module :=
  match (m.half h).source i with
  | none => m
  | some s =>
    if (m.half h).takesSdi i s && lines.all (fun l => l.length == 2 * s.rcd.width) then
      let picture := List.replicate (16 * row) [] ++ lines
      let whole (ty : Nat) : Bool := decide (row ≤ ty) && decide (min (16 * ty + 16) s.rcd.height ≤ picture.length)
      ((sdiTiles s.rcd).filter fun k => whole k.2.2 && s.unwritten k.1).foldl (fun m k =>
        m.writeTile t h i k.1 (sdiTile s.rcd picture k.2.1 k.2.2)) m
    else m

/-- The last active line of an SDI frame is written (R149, R154, R156): a picture of another size is a change of format during
the frame, which discards it. -/
def Module.sdiComplete (m : Module) (t : Nat) (h : HalfId) (i : Nat) (picture : List (List Nat)) : Module :=
  match (m.half h).source i with
  | none => m
  | some s =>
    if (m.half h).takesSdi i s && s.writing.isSome then
      if picture.length = s.rcd.height ∧ picture.all (fun l => l.length == 2 * s.rcd.width) then
        let m1 := ((sdiTiles s.rcd).filter fun k => s.unwritten k.1).foldl (fun m k =>
          m.writeTile t h i k.1 (sdiTile s.rcd picture k.2.1 k.2.2)) m
        m1.onHalf h fun x => x.completeFrame t i
      else m.onHalf h fun x => x.discardFrame i (some (F.INK_STALLY0_INCOMPLETE i))
    else m

/-- The SDI port of a source loses lock (R149, R160): its writing frame is discarded. -/
def Half.sdiLost (h : Half) (t p : Nat) : Half :=
  (List.range h.sources.length).foldl (fun h i => match h.source i with
    | none => h
    | some s =>
      if s.rcd.kind = 1 ∧ s.rcd.localPort = p then (h.discardFrame i (some (F.INK_STALLY0_INCOMPLETE i))).followNosig t i false
      else h) h

/-! ## Tile cells (R150 to R152) -/

/-- The source window that a tile cell may feed (R150). -/
def Half.cellWindow (h : Half) (src : CellFrom) (ident : Nat) : Option Nat :=
  (List.range h.sources.length).find? fun i => match h.source i with
    | none => false
    | some s => s.rcd.ident == ident && (match src with
      | .native p => s.rcd.kind == 2 && s.rcd.localPort == p
      | .ring _ => s.rcd.kind == 3 && h.flag (F.INK_SCTRL_ENABLE i))

/-- A cell's place is wrong (R152): outside the grid, or a CELL value that the format has not. -/
def SourceRec.badCell (r : SourceRec) (c : TileCell) : Bool :=
  decide (r.cols ≤ c.tx) || decide (r.rows ≤ c.ty) || decide (r.tileCells ≤ c.cell)

/-- The cell repeats one already written for the same frame. -/
def Writing.has (w : Writing) (tile cell : Nat) : Bool :=
  (w.crcs.any fun c => c.1 == tile) || w.parts.any fun p => p.tile == tile && p.cells.any fun c => c.1 == cell

/-- The cells of a tile so far, with a new one. -/
def Writing.withCell (w : Writing) (tile cell : Nat) (data : List Byte) : List (Nat × List Byte) :=
  ((w.parts.find? fun p => p.tile == tile).map fun p => p.cells).getD [] ++ [(cell, data)]

/-- The payload of a tile from its cells: tile byte k lies in cell k / 240 (R153). -/
def tilePayload (bytes : Nat) (cells : List (Nat × List Byte)) : List Byte :=
  (((List.range 4).flatMap fun k => padTo 240 (((cells.find? fun c => c.1 == k).map fun c => c.2).getD [])).take bytes)

/-- A cell is placed in the writing frame; a tile whose cells are all there is written (R152, R155). -/
def Module.placeCell (m : Module) (t : Nat) (h : HalfId) (i : Nat) (c : TileCell) : Module :=
  match (m.half h).source i with
  | none => m
  | some s => match s.writing with
    | none => m
    | some w =>
      let tile := c.ty * s.rcd.cols + c.tx
      let cells := w.withCell tile c.cell c.data
      let bad := w.badTime || c.csec != w.csec || c.cfrac != w.cfrac
      let rest := w.parts.filter fun p => p.tile != tile
      if cells.length = s.rcd.tileCells then
        (m.onHalf h fun x => x.onWriting i fun (y : Writing) => { y with parts := rest, badTime := bad }).writeTile t h i tile
          (tilePayload s.rcd.tileBytes cells)
      else m.onHalf h fun x => x.onWriting i fun (y : Writing) => { y with parts := rest ++ [⟨tile, cells⟩], badTime := bad }

/-- Every tile of the writing frame has been written. -/
def SourceSt.full (s : SourceSt) : Bool := match s.writing with
  | none => false
  | some w => w.crcs.length == s.rcd.tiles

/-- The end of a frame at the last cell of a tile of type 2 (R152). -/
def Half.endOfFrame (h : Half) (t i : Nat) : Half := match h.source i with
  | none => h
  | some s => if s.full then h.completeFrame t i else h.discardFrame i (some (F.INK_STALLY0_INCOMPLETE i))

/-- What a cell's sequence asks of the writing frame (R152). -/
inductive CellFit where
  | start | same | restart | old
  deriving DecidableEq, Repr

/-- The cell's frame compared with the writing frame. -/
def SourceSt.fit (s : SourceSt) (fseq : Nat) : CellFit := match s.writing with
  | none => .start
  | some w => if fseq = w.fseq then .same else if newer 16 fseq w.fseq then .restart else .old

/-- A tile cell of a held or published source arrives (R151, R152). -/
def Module.sourceCell (m : Module) (t : Nat) (h : HalfId) (i : Nat) (s : SourceSt) (c : TileCell) (stamp : Nat) : Module :=
  let x := m.half h
  let dup := match s.writing with
    | some w => w.fseq == c.fseq && w.has (c.ty * s.rcd.cols + c.tx) c.cell
    | none => false
  if !x.flag (F.INK_SCTRL_ENABLE i) || x.noMemory s.rcd || s.refused == some c.fseq then m
  else if s.rcd.badCell c || dup then m.onHalf h fun x => x.tally (F.INK_STALLY1_BADCELL i) 1
  else
    let go (m : Module) : Module :=
      let m1 := m.placeCell t h i c
      if c.lastTile && c.cell + 1 == s.rcd.tileCells then m1.onHalf h fun x => x.endOfFrame t i else m1
    match s.fit c.fseq with
    | .old => m.onHalf h fun x => x.tally (F.INK_STALLY0_SEQREJ i) 1
    | .same => go m
    | .start => go (m.onHalf h fun x => x.beginFrame i c.fseq stamp c.csec c.cfrac)
    | .restart => go (m.onHalf h fun x =>
        (x.discardFrame i (some (F.INK_STALLY0_INCOMPLETE i))).beginFrame i c.fseq stamp c.csec c.cfrac)

/-- A tile cell arrives on a native link or is copied from the ring (R150). -/
def Module.tileCell (m : Module) (t : Nat) (h : HalfId) (src : CellFrom) (c : TileCell) (stamp : Nat) : Module :=
  let x := m.half h
  match x.cellWindow src c.source with
  | some i => match x.source i with
    | some s => m.sourceCell t h i s c stamp
    | none => m
  | none => match src with
    | .native _ => m.onHalf h fun x => x.tally F.INK_GTALLY_UNKNOWN 1
    | .ring _ => m

/-- A native link or the ring goes down (R152, R160): frames of its sources are discarded and counted. -/
def Half.sourcesLost (h : Half) (t : Nat) (hit : SourceRec → Bool) : Half :=
  (List.range h.sources.length).foldl (fun h i => match h.source i with
    | none => h
    | some s => if hit s.rcd then (h.discardFrame i (some (F.INK_STALLY0_INCOMPLETE i))).followNosig t i false else h) h

/-- A native link goes down. -/
def Half.nativeDown (h : Half) (t l : Nat) : Half := h.sourcesLost t fun r => r.kind == 2 && h.nativeLink r == l

/-- The half stops copying sources from a ring (R152): those that no ring brings any more. -/
def Half.ringStopsCopy (h : Half) (t : Nat) : Half := h.sourcesLost t fun r => r.kind == 3 && h.noLock r

/-! ## Enable, timeout and latch -/

/-- A frame period of RATE in ns (R143): 23,976, 29,970 and 59,940 stand for 24/1.001, 30/1.001 and 60/1.001. -/
def SourceRec.period (r : SourceRec) : Nat := match r.rate with
  | 23976 => 1001 * 10 ^ 9 / 24000
  | 29970 => 1001 * 10 ^ 9 / 30000
  | 59940 => 1001 * 10 ^ 9 / 60000
  | n => 10 ^ 12 / max 1 n

/-- The end of NOSIGN frame periods since a source was enabled or completed a frame (R143, R160). -/
def Half.nosigEnd (h : Half) (i : Nat) : Nat := match h.source i with
  | none => 0
  | some s => s.since + (if s.rcd.nosign = 0 then 4 else s.rcd.nosign) * s.rcd.period

/-- NOSIGN frame periods have passed without a complete frame (R160). -/
def Half.nosigTimeout (h : Half) (t i : Nat) : Half := match h.source i with
  | none => h
  | some _ =>
    if h.flag (F.INK_SCTRL_ENABLE i) then (h.onSource i fun (x : SourceSt) => { x with timedOut := true }).followNosig t i false else h

/-- A write of INK_SCTRL.ENABLE (R149, R160, R163, R167). -/
def Half.sourceEnable (h : Half) (t i : Nat) (on : Bool) : Half := match h.source i with
  | none => h
  | some _ =>
    let was := h.flag (F.INK_SCTRL_ENABLE i)
    let h1 := h.setFlag (F.INK_SCTRL_ENABLE i) on
    if on && !was then
      let h2 := h1.onSource i fun (x : SourceSt) => { x with
        fresh := true, seen := false, since := t, timedOut := false, nextSeq := if x.enabledOnce then x.nextSeq else 0, enabledOnce := true }
      h2.followNosig t i false
    else if !on && was then ((h1.discardFrame i none).onSource i fun (x : SourceSt) => { x with pub := PubSt.reset }).followNosig t i false
    else h1

/-- The latch of lap `n` (R161): the pins of the lap before are released, and each held source pins its newest slot. -/
def Half.latchSources (h : Half) (n : Nat) : Half :=
  (List.range h.sources.length).foldl (fun h i => match h.source i with
    | none => h
    | some s =>
      if s.rcd.held then
        let best := (h.newestSlot i).map fun x => x.1
        let h1 := h.onSource i fun (x : SourceSt) => { x with latch := best, latchLap := n }
        h1.set (F.INK_SSTAT_PIN i) ((best.map fun k => 2 ^ k).getD 0)
      else h) h

/-- Window of the held source of an identity in this half. -/
def Half.heldWindow (h : Half) (ident : Nat) : Option Nat :=
  (List.range h.sources.length).find? fun i => match h.source i with
    | none => false
    | some s => s.rcd.ident == ident && s.rcd.held

/-! ## Publishing (R164 to R166) -/

/-- The tile bytes of the frame that a source publishes, from its slot or from what it kept. -/
def Half.pubTile (h : Half) (s : SourceSt) (slot tile : Nat) : List Byte :=
  if s.rcd.held then memRead h.fst (s.rcd.granule slot tile) s.rcd.tileBytes
  else ((s.kept.find? fun k => k.1 == tile).map fun k => k.2).getD []

/-- A sample of component `k` at its own site (x, y) of a frame: 4:2:2 luma 0, Cb 1, Cr 2 with chroma sites counted by sample;
three components per pixel otherwise. Sites beyond the picture repeat the last. -/
def Half.pubSample (h : Half) (s : SourceSt) (slot k x y : Nat) : Nat :=
  let r := s.rcd
  let chroma := decide (r.format = 0) && k != 0
  let w := if chroma then r.width / 2 else r.width
  let x := min x (w - 1)
  let y := min y (r.height - 1)
  let px := if chroma then 2 * x else x
  let tile := y / 16 * r.cols + px / 16
  let idx := if r.format = 0 then
      (if k = 0 then 32 * (y % 16) + 2 * (px % 16) + 1 else 32 * (y % 16) + 2 * (px % 16) + (if k = 1 then 0 else 2))
    else 48 * (y % 16) + 3 * (px % 16) + k
  sampleAt (h.pubTile s slot tile) idx

/-- A proxy's sample (R166): the box average of the k × k block of its parent. -/
def Half.proxySample (h : Half) (par : SourceSt) (slot f k x y : Nat) : Nat :=
  let sum := ((List.range f).flatMap fun j => (List.range f).map fun i => h.pubSample par slot k (f * x + i) (f * y + j)).sum
  (sum + f * f / 2) / (f * f)

/-- The payload of tile (tx, ty) of a proxy (R153, R154, R166). -/
def Half.proxyTile (h : Half) (r : SourceRec) (par : SourceSt) (slot tx ty : Nat) : List Byte :=
  packSamples ((List.range 16).flatMap fun j =>
    let y := min (16 * ty + j) (r.height - 1)
    if r.format = 0 then
      (List.range 32).map fun n =>
        let x := min (16 * tx + n / 2) (r.width - 1)
        if n % 2 = 1 then h.proxySample par slot r.factor 0 x y
        else h.proxySample par slot r.factor (if (n / 2) % 2 = 0 then 1 else 2) (x / 2) y
    else (List.range 48).map fun n => h.proxySample par slot r.factor (n % 3) (min (16 * tx + n / 3) (r.width - 1)) y)

/-- A tile cell as sent (R102, R164). -/
def tileToCell (ident fseq tx ty cell csec cfrac : Nat) (last : Bool) (data : List Byte) : Cell :=
  { type := if last then 2 else 1
    hdr := hdrOf [(16, 12, ident), (28, 16, fseq), (44, 9, tx), (53, 9, ty), (62, 2, cell), (64, 16, csec), (80, 16, cfrac)]
    payload := padTo 240 data }

/-- A received cell as a tile cell. -/
def tileOfCell (c : Cell) : TileCell :=
  { lastTile := c.type == 2, source := c.field 16 12, fseq := c.field 28 16, tx := c.field 44 9, ty := c.field 53 9,
    cell := c.field 62 2, csec := c.field 64 16, cfrac := c.field 80 16, data := c.payload }

/-- What a stream publishes now from tile row `row` of its source `i`: the frame's slot, sequence and capture fields. A row of the
writing frame goes once it is written; while it is not, only a held source still has the rest of the frame before, `late`. -/
def Half.pubFrame (h : Half) (s : SourceSt) (i row : Nat) (late : Nat → Bool) : Option (Nat × Nat × Nat × Nat) :=
  let rowDone (w : Writing) : Bool := (List.range s.rcd.cols).all fun x => w.crcs.any fun c => c.1 == row * s.rcd.cols + x
  let newest := (h.newestSlot i).map fun x => (x.1, x.2.fseq, s.carried.1, s.carried.2)
  match s.writing with
  | some w =>
    if rowDone w then some (w.slot, w.fseq, (w.carry s.rcd).1, (w.carry s.rcd).2)
    else if s.rcd.held then newest.filter fun x => late x.2.1
    else none
  | none => newest

/-- The source whose tiles a stream sends: its own, or a proxy's parent. -/
def Half.pubParent (h : Half) (s : SourceSt) (i : Nat) : Option (Nat × SourceSt) :=
  if s.rcd.kind = 4 then
    ((List.range h.sources.length).find? fun j => match h.source j with
      | none => false
      | some p => p.rcd.ident == s.rcd.parent && (p.rcd.kind == 1 || p.rcd.kind == 2)).bind fun j => (h.source j).map fun p => (j, p)
  else some (i, s)

/-- The cells of a tile row of a stream, in cell order; cells of the frame's last tile carry type 2 (R164). -/
def Half.rowCells (h : Half) (s par : SourceSt) (slot fseq csec cfrac row : Nat) : List Cell :=
  let r := s.rcd
  (List.range r.cols).flatMap fun x =>
    let payload := if r.kind = 4 then h.proxyTile r par slot x row else h.pubTile par slot (row * r.cols + x)
    (List.range r.tileCells).map fun k =>
      tileToCell r.ident fseq x row k csec cfrac (x + 1 == r.cols && row + 1 == r.rows) (sliceBytes payload (240 * k) 240)

/-- A tile row, or a proxy row, is due for its reserved slots (R164, R165): at most one row waits, a further one cuts the rest
of its frame. -/
def Half.publishRow (h : Half) (i row : Nat) : Half := match h.source i with
  | none => h
  | some s =>
    if s.rcd.publish && h.flag (F.INK_SCTRL_ENABLE i) && decide (row < s.rcd.rows) then
      match h.pubParent s i with
      | none => h
      | some (j, par) =>
        let p := s.pub
        let last := if s.rcd.kind = 4 then min (par.rcd.rows - 1) (row * s.rcd.factor + s.rcd.factor - 1) else row
        match h.pubFrame par j last fun q => decide (row ≠ 0) && row == p.row && q == p.fseq with
        | none => h
        | some (slot, fseq, csec, cfrac) =>
          if row = 0 ∨ (row = p.row ∧ fseq = p.fseq ∧ p.cut = false) then
            if p.waiting = [] then
              let cells := h.rowCells s par slot fseq csec cfrac row
              h.onSource i fun (x : SourceSt) => { x with
                pub := { row := row + 1, fseq := fseq, csec := csec, cfrac := cfrac, waiting := cells, cut := false } }
            else
              (h.onSource i fun (x : SourceSt) => { x with pub := { x.pub with cut := true } }).tally (F.INK_STALLY1_PUBOVR i) 1
          else h
    else h

/-- A tile row is written and published (R164): for an SDI source, or a proxy of one, `lines` are the picture lines of the rows that
have just arrived. -/
def Module.publishRow (m : Module) (t : Nat) (h : HalfId) (i row : Nat) (lines : List (List Nat)) : Module :=
  let x := m.half h
  let m1 := match (x.source i).bind fun s => (x.pubParent s i).map fun p => (s.rcd.factor, p.1) with
    | some (k, j) => if lines = [] then m else m.sdiRows t h j (row * max 1 k) lines
    | none => m
  m1.onHalf h fun y => y.publishRow i row

end Sys2Proof.Machine
end

