-- ==== Sys2Proof/Machine/Pixel.lean ====
section
/-!
DEFINITION. The composition pipe (R175 to R180, R194 to R222): route book entries, video and graphic layer units, the module's
patterns, blending, and the pixels of an output tile.
-/
namespace Sys2Proof.Machine

/-! ## Route book entries (R175 to R178) -/

/-- Word `k` of route book entry `i`. -/
def Half.entryWord (h : Half) (i k : Nat) : Nat := (h.reg (0x400000 + 32 * i + 4 * k)).toNat

/-- A list word (R177): the entries that it names. -/
def listEntries (w : Nat) : List Nat := (List.range (bitsAt w 16 5)).map fun k => bitsAt w 0 13 + k

/-- A contribution entry (R178). -/
def Half.contrib (h : Half) (i : Nat) : Contrib :=
  let w (k : Nat) : Nat := h.entryWord i k
  { what := bitsAt (w 0) 8 8, layer := bitsAt (w 0) 16 8, opaqueC := bitAt (w 0) 24, cross := bitAt (w 0) 25
    ftx0 := bitsAt (w 1) 0 16, fty0 := bitsAt (w 1) 16 16, ftw := bitsAt (w 2) 0 16, fth := bitsAt (w 2) 16 16
    len := bitsAt (w 3) 0 16, hstart := w 4, vstart := w 5 }

/-- Word of a run entry that holds the list of a variant (R176). -/
def Variant.word : Variant → Nat
  | .normal => 3
  | .late => 4
  | .stale => 5
  | .rlive => 6
  | .rstale => 7
  | .cfgFault => 3

/-- The run carries CFGFAULT (R176). -/
def Half.runFaulty (h : Half) (i : Nat) : Bool := bitAt (h.entryWord i 0) 11

/-- HASVIDEO of a run. -/
def Half.runVideo (h : Half) (i : Nat) : Bool := bitAt (h.entryWord i 0) 9

/-- The configuration-fault contribution of a run (R180): WHAT 3 is the module's own. -/
def cfgContrib (tx0 ty0 tw th : Nat) : Contrib :=
  { what := 3, layer := 0, opaqueC := true, cross := false, ftx0 := tx0, fty0 := ty0, ftw := tw, fth := th, len := 960,
    hstart := 0, vstart := 0 }

/-- A pattern takes the run's own rectangle as its fetch window, in tiles of 960 bytes (R178). -/
def Contrib.forRun (c : Contrib) (tx0 ty0 tw th : Nat) : Contrib :=
  if c.what = 0 then c else { c with ftx0 := tx0, fty0 := ty0, ftw := tw, fth := th, len := 960 }

/-- A run as executed in a variant (R176, R180, R186). -/
def Half.runWork (h : Half) (i : Nat) (v : Variant) : RunWork :=
  let w (k : Nat) : Nat := h.entryWord i k
  let tx0 := bitsAt (w 1) 0 16
  let ty0 := bitsAt (w 1) 16 16
  let tw := bitsAt (w 2) 0 16
  let th := bitsAt (w 2) 16 16
  { entry := i, region := bitsAt (w 0) 16 16, tx0 := tx0, ty0 := ty0, tw := tw, th := th, variant := v
    list := match v with
      | .cfgFault => [cfgContrib tx0 ty0 tw th]
      | _ => (listEntries (w v.word)).map fun k => (h.contrib k).forRun tx0 ty0 tw th }

/-! ## Scenes and layers -/

/-- A scene of the table. -/
def Half.sceneAt (h : Half) (n : Nat) : Option Scene := h.image.bind fun i => i.scenes[n]?

/-- The scene in force. -/
def Half.scene (h : Half) : Option Scene := h.sceneAt (h.get F.RBK_SCENE_CURRENT)

/-- What a scene names of a half. -/
def Scene.half (s : Scene) : HalfId → SceneHalf
  | .h0 => s.h0
  | .h1 => s.h1

/-- An unused layer record. -/
def LayerRec.none : LayerRec :=
  { source := 0, flags := 0, matrix := 0, dx := 0, dy := 0, dw := 0, dh := 0, sx := 0, sy := 0, sw := 0, sh := 0, hset := 0,
    vset := 0, budget := 0, warn := 0, lalpha := 0 }

/-- Layer `n` of a scene: V0 to V7, then G0 to G7. -/
def Scene.layer (s : Scene) (n : Nat) : LayerRec := s.layers.getD n LayerRec.none

/-- Flags of a layer record (R183). -/
def LayerRec.used (l : LayerRec) : Bool := bitAt l.flags 0
def LayerRec.classV (l : LayerRec) : Bool := bitAt l.flags 1
def LayerRec.premul (l : LayerRec) : Bool := bitAt l.flags 2

/-- A source record of the directory by identity. -/
def ImageSt.source (i : ImageSt) (ident : Nat) : Option SourceRec := i.sources.find? fun r => r.ident == ident

/-- FORMAT of a source. -/
def Half.formatOf (h : Half) (ident : Nat) : Nat := ((h.image.bind fun i => i.source ident).map fun r => r.format).getD 0

/-- The image that a state of a set shows (R209). -/
def ImageSt.stateImage (i : ImageSt) (set state : Nat) : Option GImage :=
  (i.gsets.find? fun s => s.number == set).bind fun s => (s.images[state]?).bind fun n => i.images.find? fun g => g.number == n

/-- The image of a graphic layer's present state (R211). -/
def Half.layerImage (h : Half) (l : LayerRec) (g : Nat) : Option GImage :=
  h.image.bind fun i => i.stateImage l.source (h.get (F.CMP_GLAYER_STATE g))

/-! ## Coefficients (R196, R202 to R206) -/

/-- TAPS of a set. -/
def Half.taps (h : Half) (n : Nat) : Nat := h.get (F.COEF_DESC_TAPS n)

/-- The set is present and not rejected. -/
def Half.setGood (h : Half) (n : Nat) : Bool := h.flag (F.COEF_DESC_PRESENT n) && !h.flag (F.COEF_DESC_REJECTED n)

/-- A vertical set fits the line buffer for a fetch window (R88, R196). -/
def Half.setFits (h : Half) (n ftw : Nat) : Bool := h.setGood n && decide (h.taps n * 16 * ftw ≤ 24576)

/-- The vertical set that a contribution uses after the substitution of R88; none where the run is marked CFGFAULT. -/
def Half.vsetOf (h : Half) (l : LayerRec) (layer ftw : Nat) : Option Nat :=
  if h.setFits l.vset ftw then some l.vset
  else
    let r := (h.image.map fun i => i.reduced.getD layer 0xFF).getD 0xFF
    if r < 64 ∧ h.setFits r ftw then some r else none

/-- A coefficient (R204). -/
def Half.coef (h : Half) (set phase tap : Nat) : Int :=
  let w := (h.reg (0x510000 + 0x400 * set + 16 * phase + 4 * (tap / 2))).toNat
  signed 16 (bitsAt w (16 * (tap % 2)) 16)

/-- A colour matrix: rows, input offsets, output offsets. -/
structure Matrix where
  m    : List (List Int)
  inO  : List Int
  outO : List Int
  deriving DecidableEq, Repr

/-- The presets of R206. -/
def presetMatrix (code : Nat) : Matrix := match code with
  | 0 => ⟨[[4096, 0, 0], [0, 4096, 0], [0, 0, 4096]], [0, 0, 0], [0, 0, 0]⟩
  | 1 => ⟨[[4783, 0, 0], [0, 4783, 0], [0, 0, 4783]], [64, 64, 64], [0, 0, 0]⟩
  | 2 => ⟨[[4783, 0, 7365], [4783, -876, -2189], [4783, 8678, 0]], [64, 512, 512], [0, 0, 0]⟩
  | 3 => ⟨[[4096, 0, 6450], [4096, -767, -1917], [4096, 7601, 0]], [0, 512, 512], [0, 0, 0]⟩
  | 4 => ⟨[[4783, 0, 6896], [4783, -770, -2672], [4783, 8799, 0]], [64, 512, 512], [0, 0, 0]⟩
  | 5 => ⟨[[4096, 0, 6040], [4096, -674, -2340], [4096, 7706, 0]], [0, 512, 512], [0, 0, 0]⟩
  | 6 => ⟨[[4783, 0, 6557], [4783, -1609, -3340], [4783, 8287, 0]], [64, 512, 512], [0, 0, 0]⟩
  | _ => ⟨[[4096, 0, 5743], [4096, -1410, -2925], [4096, 7258, 0]], [0, 512, 512], [0, 0, 0]⟩

/-- Half-word `k` of matrix record `m` (R202, R204). -/
def Half.matrixHalf (h : Half) (m k : Nat) : Nat := bitsAt (h.reg (0x520000 + 0x20 * m + 4 * (k / 2))).toNat (16 * (k % 2)) 16

/-- A user matrix (R202): M at record bytes 2 to 19, IN at 0x14, OUT at 0x1A. -/
def Half.userMatrix (h : Half) (m : Nat) : Matrix :=
  let s (k : Nat) : Int := signed 16 (h.matrixHalf m k)
  { m := [[s 1, s 2, s 3], [s 4, s 5, s 6], [s 7, s 8, s 9]]
    inO := [10, 11, 12].map fun k => (h.matrixHalf m k : Int)
    outO := [13, 14, 15].map s }

/-- The matrix that a MATRIX code selects (R206). -/
def Half.matrixOf (h : Half) (code : Nat) : Matrix := if 0x80 ≤ code then h.userMatrix (code - 0x80) else presetMatrix code

/-- A value limited to 10 bits. -/
def clamp10 (x : Int) : Nat := (clampI 0 1023 x).toNat

/-- One output of the matrix stage (R205). -/
def Matrix.row (x : Matrix) (v : List Nat) (r : Nat) : Nat :=
  let row := x.m.getD r []
  let acc := ([0, 1, 2].map fun j => row.getD j 0 * ((v.getD j 0 : Int) - x.inO.getD j 0)).foldl (fun a b => a + b) 0
  clamp10 ((acc + 2048) / 4096 + x.outO.getD r 0)

/-- The matrix stage (R205). -/
def Matrix.apply (x : Matrix) (v : List Nat) : List Nat := [x.row v 0, x.row v 1, x.row v 2]

/-! ## Video layer units (R195 to R201) -/

/-- A consumed tile of a contribution: none while it is not ready. -/
def tileOf (got : List GotTile) (con tx ty : Nat) : Option (List Byte) :=
  (got.find? fun g => g.con == con && g.tx == tx && g.ty == ty).bind fun g => g.bytes

/-- All of a list of optional values, or none. -/
def allSome {α : Type} : List (Option α) → Option (List α)
  | [] => some []
  | x :: xs => x.bind fun a => (allSome xs).map fun as => a :: as

/-- Sample `k` of pixel (x, y), or of the chroma site on pixel x of a 4:2:2 line. -/
def rawSample (got : List GotTile) (con format k x y : Nat) : Option Nat :=
  (tileOf got con (x / 16) (y / 16)).map fun b => sampleAt b
    (if format = 0 then 32 * (y % 16) + 2 * (x % 16) + (match k with
      | 0 => 1
      | 1 => 0
      | _ => 2)
    else 48 * (y % 16) + 3 * (x % 16) + k)

/-- The chroma of pixel `i` of a 4:2:2 line, upsampled inside the layer window (R197). -/
def chromaAt (got : List GotTile) (con : Nat) (l : LayerRec) (k i y : Nat) : Option Nat :=
  let lo := l.sx / 2
  let hi := (l.sx + l.sw) / 2 - 1
  let c (n : Int) : Option Nat := rawSample got con 0 k (2 * (clampI lo hi n).toNat) y
  if i % 2 = 0 then c (i / 2 : Nat)
  else
    let n : Int := ((i - 1) / 2 : Nat)
    (allSome [c (n - 1), c n, c (n + 1), c (n + 2)]).map fun v =>
      let q (j : Nat) : Int := (v.getD j 0 : Int)
      clamp10 ((-(q 0) + 9 * q 1 + 9 * q 2 - q 3 + 8) / 16)

/-- Component `k` of source pixel (x, y) of a layer as 4:4:4 (R197). -/
def sourceSample (got : List GotTile) (con format : Nat) (l : LayerRec) (k x y : Nat) : Option Nat :=
  if format = 0 ∧ k ≠ 0 then chromaAt got con l k x y else rawSample got con format k x y

/-- A filter of taps: coefficients over samples, rounded and limited (R200). -/
def tapSum (cs : List Int) (v : List Nat) : Nat :=
  clamp10 (((cs.zip v).foldl (fun a x => a + x.1 * (x.2 : Int)) 0 + 512) / 1024)

/-- Source index `n` clamped to a window from `s` of length `len` (R199). -/
def windowed (s len : Nat) (n : Int) : Nat := (clampI s (s + len - 1 : Nat) n).toNat

/-- The intermediate value of a source column (R200). -/
def Half.columnValue (h : Half) (got : List GotTile) (con format : Nat) (l : LayerRec) (vset vn vp k col : Nat) : Option Nat :=
  let t := h.taps vset
  let lines := (List.range t).map fun i => windowed l.sy l.sh ((vn : Int) - ((t - 1) / 2 : Nat) + (i : Int))
  (allSome (lines.map fun y => sourceSample got con format l k col y)).map fun v =>
    tapSum ((List.range t).map fun i => h.coef vset vp i) v

/-- Component `k` of an output pixel at source position (hpos, vpos) (R198 to R200). -/
def Half.scaled (h : Half) (got : List GotTile) (con format : Nat) (l : LayerRec) (vset hpos vpos k : Nat) : Option Nat :=
  let hn := hpos / 65536
  let hp := hpos / 1024 % 64
  let vn := vpos / 65536
  let vp := vpos / 1024 % 64
  let cols := (List.range 8).map fun i => windowed l.sx l.sw ((hn : Int) - 3 + (i : Int))
  (allSome (cols.map fun c => h.columnValue got con format l vset vn vp k c)).map fun v =>
    tapSum ((List.range 8).map fun i => h.coef l.hset hp i) v

/-- (x, y) lies inside the DEST of a layer. -/
def LayerRec.inDest (l : LayerRec) (x y : Nat) : Bool :=
  decide (l.dx ≤ x) && decide (x < l.dx + l.dw) && decide (l.dy ≤ y) && decide (y < l.dy + l.dh)

/-- The panel colour of a video contribution at screen pixel (x, y) (R198, R205). -/
def Half.videoPixel (h : Half) (got : List GotTile) (con : Nat) (c : Contrib) (l : LayerRec) (run : RunWork) (x y : Nat) :
    Option (List Nat) :=
  match h.vsetOf l c.layer c.ftw with
  | none => none
  | some vs =>
    let f := h.formatOf l.source
    let x1 := max (16 * run.tx0) l.dx
    let y1 := max (16 * run.ty0) l.dy
    let hpos := (c.hstart + (x - x1) * (l.sw * 65536 / l.dw)) % 2 ^ 32
    let vpos := (c.vstart + (y - y1) * (l.sh * 65536 / l.dh)) % 2 ^ 32
    (allSome ([0, 1, 2].map fun k => h.scaled got con f l vs hpos vpos k)).map fun v => (h.matrixOf l.matrix).apply v

/-! ## Graphic layers and patterns (R208 to R217) -/

/-- An 8-bit component in 10 bits (R208). -/
def expand8 (c : Nat) : Nat := c * 4 + c / 64

/-- A palette entry: colour and alpha; an index beyond the entries gives none of either (R210). -/
def paletteEntry (bytes : List Byte) (entries n : Nat) : List Nat × Nat :=
  if n < entries then
    let w := leAt bytes (8 * n) 4
    ([bitsAt w 20 10, bitsAt w 10 10, bitsAt w 0 10], byteAt bytes (8 * n + 4))
  else ([0, 0, 0], 0)

/-- The palette bytes and entry count that a graphic layer read at the lap boundary (R212). -/
def Half.layerPalette (h : Half) (g : Nat) (i : GImage) : List Byte × Nat :=
  let n := ((h.image.bind fun im => im.palettes.find? fun p => p.number == i.palette && p.half == i.half).map fun p => p.entries).getD 0
  (((h.lap.palettes.find? fun p => p.1 == g).map fun p => p.2).getD [], n)

/-- The pixel of a graphic layer at screen pixel (x, y): colour and per-pixel alpha (R208, R211). -/
def Half.graphicPixel (h : Half) (got : List GotTile) (con : Nat) (l : LayerRec) (g x y : Nat) : Option (List Nat × Nat) :=
  match h.layerImage l g with
  | none => none
  | some im =>
    let px := l.sx + x - l.dx
    let py := l.sy + y - l.dy
    let k := 16 * (py % 16) + px % 16
    (tileOf got con (px / 16) (py / 16)).map fun b =>
      match im.format with
      | 0 => ([expand8 (byteAt b (4 * k + 1)), expand8 (byteAt b (4 * k + 2)), expand8 (byteAt b (4 * k + 3))], byteAt b (4 * k))
      | 1 => let p := h.layerPalette g im
             paletteEntry p.1 p.2 (byteAt b k)
      | _ => let p := h.layerPalette g im
             paletteEntry p.1 p.2 (if k % 2 = 0 then byteAt b (k / 2) / 16 else byteAt b (k / 2) % 16)

/-- Pixel (x, y) of an RGB pattern tile. -/
def patternPixel (b : List Byte) (x y : Nat) : List Nat :=
  [0, 1, 2].map fun k => sampleAt b (48 * (y % 16) + 3 * (x % 16) + k)

/-- A border pixel of a video layer (R216). -/
def LayerRec.onBorder (l : LayerRec) (x y : Nat) : Bool :=
  l.inDest x y && (decide (x < l.dx + 8) || decide (l.dx + l.dw ≤ x + 8) || decide (y < l.dy + 8) || decide (l.dy + l.dh ≤ y + 8))

/-- The tiles of the pattern store (R215 to R218): stale for even and odd tx + ty, amber, configuration fault even and odd. -/
def patternTile (granule : Nat) : List Byte :=
  packSamples ((List.range 16).flatMap fun y => (List.range 16).flatMap fun x =>
    match granule with
    | 0 => let v := if (x + y) % 32 / 16 = 0 then 448 else 192
           [v, v, v]
    | 1 => let v := if (x + y + 16) % 32 / 16 = 0 then 448 else 192
           [v, v, v]
    | 2 => [1023, 640, 0]
    | 3 => [1023, 0, 1023]
    | _ => [0, 0, 0])

/-- The granule of a pattern contribution for screen tile (tx, ty) (R218). -/
def patternGranule (what tx ty : Nat) : Nat := match what with
  | 1 => (tx + ty) % 2
  | 2 => 2
  | _ => 3 + (tx + ty) % 2

/-! ## Blending (R219 to R221) -/

/-- Class V (R219). -/
def blendV (a l ct cb : Nat) : Nat :=
  let e := (a * l + 127) / 255
  (ct * e + cb * (255 - e) + 127) / 255

/-- 65,025 times the exact class O result (R220). -/
def exactO (premul : Bool) (a l ct cb : Nat) : Nat :=
  (if premul then ct * l * 255 else ct * a * l) + cb * (65025 - a * l)

/-- R220 of one pair of inputs: a 10-bit value within 1 LSB of the exact result, where that result is itself a 10-bit value, and no
higher than the one for the next higher Ct or Cb. -/
abbrev NearO (f : Bool → Nat → Nat → Nat → Nat → Nat) (p : Bool) (ct cb a l : Nat) : Prop :=
  f p ct cb a l < 1024
  ∧ (exactO p a l ct cb ≤ 1023 * 65025 →
      65025 * f p ct cb a l ≤ exactO p a l ct cb + 65025 ∧ exactO p a l ct cb ≤ 65025 * f p ct cb a l + 65025)
  ∧ f p ct cb a l ≤ f p (min 1023 (ct + 1)) cb a l ∧ f p ct cb a l ≤ f p ct (min 1023 (cb + 1)) a l

/-- R220 of two products a × L with straight alpha: the higher one lies no further from Ct, on the way from Cb. -/
abbrev TowardO (f : Bool → Nat → Nat → Nat → Nat → Nat) (ct cb a l b k : Nat) : Prop :=
  a * l < b * k →
    (cb ≤ ct → cb ≤ f false ct cb a l ∧ f false ct cb a l ≤ f false ct cb b k ∧ f false ct cb b k ≤ ct)
    ∧ (ct ≤ cb → ct ≤ f false ct cb b k ∧ f false ct cb b k ≤ f false ct cb a l ∧ f false ct cb a l ≤ cb)

/-- Every combination of class O inputs: top, bottom, per-pixel alpha, layer alpha. -/
def allO (p : Nat → Nat → Nat → Nat → Bool) : Bool :=
  (List.range 1024).all fun ct => (List.range 1024).all fun cb => (List.range 256).all fun a => (List.range 256).all fun l => p ct cb a l

/-- A function of the class O inputs keeps R220 for all of them. -/
def keepsO (f : Bool → Nat → Nat → Nat → Nat → Nat) : Bool :=
  (allO fun ct cb a l => decide (NearO f false ct cb a l ∧ NearO f true ct cb a l))
    && allO fun ct cb a l => (List.range 256).all fun b => (List.range 256).all fun k => decide (TowardO f ct cb a l b k)

/-- The free class O function keeps R220. -/
def legalO : Bool := keepsO Config.classO

/-- Class O (R220): a free function among those that keep the rule. One that does not keep it stands for the exact result rounded
to the nearest value (log entry 18). -/
def blendO (premul : Bool) (a l ct cb : Nat) : Nat :=
  if legalO then Config.classO premul ct cb a l else min 1023 ((2 * exactO premul a l ct cb + 65025) / 130050)

/-- What a contribution lays over a pixel. -/
structure Lay where
  colour : List Nat
  alpha  : Nat
  lalpha : Nat
  classV : Bool
  premul : Bool
  opaqueC : Bool
  deriving DecidableEq, Repr

/-- A lay over the result so far (R219 to R221). -/
def Lay.over (t : Lay) (below : List Nat) : List Nat :=
  if t.opaqueC then t.colour
  else [0, 1, 2].map fun k =>
    let ct := t.colour.getD k 0
    let cb := below.getD k 0
    if t.classV then blendV t.alpha t.lalpha ct cb else blendO t.premul t.alpha t.lalpha ct cb

/-- What contribution `con` of a run lays at screen pixel (x, y): outer none when a tile it needs is not ready, inner none where
it does not reach the pixel (R211). -/
def Half.layAt (h : Half) (s : Scene) (got : List GotTile) (run : RunWork) (con : Nat) (c : Contrib) (x y : Nat) :
    Option (Option Lay) :=
  let l := s.layer c.layer
  let pattern (alpha : Nat) (op : Bool) : Option (Option Lay) :=
    (tileOf got con (x / 16) (y / 16)).map fun b => some ⟨patternPixel b x y, alpha, 255, true, false, op⟩
  match c.what with
  | 0 =>
    if l.inDest x y then
      if c.layer < 8 then
        (h.videoPixel got con c l run x y).map fun v => some ⟨v, 255, l.lalpha, false, false, c.opaqueC⟩
      else
        (h.graphicPixel got con l (c.layer - 8) x y).map fun v =>
          some ⟨v.1, v.2, h.get (F.CMP_GLAYER_ALPHA (c.layer - 8)), l.classV, l.premul, c.opaqueC⟩
    else some none
  | 1 => pattern 255 true
  | 2 => if c.opaqueC || l.onBorder x y then pattern 255 c.opaqueC else some none
  | _ => pattern 255 true

/-- The colour of screen pixel (x, y) of a run (R179, R221, R222); none when it is not ready. -/
def Half.pixelAt (h : Half) (s : Scene) (got : List GotTile) (run : RunWork) (x y : Nat) : Option (List Nat) :=
  let bg := [bitsAt s.background 20 10, bitsAt s.background 10 10, bitsAt s.background 0 10]
  let indexed := (List.range run.list.length).zip run.list
  indexed.foldl (fun acc c => acc.bind fun below =>
    (h.layAt s got run c.1 c.2 x y).map fun t => match t with
      | none => below
      | some l => l.over below) (some bg)

/-- A pixel word (R224). -/
def pixelWord (v : List Nat) : Nat := v.getD 0 0 * 2 ^ 20 + v.getD 1 0 * 2 ^ 10 + v.getD 2 0

/-- The 256 pixel words of output tile (tx, ty), in raster order; none when the tile is not ready (R222). -/
def Half.composeTile (h : Half) (s : Scene) (got : List GotTile) (run : RunWork) (tx ty : Nat) : Option (List Nat) :=
  (allSome ((List.range 16).flatMap fun j => (List.range 16).map fun i => h.pixelAt s got run (16 * tx + i) (16 * ty + j))).map
    fun px => px.map pixelWord

/-- The 960 bytes of an RGB tile from its pixel words (R153, R247). -/
def rgbTile (words : List Nat) : List Byte :=
  packSamples (words.flatMap fun w => [bitsAt w 20 10, bitsAt w 10 10, bitsAt w 0 10])

end Sys2Proof.Machine
end

