-- ==== Sys2Proof/Machine/Age.lean ====
section
/-!
DEFINITION. The age gate (chapter 10): prediction of the apply time, age bounds and verdicts of the video layers, latch
records, glass deadlines, overstays and region status.
-/
namespace Sys2Proof.Machine

/-- The half with its lap state changed. -/
def Half.onLap (h : Half) (f : LapSt → LapSt) : Half := { h with lap := f h.lap }

/-- The half runs the whole screen: alone runs are in force. -/
def Half.alone (h : Half) : Bool := h.get F.RBK_SET_SET == 2

/-- The mode record in force, among the modes that the panel declared. -/
def Half.modeRec (h : Half) : Option ModeRecord := h.panel.modes.find? fun m => m.mode == h.get F.PNL_MODE_MODE

/-- Uncertainty Ef of a predicted apply time (R230, R253). -/
def Half.flipErr (h : Half) : Nat :=
  h.get F.AGE_FLIPDECL_FLIPERR + ceilDiv (4 * h.get F.AGE_PERIOD_NS * h.get F.AGE_FLIPDECL_FLIPPPM) 1000000

/-- k of R234 at lap `lap`: laps since the boundary of the last reported blanking. -/
def Half.lagOf (h : Half) (lap : Nat) : Option Nat := h.lap.blank.map fun b => (lap + 2 ^ 32 - b.2) % 2 ^ 32

/-- A mode change has passed its switch lap and is not complete (R273). -/
def Half.modePending (h : Half) : Bool := h.panel.change.isSome

/-- A(L), while the prediction of R234 is valid. -/
def Half.predict (h : Half) (lap : Nat) : Option Int := match h.lap.blank, h.lagOf lap with
  | some b, some k =>
    if 1 ≤ k ∧ k ≤ 4 ∧ h.panel.reported = some (h.get F.PNL_MODE_MODE) ∧ h.modePending = false then
      some (b.1 + ((k * h.get F.AGE_PERIOD_NS : Nat) : Int))
    else none
  | _, _ => none

/-- Tiles of the screen (R77). -/
def Half.screenTiles (h : Half) : Nat := (h.image.map fun i => i.man.width * i.man.height).getD 0

/-- The hold of R240 is 2. -/
def Half.holdTwo (h : Half) (alone : Bool) : Bool :=
  alone && decide (5760000000000 < h.screenTiles * 7680 * h.get F.PNL_MODE_REFRESH)

/-- What the age gate samples once in a lap (R230, R232): A, hold less 1, P, S, Ef, W, Ew and trust. -/
structure AgeSample where
  apply : Option Int
  extra : Nat
  p     : Nat
  s     : Nat
  ef    : Nat
  w     : Int
  ew    : Nat
  trust : Bool
  deriving DecidableEq, Repr

/-- W and Ew at local base `lb` (R232); while wall time does not exist the manual states neither, and each is a free value. -/
def Half.sampleWall (h : Half) (lb : Nat) : Int × Nat × Half :=
  match h.time.wall lb, h.ew lb with
  | some w, some e => (w - (lb : Int), e, h)
  | _, _ =>
    let a := h.takeFree
    let b := a.2.takeFree
    (signed 64 a.1, b.1, b.2)

/-- The sample of step 4 of lap `lap`, shown in the AGE registers. -/
def Half.ageSample (h : Half) (lb lap : Nat) : AgeSample × Half :=
  let w := h.sampleWall lb
  let h1 := w.2.2
  let a := h1.predict lap
  let two := h1.holdTwo h1.alone
  let av := (a.map fun x => unsigned 64 x).getD 0
  let trust := h1.trusted lb
  let h2 := h1.sets
    [(F.AGE_APPLYLO_NS, av), (F.AGE_APPLYHI_NS, av / 2 ^ 32), (F.AGE_WOFSLO_NS, unsigned 64 w.1),
     (F.AGE_WOFSHI_NS, unsigned 64 w.1 / 2 ^ 32), (F.AGE_WERR_TRUSTED, bit trust), (F.AGE_WERR_NS, min (2 ^ 31 - 1) w.2.1),
     (F.AGE_STATE_LAG, min 0xFF ((h1.lagOf lap).getD 0)), (F.AGE_STATE_HOLD, bit two), (F.AGE_STATE_PREDICT, bit a.isSome)]
  let h3 := if a.isSome then h2 else h2.tally F.AGE_TALLY_NOPREDICT 1
  ({ apply := a, extra := bit two, p := h1.get F.AGE_PERIOD_NS, s := h1.get F.AGE_SCANOUT_NS, ef := h1.flipErr, w := w.1,
     ew := w.2.1, trust := trust }, h3)

/-- The budget of a layer in ns (R183). -/
def LayerRec.budgetNs (l : LayerRec) : Nat := (if l.budget = 0 then 100 else l.budget) * msNs

/-- The warn threshold of a layer in ns (R230). -/
def LayerRec.warnNs (l : LayerRec) : Nat := l.budgetNs * (if l.warn = 0 then 60 else l.warn) / 100

/-- The latched frame of a source window for lap `lap` (R161). -/
def SourceSt.latched (s : SourceSt) (lap : Nat) : Option (Nat × SlotFrame) :=
  if s.latchLap = lap then s.latch.bind fun n => (s.slots.getD n none).map fun f => (n, f) else none

/-- S + E + W of R230 and R238 for a layer and frame: W counts for a source on wall time. -/
def AgeSample.terms (a : AgeSample) (l : LayerRec) (kind ewFrame : Nat) : Int :=
  let wall := kind == 3
  let ec := ceilDiv (l.budgetNs * (if wall then 100 else 50)) 1000000
  let et := if kind = 1 then 0 else if wall then a.ew else ewFrame
  (a.s + 1000 + a.ef + ec + et : Nat) + (if wall then a.w else 0)

/-- The largest wall error bound in ns under which wall time is used (AGE_CTRL.MAXERR). -/
def Half.maxErr (h : Half) : Nat := 1000 * max 1 (h.get F.AGE_CTRL_MAXERR)

/-- R233: the layer is NOTLIVE with reason NOTIME. -/
def Half.noTime (h : Half) (a : AgeSample) (kind : Nat) (f : SlotFrame) : Bool :=
  f.noTime || (kind == 3 && (!a.trust || decide (h.maxErr < a.ew))) || (kind == 2 && decide (h.maxErr < f.ew))

/-- The verdict and reason of R235 for a layer with a latched frame and its bound. -/
def Half.rowOf (h : Half) (a : AgeSample) (i : Nat) (l : LayerRec) (kind : Nat) (f : SlotFrame) (bound : Int) :
    Verdict × Nat :=
  if h.flag F.AGE_CTRL_FORCE || a.apply.isNone then (.notLive, 2)
  else if h.flag (F.INK_SSTAT_FROZEN i) then (.notLive, 3)
  else if h.noTime a kind f then (.notLive, 5)
  else if (l.budgetNs : Int) < bound then (.notLive, if h.isNosig i then 4 else 2)
  else if (l.warnNs : Int) < bound then (.late, 0)
  else (.live, 0)

/-- The verdict of a video layer whose source stands in window `i`, as a latch record (R230 to R236). -/
def Half.judge (h : Half) (a : AgeSample) (lap layer : Nat) (l : LayerRec) (i : Nat) : LatchRecord :=
  match h.source i with
  | none => ⟨lap, layer, none, 0, false, none, .notLive, 4, 0, 0⟩
  | some s =>
    let kind := s.rcd.kind
    match s.latched lap with
    | none =>
      let reason := if h.flag F.AGE_CTRL_FORCE || a.apply.isNone then 2 else 4
      ⟨lap, layer, none, 0, kind == 3, none, .notLive, reason, 0, 0⟩
    | some (n, f) =>
      let terms := a.terms l kind f.ew
      let bound := (a.apply.getD 0) + ((a.extra * a.p : Nat) : Int) + terms - f.cap
      let v := h.rowOf a i l kind f bound
      ⟨lap, layer, some n, f.cap, kind == 3, if a.apply.isSome then some bound else none, v.1, v.2,
        f.cap + (l.budgetNs : Int) - terms, f.fseq⟩

/-- A latch record as the verdict of the present lap. -/
def verdictOfRecord (r : LatchRecord) : LayerVerdict :=
  { layer := r.layer, verdict := r.verdict, reason := r.reason, bound := r.bound, deadline := r.deadline,
    frame := r.slot.map fun _ => (r.fseq, r.capture), slot := r.slot }

/-- Rows 1 and 2 of R235 for a layer without a latch record: STALE where row 1 applies, else NOSIG. -/
def missingVerdict (layer : Nat) (row1 : Bool) : LayerVerdict :=
  { layer := layer, verdict := .notLive, reason := if row1 then 2 else 4, bound := none, deadline := 0, frame := none, slot := none }

/-- VERDICT codes. -/
def verdictCode : Verdict → Nat
  | .live => 0
  | .late => 1
  | .notLive => 2

/-- A bound in ms, rounded up, as a 16-bit field; 0xFFFF when none is computed. -/
def ageMs (b : Option Int) : Nat := match b with
  | none => 0xFFFF
  | some x => min 0xFFFF (ceilDiv x.toNat msNs)

/-- The registers of a layer's verdict: AGE_LAYERn and AGE_REASON. -/
def Half.showVerdict (h : Half) (source : Nat) (v : LayerVerdict) : Half :=
  let h1 := h.sets [(F.AGE_LAYER_AGE v.layer, ageMs v.bound), (F.AGE_LAYER_VERDICT v.layer, verdictCode v.verdict),
    (F.AGE_LAYER_SOURCE v.layer, source)]
  h1.set ⟨F.AGE_REASON_LAYERS.off, 3 * v.layer, 3⟩ v.reason

/-- The registers of a layer that the scene does not use. -/
def Half.showUnused (h : Half) (n : Nat) : Half :=
  (h.sets [(F.AGE_LAYER_AGE n, 0), (F.AGE_LAYER_VERDICT n, 7), (F.AGE_LAYER_SOURCE n, 0)]).set
    ⟨F.AGE_REASON_LAYERS.off, 3 * n, 3⟩ 0

/-- A verdict takes its place in the lap. -/
def Half.addVerdict (h : Half) (source : Nat) (v : LayerVerdict) : Half :=
  (h.onLap fun (l : LapSt) => { l with
    verdicts := l.verdicts.filter (fun x => x.layer != v.layer) ++ [v]
    awaiting := l.awaiting.filter fun n => n != v.layer }).showVerdict source v

/-- SOURCE of a video layer of the scene in force. -/
def Half.layerSource (h : Half) (n : Nat) : Nat := (h.scene.map fun s => (s.layer n).source).getD 0

/-- Row 1 of R235 at the boundary of the lap: FORCE, or no valid prediction. -/
def Half.rowOne (h : Half) : Bool := h.lap.forced || !h.flag F.AGE_STATE_PREDICT

/-- The verdict of a layer whose record is missing, with its tally (R235, R236). -/
def Half.missRecord (h : Half) (n : Nat) : Half :=
  (h.addVerdict (h.layerSource n) (missingVerdict n h.rowOne)).tally F.AGE_TALLY_NOLATCH 1

/-- The verdict of video layer `n` at the boundary (R236): the holder decides and sends its record; the other half uses an early
record, takes row 2 while no record can come, or waits. -/
def Half.layerVerdict (h : Half) (a : AgeSample) (lap : Nat) (peerGone : Bool) (s : Scene) (n : Nat) : Half :=
  let l := s.layer n
  if l.used then
    match h.heldWindow l.source with
    | some i =>
      let r := h.judge a lap n l i
      (h.addVerdict l.source (verdictOfRecord r)).send (.latch r)
    | none =>
      match h.lap.early.find? fun r => r.lap == lap && r.layer == n with
      | some r => h.addVerdict l.source (verdictOfRecord r)
      | none =>
        if peerGone then h.missRecord n
        else h.onLap fun (x : LapSt) => { x with awaiting := x.awaiting ++ [n] }
  else h.showUnused n

/-- The verdicts of lap `lap` (step 4 of R174). -/
def Half.verdicts (h : Half) (lb lap : Nat) (peerGone : Bool) : Half :=
  let a := h.ageSample lb lap
  let force := h.flag F.AGE_CTRL_FORCE
  let h1 := a.2.onLap fun (x : LapSt) => { x with verdicts := [], awaiting := [], forced := force }
  let h2 := match h1.scene with
    | some s => (List.range 8).foldl (fun (h : Half) n => h.layerVerdict a.1 lap peerGone s n) h1
    | none => h1
  h2.onLap fun (x : LapSt) => { x with early := x.early.filter fun r => r.lap != lap }

/-- A latch record arrives (R236): it decides a layer that waits for it, or is kept for its lap. -/
def Half.latchArrives (h : Half) (r : LatchRecord) : Half :=
  if r.lap = h.get F.RBK_LAP_LAP ∧ h.lapBegun then
    if h.lap.awaiting.contains r.layer then h.addVerdict (h.layerSource r.layer) (verdictOfRecord r) else h
  else if newer 32 r.lap (h.get F.RBK_LAP_LAP) ∨ h.lapBegun = false then
    h.onLap fun (x : LapSt) => { x with early := x.early.filter (fun y => !(y.lap == r.lap && y.layer == r.layer)) ++ [r] }
  else h

/-! ## Runs and regions -/

/-- The verdict of a video layer in the present lap. -/
def Half.verdictOf (h : Half) (n : Nat) : Option LayerVerdict := h.lap.verdicts.find? fun v => v.layer == n

/-- The video layers that a list names, each once. -/
def videoLayers (l : List Contrib) : List Nat :=
  ((l.filter fun c => c.what == 0 && decide (c.layer < 8)).map fun c => c.layer).dedup

/-- The worse of two verdicts (R237). -/
def worse (a b : Verdict) : Verdict := match a, b with
  | .notLive, _ => .notLive
  | _, .notLive => .notLive
  | .late, _ => .late
  | _, .late => .late
  | _, _ => .live

/-- The verdict of a run (R237): the worst among the video layers of its NORMAL list. -/
def Half.runVerdict (h : Half) (e : Nat) : Verdict :=
  if h.runVideo e then
    ((videoLayers (h.runWork e .normal).list).map fun n => ((h.verdictOf n).map fun v => v.verdict).getD .notLive).foldl worse .live
  else .live

/-- The variant of a run (R180, R186); `reduced`: band runs with reduced variants. -/
def Half.runVariant (h : Half) (e : Nat) (reduced : Bool) : Variant :=
  if h.runFaulty e then .cfgFault
  else match h.runVerdict e, reduced with
    | .notLive, true => .rstale
    | _, true => .rlive
    | .live, false => .normal
    | .late, false => .late
    | .notLive, false => .stale

/-- A variant that shows pictures (R238). -/
def Variant.pictures : Variant → Bool
  | .normal => true
  | .late => true
  | .rlive => true
  | _ => false

/-- The order of R243, best last. -/
def statusOrder : List Nat := [6, 7, 3, 4, 5, 2, 1, 0]

/-- The status of R242 that a layer's verdict gives its region. -/
def LayerVerdict.status (v : LayerVerdict) : Nat := match v.verdict with
  | .live => 0
  | .late => 1
  | .notLive => v.reason

/-- The status of a region from its runs (R242, R243): the status and the layer that set it, 0xF for none. -/
def Half.regionStatus (h : Half) (entries : List Nat) : Nat × Nat :=
  if entries.any h.runFaulty then (6, 0xF)
  else
    let layers := (entries.flatMap fun e => videoLayers (h.runWork e .normal).list).dedup
    let sts := layers.filterMap fun n => (h.verdictOf n).map fun v => (v.status, n)
    match statusOrder.find? fun c => sts.any fun x => x.1 == c with
    | some c => (c, ((sts.find? fun x => x.1 == c).map fun x => x.2).getD 0xF)
    | none => (0, 0xF)

/-- The glass deadline of executed runs (R238): least over the video layers that picture lists name; none without one. -/
def Half.glassDeadline (h : Half) (runs : List RunWork) : Option Int :=
  let layers := ((runs.filter fun r => r.variant.pictures).flatMap fun r => videoLayers r.list).dedup
  (layers.filterMap fun n => (h.verdictOf n).map fun v => v.deadline).foldl
    (fun (m : Option Int) d => some ((m.map fun x => min x d).getD d)) none

/-- Per video layer shown by executed runs, its bound less the apply time of the lap. -/
def Half.heldBounds (h : Half) (runs : List RunWork) (apply : Option Int) : List (Nat × Int) :=
  let layers := ((runs.filter fun r => r.variant.pictures).flatMap fun r => videoLayers r.list).dedup
  layers.filterMap fun n => (h.verdictOf n).bind fun v => v.bound.map fun b => (n, b - apply.getD 0)

/-- A of the present lap, as the AGE registers hold it. -/
def Half.applyTime (h : Half) : Option Int :=
  if h.flag F.AGE_STATE_PREDICT then some (signed 64 (h.get F.AGE_APPLYLO_NS + h.get F.AGE_APPLYHI_NS * 2 ^ 32)) else none

/-- The age gate requires a re-push of a region at the deadline of its last push (R239). -/
def Half.deadlinePasses (h : Half) (r : RegionSt) : Bool :=
  match h.applyTime, r.pushed.bind fun p => p.deadline with
  | some a, some d => decide (d < a + ((h.get F.AGE_STATE_HOLD * h.get F.AGE_PERIOD_NS : Nat) : Int))
  | _, _ => false

/-! ## At a reported blanking -/

/-- DETAIL of class AGE (R419). -/
def ageDetail (region : Nat) (d : Int) : List Byte := leBytes 2 region ++ leBytes 6 0 ++ leBytes 8 (unsigned 64 d)

/-- An overstay of a region: tally, AGE_OVERSTAY and fault class AGE (R241). -/
def Half.overstay (h : Half) (t lap region : Nat) (d : Int) : Half :=
  ((h.tally F.AGE_TALLY_OVERSTAY 1).sets [(F.AGE_OVERSTAY_LAP, lap), (F.AGE_OVERSTAY_REGION, region)]).fault t clsAge 1 0
    (ageDetail region d)

/-- A change of a region's status raises source 5 and event class 5 with the region index and its word (R356, R383). -/
def Half.regionSignal (h : Half) (i : Nat) (f : Half → Half) : Half :=
  let off := (F.AGE_REGSTAT_word i).off
  let h' := f h
  if h'.get (F.AGE_REGSTAT_STATUS i) = h.get (F.AGE_REGSTAT_STATUS i) then h'
  else (h'.raise irqRegion).note irqRegion (beBytes 2 i ++ beBytes 4 (h'.reg off).toNat)

/-- AGE, LAYER and STATUS of a region at a reported blanking with local-base time `f` (R244). -/
def Half.showRegion (h : Half) (i : Nat) (p : Pushed) (f : Int) : Half :=
  let best := p.held.foldl (fun (b : Option (Nat × Int)) x => match b with
    | some y => if y.2 < x.2 then some x else some y
    | none => some x) none
  let layer := if p.status = 0 then (best.map fun b => b.1).getD p.layer else p.layer
  h.sets [(F.AGE_REGSTAT_AGE i, ageMs (best.map fun b => b.2 + f)), (F.AGE_REGSTAT_LAYER i, layer), (F.AGE_REGSTAT_STATUS i, p.status)]

/-- The region's content overstays: it stays dirty until a push replaces it, and the first blanking at which it does so is counted
(R241). -/
def Half.overdue (h : Half) (t lap i : Nat) (d : Int) (r : RegionSt) : Half :=
  let h1 := h.onLap fun (l : LapSt) => { l with
    regions := l.regions.modify i fun (x : RegionSt) => { x with again := true, counted := true } }
  if r.counted then h1 else h1.overstay t lap i d

/-- A region of the set in force at a reported blanking: status as shown, and overstay (R241, R244). -/
def Half.blankRegion (h : Half) (t lap : Nat) (f : Int) (i : Nat) (r : RegionSt) : Half :=
  match r.shown with
  | none => h
  | some p =>
    h.regionSignal i fun h =>
      let h1 := h.showRegion i p f
      match p.deadline with
      | none => h1.set (F.AGE_REGSTAT_OVER i) 0
      | some d =>
        if d < f then (h1.set (F.AGE_REGSTAT_OVER i) 1).overdue t lap i d r
        else h1.set (F.AGE_REGSTAT_OVER i) 0

/-- The records of a former set at a reported blanking (R241). -/
def Half.blankFormer (h : Half) (t lap : Nat) (f : Int) : Half :=
  let h1 := h.lap.former.foldl (fun h x => if x.deadline < f ∧ x.counted = false then h.overstay t lap x.region x.deadline else h) h
  h1.onLap fun (l : LapSt) => { l with former := l.former.map fun (x : FormerSt) => { x with counted := x.counted || decide (x.deadline < f) } }

/-- Regions of this half that show each status (AGE_COUNT0 to 3). -/
def Half.countStatus (h : Half) : Half :=
  let n (c : Nat) : Nat := ((List.range h.lap.regions.length).filter fun i => h.get (F.AGE_REGSTAT_STATUS i) == c).length
  h.forBelow 4 fun h k => (h.set (F.AGE_COUNT_LOW k) (n (2 * k))).set (F.AGE_COUNT_HIGH k) (n (2 * k + 1))

/-- The age gate at a reported blanking that ended lap `lap` (R241, R244). -/
def Half.blankAges (h : Half) (t lap : Nat) (f : Int) : Half :=
  let idx := (List.range h.lap.regions.length).zip h.lap.regions
  ((idx.foldl (fun h x => h.blankRegion t lap f x.1 x.2) h).blankFormer t lap f).countStatus

/-- A region of the half's records overstays at the last report (R368). -/
def Half.overstays (h : Half) : Bool :=
  (List.range h.lap.regions.length).any (fun i => h.flag (F.AGE_REGSTAT_OVER i)) || h.lap.former.any fun x => x.counted

end Sys2Proof.Machine
end

