-- ==== Sys2Proof/Machine/Changes.lean ====
section
/-!
DEFINITION. Selections and changes (R188 to R192, R213, R214, R273, R326): what the commit owner decides, which change governs
a lap, and how a half applies it. Completions are returned as `Finish` records, which the host block delivers.
-/
namespace Sys2Proof.Machine

/-- Status codes of R376, and two of PNL_MODESTAT that no request carries. -/
def stDone : Nat := 0x00
def stSuperseded : Nat := 0x01
def stNoScene : Nat := 0x02
def stNoState : Nat := 0x03
def stRejectedLate : Nat := 0x04
def stRejectedRange : Nat := 0x05
def stNoTime : Nat := 0x06
def stFull : Nat := 0x07
def stAccess : Nat := 0x08
def stMemErr : Nat := 0x09
def stFormat : Nat := 0x0A
def stTagBusy : Nat := 0x0B
def stReqLimit : Nat := 0x0C
def stNoRoute : Nat := 0x0D
def stRecovery : Nat := 0x0E
def stRefused : Nat := 0x103
def stTimeout : Nat := 0x104

/-- The completion of a selection or change. -/
structure Finish where
  origin    : Origin
  what      : Change
  status    : Nat
  late      : Option Int
  untrusted : Bool
  deriving DecidableEq, Repr

/-- The half with its changes changed. -/
def Half.onActs (h : Half) (f : ActSt → ActSt) : Half := { h with acts := f h.acts }

/-- The half is commit owner. -/
def Half.owner (h : Half) : Bool := h.flag F.SYS_HALF_COMMIT_OWNER

/-- The switch lap of a change that the commit owner receives now (R188): two laps ahead, and lap 1 before lap 0. -/
def Half.switchLap (h : Half) : Nat := if h.lapBegun then (h.get F.RBK_LAP_LAP + 2) % 2 ^ 32 else 1

/-- A scene number names a valid scene of the table. -/
def Half.validScene (h : Half) (n : Nat) : Bool := ((h.sceneAt n).map fun s => s.valid).getD false

/-! ## Which change governs (R189) -/

/-- Wall time of a scheduled change, and whether it is one. -/
def Action.key (a : Action) : Bool × Int × Nat := match a.sched with
  | some s => (false, s.1, a.order)
  | none => (true, 0, a.order)

/-- Of two changes for one lap, the first gives way to the second. -/
def Action.yields (a b : Action) : Bool :=
  let x := a.key
  let y := b.key
  if x.1 = y.1 then decide (x.2.1 < y.2.1) || (decide (x.2.1 = y.2.1) && decide (x.2.2 < y.2.2)) else y.1

/-- The change that governs among several. -/
def governing : List Action → Option Action
  | [] => none
  | a :: rest => match governing rest with
    | none => some a
    | some b => if a.yields b then some b else some a

/-- The changes for one lap that compete with each other: all scene selections, all changes of one graphic layer, all mode
changes. -/
def Change.rival : Change → Nat
  | .scene _ => 0
  | .graphic g _ _ _ _ => 1 + g
  | .mode _ => 9

/-- The scene in force at the boundary of a lap, as the switches already decided show it (R213). -/
def Half.sceneAtLap (h : Half) (lap : Nat) : Nat :=
  let due := h.acts.scenes.filter fun x => !newer 32 x.1 lap
  let last := due.foldl (fun (b : Option (Nat × Nat)) x => match b with
    | some y => if newer 32 x.1 y.1 then some x else some y
    | none => some x) none
  match last with
  | some x => x.2
  | none => if h.lapBegun then h.get F.RBK_SCENE_CURRENT else ((h.image.map fun i => i.default).getD 0)

/-- A graphic change passes a judgement against a scene (R213): the layer is USED, and the state lies in its set. -/
def Half.graphicFits (h : Half) (scene layer : Nat) (setState : Bool) (state : Nat) : Bool :=
  match h.image, h.sceneAt scene with
  | some im, some s =>
    let l := s.layer (8 + layer)
    let count := ((im.gsets.find? fun g => g.number == l.source).map fun g => g.images.length).getD 0
    decide (layer < 8) && l.used && (!setState || decide (state < count))
  | _, _ => false

/-- A mode may be chosen (R258, R273): declared validly, REFRESH at most MAXREFRESH. -/
def Half.modeAllowed (h : Half) (mode : Nat) : Bool :=
  match h.image, h.panel.modes.find? fun m => m.mode == mode with
  | some im, some m => decide (m.refresh ≤ im.man.maxRefresh)
  | _, _ => false

/-- What a change fails on at receipt, before any wall time is considered. -/
def Half.refusal (h : Half) (c : Change) (lap : Nat) : Option Nat := match c with
  | .scene n => if h.validScene n then none else some stNoScene
  | .graphic g ss _ st _ => if h.graphicFits (h.sceneAtLap lap) g ss st then none else some stNoState
  | .mode n => if h.modeAllowed n then none else some stRefused

/-! ## Naming a lap -/

/-- A graphic change as the baton carries it. -/
def Change.toG : Change → Option GChange
  | .graphic g ss sa st al => some ⟨g, st, al, true, ss, sa, false⟩
  | _ => none

/-- RBK_SCENE and RBK_SWITCHLAP show the earliest switch named in the baton (R188). -/
def Half.showPending (h : Half) : Half :=
  let first := h.acts.scenes.foldl (fun (b : Option (Nat × Nat)) x => match b with
    | some y => if newer 32 y.1 x.1 then some x else some y
    | none => some x) none
  match first with
  | some x => h.sets [(F.RBK_SCENE_PENDING, 1), (F.RBK_SCENE_NEXT, x.2), (F.RBK_SWITCHLAP_LAP, x.1)]
  | none => h.set F.RBK_SCENE_PENDING 0

/-- A scene switch named for a lap, in place of an earlier one for that lap. -/
def ActSt.nameScene (a : ActSt) (lap n : Nat) : ActSt := { a with scenes := a.scenes.filter (fun x => x.1 != lap) ++ [(lap, n)] }

/-- A graphic change named for a lap, in place of an earlier one for that lap and layer. -/
def ActSt.nameGraphic (a : ActSt) (lap : Nat) (g : GChange) : ActSt :=
  { a with named := a.named.filter (fun x => !(x.lap == lap && x.g.layer == g.layer)) ++ [⟨lap, g⟩] }

/-- The owner names what governs a lap among the rivals of a change: in its own lists, and for its baton. -/
def Half.nameLap (h : Half) (lap rival : Nat) : Half :=
  match governing (h.acts.acts.filter fun a => a.lap == some lap && a.what.rival == rival) with
  | none => h
  | some a => match a.what with
    | .scene n => (h.onActs fun x => x.nameScene lap n).showPending
    | .graphic _ _ _ _ _ => match a.what.toG with
      | some g => h.onActs fun (x : ActSt) => { x.nameGraphic lap g with toSend := x.toSend ++ [⟨lap, g⟩] }
      | none => h
    | .mode n => { h with panel := { h.panel with dueModes := h.panel.dueModes.filter (fun x => x.1 != lap) ++ [(lap, n)] } }

/-- The owner holds a change. -/
def Half.addAction (h : Half) (a : Action) : Half :=
  h.onActs fun (x : ActSt) => { x with acts := x.acts ++ [{ a with order := x.order }], order := x.order + 1 }

/-! ## Receipt by the commit owner -/

/-- An immediate selection or change (R188, R213, R273). -/
def Half.chooseNow (h : Half) (c : Change) (o : Origin) : Half × List Finish :=
  let lap := h.switchLap
  match h.refusal c lap with
  | some st => (h, [⟨o, c, st, none, false⟩])
  | none => ((h.addAction ⟨0, c, none, some lap, false, false, !h.lapBegun, o⟩).nameLap lap c.rival, [])

/-- Local base of the boundary that begins lap `lap + j`, j ≥ 1, of a half in lap `lap` (R253): A(lap) and whole periods, or whole
periods after the last boundary while no prediction is valid. -/
def Half.boundaryAhead (h : Half) (j : Nat) : Int :=
  let p := h.get F.AGE_PERIOD_NS
  match h.predict (h.get F.RBK_LAP_LAP) with
  | some a => a + (((j - 1) * p : Nat) : Int)
  | none => (((h.lap.bounds.head?.map fun b => b.2).getD 0 + j * p : Nat) : Int)

/-- R190: the owner judges a scheduled change in lap L at local base `lb`; `back` is 1 for a judgement made for the lap before
the present one. It is named for L + 2 once its due lap is L + 2 or earlier, and is late when its due lap is L + 1 or earlier. -/
def Half.judgeSched (h : Half) (lb back : Nat) (a : Action) : Action :=
  match a.sched, a.lap, h.time.wall lb with
  | some (t, _), none, some w =>
    let off := w - (lb : Int)
    let lap := (h.get F.RBK_LAP_LAP + 2 - back) % 2 ^ 32
    let reached (j : Nat) : Bool :=
      if j = 0 then decide (t ≤ ((h.lap.bounds.head?.map fun b => (b.2 : Int)).getD 0) + off)
      else decide (t ≤ h.boundaryAhead j + off)
    if reached (2 - back) then
      { a with lap := some lap, late := reached (1 - back), untrusted := !h.trusted lb }
    else a
  | _, _, _ => a

/-- The owner judges every scheduled change that is not yet named. -/
def Half.judgeAll (h : Half) (lb back : Nat) (sel : Action → Bool) : Half :=
  let was := h.acts.acts
  let now := was.map fun a => if sel a then h.judgeSched lb back a else a
  let h1 := h.onActs fun (x : ActSt) => { x with acts := now }
  let fresh := (was.zip now).filter fun x => x.1.lap.isNone && x.2.lap.isSome
  fresh.foldl (fun h x => h.nameLap (x.2.lap.getD 0) x.2.what.rival) h1

/-- A scheduled change with wall time `t` and expiry `e` (0 for none) (R190, R213, R326). -/
def Half.chooseAt (h : Half) (now : Nat) (c : Change) (t e : Int) (o : Origin) : Half × List Finish :=
  let lb := h.lb now
  let bad (st : Nat) : List Finish := [⟨o, c, st, none, false⟩]
  match h.refusal c h.switchLap with
  | some st => (h, bad st)
  | none => match h.time.wall lb with
    | none => (h, bad stNoTime)
    | some w =>
      let e' := if e = 0 then t + ((h.tconf.expiry * msNs : Nat) : Int) else e
      if e ≠ 0 ∧ e < t then (h, bad stRejectedRange)
      else if e' < w then (h.tally F.RBK_TALLY_REJECTED 1, bad stRejectedLate)
      else if 64 ≤ (h.acts.acts.filter fun a => a.sched.isSome).length then (h, bad stFull)
      else
        let n := h.acts.order
        let h1 := h.addAction ⟨0, c, some (t, e'), none, false, false, !h.lapBegun, o⟩
        (if h1.lapBegun then h1.judgeAll lb 0 fun a => a.order == n else h1, [])

/-! ## At the boundary of a lap -/

/-- The change takes effect, or fails its second judgement (R213): its status. -/
def Half.outcome (h : Half) (a : Action) : Nat := match a.what with
  | .graphic g ss _ st _ => if h.graphicFits (h.get F.RBK_SCENE_CURRENT) g ss st then stDone else stNoState
  | _ => stDone

/-- The change governs its lap among the changes due. -/
def Action.wins (a : Action) (due : List Action) : Bool :=
  (governing (due.filter fun b => b.what.rival == a.what.rival)).map (fun b => b.order) == some a.order

/-- A mode change, which completes after its lap (R273). -/
def Change.isMode : Change → Bool
  | .mode _ => true
  | _ => false

/-- The half that named changes for lap `lap` completes them, after it has applied them: the governing ones by their outcome, the
rest SUPERSEDED (R189); a late one that runs is counted (R190). A governing mode change completes later (R273). -/
def Half.completeLap (h : Half) (lb lap : Nat) : Half × List Finish :=
  let due := h.acts.acts.filter fun a => a.lap == some lap
  let stays (a : Action) : Bool := a.lap != some lap || (a.what.isMode && a.wins due)
  let lateness (a : Action) : Option Int :=
    if a.late then a.sched.bind fun s => (h.time.wall lb).map fun w => w - s.1 else none
  let fin := (due.filter fun a => !stays a).map fun a =>
    if a.wins due then (⟨a.origin, a.what, h.outcome a, lateness a, a.untrusted⟩ : Finish)
    else ⟨a.origin, a.what, stSuperseded, none, a.untrusted⟩
  let lates := (due.filter fun a => a.late && a.wins due && h.outcome a == stDone).length
  ((h.onActs fun (x : ActSt) => { x with acts := x.acts.filter stays }).tally F.RBK_TALLY_LATESW lates, fin)

/-- CMP_GLAYER takes the values of the scene in force (R214): DEFAULT state of the layer's set, LALPHA, SET and USED. -/
def Half.graphicDefaults (h : Half) : Half :=
  match h.image, h.scene with
  | some im, some s => h.forBelow 8 fun h g =>
      let l := s.layer (8 + g)
      let d := ((im.gsets.find? fun x => x.number == l.source).map fun x => x.default).getD 0
      h.sets [(F.CMP_GLAYER_SET g, l.source), (F.CMP_GLAYER_STATE g, if l.used then d else 0), (F.CMP_GLAYER_ALPHA g, l.lalpha),
        (F.CMP_GLAYER_USED g, bit l.used)]
  | _, _ => h

/-- The scene in force changes at a boundary (R174, R214). -/
def Half.enterScene (h : Half) (n : Nat) : Half := (h.set F.RBK_SCENE_CURRENT n).graphicDefaults

/-- Step 2 of R174 for scenes: a switch named for this lap applies. The result says whether the scene was switched. -/
def Half.switchScene (h : Half) (lap : Nat) : Half × Bool :=
  let hit := h.acts.scenes.find? fun x => x.1 == lap
  let h1 := (h.onActs fun (x : ActSt) => { x with scenes := x.scenes.filter fun y => newer 32 y.1 lap }).showPending
  match hit with
  | some x => if x.2 = h.get F.RBK_SCENE_CURRENT then (h1, false) else (h1.enterScene x.2, true)
  | none => (h1, false)

/-- A graphic change applied to its layer. -/
def Half.applyG (h : Half) (g : GChange) : Half :=
  let h1 := if g.setState then h.set (F.CMP_GLAYER_STATE g.layer) g.state else h
  if g.setAlpha then h1.set (F.CMP_GLAYER_ALPHA g.layer) g.alpha else h1

/-- Step 3 of R174: the graphic changes named for this lap that pass their second judgement (R213). -/
def Half.switchGraphics (h : Half) (lap : Nat) : Half :=
  let due := h.acts.named.filter fun x => x.lap == lap
  let h1 := h.onActs fun (x : ActSt) => { x with named := x.named.filter fun y => newer 32 y.lap lap
                                                 toSend := x.toSend.filter fun y => newer 32 y.lap lap }
  due.foldl (fun h x =>
    if h.graphicFits (h.get F.RBK_SCENE_CURRENT) x.g.layer x.g.setState x.g.state then h.applyG x.g else h) h1

/-- The result of a selection made through a register of half `h` (RBK_SELSTAT, CMP_GSELSTAT, PNL_MODESTAT). -/
def Half.showResult (h : Half) (n status : Nat) (c : Change) : Half :=
  match c with
  | .scene _ =>
    if h.acts.lastSel = n then h.set F.RBK_SELSTAT_RESULT (if status = stDone then 2 else if status = stSuperseded then 3 else 4) else h
  | .graphic _ _ _ _ _ =>
    if h.acts.lastG = n then h.set F.CMP_GSELSTAT_RESULT (if status = stDone then 2 else if status = stSuperseded then 3 else 4) else h
  | .mode _ =>
    if h.acts.lastMode = n then
      h.set F.PNL_MODESTAT_RESULT (if status = stDone then 2 else if status = stSuperseded then 5 else if status = stTimeout then 4 else 3)
    else h

/-- A selection is written to a register of this half: its number, shown PENDING. -/
def Half.noteSelection (h : Half) (c : Change) : Half × Nat :=
  let n := h.acts.selNo + 1
  let h1 := h.onActs fun (x : ActSt) => { x with selNo := n }
  match c with
  | .scene s => (((h1.onActs fun (x : ActSt) => { x with lastSel := n }).set F.RBK_SELSTAT_SCENE s).set F.RBK_SELSTAT_RESULT 1, n)
  | .graphic g _ _ _ _ => (((h1.onActs fun (x : ActSt) => { x with lastG := n }).set F.CMP_GSELSTAT_LAYER g).set F.CMP_GSELSTAT_RESULT 1, n)
  | .mode m => (((h1.onActs fun (x : ActSt) => { x with lastMode := n }).set F.PNL_MODESTAT_MODE m).set F.PNL_MODESTAT_RESULT 1, n)

/-- The commit owner has been reset: switches that it had pending are gone (R192), with the selections forwarded to it. -/
def Half.dropPending (h : Half) : Half :=
  let h1 := (h.onActs fun (x : ActSt) => { x with scenes := [], named := [], toSend := [], acts := [] }).showPending
  let h2 : Half := { h1 with panel := { h1.panel with dueModes := [] } }
  let clear (h : Half) (f : Field) : Half := if h.get f = 1 then h.set f 0 else h
  clear (clear (clear h2 F.RBK_SELSTAT_RESULT) F.CMP_GSELSTAT_RESULT) F.PNL_MODESTAT_RESULT

end Sys2Proof.Machine
end

