-- ==== Sys2Proof/Machine/Push.lean ====
section
/-!
DEFINITION. The push stream of a lap (R223 to R228, R247, R254, R261 to R265, R275): region cells, hallmarks, watch checks,
underruns, COMMIT and the lap deadline.
-/
namespace Sys2Proof.Machine

/-! ## Cells to the panel (R247) -/

/-- REGION OPEN. TARGET 0 back bank, 1 shutter store. -/
def openCell (pseq lap target tx0 ty0 tw th region : Nat) : Cell :=
  { type := 7
    hdr := hdrOf [(16, 32, pseq), (48, 32, lap), (80, 2, target)]
    payload := beBytes 2 tx0 ++ beBytes 2 ty0 ++ beBytes 2 tw ++ beBytes 2 th ++ beBytes 2 region }

/-- The four REGION PIXELS cells of a tile. -/
def pixelCells (pseq tx ty : Nat) (words : List Nat) : List Cell :=
  let bytes := rgbTile words
  (List.range 4).map fun k =>
    { type := 8, hdr := hdrOf [(16, 32, pseq), (48, 9, tx), (57, 9, ty), (66, 2, k)], payload := sliceBytes bytes (240 * k) 240 }

/-- REGION CLOSE. -/
def closeCell (pseq lap hallmark tx0 ty0 tw th : Nat) : Cell :=
  { type := 9
    hdr := hdrOf [(16, 32, pseq), (48, 32, lap)]
    payload := beBytes 4 hallmark ++ beBytes 2 tx0 ++ beBytes 2 ty0 ++ beBytes 2 tw ++ beBytes 2 th }

/-- COMMIT: ranges FIRST0, LAST0, FIRST1, LAST1. -/
def commitCell (lap copy submask : Nat) (ranges : List Nat) : Cell :=
  { type := 10, hdr := hdrOf [(16, 32, lap), (48, 1, copy), (49, 2, submask)], payload := ranges.flatMap (beBytes 4) }

/-- KEEPALIVE and control: OP 0 KEEPALIVE, 1 MODE, 2 SETUP. -/
def controlCell (op token arg : Nat) (payload : List Byte) : Cell :=
  { type := 11, hdr := hdrOf [(16, 4, op), (20, 16, token), (36, 8, arg)], payload := payload }

/-- The 96-bit fold word of a region's hallmark (R254). -/
def foldWord (pseq tx0 ty0 tw th : Nat) : Nat :=
  (((pseq % 2 ^ 32 * 2 ^ 16 + tx0 % 2 ^ 16) * 2 ^ 16 + ty0 % 2 ^ 16) * 2 ^ 16 + tw % 2 ^ 16) * 2 ^ 16 + th % 2 ^ 16

/-- The hallmark of a region (R254): its 96-bit fold word and its pixel words. -/
def hallmarkOf (pseq tx0 ty0 tw th : Nat) (words : List Nat) : Nat :=
  crcValue crc32c (beBytes 12 (foldWord pseq tx0 ty0 tw th)) (words.flatMap (beBytes 4))

/-! ## The sub-link -/

/-- The panel link of the half (R245). -/
def Half.panelLink (h : Half) : Option Nat := h.linkOfKind 1

/-- The sub-link has at least MINLANES lanes UP (R275). -/
def Half.panelUp (h : Half) : Bool := (h.panelLink.map h.linkUp).getD false

/-- A cell given to the panel sub-link. -/
def Half.toPanel (h : Half) (c : Cell) : Half := h.queueOn h.panelLink c

/-- The half with its panel state changed. -/
def Half.onPanel (h : Half) (f : PanelSt → PanelSt) : Half := { h with panel := f h.panel }

/-- The half with its push stream changed. -/
def Half.onPush (h : Half) (f : PushSt → PushSt) : Half := h.onLap fun (l : LapSt) => { l with push := f l.push }

/-- The steward has kicked RST_WDOG within the last 20 ms (R269). -/
def Half.kicked (h : Half) (t : Nat) : Bool := decide (t ≤ h.starter.wdogAt + 20 * msNs)

/-- The time island has made a lap boundary within the last 4 × P; before lap 0 this holds (R269). -/
def Half.boundaryRecent (h : Half) (t : Nat) : Bool :=
  !h.lapBegun || (match h.lap.bounds.head? with
    | some b => decide (h.lb t ≤ b.2 + 4 * h.get F.AGE_PERIOD_NS)
    | none => false)

/-- KEEPALIVE and COMMIT may be sent (R269, R274). -/
def Half.mayTalk (h : Half) (t : Nat) : Bool :=
  h.flag F.PNL_CTRL_RUN && h.kicked t && h.boundaryRecent t && !h.panel.silent

/-- CUT, Ef, LINKDLY and MARGIN: A(L) minus the lap deadline (R253), in ns. -/
def Half.cutNs (h : Half) : Nat :=
  let m := h.modeRec
  let vt := (m.map fun m => m.vTotal).getD 1
  let va := (m.map fun m => m.vActive).getD 0
  let cut := ceilDiv ((vt - va + h.get F.PNL_MODE_CUTLINES) * h.get F.AGE_PERIOD_NS) (max 1 vt)
  cut + h.flipErr + h.panel.linkDly + h.get F.PNL_CTRL_MARGIN * 1000

/-! ## Regions and runs -/

/-- The entries of the set in force, in run-list order (R176, R182). -/
def Half.setEntries (h : Half) : List Nat := match h.scene with
  | none => []
  | some s =>
    let x := s.half h.id
    if h.alone then (List.range x.aloneCount).map fun k => x.aloneFirst + k
    else (List.range x.bandCount).map fun k => x.bandFirst + k

/-- Regions of the set in force (R182). -/
def Half.setRegions (h : Half) : Nat := match h.scene with
  | none => 0
  | some s => if h.alone then (s.half h.id).aloneRegions else (s.half h.id).bandRegions

/-- Region of a run entry (R176). -/
def Half.runRegion (h : Half) (e : Nat) : Nat := bitsAt (h.entryWord e 0) 16 16

/-- The runs of a region, in order (R181). -/
def Half.regionEntries (h : Half) (i : Nat) : List Nat := h.setEntries.filter fun e => h.runRegion e == i

/-- Tiles of a rectangle in raster order. -/
def rectTiles (tx0 ty0 tw th : Nat) : List (Nat × Nat) :=
  (List.range th).flatMap fun j => (List.range tw).map fun i => (tx0 + i, ty0 + j)

/-- The half with a region changed. -/
def Half.onRegion (h : Half) (i : Nat) (f : RegionSt → RegionSt) : Half :=
  h.onLap fun (l : LapSt) => { l with regions := l.regions.modify i f }

/-- The region is to be executed and pushed again. -/
def Half.again (h : Half) (i : Nat) : Half := h.onRegion i fun (r : RegionSt) => { r with again := true }

/-! ## Watch rectangles (R225, R227, R228) -/

/-- The rectangle is enabled and not disabled (CMP_WATCHEN, CMP_WATCHDIS). -/
def Half.watchOn (h : Half) (n : Nat) : Bool :=
  if n < 32 then h.getBit F.CMP_WATCHEN0_RECTS n && !h.getBit F.CMP_WATCHDIS0_RECTS n
  else h.getBit F.CMP_WATCHEN1_RECTS (n - 32) && !h.getBit F.CMP_WATCHDIS1_RECTS (n - 32)

/-- The scene and set in force are among those of a rectangle. -/
def Half.watchNow (h : Half) (w : WatchRec) : Bool :=
  bitAt w.scenes (h.get F.RBK_SCENE_CURRENT) && bitAt w.flags (if h.alone then 1 else 0)

/-- A rectangle lies within a region. -/
def WatchRec.within (w : WatchRec) (r : RegionSt) : Bool :=
  decide (16 * r.tx0 ≤ w.x) && decide (16 * r.ty0 ≤ w.y) && decide (w.x + w.w ≤ 16 * (r.tx0 + r.tw))
    && decide (w.y + w.h ≤ 16 * (r.ty0 + r.th))

/-- Every layer of CONDMASK is in its COND state and layer alpha. -/
def Half.condHolds (h : Half) (w : WatchRec) : Bool :=
  (List.range 8).all fun g => !bitAt w.condmask g
    || (w.cond.getD g (0, 0)) == (h.get (F.CMP_GLAYER_STATE g), h.get (F.CMP_GLAYER_ALPHA g))

/-- Bit of VARIANTS for an executed variant. -/
def Variant.watchBit : Variant → Nat
  | .normal => 0
  | .rlive => 0
  | .late => 1
  | .stale => 2
  | .rstale => 2
  | .cfgFault => 7

/-- A run overlaps the rectangle. -/
def RunWork.overlaps (r : RunWork) (w : WatchRec) : Bool :=
  decide (w.x < 16 * (r.tx0 + r.tw)) && decide (16 * r.tx0 < w.x + w.w) && decide (w.y < 16 * (r.ty0 + r.th))
    && decide (16 * r.ty0 < w.y + w.h)

/-- Pixel words of a rectangle out of a region's words, which run tile by tile. -/
def rectWords (r : RegionSt) (w : WatchRec) (words : List Nat) : List Nat :=
  let all := words.toArray
  (List.range w.h).flatMap fun j => (List.range w.w).map fun i =>
    let x := w.x + i - 16 * r.tx0
    let y := w.y + j - 16 * r.ty0
    all.getD (256 * (y / 16 * r.tw + x / 16) + 16 * (y % 16) + x % 16) 0

/-- The watch value (R225). -/
def watchValue (r : RegionSt) (w : WatchRec) (words : List Nat) : Nat :=
  crcValue crc32c (beBytes 2 w.x ++ beBytes 2 w.y ++ beBytes 2 w.w ++ beBytes 2 w.h) ((rectWords r w words).flatMap (beBytes 4))

/-- The result of a check or skip is kept for CMP_WATCHLAST and CMP_WATCHSTAT. -/
def Half.watchResult (h : Half) (n result : Nat) (value : Option Nat) : Half :=
  h.onLap fun (l : LapSt) =>
    let was := l.watch.find? fun x => x.number == n
    let v := value.getD ((was.map fun x => x.value).getD 0)
    { l with watch := l.watch.filter (fun x => x.number != n) ++ [⟨n, v, h.get F.RBK_LAP_LAP % 65536, result⟩] }

/-- A check is skipped and counted (R227). -/
def Half.watchSkip (h : Half) (n : Nat) : Half := (h.watchResult n 3 none).tally F.CMP_WATCHTALLY_SKIPPED 1

/-- DETAIL of class PNL: the PNL_STATUS word and, where one is named, a region, rectangle or code (R419). -/
def Half.pnlDetail (h : Half) (x : Nat) : List Byte := h.wordBytes F.PNL_STATUS_word.off ++ leBytes 2 x

/-- One rectangle over a region as pushed: `words` is none for an abandoned region, `filled` the tiles filled with
background. -/
def Half.watchRect (h : Half) (t i : Nat) (r : RegionSt) (words : Option (List Nat)) (filled : List (Nat × Nat)) (w : WatchRec) :
    Half :=
  if h.watchOn w.number && h.watchNow w && w.within r then
    let runs := h.lap.chosen.filter fun x => x.region == i && x.overlaps w
    let hit := filled.any fun x => decide (16 * x.1 < w.x + w.w) && decide (w.x < 16 * x.1 + 16) && decide (16 * x.2 < w.y + w.h)
      && decide (w.y < 16 * x.2 + 16)
    match words with
    | none => h.watchSkip w.number
    | some ws =>
      if !h.condHolds w || hit || runs.any fun x => !bitAt w.variants x.variant.watchBit then h.watchSkip w.number
      else
        let v := watchValue r w ws
        let h1 := h.tally F.CMP_WATCHTALLY_CHECKS 1
        if v = w.expect then h1.watchResult w.number 1 (some v)
        else
          let h2 := ((h1.watchResult w.number 2 (some v)).tally F.CMP_WATCHTALLY_MISMATCH 1).again i
          let h3 := if w.number < 32 then h2.setBit F.CMP_WATCHFAIL0_RECTS w.number true
            else h2.setBit F.CMP_WATCHFAIL1_RECTS (w.number - 32) true
          h3.fault t clsPnl 7 h.id.num (h3.pnlDetail w.number)
  else h

/-- Every rectangle over a region (R227). -/
def Half.watchRegion (h : Half) (t i : Nat) (words : Option (List Nat)) (filled : List (Nat × Nat)) : Half :=
  match h.lap.regions[i]? with
  | none => h
  | some r => ((h.image.map fun im => im.watch).getD []).foldl (fun h w => h.watchRect t i r words filled w) h

/-! ## The push stream -/

/-- BACKGROUND of the scene in force. -/
def Half.background (h : Half) : Nat := (h.scene.map fun s => s.background % 2 ^ 30).getD 0

/-- A region is opened (R248, R262). -/
def Half.openRegion (h : Half) (i : Nat) (r : RegionSt) (rest : List Nat) : Half :=
  let n := h.get F.PNL_PSEQ_NEXT
  let h1 := (h.set F.PNL_PSEQ_NEXT (n + 1)).toPanel (openCell n (h.get F.RBK_LAP_LAP) 0 r.tx0 r.ty0 r.tw r.th i)
  h1.onPush fun (p : PushSt) => { p with
    next := rest
    cur := some ⟨i, n, 0, false, 0, []⟩
    first := if p.opened then p.first else n
    last := n
    opened := true }

/-- Latched frames of the video contributions that runs execute (R185): layer, FSEQ and capture time. -/
def Half.listFrames (h : Half) (runs : List RunWork) : List (Nat × Nat × Int) :=
  ((runs.flatMap fun r => videoLayers r.list).dedup).filterMap fun n =>
    (h.verdictOf n).bind fun v => v.frame.map fun f => (n, f.1, f.2)

/-- What the half pushed for region `i` in this lap (R238, R242). -/
def Half.pushedOf (h : Half) (i pseq filled : Nat) : Pushed :=
  let runs := h.lap.chosen.filter fun x => x.region == i
  let st := h.regionStatus (h.regionEntries i)
  let status := if st.1 = 6 then 6 else if filled ≠ 0 then 7 else st.1
  { lap := h.get F.RBK_LAP_LAP, pseq := pseq, variants := runs.map fun x => x.variant
    frames := h.listFrames runs
    deadline := h.glassDeadline runs, status := status, layer := if status = 7 then 0xF else st.2
    held := h.heldBounds runs h.applyTime, echo := none }

/-- The tiles that a region's push filled, from its words and tiles: positions whose tile was not ready or fell behind one. -/
def Half.filledTiles (h : Half) (r : RegionSt) : List (Nat × Nat) :=
  (rectTiles r.tx0 r.ty0 r.tw r.th).filter fun x =>
    h.lap.push.tiles.any fun o => o.ty == x.2 && decide (r.tx0 ≤ o.tx) && decide (o.tx ≤ x.1) && o.pixels.isNone

/-- A region is closed with its hallmark (R254, R262). -/
def Half.closeRegion (h : Half) (t : Nat) (c : OpenRegion) (r : RegionSt) : Half :=
  let words := c.words.reverse
  let mark := hallmarkOf c.pseq r.tx0 r.ty0 r.tw r.th words
  let h1 := (h.toPanel (closeCell c.pseq (h.get F.RBK_LAP_LAP) mark r.tx0 r.ty0 r.tw r.th)).set F.PNL_HMLAST_HALLMARK mark
  let p := h1.pushedOf c.region c.pseq c.filled
  let h2 := h1.onRegion c.region fun (x : RegionSt) => { x with pushed := some p, again := decide (c.filled ≠ 0), unapplied := false }
  let h3 := h2.tally F.CMP_UNDERRUN_REGIONS (if c.filled = 0 then 0 else 1)
  let h4 := h3.cvuTake 6 (fun _ f => regionTaken c.region f) (some (words.flatMap (beBytes 4))) (foldWord c.pseq r.tx0 r.ty0 r.tw r.th)
  (h4.watchRegion t c.region (some words) (h.filledTiles r)).onPush fun (x : PushSt) => { x with cur := none }

/-- The next tile of the open region goes out (R222, R223); none while it is still being composed. -/
def Half.pushTile (h : Half) (c : OpenRegion) (r : RegionSt) : Option Half :=
  let tx := r.tx0 + c.pos % r.tw
  let ty := r.ty0 + c.pos / r.tw
  let fill := c.fill && c.pos % r.tw != 0
  let send (words : List Nat) (f : Bool) : Half :=
    let h1 := (pixelCells c.pseq tx ty words).foldl Half.toPanel h
    (h1.tally F.CMP_UNDERRUN_TILES (bit f)).onPush fun (p : PushSt) => { p with
      cur := some { c with pos := c.pos + 1, fill := f, filled := c.filled + bit f, words := words.reverse ++ c.words } }
  let blank := List.replicate 256 h.background
  if fill then some (send blank true)
  else match h.lap.push.tiles.find? fun o => o.tx == tx && o.ty == ty with
    | none => none
    | some o => match o.pixels with
      | none => some (send blank true)
      | some w => some (send w false)

/-- The half may push now (R261, R268, R273, R275). -/
def Half.mayPush (h : Half) : Bool :=
  let p := h.lap.push
  p.allowed && !p.barred && !h.lap.late && h.flag F.PNL_CTRL_RUN && h.panelUp && !h.panel.waiting && !h.modePending

/-- One move of the push stream: open a region, send a tile, or close; none when it waits or is at its end. -/
def Half.pushMove (h : Half) (t : Nat) : Option Half :=
  let p := h.lap.push
  match p.cur, p.next with
  | some c, _ => (h.lap.regions[c.region]?).bind fun r =>
      if c.pos < r.tw * r.th then h.pushTile c r else some (h.closeRegion t c r)
  | none, i :: rest => (h.lap.regions[i]?).map fun r => h.openRegion i r rest
  | none, [] => none

/-- The push stream runs until it waits. The first argument bounds its moves. -/
def Half.pushRun : Nat → Nat → Half → Half
  | 0, _, h => h
  | n + 1, t, h => match h.pushMove t with
    | some h' => Half.pushRun n t h'
    | none => h

/-- A bound for the moves of a lap: each region opens, sends its tiles and closes. -/
def Half.pushBound (h : Half) : Nat := (h.lap.regions.map fun r => r.tw * r.th + 2).sum + 2

/-! ## Baton flits (R362, R363) -/

/-- The half with its end of the half link changed. -/
def Half.onLink (h : Half) (f : LinkSt → LinkSt) : Half := { h with link := f h.link }

/-- The steward of the half has written ENG_BEAT within the last 2 ms (R362). -/
def Half.stewardBeats (h : Half) (t : Nat) : Bool := (h.engine 0).beaten && decide (t ≤ (h.engine 0).beatAt + 2 * msNs)

/-- TAKE: engines 1 to 3 that failed, or whose first beat after their return is awaited (R360, R361). -/
def Half.takeBits (h : Half) : Nat :=
  [1, 2, 3].foldl (fun b n => if h.getBit F.ENG_SUPV_FAILED n || (h.engine n).returning then b + 2 ^ n else b) 0

/-- The graphic changes that the next flit carries: SYNC entries for a joining peer first, else up to two changes of one lap. -/
def Half.batonChanges (h : Half) : Nat × List GChange :=
  if h.acts.sync ≠ [] then (h.get F.RBK_LAP_LAP, (h.acts.sync.take 2).map fun g =>
    { layer := g, state := h.get (F.CMP_GLAYER_STATE g), alpha := h.get (F.CMP_GLAYER_ALPHA g), valid := true, setState := true
      setAlpha := true, sync := true })
  else match h.acts.toSend with
    | [] => (0, [])
    | x :: _ => (x.lap, ((h.acts.toSend.filter fun y => y.lap == x.lap).take 2).map fun y => y.g)

/-- The changes that a flit has carried leave the owner's lists. -/
def Half.sentChanges (h : Half) : Half :=
  if h.acts.sync ≠ [] then h.onActs fun (x : ActSt) => { x with sync := x.sync.drop 2 }
  else match h.acts.toSend with
    | [] => h
    | x :: _ =>
      let gone := (h.acts.toSend.filter fun y => y.lap == x.lap).take 2
      h.onActs fun (a : ActSt) => { a with toSend := a.toSend.filter fun y => !gone.contains y }

/-- The half is in a half start and past its step 6: its batons carry JOINING (R60). -/
def Half.joining (h : Half) : Bool := h.mode == modeHalfStart && decide (6 ≤ h.step)

/-- No graphic change. -/
def noChange : GChange :=
  { layer := 0, state := 0, alpha := 0, valid := false, setState := false, setAlpha := false, sync := false }

/-- The baton that the half would send now (R363): its newest range with the lap of that range, and the SUBMASK of the COMMIT that it
sent for that lap. -/
def Half.baton (h : Half) : Baton :=
  let next := h.get F.PNL_PSEQ_NEXT
  let lap := h.get F.RBK_LAP_LAP
  let range := h.lap.range.getD (lap, next, (next + 2 ^ 32 - 1) % 2 ^ 32)
  let g := h.batonChanges
  let sent := (h.lap.commit.filter fun c => c.1 == range.1 && h.owner).map fun c => c.2.1
  { bseq := h.link.bseq, running := h.mode == modeRunning, alone := h.flag F.SYS_HALF_ALONE, owner := h.owner, joining := h.joining
    jready := h.joining && h.starter.gotReady, ret := h.owner && h.starter.returnLap.isSome, ownPace := h.flag F.PACE_SHED_OWNPACE
    ownMem := h.flag F.PACE_SHED_OWNMEM, lap := lap, shedLap := h.pace.shedLap, scene := h.get F.RBK_SCENE_NEXT
    pending := h.owner && h.flag F.RBK_SCENE_PENDING, current := h.get F.RBK_SCENE_CURRENT, sceneLap := h.get F.RBK_SWITCHLAP_LAP
    first := range.2.1, last := range.2.2, rangeLap := range.1, subMask := sent.getD 0, rangeValid := h.lap.range.isSome
    commitFwd := h.lap.forward && sent.isSome, linkUp := h.panelUp, take := h.takeBits, gLap := g.1
    g0 := g.2.getD 0 noChange, g1 := g.2.getD 1 noChange, retLap := h.starter.returnLap.getD 0 }

/-- R362: a flit may go out. -/
def Half.mayBaton (h : Half) (t : Nat) : Bool :=
  !h.inReset && decide (6 ≤ h.step) && h.stewardBeats t && !h.link.stopped && !h.flag F.LNK_STATUS_FAILED

/-- A baton flit is sent (R362): BSEQ steps, and the flit travels while the peer is out of reset. -/
def Half.batonNow (h : Half) (t : Nat) : Half :=
  if h.mayBaton t then
    let h1 := h.sentChanges.onLink fun (l : LinkSt) => { l with bseq := (l.bseq + 1) % 2 ^ 32, sent := some (t, h.baton) }
    if h.flag F.LNK_STATUS_PEER_RESET then h1 else h1.send (.baton h.baton)
  else h

/-! ## COMMIT (R265, R275) -/

/-- A PSEQ range is not empty. -/
def rangeFull (r : Nat × Nat) : Bool := (r.2 + 1) % 2 ^ 32 != r.1 % 2 ^ 32

/-- The half's own range for the present lap. -/
def Half.ownRange (h : Half) : Option (Nat × Nat) := h.lap.range.bind fun r =>
  if r.1 = h.get F.RBK_LAP_LAP then some (r.2.1, r.2.2) else none

/-- The peer's range for the present lap, as its last baton states. -/
def Half.peerRange (h : Half) : Option (Nat × Nat) := h.link.peer.bind fun b =>
  if b.rangeValid && b.rangeLap == h.get F.RBK_LAP_LAP then some (b.first, b.last) else none

/-- A COMMIT of lap `lap` in two copies on the sub-link (R265). -/
def Half.sendCommit (h : Half) (lap mask : Nat) (ranges : List Nat) : Half :=
  (h.toPanel (commitCell lap 0 mask ranges)).toPanel (commitCell lap 1 mask ranges)

/-- The lap deadline of the present lap (R253): PNL_CUT before the coming boundary. -/
def Half.deadlineAt (h : Half) : Int := h.boundaryAhead 1 - ((h.get F.PNL_CUT_NS : Nat) : Int)

/-- A COMMIT that goes out or is handed over, as the half remembers it (R268). -/
def LapSt.noteCommit (l : LapSt) (c : Nat × Nat × List Nat) : LapSt :=
  { l with commit := some c, commits := (c :: l.commits).take 8, commitOpen := true }

/-- The commit owner sends COMMIT when both ranges are known, or at the deadline with those it has, never after it (R265). -/
def Half.tryCommit (h : Half) (t : Nat) (atDeadline : Bool) : Half :=
  let lap := h.get F.RBK_LAP_LAP
  let own := h.ownRange
  let peer := if h.alone then none else h.peerRange
  let sent := (h.lap.commit.map fun c => c.1 == lap).getD false
  let known := own.isSome && (h.alone || peer.isSome)
  if h.owner && h.lapBegun && !sent && !h.lap.noCommit && !h.modePending && !h.panel.waiting && (known || atDeadline)
      && (atDeadline || !h.lap.late) && decide ((h.lb t : Int) ≤ h.deadlineAt) && h.mayTalk t then
    let full (r : Option (Nat × Nat)) : Option (Nat × Nat) := r.filter rangeFull
    let r0 := full (if h.id = .h0 then own else peer)
    let r1 := full (if h.id = .h0 then peer else own)
    let mask := bit r0.isSome + 2 * bit r1.isSome
    if mask = 0 then h
    else
      let a := r0.getD (0, 0)
      let b := r1.getD (0, 0)
      let ranges := [a.1, a.2, b.1, b.2]
      let h1 := if h.panelUp then h.sendCommit lap mask ranges else h
      h1.onLap fun (l : LapSt) => { l.noteCommit (lap, mask, ranges) with
        forward := !h.panelUp
        aloneLap := if h.alone then some (l.aloneLap.getD lap) else l.aloneLap }
  else h

/-- The half has done its band (R265): its range, empty when it opened no region, goes to the commit owner in a baton flit sent at
once. -/
def Half.bandDone (h : Half) (t : Nat) (atDeadline : Bool) : Half :=
  let p := h.lap.push
  let next := h.get F.PNL_PSEQ_NEXT
  let r := if p.opened then (p.first, p.last) else (next, (next + 2 ^ 32 - 1) % 2 ^ 32)
  let h1 := (h.onPush fun (x : PushSt) => { x with done := true }).onLap fun (l : LapSt) =>
    { l with range := some (h.get F.RBK_LAP_LAP, r.1, r.2) }
  if h1.owner then h1.tryCommit t atDeadline else h1.batonNow t

/-- The push stream advances as far as it can; a band that is done tells its range. -/
def Half.pushAdvance (h : Half) (t : Nat) : Half :=
  if h.mayPush && !h.lap.push.done && h.lap.awaiting.isEmpty then
    let h1 := Half.pushRun h.pushBound t h
    if h1.lap.push.cur.isNone && h1.lap.push.next.isEmpty then h1.bandDone t false else h1
  else h

/-- A region is abandoned (R142, R227). -/
def Half.abandon (h : Half) (t i : Nat) : Half := ((h.again i).tally F.RBK_TALLY_ABANDONED 1).watchRegion t i none []

/-- The pipes drop their runs and return their tags (R142). -/
def Half.dropRuns (h : Half) : Half :=
  (h.onLap fun (l : LapSt) => { l with runs := [], pipes := List.replicate 4 PipeSt.reset }).set F.RBK_TAGS_INUSE 0

/-- The lap deadline (R141, R142, R265). -/
def Half.lapDeadline (h : Half) (t : Nat) : Half :=
  if h.lapBegun && !h.lap.late then
    let p := h.lap.push
    let open_ := match p.cur with
      | some c => [c.region]
      | none => []
    let h0 := open_.foldl (fun (h : Half) i => h.cvuAbort 6 fun _ f => regionTaken i f) h
    let h1 := (open_ ++ p.next).foldl (fun h i => h.abandon t i) h0
    let h2 := (h1.dropRuns.onPush fun (x : PushSt) => { x with cur := none, next := [] }).onLap
      fun (l : LapSt) => { l with late := true, cutAt := some t }
    if p.done then h2.tryCommit t true else h2.bandDone t true
  else if h.lapBegun && busyCrossing h.lap.cutAt t then h.set F.SYS_XOVR_TIME 1
  else h

/-- No report has come in time after A(L), or a COMMIT is pending (R261): this lap pushes nothing. -/
def Half.noReport (h : Half) : Half :=
  if h.lapBegun && h.mode != modeHalfStart && !h.lap.push.allowed && !h.lap.push.barred then
    (h.onPush fun (p : PushSt) => { p with barred := true }).tally F.PNL_TALLY0_NOREPORT 1
  else h

end Sys2Proof.Machine
end

