-- ==== Sys2Proof/Machine/Lap.lean ====
section
/-!
DEFINITION. A lap (R173, R174, R181 to R193): the boundary and its six steps, dirty regions, runs handed to pipes, tile
fetches and composed tiles.
-/
namespace Sys2Proof.Machine

/-! ## Regions of the set in force -/

/-- The rectangle of a region: the union of its runs (R181). -/
def Half.regionRect (h : Half) (i : Nat) : Nat × Nat × Nat × Nat :=
  let rs := (h.regionEntries i).map fun e => h.runWork e .normal
  let x0 := (rs.map fun r => r.tx0).min?.getD 0
  let y0 := (rs.map fun r => r.ty0).min?.getD 0
  let x1 := (rs.map fun r => r.tx0 + r.tw).foldl max 0
  let y1 := (rs.map fun r => r.ty0 + r.th).foldl max 0
  (x0, y0, x1 - x0, y1 - y0)

/-- The regions of a set at its first lap. -/
def Half.freshRegions (h : Half) : List RegionSt := (List.range h.setRegions).map fun i =>
  let r := h.regionRect i
  { tx0 := r.1, ty0 := r.2.1, tw := r.2.2.1, th := r.2.2.2, pushed := none, shown := none, again := false, unapplied := false, fails := 0,
    counted := false }

/-- Bits of CMP_WATCHOWN: the rectangles that this half checks in the set in force (R227). -/
def Half.watchOwn (h : Half) : Nat :=
  ((h.image.map fun im => im.watch).getD []).foldl (fun m w =>
    if h.watchOn w.number && h.watchNow w && h.lap.regions.any fun r => w.within r then setBitNat m w.number true else m) 0

/-- A region of a set as a former record (R241): the content that the panel shows of it. -/
def formerOf (x : Nat × RegionSt) : Option FormerSt := x.2.shown.bind fun p => p.deadline.map fun d =>
  { region := x.1, status := p.status, deadline := d, tiles := rectTiles x.2.tx0 x.2.ty0 x.2.tw x.2.th, counted := x.2.counted }

/-- The last push of a region is not what the panel shows. -/
def RegionSt.inFlight (r : RegionSt) : Bool := match r.pushed with
  | none => false
  | some p => (r.shown.map fun s => (s.lap, s.pseq)) != some (p.lap, p.pseq)

/-- A change of set: new regions, every AGE_REGSTAT word at its reset value, the content that the
panel shows of the set before kept as records, and its pushes under way for the reports to come (R185, R241, AGE_REGSTAT). -/
def Half.enterSet (h : Half) : Half :=
  let regions := h.freshRegions
  let was := (List.range h.lap.regions.length).zip h.lap.regions
  let h1 := h.onLap fun (l : LapSt) => { l with
    regions := regions, old := l.old ++ was.filter fun x => x.2.inFlight, former := l.former ++ was.filterMap formerOf, fresh := true }
  let h2 := h1.forBelow 1024 fun h i => h.setReg (F.AGE_REGSTAT_word i).off (resetWord h.id (F.AGE_REGSTAT_word i).off)
  let own := h2.watchOwn
  h2.sets [(F.RBK_SET_REGIONS, regions.length), (F.CMP_WATCHOWN0_RECTS, own), (F.CMP_WATCHOWN1_RECTS, own / 2 ^ 32),
    (F.PNL_STATUS_HMFAULT, 0)]

/-- SET of RBK_SET from the causes in force and the mode of operation (R186, R193). -/
def Half.setCode (h : Half) (alone : Bool) : Nat := if alone then 2 else if h.flag F.PACE_SHED_ACTIVE then 1 else 0

/-! ## Dirty regions (R185, R239, R264) -/

/-- State and layer alpha of G0 to G7. -/
def Half.gNow (h : Half) : List (Nat × Nat) :=
  (List.range 8).map fun g => (h.get (F.CMP_GLAYER_STATE g), h.get (F.CMP_GLAYER_ALPHA g))

/-- The graphic layers that a list names. -/
def graphicLayers (l : List Contrib) : List Nat :=
  ((l.filter fun c => c.what == 0 && decide (8 ≤ c.layer)).map fun c => c.layer - 8).dedup

/-- The runs of a region with the variants chosen for this lap. -/
def Half.regionRuns (h : Half) (i : Nat) : List RunWork :=
  (h.regionEntries i).map fun e => h.runWork e (h.runVariant e (h.get F.RBK_SET_SET == 1))

/-- A video layer of the region has a latched frame other than the one last pushed (R185). -/
def newFrame (now was : List (Nat × Nat × Int)) : Bool := now.any fun x => !was.contains x

/-- The region is dirty at this lap (R185). -/
def Half.dirty (h : Half) (i : Nat) (r : RegionSt) : Bool :=
  let runs := h.regionRuns i
  h.lap.fresh || h.lap.reqAll || r.again || r.unapplied || h.deadlinePasses r || (match r.pushed with
    | none => true
    | some p => (runs.map fun x => x.variant) != p.variants || newFrame (h.listFrames runs) p.frames)
    || (runs.flatMap fun x => graphicLayers x.list).any fun g => h.gNow[g]? != h.lap.gPrev[g]?

/-- Under a hold of 2 a region with video waits for a lap of its parity (R264). -/
def Half.waitsParity (h : Half) (i : Nat) : Bool :=
  h.flag F.AGE_STATE_HOLD && (h.regionEntries i).any h.runVideo && (h.get F.RBK_LAP_LAP + i) % 2 == 1

/-- Counts of executed variants: normal, late, stale forms, reduced live. -/
def variantCounts (runs : List RunWork) : List Nat :=
  let n (f : Variant → Bool) : Nat := (runs.filter fun r => f r.variant).length
  [n fun v => v == .normal, n fun v => v == .late, n fun v => v == .stale || v == .rstale, n fun v => v == .rlive]

/-! ## Palettes (R212) -/

/-- Bytes of the device address space, from the frame store or the shared SRAM of a half. -/
def Module.memBytes (m : Module) (a n : Nat) : List Byte := match decodeAddr a with
  | .store h off => memRead (m.half h).fst off n
  | .sram h off => memRead (m.half h).sram off n
  | _ => List.replicate n 0

/-- The half and the address of an uncorrectable error that an access of `n` bytes at a device address would meet, as a read or as a
write that must first read the 8-byte words it does not replace whole (R169). -/
def Module.memError (m : Module) (a n : Nat) (write : Bool) : Option (HalfId × Nat) := match decodeAddr a with
  | .store h off => ((if write then (m.half h).errorUnder off n else (m.half h).errorIn off n)).map fun b => (h, b)
  | _ => none

/-- An access meets such an error (R169). -/
def Module.meetsError (m : Module) (t : Nat) (e : HalfId × Nat) : Module := m.onHalf e.1 fun x => x.uncorrectable t e.2

/-- A read by the composition of the half (master 12) of `n` bytes in word accesses: none where it is refused. -/
def Module.composeRead (m : Module) (t a n : Nat) : Module × Option (List Byte) :=
  let issuer := (decodeAddr a).half?.getD .h0
  match m.checkAccess issuer a (.words (n / 4)) mFetch .read with
  | none => match m.memError a n false with
    | some e => (m.meetsError t e, none)
    | none => (m, some (m.memBytes a n))
  | some d => (m.onHalf issuer fun h => h.refuse t a d mFetch .read, none)

/-- The palette of a graphic layer is read (R212); a refused read gives no entries, nor does one of the other half across a link that
is not up (R12). -/
def Module.readPalette (m : Module) (t : Nat) (h : HalfId) (g : Nat) : Module :=
  let x := m.half h
  let im := (x.scene.map fun s => s.layer (8 + g)).bind fun l => x.layerImage l g
  match im with
  | none => m
  | some im =>
    if im.format = 0 then m
    else match x.image.bind fun i => i.palettes.find? fun p => p.number == im.palette && p.half == im.half with
      | none => m
      | some p =>
        let far := (decodeAddr p.addr).half? == some h.peer && !linkOk x (m.half h.peer)
        let r := if far then (m, none) else m.composeRead t p.addr (8 * p.entries)
        r.1.onHalf h fun y => y.onLap fun (l : LapSt) => { l with
          palettes := l.palettes.filter (fun q => q.1 != g) ++ [(g, r.2.getD [])] }

/-- Steps 5 and 6 of R174: dirty regions, their palettes, and the runs to be handed to pipes. -/
def Module.lapGo (m : Module) (t : Nat) (h : HalfId) : Module :=
  let x := m.half h
  let idx := (List.range x.lap.regions.length).zip x.lap.regions
  let dirty := (idx.filter fun p => x.dirty p.1 p.2).map fun p => p.1
  let waits := dirty.filter x.waitsParity
  let go := dirty.filter fun i => !x.waitsParity i
  let runs := go.flatMap x.regionRuns
  let layers := (runs.flatMap fun r => graphicLayers r.list).dedup
  let m1 := layers.foldl (fun m g => m.readPalette t h g) m
  m1.onHalf h fun y =>
    let y1 := waits.foldl Half.again y
    let y2 := y1.onLap fun (l : LapSt) => { l with
      chosen := runs, runs := runs, counts := variantCounts runs, dirty := dirty.length, fresh := false, reqAll := false
      gPrev := y1.gNow
      push := { l.push with next := go } }
    y2.pushAdvance t

/-! ## The boundary (R173, R174) -/

/-- Counters of the lap that ends (RBK_LAPWORK, RBK_VARIANTS, RBK_FETCHLOC, RBK_FETCHX, LNK_LOAD). -/
def Half.publishLap (h : Half) : Half :=
  let l := h.lap
  let c (i : Nat) : Nat := min 65535 (l.counts.getD i 0)
  let p := max 1 (h.get F.AGE_PERIOD_NS)
  let rate (n : Nat) : Nat := min 255 (8 * n / p)
  let h1 := h.sets [(F.RBK_LAPWORK_REGIONS, min 65535 l.dirty), (F.RBK_LAPWORK_RUNS, min 65535 l.chosen.length),
    (F.RBK_VARIANTS0_NORMAL, c 0), (F.RBK_VARIANTS0_LATE, c 1), (F.RBK_VARIANTS1_STALE, c 2), (F.RBK_VARIANTS1_REDUCED, c 3),
    (F.RBK_FETCHLOC_TILES, l.fetchLoc), (F.RBK_FETCHX_TILES, l.fetchX), (F.LNK_LOAD_FETCH, rate h.link.fetchBytes),
    (F.LNK_LOAD_HOST, rate h.link.hostBytes),
    (F.LNK_LOAD_PEAK_FETCH, max (h.get F.LNK_LOAD_PEAK_FETCH) (rate h.link.fetchBytes))]
  { h1 with link := { h1.link with fetchBytes := 0, hostBytes := 0 } }

/-- The number of the lap that begins at local base `lb` (R173): lap 0 at step 11, one more at each later boundary; a half that
starts while its peer runs takes it from the baton, counted on by whole periods. None where no lap can begin. -/
def Half.lapNumber (h : Half) (lb : Nat) : Option Nat :=
  if h.lapBegun then some ((h.get F.RBK_LAP_LAP + 1) % 2 ^ 32)
  else if h.mode = modeStart ∧ 10 ≤ h.step then some 0
  else if h.mode = modeHalfStart ∧ h.panel.ready then
    match h.link.peer, h.link.lastAt with
    | some b, some a => some ((b.lap + ceilDiv (lb - h.lb a) (max 1 (h.get F.AGE_PERIOD_NS))) % 2 ^ 32)
    | _, _ => none
  else none

/-- The boundary follows the last one by less than the round trip of its crossing (R134, R135). -/
def Half.overruns (h : Half) (lb : Nat) : Bool := h.lapBegun && busyCrossing (h.lap.bounds.head?.map fun b => b.2) lb

/-- A half that runs alone from this lap: TWIN on its engines with source 15, commit ownership (R19, R193, R361). -/
def Half.goAlone (h : Half) : Half :=
  let h1 := if h.owner then h
    else (h.dropPending.set F.SYS_HALF_COMMIT_OWNER 1).onLap fun (l : LapSt) => { l with noCommit := true }
  let h2 := ((h1.set F.SYS_HALF_ALONE 1).set F.RBK_SET_SET 2).onLap fun (l : LapSt) => { l with fresh := true }
  let h3 : Half := { h2 with link := { h2.link with lost := false }, starter := { h2.starter with returnLap := none } }
  [1, 2, 3].foldl (fun h n => (h.set (F.ENG_STATE_TWIN n) 1).roleChange n n) h3

/-- The return lap (R19, R61): two bands, half 0 is commit owner, and a half start ends in RUNNING. What half 1 has named stays
named: both halves hold it, and half 1 completes it at its lap. -/
def Half.goTwo (h : Half) : Half :=
  let owner := h.id == .h0
  let moved := owner != h.owner
  let h1 := h.sets [(F.SYS_HALF_ALONE, 0), (F.SYS_HALF_COMMIT_OWNER, bit owner)]
  let h2 := h1.onLap fun (l : LapSt) => { l with noCommit := moved || h.mode == modeHalfStart && owner, fresh := true }
  let h3 : Half := { h2 with starter := { h2.starter with returnLap := none } }
  let h4 := [1, 2, 3].foldl (fun h n =>
    let tw := bitAt ((h.link.peer.map fun b => b.take).getD 0) n
    if h.flag (F.ENG_STATE_TWIN n) && !tw then (h.set (F.ENG_STATE_TWIN n) 0).roleChange n n else h) h3
  if h4.mode = modeHalfStart then (h4.set F.RST_STATE_MODE modeRunning).set F.RST_STATE_STEP 12 else h4

/-- The commit owner that runs alone names the return lap (R61). -/
def Half.nameReturn (h : Half) (lap : Nat) : Half :=
  let asks := (h.link.peer.map fun b => b.joining && b.jready).getD false
  if h.owner && h.alone && asks && h.starter.returnLap.isNone && h.mode == modeRunning then
    { h with starter := { h.starter with returnLap := some ((lap + 2) % 2 ^ 32) } }
  else h

/-- A mode change reaches its switch lap (R273): pushing and committing stop. One whose lap comes while another is under way begins at
the first boundary after that one (log entry 128). -/
def Half.startModeChange (h : Half) (lap : Nat) : Half := match h.panel.dueModes.find? fun d => !newer 32 d.1 lap with
  | none => h
  | some d =>
    if h.modePending then h
    else
      let former := h.get F.PNL_MODE_MODE
      let began := (h.lap.bounds.head?.map fun b => b.2).getD 0
      let h1 := h.onPanel fun (p : PanelSt) => { p with
        dueModes := p.dueModes.erase d, change := some ⟨d.2, former, d.1, began, none, false⟩ }
      h1.signalling irqPanel F.PNL_STATUS_word.off fun h => h.set F.PNL_STATUS_STATE 6

/-- The half composes: two bands or alone, not while it joins (R260). -/
def Half.composes (h : Half) : Bool := h.lapBegun && h.mode != modeHalfStart

/-- The push stream of the lap that begins (R261): it may push at once where the report of the blanking is already here. -/
def Half.newPush (h : Half) (lap : Nat) : Half :=
  let here := (h.lap.blank.map fun b => b.2 == (lap + 2 ^ 32 - 1) % 2 ^ 32).getD false
  let pend := h.flag F.PNL_STATUS_PENDING
  let barred := h.modePending || h.panel.waiting || (here && pend)
  let h1 := h.onPush fun _ => { PushSt.reset with allowed := here && !pend, barred := barred }
  if here && pend then h1.tally F.PNL_TALLY0_NOREPORT 1 else h1

/-- At the first boundary of a half the blanking reported last is counted from it in whole periods (R234, R253). -/
def Half.alignBlank (h : Half) (lap stamp : Nat) : Half := match h.lap.blank with
  | none => h
  | some b =>
    let p : Int := max 1 (h.get F.AGE_PERIOD_NS)
    let ahead := (b.1 - (stamp : Int) + p / 2) / p
    h.onLap fun (l : LapSt) => { l with blank := some (b.1, unsigned 32 ((lap : Int) - 1 + ahead)) }

/-- PNL_STATUS.STATE shows RUNNING from the first lap that the half composes. -/
def Half.panelRuns (h : Half) : Half :=
  if h.composes && (h.get F.PNL_STATUS_STATE == 4 || h.get F.PNL_STATUS_STATE == 7) then
    h.signalling irqPanel F.PNL_STATUS_word.off fun h => h.set F.PNL_STATUS_STATE 5
  else h

/-- Steps 1 to 3 of R174 at the boundary of lap `lap`. -/
def Half.boundarySwitch (h : Half) (lap : Nat) (peerReset : Bool) : Half :=
  let first := !h.lapBegun
  let h1 := h.latchSources lap
  let h2 := if first then (if h1.mode = modeHalfStart then h1 else h1.enterScene ((h1.image.map fun i => i.default).getD 0)) else h1
  let h3 := { h2 with lapBegun := true }
  let ret := h3.starter.returnLap == some lap
  let h4 := if ret && !h3.link.lost then h3.goTwo
    else if (h3.link.lost || (first && peerReset && h3.mode != modeHalfStart)) && !h3.alone then h3.goAlone else h3
  let sc := h4.switchScene lap
  let alone := sc.1.flag F.SYS_HALF_ALONE
  let h5 := sc.1.shedLap lap alone
  let was := h.get F.RBK_SET_SET
  let code := if h5.composes then h5.setCode alone else 3
  let h6 := h5.set F.RBK_SET_SET code
  let h7 := if code ≠ 3 ∧ (sc.2 || first || ret || (was == 3) || ((was == 2) != (code == 2))) then h6.enterSet
    else if code ≠ was then h6.onLap fun (l : LapSt) => { l with fresh := true } else h6
  (h7.startModeChange lap).switchGraphics lap

/-- The commit owner receives a scheduled change that its peer has accepted (R190). -/
def Half.takeAct (lb : Nat) (h : Half) (a : Action) : Half :=
  let n := h.acts.order
  let h1 := h.addAction a
  if h1.lapBegun && h1.owner then h1.judgeAll lb 0 fun x => x.order == n else h1

/-- A half that is no longer commit owner forwards across the half link what it has not decided, and the graphic changes that its
batons have not carried (R188; log entry 127). -/
def Module.handOver (m : Module) (lb : Nat) (h : HalfId) : Module :=
  let x := m.half h
  let p := m.half h.peer
  if x.owner || !linkOk x p then m
  else
    let given := x.acts.toSend.foldl (fun (y : Half) g => y.onActs fun a => a.nameGraphic g.lap g.g) p
    let held := x.acts.acts.filter fun a => a.lap.isNone
    (m.setHalf h.peer (held.foldl (Half.takeAct lb) given)).onHalf h fun y =>
      y.onActs fun (a : ActSt) => { a with acts := a.acts.filter fun b => b.lap.isSome, toSend := [] }

/-- REQALL of the panel makes every region dirty at this boundary (R271). -/
def Half.takeReqAll (h : Half) : Half := if h.lap.reqAll then h.tally F.PNL_TALLY1_REQALL 1 else h

/-- A lap boundary of the half at local base `stamp` (R173, R174). The completions of changes for this lap come with it. -/
def Module.lapBoundary (m : Module) (t : Nat) (h : HalfId) (stamp : Nat) : Module × List Finish :=
  let x := m.half h
  if x.inReset then (m, [])
  else if x.overruns stamp then
    (m.onHalf h fun x => (x.set F.SYS_XOVR_TIME 1).fault t clsPace 2 0 (x.wordBytes F.PACE_HALF_word.off), [])
  else match x.lapNumber stamp with
  | none => (m, [])
  | some lap =>
    let first := !x.lapBegun
    let p := m.half h.peer
    let x1 := (x.lapDeadline t).publishLap
    let x2 := (x1.set F.RBK_LAP_LAP lap).onLap fun (l : LapSt) => { l with
      bounds := ((lap, stamp) :: l.bounds).take 8, late := false, noCommit := false, forward := false, chosen := [], runs := []
      fetchLoc := 0, fetchX := 0, counts := [0, 0, 0, 0], dirty := 0 }
    let xa := if first then x2.alignBlank lap stamp else x2
    let x3 := ((xa.boundarySwitch lap p.inReset).nameReturn lap).panelRuns.raise irqLap
    if x3.composes then
      let gone := p.inReset || x3.flag F.LNK_STATUS_FAILED || p.flag F.LNK_STATUS_FAILED || x3.alone
      let x4 := (x3.newPush lap).takeReqAll.verdicts stamp lap gone
      let x5 := x4.set F.PNL_CUT_NS x4.cutNs
      let x6 := if first then x5.judgeAll stamp 1 fun a => a.early else x5
      let x7 := x6.judgeAll stamp 0 fun _ => true
      let fin := x7.completeLap stamp lap
      let m1 := (m.setHalf h fin.1).handOver stamp h
      (if fin.1.lap.awaiting.isEmpty then m1.lapGo t h else m1, fin.2)
    else (m.setHalf h x3, [])

/-- A latch record is received, or its 20 µs have passed: the lap goes on once no layer waits (R236). -/
def Module.afterLatch (m : Module) (t : Nat) (h : HalfId) (f : Half → Half) : Module :=
  let x := m.half h
  let waited := !x.lap.awaiting.isEmpty
  let m1 := m.onHalf h f
  if waited && (m1.half h).lap.awaiting.isEmpty then m1.lapGo t h else m1

/-- The record of a layer has not come in time (R236). -/
def Half.latchTimeout (h : Half) (layer : Nat) : Half := if h.lap.awaiting.contains layer then h.missRecord layer else h

/-! ## Pipes and fetches (R140, R141, R187) -/

/-- A pipe of the half. -/
def Half.pipe (h : Half) (k : Nat) : PipeSt := h.lap.pipes.getD k PipeSt.reset

/-- The half with a pipe changed. -/
def Half.onPipe (h : Half) (k : Nat) (f : PipeSt → PipeSt) : Half :=
  h.onLap fun (l : LapSt) => { l with pipes := l.pipes.modify k f }

/-- Tags held by the half. -/
def Half.tags (h : Half) : List Nat := h.lap.pipes.flatMap fun p => p.issued.map fun f => f.tag

/-- Where tile (tx, ty) of a contribution's fetch window lies (R178, R209, R218). -/
def Half.fetchSource (h : Half) (c : Contrib) (tx ty : Nat) : Option FetchSrc :=
  match c.what with
  | 0 =>
    let l := (h.scene.map fun s => s.layer c.layer).getD LayerRec.none
    if c.layer < 8 then
      (h.image.bind fun i => i.source l.source).bind fun r =>
        if tx < r.cols ∧ ty < r.rows then some (.frame (halfOf r.half) r.ident (ty * r.cols + tx)) else none
    else
      (h.layerImage l (c.layer - 8)).bind fun g =>
        if tx < g.tw ∧ ty < g.th then
          some (.asset (g.addr + (match g.format with
            | 0 => 1024
            | 1 => 256
            | _ => 128) * (ty * g.tw + tx)))
        else none
  | w => some (.pattern (patternGranule w tx ty))

/-- Bytes of a fetched tile. -/
def Half.fetchLen (h : Half) (c : Contrib) : Nat :=
  if c.what = 0 ∧ 8 ≤ c.layer then
    match (h.scene.map fun s => s.layer c.layer).bind fun l => h.layerImage l (c.layer - 8) with
    | some g => if g.format = 0 then 1024 else if g.format = 1 then 256 else 128
    | none => c.len
  else c.len

/-- The tiles of a run in list order and, within a contribution, in raster order (R187). A tile outside its source or image has
no place and stays not ready. -/
def Half.fetchPlans (h : Half) (r : RunWork) : List FetchPlan :=
  ((List.range r.list.length).zip r.list).flatMap fun c =>
    (rectTiles c.2.ftx0 c.2.fty0 c.2.ftw c.2.fth).filterMap fun p =>
      (h.fetchSource c.2 p.1 p.2).map fun s => ⟨c.1, p.1, p.2, h.fetchLen c.2, s⟩

/-- The half that a fetch reads. -/
def FetchSrc.owner (s : FetchSrc) (h : HalfId) : HalfId := match s with
  | .frame o _ _ => o
  | .asset a => (decodeAddr a).half?.getD h
  | .pattern _ => h

/-- The smallest tag that is free, if any is (R140). -/
def Half.freeTag (h : Half) : Option Nat := (List.range 512).find? fun g => !h.tags.contains g

/-- The next fetch of a pipe takes a free tag, if it has one to issue and a tag is free (R140). -/
def Half.issueOne (h : Half) (k : Nat) : Option Half := match (h.pipe k).todo, h.freeTag with
  | p :: rest, some g =>
    let x : FetchSt := { tag := g, plan := p, lap := h.get F.RBK_LAP_LAP, got := none }
    let h1 := h.onPipe k fun (y : PipeSt) => { y with todo := rest, issued := y.issued ++ [x] }
    let used := h1.tags.length
    some ((h1.set F.RBK_TAGS_INUSE used).set F.RBK_TAGS_PEAK (max used (h1.get F.RBK_TAGS_PEAK)))
  | _, _ => none

/-- Up to `n` fetches of a pipe are issued while tags are free (R140). -/
def Half.issue (k : Nat) : Nat → Half → Half
  | 0, h => h
  | n + 1, h => match h.issueOne k with
    | some x => Half.issue k n x
    | none => h

/-- Tags that are free go to the fetches of every pipe that waits at its issue point (R140, R187). -/
def Half.issueAll (h : Half) : Half := (List.range 4).foldl (fun h k => Half.issue k 512 h) h

/-- A pipe is free and takes the next run (R141); no run starts after the lap deadline. -/
def Half.pipeFree (h : Half) (k : Nat) : Half :=
  if k < 4 ∧ (h.pipe k).run = none ∧ h.lap.late = false then
    match h.lap.runs with
    | [] => h
    | r :: rest =>
      let plans := h.fetchPlans r
      let h1 := (h.onLap fun (l : LapSt) => { l with runs := rest }).onPipe k fun _ =>
        { run := some r, todo := plans, issued := [], got := [] }
      h1.issueAll
  else h

/-- Tiles that have completed, with all before them, are consumed; their tags return (R140). -/
def consume : List FetchSt → List GotTile → List FetchSt × List GotTile
  | [], g => ([], g)
  | f :: rest, g => match f.got with
    | none => (f :: rest, g)
    | some b => consume rest (g ++ [⟨f.plan.con, f.plan.tx, f.plan.ty, b⟩])

/-- A pipe has consumed every tile of its run. -/
def PipeSt.consumed (p : PipeSt) : Bool := p.todo.isEmpty && p.issued.isEmpty

/-- The output tiles of a run still to come. -/
def Half.runOpen (h : Half) (r : RunWork) : Bool :=
  (rectTiles r.tx0 r.ty0 r.tw r.th).any fun p => !h.lap.push.tiles.any fun o => o.tx == p.1 && o.ty == p.2

/-- A run whose tiles are all consumed and all composed leaves its pipe. -/
def Half.pipeLeaves (h : Half) (k : Nat) : Half :=
  let p := h.pipe k
  if p.consumed && (p.run.map fun r => !h.runOpen r).getD false then h.onPipe k fun _ => PipeSt.reset else h

/-- A fetch completes with its bytes, or as not ready. -/
def Half.completeFetch (h : Half) (k tag : Nat) (bytes : Option (List Byte)) : Half :=
  let h1 := if bytes.isNone then h.tally F.RBK_NOTREADY_COUNT 1 else h
  let h2 := h1.onPipe k fun (y : PipeSt) =>
    let marked := y.issued.map fun (f : FetchSt) => if f.tag = tag then { f with got := some bytes } else f
    let r := consume marked y.got
    { y with issued := r.1, got := r.2 }
  ((h2.set F.RBK_TAGS_INUSE h2.tags.length).issueAll).pipeLeaves k

/-- The peer enters reset (R138): the fetches under way across the half link are discarded, counted, and complete as not ready
(R140). -/
def Half.dropCross (h : Half) : Half :=
  let fs := (List.range 4).flatMap fun p =>
    ((h.pipe p).issued.filter fun f => f.got.isNone && f.plan.src.owner h.id != h.id).map fun f => (p, f.tag)
  (fs.foldl (fun (x : Half) f => x.completeFetch f.1 f.2 none) h).tally F.SYS_XDISC_COUNT fs.length

/-- The device address and size of a fetch, where it names memory that the half can reach. -/
def Module.fetchPlace (m : Module) (h : HalfId) (f : FetchSt) : Option (Nat × AccessSize) := match f.plan.src with
  | .frame o ident tile =>
    let x := m.half o
    (x.heldWindow ident).bind fun i => (x.source i).bind fun s => (s.latched f.lap).map fun l =>
      (storeAddr o (s.rcd.granule l.1 tile), .tile)
  | .asset a => some (a, if f.plan.len = 1024 then .tile else .words (f.plan.len / 4))
  | .pattern g => some (storeAddr h (0x7F000000 + 1024 * g), .tile)

/-- The source identity of a fetch of a frame. -/
def FetchSrc.ident : FetchSrc → Option Nat
  | .frame _ n _ => some n
  | .asset _ => none
  | .pattern _ => none

/-- A fetch reads its bytes under the access rules (R161, R169, R218, R339): the module, and the bytes when ready. `corr`: errors
corrected in it; `bad`: the address of an uncorrectable one that it meets for the first time. -/
def Module.fetchRead (m : Module) (t : Nat) (h : HalfId) (f : FetchSt) (corr : Nat) (bad : Option Nat) : Module × Option (List Byte) :=
  let o := f.plan.src.owner h
  if o ≠ h ∧ linkOk (m.half h) (m.half o) = false then (m, none)
  else match m.fetchPlace h f with
  | none => (m, none)
  | some (a, z) => match m.checkAccess o a z mFetch .read with
    | some d => (m.onHalf o fun x => x.refuse t a d mFetch .read, none)
    | none => match bad.or ((m.memError a f.plan.len false).map fun e => e.2) with
      | some b =>
        let ident := f.plan.src.ident
        (m.onHalf o fun x => (x.uncorrectable t b).cvuAbort 5 fun _ g => identTaken ident g, none)
      | none =>
        let bytes := m.memBytes a f.plan.len
        let m := m.onHalf o fun x => (if corr = 0 then x else x.tally F.FST_ECC_CORR corr).cvuTake 5
          (fun _ g => identTaken f.plan.src.ident g) (some (if f.plan.len = 1024 then bytes.take 960 else bytes)) 0
        match f.plan.src with
        | .pattern g =>
          if crcOf bytes = crcOf (patternTile g) then (m, some bytes)
          else (m.onHalf h fun x => (x.tally F.CMP_PATCHK_FAIL 1).fault t clsMem 4 (x.channelOf (0x7F000000 + 1024 * g))
            (x.memDetail (0x7F000000 + 1024 * g)), none)
        | _ => (m, some bytes)

/-- The fetch with tag `tag` completes (R140, R187). -/
def Module.fetchComplete (m : Module) (t : Nat) (h : HalfId) (tag corr : Nat) (bad : Option Nat) : Module :=
  let x := m.half h
  match (List.range 4).find? fun k => (x.pipe k).issued.any fun f => f.tag == tag && f.got.isNone with
  | none => m
  | some k => match (x.pipe k).issued.find? fun f => f.tag == tag with
    | none => m
    | some f =>
      let r := m.fetchRead t h f corr bad
      let cross := f.plan.src.owner h != h
      let m1 := r.1.onHalf h fun y => (y.onLap fun (l : LapSt) => { l with
        fetchLoc := l.fetchLoc + bit (!cross), fetchX := l.fetchX + bit cross }).completeFetch k tag r.2
      if cross then m1.onHalf h.peer fun y => { y with link := { y.link with fetchBytes := y.link.fetchBytes + f.plan.len } } else m1

/-- The fetches in flight of half `k` that read channel `c` of half `o`: pipe and tag. -/
def Module.flightOn (m : Module) (k o : HalfId) (c : Nat) : List (Nat × Nat) :=
  (List.range 4).flatMap fun p => (((m.half k).pipe p).issued.filter fun f => f.got.isNone && f.plan.src.owner k == o &&
    ((m.fetchPlace k f).map fun a => (m.half o).channelOf (a.1 % 0x80000000)) == some c).map fun f => (p, f.tag)

/-- A channel's PHY island is reset (R138): the memory bursts in flight on it are discarded and counted, and their tags complete as not
ready (R140). -/
def Module.dropFlights (m : Module) (o : HalfId) (c : Nat) : Module :=
  [HalfId.h0, HalfId.h1].foldl (fun (m : Module) k =>
    let fs := m.flightOn k o c
    let m1 := m.onHalf k fun x => fs.foldl (fun x f => x.completeFetch f.1 f.2 none) x
    let idents := ((List.range 4).flatMap fun p => ((m.half k).pipe p).issued).filterMap fun f =>
      if fs.any fun y => y.2 == f.tag then some f.plan.src.ident else none
    if fs = [] then m1 else m1.onHalf o fun x =>
      idents.foldl (fun x i => x.cvuAbort 5 fun _ g => identTaken i g) (x.tally F.SYS_XDISC_COUNT fs.length)) m

/-- Output tile (tx, ty) lies in a run. -/
def RunWork.covers (r : RunWork) (tx ty : Nat) : Bool :=
  decide (r.tx0 ≤ tx) && decide (tx < r.tx0 + r.tw) && decide (r.ty0 ≤ ty) && decide (ty < r.ty0 + r.th)

/-- A tile whose bytes have still to be consumed, as though they were here. -/
def FetchPlan.due (f : FetchPlan) : GotTile := ⟨f.con, f.tx, f.ty, some []⟩

/-- The tiles that a pipe has still to consume, as though they were here. -/
def PipeSt.due (p : PipeSt) : List GotTile := (p.issued.map fun f => f.plan.due) ++ p.todo.map FetchPlan.due

/-- Output tile (tx, ty) of a run is still being composed (R222): a tile that it needs has not been consumed, and none that it
needs has completed as not ready. -/
def Half.composing (h : Half) (s : Scene) (p : PipeSt) (r : RunWork) (tx ty : Nat) : Bool :=
  (h.composeTile s p.got r tx ty).isNone && (h.composeTile s (p.got ++ p.due) r tx ty).isSome

/-- Output tile (tx, ty) is composed, or is not ready (R179, R222): it joins the push stream. A tile still being composed waits. -/
def Half.tileReady (h : Half) (t tx ty : Nat) : Half :=
  match (List.range 4).find? fun k => ((h.pipe k).run.map fun r => r.covers tx ty).getD false with
  | none => h
  | some k => match (h.pipe k).run, h.scene with
    | some r, some s =>
      if (h.lap.push.tiles.any fun o => o.tx == tx && o.ty == ty) || h.composing s (h.pipe k) r tx ty then h
      else
        let px := h.composeTile s (h.pipe k).got r tx ty
        let h1 := h.onPush fun (p : PushSt) => { p with tiles := p.tiles ++ [⟨tx, ty, px⟩] }
        (h1.pipeLeaves k).pushAdvance t
    | _, _ => h

end Sys2Proof.Machine
end

