-- ==== Sys2Proof/Machine/Panel.lean ====
section
/-!
DEFINITION. The panel sub-link (R245 to R276): initialisation, status cells, echoes, keepalives, blanking reports with the
application of regions, timing-mode changes and the loss of a sub-link.
-/
namespace Sys2Proof.Machine

/-- Changes PNL_STATUS; a change raises source 6 and its event (R356, R383). -/
def Half.onPnlStatus (h : Half) (f : Half → Half) : Half := h.signalling irqPanel F.PNL_STATUS_word.off f

/-- A condition of R274 holds. -/
def Half.unhealthy (h : Half) (t : Nat) : Bool :=
  !h.panelUp || h.flag F.PNL_STATUS_HMFAULT || h.flag F.PNL_STATUS_SHUTTER || h.flag F.PNL_STATUS_PFAULT
    || (match h.panel.reportAt with
      | some r => decide (r + 4 * h.get F.AGE_PERIOD_NS < h.lb t)
      | none => true)
    || ((h.panel.change.map fun c => decide (c.began + 500 * msNs < h.lb t)).getD false)

/-- LANESUP and UNHEALTHY follow (R274). -/
def Half.panelHealth (h : Half) (t : Nat) : Half :=
  h.onPnlStatus fun h =>
    (h.set F.PNL_STATUS_LANESUP ((h.panelLink.map fun l => (h.upLanes l).length).getD 0)).setFlag F.PNL_STATUS_UNHEALTHY (h.unhealthy t)

/-- STATE of PNL_STATUS. -/
def Half.panelState (h : Half) (s : Nat) : Half := h.onPnlStatus fun h => h.set F.PNL_STATUS_STATE s

/-- The flags of a status cell (R249, R271). -/
def Half.statusFlags (h : Half) (t : Nat) (f : PanelFlags) : Half :=
  let rises := f.shutter && !h.flag F.PNL_STATUS_SHUTTER
  let h1 := h.onPnlStatus fun h => h.sets [(F.PNL_STATUS_REQALL, bit f.reqAll), (F.PNL_STATUS_SHUTTER, bit f.shutter),
    (F.PNL_STATUS_PFAULT, bit f.pfault)]
  let h2 := if rises then h1.tally F.PNL_TALLY1_SHUTTERS 1 else h1
  let h3 := (h2.onPanel fun (p : PanelSt) => { p with reported := some f.mode }).onLap
    fun (l : LapSt) => { l with reqAll := l.reqAll || f.reqAll }
  h3.panelHealth t

/-! ## Modes (R250) -/

/-- A mode record meets R250 on a panel of `height` tiles. -/
def modeValid (r : ModeRecord) (height : Nat) : Bool :=
  decide (r.mode ≤ 255) && decide (r.cutLines ≤ 255) && decide (2400 ≤ r.refresh) && decide (r.refresh ≤ 14400)
    && decide (r.period * r.refresh * 1000 ≤ 1005 * 100000000000) && decide (995 * 100000000000 ≤ r.period * r.refresh * 1000)
    && decide (1 ≤ r.scanOut) && decide (r.scanOut ≤ 4 * r.period) && decide (r.vActive + 1 ≤ r.vTotal)
    && decide (r.vActive = 16 * height) && decide (r.rptLat ≤ 200000) && decide (r.reserved = 0)

/-- The registers of the mode in force (PNL_MODE, AGE_SCANOUT, AGE_PERIOD, AGE_FLIPDECL). -/
def Half.takeMode (h : Half) (r : ModeRecord) : Half := h.sets
  [(F.PNL_MODE_REFRESH, r.refresh), (F.PNL_MODE_CUTLINES, if r.cutLines = 0 then 8 else r.cutLines), (F.PNL_MODE_MODE, r.mode),
   (F.AGE_SCANOUT_NS, r.scanOut), (F.AGE_PERIOD_NS, r.period), (F.AGE_FLIPDECL_FLIPERR, r.flipErr), (F.AGE_FLIPDECL_FLIPPPM, r.flipPpm)]

/-! ## Keepalives (R252, R269) -/

/-- TOKENs of the last KEEPALIVE and of those that wait for their KAECHO. -/
def PanelSt.tokensUsed (p : PanelSt) : List Nat := p.lastTok.toList ++ p.tokens.map fun x => x.1

/-- A free value as a new TOKEN: the first from it on that neither the last KEEPALIVE nor one without its KAECHO carries. -/
def Half.newToken (h : Half) : Nat :=
  let raw := Config.freeToken h.id.num h.free % 65536
  (((List.range 66).map fun k => (raw + k) % 65536).find? fun x => !h.panel.tokensUsed.contains x).getD raw

/-- A KEEPALIVE with a new TOKEN. Its stamp is taken when its cell is sent (R309). -/
def Half.keepalive (h : Half) (t : Nat) : Half :=
  let tok := h.newToken
  let h1 : Half := { h with free := h.free + 1 }
  (h1.toPanel (controlCell 0 tok 0 [])).onPanel fun (p : PanelSt) => { p with
    tokens := (tok, none) :: p.tokens.take 63, lastTok := some tok, keepAt := t }

/-- The transmit mark of a KEEPALIVE (R252, R309). -/
def Half.keepaliveSent (h : Half) (token lb : Nat) : Half := h.onPanel fun (p : PanelSt) => { p with
  tokens := p.tokens.map fun x => if x.1 = token then (token, some lb) else x }

/-- KAPERIOD has passed since the last KEEPALIVE (R269). -/
def Half.keepaliveSend (h : Half) (t : Nat) : Half :=
  if h.panel.setup && h.panelUp && h.mayTalk t then h.keepalive t else h

/-! ## Initialisation (R257 to R260) -/

/-- The mode that a SETUP chooses (R258): with JOIN the mode in force. -/
def Half.chosenMode (h : Half) (join : Bool) : Option ModeRecord :=
  if join then h.panel.reported.bind fun n => h.panel.modes.find? fun m => m.mode == n
  else match h.image with
    | none => none
    | some im =>
      let ok (n : Nat) : Option ModeRecord := (h.panel.modes.find? fun m => m.mode == n).filter fun m => decide (m.refresh ≤ im.man.maxRefresh)
      im.panel.prefer.findSome? ok

/-- IDENT agrees with the manifest. -/
def Half.identFits (h : Half) : Bool := match h.image, h.panel.ident with
  | some im, some i => i.width == im.man.width && i.height == im.man.height
  | _, _ => false

/-- The band of the half in tile columns: first and width (R172). -/
def Half.band (h : Half) : Nat × Nat := match h.image with
  | none => (0, 0)
  | some im => if h.id = .h0 then (0, im.man.boundary) else (im.man.boundary, im.man.width - im.man.boundary)

/-- The SETUP record (R258). -/
def Half.setupRecord (h : Half) (mode : Nat) (join : Bool) : List Byte := match h.image with
  | none => []
  | some im => beBytes 2 im.panel.silence ++ beBytes 1 mode ++ beBytes 1 (bit join) ++ beBytes 2 im.man.width ++ beBytes 2 im.man.height
      ++ beBytes 2 im.man.boundary

/-- Half-relative address of emblem tile `k` in the module's own area (R257; log entry 21). -/
def emblemAddr (k : Nat) : Nat := 0x7F000000 + 1024 * (16 + k)

/-- Pixel words of an RGB tile. -/
def tileWords (b : List Byte) : List Nat := (List.range 256).map fun k => pixelWord ([0, 1, 2].map fun c => sampleAt b (3 * k + c))

/-- Pixel words of tile (tx, ty) of the shutter picture (R257). -/
def Half.shutterTile (h : Half) (tx ty : Nat) : List Nat := match h.image with
  | none => []
  | some im =>
    let p := im.panel
    if p.etx0 ≤ tx ∧ tx < p.etx0 + p.etw ∧ p.ety0 ≤ ty ∧ ty < p.ety0 + p.eth then
      tileWords (memRead h.fst (emblemAddr ((ty - p.ety0) * p.etw + (tx - p.etx0))) 960)
    else List.replicate 256 (p.shutcol % 2 ^ 30)

/-- The shutter picture is pushed as one region with TARGET 1 (R258 step 4): the band, or all of it on the only live
sub-link. -/
def Half.pushShutter (h : Half) : Half :=
  let whole := h.flag F.LNK_STATUS_PEER_RESET
  let b := h.band
  let w := (h.image.map fun i => i.man.width).getD 0
  let ht := (h.image.map fun i => i.man.height).getD 0
  let tx0 := if whole then 0 else b.1
  let tw := if whole then w else b.2
  let n := h.get F.PNL_PSEQ_NEXT
  let lap := h.get F.RBK_LAP_LAP
  let tiles := rectTiles tx0 0 tw ht
  let words := tiles.flatMap fun x => h.shutterTile x.1 x.2
  let mark := hallmarkOf n tx0 0 tw ht words
  let h1 := (h.set F.PNL_PSEQ_NEXT (n + 1)).toPanel (openCell n lap 1 tx0 0 tw ht 0)
  let h2 := (tiles.flatMap fun x => pixelCells n x.1 x.2 (h.shutterTile x.1 x.2)).foldl Half.toPanel h1
  ((h2.toPanel (closeCell n lap mark tx0 0 tw ht)).set F.PNL_HMLAST_HALLMARK mark).onPanel
    fun (p : PanelSt) => { p with shutter := some n }

/-- Step 10 does not complete (R259): fault class PNL code 3, and a retry after 1 s. -/
def Half.initFails (h : Half) (t : Nat) : Half :=
  (h.onPanel fun (p : PanelSt) => { p with failedAt := some t }).fault t clsPnl 3 h.id.num (h.pnlDetail 0)

/-- Steps 2 to 4 of R258. -/
def Half.panelInit (h : Half) (t : Nat) (join : Bool) : Half :=
  match h.chosenMode join with
  | none => h.initFails t
  | some m =>
    if h.identFits then
      let h1 := (if join then h else h.takeMode m).set F.PNL_PSEQ_NEXT 0
      let h2 := (if join then h1.takeMode m else h1).onPanel fun (p : PanelSt) => { p with
        joinSetup := join, setup := true, ready := false, failedAt := none, shutter := none, shutterFails := 0 }
      let h3 := (h2.toPanel (controlCell 2 0 0 (h2.setupRecord m.mode join))).panelState 2
      let h4 := if h3.mayTalk t then h3.keepalive t else h3
      if join then h4 else h4.pushShutter.panelState 3
    else h.initFails t

/-- The half may initialise its sub-link: step 10 has begun, or a half start has its link (R258, R260). -/
def Half.panelActive (h : Half) : Bool := h.flag F.PNL_CTRL_RUN && h.panelUp && h.image.isSome

/-- JOIN is set in the next SETUP: in a half start (R260), and after an earlier SETUP exactly where the panel kept its banks (R272). -/
def Half.joins (h : Half) : Bool := h.panel.rejoin.getD (h.mode == modeHalfStart)

/-- Every mode of the last IDENT has been declared. -/
def Half.allDeclared (h : Half) : Bool := match h.panel.ident with
  | some i => decide (i.modes ≤ h.panel.declared.length)
  | none => false

/-- Initialisation proceeds once IDENT and every MODEDECL have come; one that has failed waits for its retry (R259). -/
def Half.tryInit (h : Half) (t : Nat) : Half :=
  if h.panelActive && h.allDeclared && !h.panel.setup && h.panel.failedAt.isNone then h.panelInit t h.joins else h

/-- An IDENT cell (R249, R258, R272). -/
def Half.identArrives (h : Half) (t : Nat) (f : PanelFlags) (i : PanelIdent) : Half :=
  let was := h.panel.setup
  let h0 := h.statusFlags t f
  let h1 := (h0.onPanel fun (p : PanelSt) => { p with
      ident := some i, modes := if was && !i.kept then [] else p.modes, declared := [], setup := false, ready := false
      rejoin := if was then some i.kept else p.rejoin.map fun _ => i.kept, failedAt := if was then none else p.failedAt }).sets
    [(F.PNL_IDENT_WIDTH, i.width), (F.PNL_IDENT_HEIGHT, i.height), (F.PNL_IDENT_MODES, 0)]
  let h2 := h1.panelState 1
  if was then
    let h3 := h2.onPanel fun (p : PanelSt) => { p with waiting := true, shutter := none }
    if i.kept then h3
    else (h3.onLap fun (l : LapSt) => { l with blank := none }).fault t clsPnl 4 h.id.num (h3.pnlDetail 0)
  else h2

/-- The modes in use after a MODEDECL: a valid record stands for its number; a second record of one number after one IDENT leaves the
first; once every mode is declared, those of an earlier IDENT are gone. -/
def PanelSt.declare (p : PanelSt) (r : ModeRecord) (valid : Bool) : PanelSt :=
  let again := p.declared.contains r.mode
  let seen := p.declared ++ [r.mode]
  let kept := if again then p.modes else p.modes.filter (fun m => m.mode != r.mode) ++ (if valid then [r] else [])
  let all := (p.ident.map fun i => decide (i.modes ≤ seen.length)).getD false
  { p with declared := seen, modes := if all then kept.filter fun m => seen.contains m.mode else kept }

/-- A MODEDECL cell (R249, R250): a record that breaks the rules, or repeats a number, is counted and not used. -/
def Half.modeArrives (h : Half) (t : Nat) (f : PanelFlags) (r : ModeRecord) : Half :=
  let valid := modeValid r ((h.panel.ident.map fun i => i.height).getD 0)
  let again := h.panel.declared.contains r.mode
  let h1 := (h.statusFlags t f).onPanel fun (p : PanelSt) => p.declare r valid
  let h2 := if valid && !again then h1 else h1.tally F.PNL_TALLY1_BADMODE 1
  (h2.set F.PNL_IDENT_MODES (min 15 (h2.panel.modes.filter fun m => h2.panel.declared.contains m.mode).length)).tryInit t

/-- 1 s after a failed initialisation (R259): again from step 2 of R258. -/
def Half.panelRetry (h : Half) (t : Nat) : Half :=
  if h.panel.failedAt.isSome && h.panelActive && h.panel.ident.isSome && !h.panel.ready then h.panelInit t h.joins else h

/-- PNL_CTRL.REINIT (R274): R258 again on this sub-link, JOIN clear. -/
def Half.reinit (h : Half) (t : Nat) : Half :=
  let h1 := h.onPanel fun (p : PanelSt) => { p with
    change := none, silent := false, ready := false, setup := false, waiting := h.lapBegun, failedAt := none, rejoin := some false }
  if h1.panelActive && h1.panel.ident.isSome then h1.panelInit t false else h1.panelState 1

/-! ## Echoes (R255, R256) -/

/-- HMFAULT: some region stands at three failures. -/
def Half.showHmFault (h : Half) : Half :=
  h.onPnlStatus fun h => h.setFlag F.PNL_STATUS_HMFAULT (h.lap.regions.any fun r => decide (3 ≤ r.fails))

/-- A result other than MATCH, or a missing echo, for region `i` (R256). -/
def Half.mismatch (h : Half) (t i result : Nat) : Half :=
  let h1 := (h.tally F.PNL_TALLY0_MISMATCH 1).onRegion i fun (r : RegionSt) => { r with
    pushed := r.pushed.map fun (p : Pushed) => { p with echo := some result }, again := true, fails := r.fails + 1 }
  match h1.lap.regions[i]? with
  | some r =>
    if r.fails = 3 then
      let h2 := (h1.sets [(F.PNL_HMFAULT_LAP, h1.get F.RBK_LAP_LAP), (F.PNL_HMFAULT_REGION, i)]).showHmFault
      h2.fault t clsPnl 1 h.id.num (h2.pnlDetail i)
    else h1
  | none => h1

/-- A MATCH for region `i`. -/
def Half.matched (h : Half) (i : Nat) : Half :=
  (h.onRegion i fun (r : RegionSt) => { r with pushed := r.pushed.map fun (p : Pushed) => { p with echo := some 0 }, fails := 0 }).showHmFault

/-- The echo of a shutter push (R258, R259). -/
def Half.shutterEcho (h : Half) (t result : Nat) : Half :=
  if result = 0 then h.onPanel fun (p : PanelSt) => { p with shutter := none, shutterFails := 0 }
  else
    let n := h.panel.shutterFails + 1
    let h1 := (h.onPanel fun (p : PanelSt) => { p with shutter := none, shutterFails := n }).tally F.PNL_TALLY0_MISMATCH 1
    if 3 ≤ n then h1.initFails t else h1.pushShutter

/-- The echo of a region's last push has this result. -/
def RegionSt.echoed (r : RegionSt) (result : Nat) : RegionSt :=
  { r with pushed := r.pushed.map fun (p : Pushed) => { p with echo := some result } }

/-- An ECHO cell (R249, R255, R256). A region of a former set is only counted: it can no longer be pushed. -/
def Half.echoArrives (h : Half) (t : Nat) (f : PanelFlags) (pseq hallmark result : Nat) : Half :=
  let h1 := (h.statusFlags t f).set F.PNL_HMECHO_HALLMARK hallmark
  let waits (r : RegionSt) : Bool := (r.pushed.map fun p => p.pseq == pseq && p.echo.isNone).getD false
  if h1.panel.shutter = some pseq then h1.shutterEcho t result
  else match (List.range h1.lap.regions.length).find? fun i => (h1.lap.regions[i]?.map waits).getD false with
    | some i => (if result = 0 then h1.matched i else h1.mismatch t i result).panelHealth t
    | none =>
      let late := (h1.lap.old.filter fun x => waits x.2).length
      let h2 := h1.onLap fun (l : LapSt) => { l with old := l.old.map fun x => (x.1, if waits x.2 then x.2.echoed result else x.2) }
      if result = 0 then h2 else h2.tally F.PNL_TALLY0_MISMATCH late

/-! ## Blanking reports -/

/-- RPTLAT and TURN of the mode in force. -/
def Half.rptLat (h : Half) : Nat := (h.modeRec.map fun m => m.rptLat).getD 0
def Half.turn (h : Half) : Nat := (h.modeRec.map fun m => m.turn).getD 0

/-- The local-base time of a reported blanking (R252). -/
def Half.blankTime (h : Half) (stamp : Nat) : Int := (stamp : Int) - (h.rptLat : Int) - (h.panel.linkDly : Int)

/-- Boundaries of the half, with the laps that they begin: those recorded, and the next four as they are placed (R253). -/
def Half.boundaries (h : Half) : List (Nat × Int) :=
  (h.lap.bounds.map fun b => (b.1, (b.2 : Int)))
    ++ [1, 2, 3, 4].map fun j => ((h.get F.RBK_LAP_LAP + j) % 2 ^ 32, h.boundaryAhead j)

/-- The lap that a blanking at `tb` ended: that of the boundary nearest to it (R234). -/
def Half.endedLap (h : Half) (tb : Int) : Nat :=
  let near := h.boundaries.foldl (fun (a : Option (Nat × Int)) b => match a with
    | some x => if (tb - b.2).natAbs < (tb - x.2).natAbs then some b else some x
    | none => some b) none
  if h.lap.bounds = [] then 2 ^ 32 - 1 else ((near.map fun b => b.1).getD 0 + 2 ^ 32 - 1) % 2 ^ 32

/-- PSEQ `n` lies in a range (R265). -/
def inRange (n first last : Nat) : Bool :=
  decide ((n + 2 ^ 32 - first % 2 ^ 32) % 2 ^ 32 ≤ (last + 2 ^ 32 - first % 2 ^ 32) % 2 ^ 32)

/-- The owner named this push in a COMMIT for this half's sub-link (R268). -/
def Half.committed (h : Half) (p : Pushed) : Bool := h.lap.commits.any fun c =>
  c.1 == p.lap && bitAt c.2.1 h.id.num && inRange p.pseq (c.2.2.getD (2 * h.id.num) 0) (c.2.2.getD (2 * h.id.num + 1) 0)

/-- A push is applied by a report (R268). -/
def Half.applied (h : Half) (c : BlankingCell) (p : Pushed) : Bool :=
  c.flipped && !newer 32 p.lap c.lapCommit && h.committed p && p.echo == some 0

/-- A region after a report: applied content is shown, a push not applied stays dirty (R268). -/
def Half.applyRegion (h : Half) (c : BlankingCell) (ended : Nat) (r : RegionSt) : RegionSt := match r.pushed with
  | none => r
  | some p =>
    if !r.inFlight then r
    else if h.applied c p then { r with shown := some p, unapplied := false, counted := false }
    else if newer 32 p.lap ended then r
    else { r with unapplied := true }

/-- A push of lap `p.lap` waits for an ECHO that should be here when the report of the blanking that ended lap `ended` is processed. -/
def RegionSt.unechoed (r : RegionSt) (ended : Nat) : Bool :=
  (r.pushed.map fun p => p.echo.isNone && !newer 32 p.lap ended).getD false

/-- Regions whose ECHO is missing when the report of their lap is processed (R256). -/
def Half.missingEchoes (h : Half) (t ended : Nat) : Half :=
  let h1 := (List.range h.lap.regions.length).foldl (fun h i =>
    if (h.lap.regions[i]?.map fun r => r.unechoed ended).getD false then h.mismatch t i 2 else h) h
  let late := (h.lap.old.filter fun x => x.2.unechoed ended).length
  (h1.onLap fun (l : LapSt) => { l with old := l.old.map fun x => (x.1, if x.2.unechoed ended then x.2.echoed 2 else x.2) }).tally
    F.PNL_TALLY0_MISMATCH late

/-- A tile lies in a region. -/
def RegionSt.holds (r : RegionSt) (p : Nat × Nat) : Bool :=
  decide (r.tx0 ≤ p.1) && decide (p.1 < r.tx0 + r.tw) && decide (r.ty0 ≤ p.2) && decide (p.2 < r.ty0 + r.th)

/-- Records of former content without the tiles that newly applied regions replace (R241). -/
def replaced (fresh : List RegionSt) (l : List FormerSt) : List FormerSt :=
  (l.map fun (f : FormerSt) => { f with tiles := f.tiles.filter fun p => !fresh.any fun r => r.holds p }).filter fun f => f.tiles != []

/-- The push of a former set can still be applied: its report is not here, or its COMMIT stands and it was not refused. -/
def Half.stillOpen (h : Half) (ended : Nat) (r : RegionSt) : Bool := match r.pushed with
  | none => false
  | some p => r.inFlight && (p.echo.getD 0 == 0) && (newer 32 p.lap ended || h.lap.commits.any fun c => c.1 == p.lap)

/-- The regions that a report applies, with the records of former sets (R241, R268). A COMMIT stands until a report has applied it. -/
def Half.applyReport (h : Half) (c : BlankingCell) (ended : Nat) : Half :=
  let old := h.lap.old.map fun x => (x.1, h.applyRegion c ended x.2)
  let arrived := ((old.zip h.lap.old).filter fun x => x.1.2.shown != x.2.2.shown).map fun x => x.1
  let now := h.lap.regions.map (h.applyRegion c ended)
  let fresh := ((now.zip h.lap.regions).filter fun x => x.1.shown != x.2.shown).map fun x => x.1
  let former := replaced fresh (replaced (arrived.map fun x => x.2) h.lap.former ++ arrived.filterMap formerOf)
  let h1 := h.onLap fun (l : LapSt) => { l with
    regions := now, former := former, commits := if c.flipped then l.commits.filter fun x => newer 32 x.1 c.lapCommit else l.commits }
  h1.onLap fun (l : LapSt) => { l with old := old.filter fun x => h1.stillOpen ended x.2 }

/-- FLIPPED, PENDING and LATE of a report (R268). -/
def Half.reportFlags (h : Half) (c : BlankingCell) (tb : Int) : Half :=
  let taken := c.flipped && (h.lap.commit.map fun x => !newer 32 x.1 c.lapCommit).getD false
  let sent := h.lap.commitOpen
  let v := unsigned 64 tb
  let h0 := if taken then h.onLap fun (l : LapSt) => { l with commitOpen := false } else h
  let h1 := h0.set F.PNL_LASTLAP_LAP c.lapCommit
  let h2 := if c.flipped then h1.sets [(F.PNL_LAPCOUNT_FLIPS, c.flipCount), (F.PNL_FLIPTIMELO_NS, v), (F.PNL_FLIPTIMEHI_NS, v / 2 ^ 32)]
    else h1
  let h3 := h2.onPnlStatus fun h =>
    if c.flipped then h.set F.PNL_STATUS_PENDING 0 else if sent then h.set F.PNL_STATUS_PENDING 1 else h
  if c.late then h3.tally F.PNL_TALLY0_LATECOMMIT 1 else h3

/-- The push stream hears the report of the blanking that ended the lap before (R261). -/
def Half.reportAllows (h : Half) (t ended : Nat) : Half :=
  if h.composes && ended == (h.get F.RBK_LAP_LAP + 2 ^ 32 - 1) % 2 ^ 32 && !h.lap.push.allowed && !h.lap.push.barred then
    if h.flag F.PNL_STATUS_PENDING then h.noReport
    else (h.onPush fun (p : PushSt) => { p with allowed := true }).pushAdvance t
  else h

/-- The commit owner sends two MODE cells (R273). -/
def Half.sendMode (h : Half) (t mode : Nat) : Half :=
  let c := controlCell 1 0 mode []
  let h1 := if h.owner then (h.toPanel c).toPanel c else h
  h1.onPanel fun (p : PanelSt) => { p with change := p.change.map fun (x : ModeChange) => { x with sentAt := some t } }

/-- The mode change named for lap `lap` completes with a status, in the half that decided it. -/
def Half.finishMode (h : Half) (lap status : Nat) : Half × List Finish :=
  let ends (a : Action) : Bool := a.what.isMode && a.lap == some lap
  let done := h.acts.acts.filter ends
  (h.onActs fun (x : ActSt) => { x with acts := x.acts.filter fun a => !ends a },
    done.map fun a => ⟨a.origin, a.what, status, none, false⟩)

/-- A mode change at a report (R273): MODE goes out after the report of the switch lap's boundary; NEWMODE with the mode asked
for ends it. -/
def Half.modeReport (h : Half) (t : Nat) (f : PanelFlags) (c : BlankingCell) : Half × List Finish :=
  match h.panel.change with
  | none => (h, [])
  | some x =>
    let want := if x.back then x.former else x.mode
    if c.newMode && f.mode == want && x.sentAt.isSome then
      match h.panel.modes.find? fun m => m.mode == want with
      | none => (h, [])
      | some m =>
        let h1 := ((h.takeMode m).onPanel fun (p : PanelSt) => { p with change := none }).panelState 5
        if x.back then (h1, []) else h1.finishMode x.lap stDone
    else if x.sentAt.isNone then (h.sendMode t want, [])
    else (h, [])

/-- A blanking at `tb` as a half takes it (R234, R241, R261, R268, R273). -/
def Half.takeReport (h : Half) (t : Nat) (f : PanelFlags) (c : BlankingCell) (tb : Int) : Half × List Finish :=
  let ended := h.endedLap tb
  let h1 := h.onPanel fun (p : PanelSt) => { p with reportAt := some (h.lb t), reported := some f.mode }
  let m := h1.modeReport t f c
  let h2 := (m.1.reportFlags c tb).onLap fun (l : LapSt) => { l with blank := some (tb, ended) }
  let h3 := if h2.lapBegun then (((h2.missingEchoes t ended).applyReport c ended).blankAges t ended tb).reportAllows t ended else h2
  (h3.panelHealth t, m.2)

/-- A READY: the sub-link is initialised (R252, R253, R258, R260, R272). -/
def Half.takeReady (h : Half) (t : Nat) (tb : Int) : Half :=
  let ended := h.endedLap tb
  let h1 := (h.onPanel fun (p : PanelSt) => { p with ready := true, waiting := false, reportAt := some (h.lb t), readyTb := some tb }).onLap
    fun (l : LapSt) => { l with blank := some (tb, ended) }
  let h2 : Half := { h1 with starter := { h1.starter with gotReady := true } }
  (h2.panelState (if h2.mode = modeHalfStart then 7 else if h2.lapBegun then 5 else 4)).panelHealth t

/-- A report or READY waits until the first KAECHO gives LINKDLY (R252). -/
def Half.holdReport (h : Half) (ready : Bool) (c : BlankingCell) (f : PanelFlags) (stamp : Nat) : Half :=
  h.onPanel fun (p : PanelSt) => { p with held := p.held ++ [(ready, c, f, stamp)] }

/-- A READY cell. -/
def Half.readyArrives (h : Half) (t : Nat) (f : PanelFlags) (c : BlankingCell) (stamp : Nat) : Half :=
  let h1 := h.statusFlags t f
  if h1.panel.setup = false then h1
  else if h1.panel.echoed then h1.takeReady t (h1.blankTime stamp) else h1.holdReport true c f stamp

/-- A BLANKING cell on the half's own sub-link. -/
def Half.blankingArrives (h : Half) (t : Nat) (f : PanelFlags) (c : BlankingCell) (stamp : Nat) : Half × List Finish :=
  let h1 := h.statusFlags t f
  if h1.panel.echoed then h1.takeReport t f c (h1.blankTime stamp) else (h1.holdReport false c f stamp, [])

/-- Held cells are converted once LINKDLY is known (R252). -/
def Half.releaseHeld (h : Half) (t : Nat) : Half × List Finish :=
  let held := h.panel.held
  let h1 := h.onPanel fun (p : PanelSt) => { p with held := [] }
  held.foldl (fun (acc : Half × List Finish) x =>
    if x.1 then (acc.1.takeReady t (acc.1.blankTime x.2.2.2), acc.2)
    else
      let r := acc.1.takeReport t x.2.2.1 x.2.1 (acc.1.blankTime x.2.2.2)
      (r.1, acc.2 ++ r.2)) (h1, [])

/-- A KAECHO cell (R252): RTT and LINKDLY. -/
def Half.kaechoArrives (h : Half) (t : Nat) (f : PanelFlags) (token stamp : Nat) : Half × List Finish :=
  let h1 := h.statusFlags t f
  match h1.panel.tokens.find? fun x => x.1 == token with
  | none => (h1, [])
  | some x => match x.2 with
    | none => (h1, [])
    | some sent =>
    let rtt := stamp - sent
    let dly := ceilDiv (rtt - h1.turn) 2
    let h2 := h1.sets [(F.PNL_LINK_RTT, min 65535 rtt), (F.PNL_LINK_LINKDLY, min 65535 dly)]
    let h3 := h2.onPanel fun (p : PanelSt) => { p with
      echoed := true, linkDly := dly, tokens := p.tokens.filter fun y => y.1 != token }
    ({ h3 with starter := { h3.starter with gotKaecho := true } }).releaseHeld t

/-- A FAULT cell (R249): recorded with its CODE. -/
def Half.panelFault (h : Half) (t : Nat) (f : PanelFlags) (code : Nat) : Half :=
  let h1 := (h.statusFlags t f).tally F.PNL_TALLY1_PANELFAULTS 1
  h1.fault t clsPnl 2 h.id.num (h1.wordBytes F.PNL_STATUS_word.off ++ leBytes 1 code)

/-! ## Timeouts and the link -/

/-- The keepalives and commits of a half stop (R274). -/
def Half.fallSilent (h : Half) : Half := h.onPanel fun (p : PanelSt) => { p with silent := true }

/-- 500 ms without a NEWMODE report (R274): TIMEOUT and the former mode; the second time the half falls silent. -/
def Half.modeTimeout (h : Half) (t : Nat) : Half × List Finish := match h.panel.change with
  | none => (h, [])
  | some x =>
    if x.back then (h.fallSilent, [])
    else
      let h1 := (h.onPanel fun (p : PanelSt) => { p with change := some { x with back := true } }).fault t clsPnl 5 h.id.num (h.pnlDetail 0)
      (h1.sendMode t x.former).finishMode x.lap stTimeout

/-- When the wait for a NEWMODE report ends: 500 ms after MODE was sent, or after the switch lap's boundary while it has not been. -/
def Half.modeDue (h : Half) : Option Nat := h.panel.change.map fun c =>
  c.sentAt.getD (h.epoch.getD 0 + c.began) + 500 * msNs

/-- The sub-link has been down for 100 ms while the peer's is up (R276): batons stop. -/
def Half.sublinkDown (h : Half) (t : Nat) : Half :=
  if !h.panelUp && (h.link.peer.map fun b => b.linkUp).getD false && !h.link.stopped then
    let h1 : Half := { h with link := { h.link with stopped := true } }
    h1.fault t clsPnl 6 h.id.num (h1.pnlDetail 0)
  else h

/-- The panel link comes up or goes down (R258, R272, R275). -/
def Half.panelLinkDown (h : Half) (t : Nat) : Half :=
  ((h.onPanel fun (p : PanelSt) => { p with downFrom := some t, tokens := [], echoed := false, ready := false }).panelState 0).panelHealth t

/-- The panel link is up: IDENT is awaited. -/
def Half.panelLinkUp (h : Half) (t : Nat) : Half :=
  ((h.onPanel fun (p : PanelSt) => { p with downFrom := none }).panelState 1).panelHealth t

/-- PNL_CTRL.RUN is written (R68, R269). -/
def Half.pnlRun (h : Half) (t : Nat) (on : Bool) : Half :=
  let h1 := h.setFlag F.PNL_CTRL_RUN on
  if on then (h1.tryInit t).pushAdvance t else h1

end Sys2Proof.Machine
end

