-- ==== Sys2Proof/Machine/Ring.lean ====
section
/-!
DEFINITION. Rings (chapter 12): plans and topologies, heads, paths, copying and stripping, publishing and forwarding in slots,
LAPSTART, breaks and healing, joining and leaving, and the ring master.
-/
namespace Sys2Proof.Machine

/-! ## Topology (R278, R284) -/

/-- A list split after every element of `cut`. -/
def splitAfter (cut : List Nat) : List Nat → List (List Nat)
  | [] => []
  | s :: rest =>
    let r := splitAfter cut rest
    if cut.contains s then [s] :: r
    else match r with
      | [] => [[s]]
      | l :: ls => (s :: l) :: ls

/-- The list turned so that it starts after `s` and ends with `s`. -/
def turnAfter (s : Nat) (l : List Nat) : List Nat :=
  let i := l.idxOf s
  l.drop (i + 1) ++ l.take (i + 1)

/-- Present stations in ORDER. -/
def RingPlan.present (p : RingPlan) (seen : Nat) : List Nat := p.order.filter fun s => bitAt seen s

/-- Present stations whose east segment is broken: a bit of KEDGE, or the segment through the position of an absent HEAD. -/
def RingPlan.cuts (p : RingPlan) (seen edge : Nat) : List Nat :=
  let through : Option Nat := if bitAt seen p.head then none
    else ((turnAfter p.head p.order).filter fun s => bitAt seen s).getLast?
  (p.present seen).filter fun s => bitAt edge s || through == some s

/-- The lines of a plane, each from west to east; none for a loop (R284). -/
def RingPlan.lines (p : RingPlan) (seen edge : Nat) : List (List Nat) :=
  let cut := p.cuts seen edge
  match cut with
  | [] => []
  | c :: _ => splitAfter cut (turnAfter c (p.present seen))

/-- The present station next after `s` in ORDER, or next before it. -/
def RingPlan.neighbour (p : RingPlan) (seen s : Nat) (side : Side) : Option Nat :=
  let around := (turnAfter s p.order).filter fun x => x != s && bitAt seen x
  match side with
  | .east => around.head?
  | .west => around.getLast?

/-- Number of absent stations between `s` and the next present station eastward. -/
def RingPlan.runFrom (p : RingPlan) (seen s : Nat) : Nat := ((turnAfter s p.order).takeWhile fun x => !bitAt seen x).length

/-- The longest run of bypassed stations on any segment between two present stations (R299). -/
def RingPlan.runMax (p : RingPlan) (seen : Nat) : Nat :=
  let ps := p.present seen
  if ps.length < 2 then 0 else ps.foldl (fun m s => max m (p.runFrom seen s)) 0

/-- Limit of consecutive bypassed stations at a rate (R299). -/
def runLimit (rate : Nat) : Nat := if 4 ≤ rate then 2 else 5

/-- Own station number on a ring (R304). -/
def Half.station (h : Half) (r : Nat) : Nat := h.stationAddr r % 128

/-- Own address on a ring, 14 bits. -/
def Half.ringAddr (h : Half) (r : Nat) : Nat := h.stationAddr r % 2 ^ 14

/-- STATE codes of RNG_STATE. -/
def rsOff : Nat := 0
def rsListen : Nat := 1
def rsOpening : Nat := 2
def rsJoining : Nat := 3
def rsJoined : Nat := 4
def rsRefused : Nat := 5
def rsLeaving : Nat := 6

/-- STATE of a ring. -/
def Half.ringState (h : Half) (r : Nat) : Nat := h.get (F.RNG_STATE_STATE r)

/-- A change of RNG_STATE or RNG_TOPO raises source 9 and its event (R356, R383). -/
def Half.onRingRegs (h : Half) (r : Nat) (f : Half → Half) : Half :=
  let h1 := f h
  if h1.reg (F.RNG_STATE_word r).off ≠ h.reg (F.RNG_STATE_word r).off then h1.signal irqRing (F.RNG_STATE_word r).off
  else if h1.reg (F.RNG_TOPO_word r).off ≠ h.reg (F.RNG_TOPO_word r).off then h1.signal irqRing (F.RNG_TOPO_word r).off
  else h1

/-- Sets STATE. -/
def Half.ringEnter (h : Half) (r s : Nat) : Half := h.onRingRegs r fun h => h.set (F.RNG_STATE_STATE r) s

/-- Records fault class RING (R416, R419): UNIT is the plane, plus 2 for a second ring. -/
def Half.ringFault (h : Half) (t r code : Nat) (more : List Byte) : Half :=
  h.fault t clsRing code (h.id.num + 2 * r) (h.wordBytes (F.RNG_STATE_word r).off ++ h.wordBytes (F.RNG_TOPO_word r).off ++ more)

/-- The station next before `s` in ORDER. -/
def RingPlan.before (p : RingPlan) (s : Nat) : Nat := (turnAfter s p.order).dropLast.getLast?.getD s

/-- The station west of the segment that arrives from the west: the nearest present one, the next of ORDER while none is. -/
def RingPlan.westOf (p : RingPlan) (seen s : Nat) : Nat := (p.neighbour seen s .west).getD (p.before s)

/-- EDGE bits that this station sets for the segments at itself that it treats as broken (R283, R297). -/
def Half.ownEdges (h : Half) (r : Nat) : Nat :=
  let x := h.ring r
  let e := if x.brokenE then setBitNat 0 (h.station r) true else 0
  if x.brokenW then setBitNat e x.edgeW true else e

/-- The same segments as cuts among the stations present: this station is an end at each of them. -/
def Half.ownCuts (h : Half) (r : Nat) (p : RingPlan) : Nat :=
  let x := h.ring r
  let me := h.station r
  let e := if x.brokenE then setBitNat 0 me true else 0
  if x.brokenW then setBitNat e ((p.neighbour x.seen me .west).getD me) true else e

/-- The run of bypassed stations on the segment at a side exceeds the limit, by the map `seen` (R299). -/
def Half.runOver (h : Half) (r seen : Nat) (side : Side) : Bool := match (h.ring r).plan with
  | none => false
  | some p =>
    let me := h.station r
    let lim := h.get (F.RNG_BYPASS_LIMIT r)
    lim != 0 && decide (2 ≤ (p.present seen).length) && (match side with
      | .east => decide (lim < p.runFrom seen me)
      | .west => (p.neighbour seen me .west).any fun w => decide (lim < p.runFrom seen w))

/-- A segment at this station is treated as broken from now on: its link must stay up for 16 lap periods again (R297, R298). -/
def Half.cutSegment (h : Half) (t r : Nat) (side : Side) : Half :=
  let up := (h.ringLink r side).any fun l => h.linkUp l
  let since := if up then some t else none
  h.onRing r fun (x : RingSt) => match side with
    | .west => { x with brokenW := true, wholeW := since, edgeW := (x.plan.map fun p => p.westOf x.seen (h.station r)).getD 0 }
    | .east => { x with brokenE := true, wholeE := since }

/-- Since when each segment at this station has been fit to be whole: its link up and its run within the limit (R298, R299). -/
def Half.noteWhole (h : Half) (t r : Nat) : Half :=
  let fit (side : Side) : Bool := ((h.ringLink r side).any fun l => h.linkUp l) && !h.runOver r (h.ring r).newSeen side
  h.onRing r fun (x : RingSt) => { x with
    wholeW := if fit .west then some (x.wholeW.getD t) else none, wholeE := if fit .east then some (x.wholeE.getD t) else none }

/-- Words of a 128-bit map written to four registers. -/
def Half.setMap (h : Half) (f : Nat → Field) (v : Nat) : Half := h.sets ((List.range 4).map fun k => (f k, bitsAt v (32 * k) 32))

/-- A segment at this station whose run of bypassed stations exceeds the limit is treated as broken: the stations at its two ends set OVER
and record it once (R299, log entry 129). Every station shows the longest run. -/
def Half.overRun (h : Half) (t r : Nat) : Half :=
  let x := h.ring r
  match x.plan with
  | none => h
  | some p =>
    let east := h.runOver r x.seen .east
    let west := h.runOver r x.seen .west
    let was := h.flag (F.RNG_BYPASS_OVER r)
    let h1 := h.sets [(F.RNG_BYPASS_RUNMAX r, p.runMax x.seen), (F.RNG_BYPASS_OVER r, bit (east || west))]
    let h2 := if east && !x.brokenE then h1.cutSegment t r .east else h1
    let h3 := if west && !x.brokenW then h2.cutSegment t r .west else h2
    if (east || west) && !was then h3.ringFault t r 6 [] else h3

/-- The turn buffers of a station that no longer heads a rotation are discarded and counted (R289, R298). -/
def Half.stopHeading (h : Half) (r : Nat) (side : Side) : Half :=
  if h.headsTo r side then h
  else
    let x := (h.ring r).rot side
    let lost := x.turn.length + x.turning.length
    if x.next = none ∧ lost = 0 then h
    else (h.onRot r side fun (y : RotSt) => { y with next := none, due := false, start := none, turn := [], turning := [] }).tally
      (F.RNG_TALLY0_TURNDROP r) lost

/-- A lap boundary: what the station learned of the topology before it takes effect (R289, R297 to R299). A lap boundary of a station is
row 0 of a lap on either rotation of the plane (log entry 73). -/
def Half.applyTopo (h : Half) (t r : Nat) : Half :=
  let st := h.ringState r
  match (h.ring r).plan with
  | none => h
  | some p =>
    if st = rsJoined ∨ st = rsLeaving then
      let h1 := (h.onRing r fun (x : RingSt) => { x with seen := x.newSeen }).overRun t r
      let edge := (h1.ring r).newEdge ||| h1.ownCuts r p
      let h2 := h1.onRing r fun (x : RingSt) => { x with edge := edge }
      let seen := (h2.ring r).seen
      let ls := p.lines seen edge
      let me := h2.station r
      let mine := (ls.find? fun l => l.contains me).getD []
      let line := ls != []
      let west := mine.head?
      let east := mine.getLast?
      let before := h2.reg (F.RNG_TOPO_word r).off
      let h3 := h2.onRingRegs r fun h => h.sets
        [(F.RNG_STATE_LINE r, bit line), (F.RNG_STATE_SPLIT r, bit (1 < ls.length)), (F.RNG_STATE_ENDW r, bit (west == some me)),
         (F.RNG_STATE_ENDE r, bit (east == some me)), (F.RNG_STATE_HEAD r, bit (!line && p.head == me)),
         (F.RNG_TOPO_WEND r, west.getD 0xFF), (F.RNG_TOPO_EEND r, east.getD 0xFF), (F.RNG_TOPO_LINES r, ls.length)]
      let h4 := ((h3.stopHeading r .east).stopHeading r .west).noteWhole t r
      if h4.reg (F.RNG_TOPO_word r).off = before then h4 else (h4.tally (F.RNG_TALLY0_TOPOCHG r) 1).ringFault t r 1 []
    else h

/-! ## Candidates and master (R300, R301) -/

/-- The station is joined: a leaving one until its next lap boundary (R296). -/
def Half.ringMember (h : Half) (r : Nat) : Bool :=
  h.ringState r == rsJoined || (h.ringState r == rsLeaving && (h.ring r).leaveOn.isNone)

/-- This station sets CAND on the ring of its plane. -/
def Half.candidate (h : Half) (r : Nat) : Bool :=
  let s := h.get F.RST_STRAP_INDEX
  ((h.image.map fun i => bitAt i.man.roles 2).getD false) && decide (4 ≤ s) && decide (s ≤ 6) && h.mode == modeRunning
    && h.ringState r == rsJoined

/-- CAND of RNG_STATE follows. -/
def Half.showCandidate (h : Half) (r : Nat) : Half := h.onRingRegs r fun h => h.setFlag (F.RNG_STATE_CAND r) (h.candidate r)

/-- The lowest station of a map. -/
def lowestStation (m : Nat) : Option Nat := (List.range 128).find? fun s => bitAt m s

/-- KCAND of both rotations of a plane. -/
def RingSt.cands (x : RingSt) : Nat := x.east.kcand ||| x.west.kcand

/-- A station adopts a master (R300, R301): tally, fault class RING code 2, or 3 when there is none. -/
def Half.adopt (h : Half) (t r : Nat) (m : Option Nat) : Half :=
  let addr := match m, (h.ring r).plan with
    | some s, some p => p.ring * 128 + s
    | _, _ => 0x3FFF
  if h.get (F.RNG_MASTER_ADDR r) = addr then h
  else
    let h1 := h.onRingRegs r fun h => (h.set (F.RNG_MASTER_ADDR r) addr).setFlag (F.RNG_STATE_MASTER r) (m == some (h.station r) && h.candidate r)
    if h.ringState r = rsJoined then (h1.tally (F.RNG_TALLY0_MASTERCHG r) 1).ringFault t r (if m = none then 3 else 2) [] else h1

/-- The master computation of a station over the candidates of both planes: adopted when two successive ones agree (R300); a
station that heads alone stays the master it named until a station sets CAND (R295). -/
def Half.computeMaster (h : Half) (t r : Nat) (others : Nat) : Half :=
  let all := (h.ring r).cands ||| others
  let h1 := (h.setMap (F.RNG_CAND_MAP r) all).showCandidate r
  let m := lowestStation all
  let was := (h1.ring r).named
  let h2 := h1.onRing r fun (x : RingSt) => { x with named := m }
  if was = m ∧ (m ≠ none ∨ (h.ring r).alone = false) then h2.adopt t r m else h2

/-- The station is the ring master. -/
def Half.isMaster (h : Half) (r : Nat) : Bool := h.flag (F.RNG_STATE_MASTER r)

/-- The ring has a master. -/
def Half.hasMaster (h : Half) (r : Nat) : Bool := h.get (F.RNG_MASTER_ADDR r) != 0x3FFF

/-! ## Ring control cells (R282, R283) -/

/-- Header of a ring control cell. -/
def ringHdr (op addr dest lapNum arg : Nat) : Nat :=
  hdrOf [(16, 4, op), (20, 14, addr), (34, 14, dest), (48, 16, lapNum), (64, 32, arg)]

/-- A LAPSTART as a cell. -/
def lapStartCell (c : LapStart) : Cell :=
  { type := 14
    hdr := ringHdr 0 c.addr 0x3FFF c.lapNum c.mplan
    payload := leBytes 16 c.seen ++ leBytes 16 c.cand ++ leBytes 16 c.edge ++ leBytes 16 c.kseen ++ leBytes 16 c.kcand
      ++ leBytes 16 c.kedge ++ beBytes 2 c.master ++ beBytes 1 c.ring ++ beBytes 1 (bit c.rot + 2 * bit c.line) }

/-- A LAPSTART read from a cell. -/
def lapStartOf (c : Cell) : LapStart :=
  let b := c.payload
  { addr := c.field 20 14, lapNum := c.field 48 16, mplan := c.field 64 32, seen := leAt b 0 16, cand := leAt b 16 16,
    edge := leAt b 32 16, kseen := leAt b 48 16, kcand := leAt b 64 16, kedge := leAt b 80 16, master := beAt b 96 2,
    ring := byteAt b 98, rot := bitAt (byteAt b 99) 0, line := bitAt (byteAt b 99) 1 }

/-- A JOIN as a cell. -/
def joinCell (c : JoinCell) (dest : Nat) : Cell :=
  { type := 14, hdr := ringHdr 1 c.addr dest 0 c.crc
    payload := beBytes 1 c.west ++ beBytes 1 c.east ++ beBytes 1 (bit c.cand) }

/-- A JOIN read from a cell. -/
def joinOf (c : Cell) : JoinCell :=
  { addr := c.field 20 14, crc := c.field 64 32, west := byteAt c.payload 0, east := byteAt c.payload 1,
    cand := bitAt (byteAt c.payload 2) 0 }

/-- A JOINACK. -/
def joinAckCell (addr dest result : Nat) : Cell := { type := 14, hdr := ringHdr 2 addr dest 0 (result * 2 ^ 24), payload := [] }

/-- A LEAVE. -/
def leaveCell (addr : Nat) : Cell := { type := 14, hdr := ringHdr 3 addr 0x3FFF 0 0, payload := [] }

/-- The side whose rotation reaches station `s` from here (R305): in a loop the path ends at HEAD, in a line at its end. A joining station
goes by the maps of the latest LAPSTART. -/
def Half.sideTo (h : Half) (r s : Nat) : Side :=
  let x := h.ring r
  match x.plan with
  | none => .east
  | some p =>
    let me := h.station r
    let inside := h.ringMember r
    match p.lines (if inside then x.seen else setBitNat x.newSeen me true) (if inside then x.edge else x.newEdge) with
    | [] =>
      let ahead := (turnAfter me p.order).takeWhile fun y => y != p.head
      if s = p.head ∨ ahead.contains s then .east else .west
    | ls =>
      let mine := (ls.find? fun l => l.contains me).getD []
      let first := (mine.headD me)
      let o := first :: ((turnAfter first p.order).filter fun y => y != first)
      if o.idxOf me ≤ o.idxOf s then .east else .west

/-- A service cell sent toward a station of the ring. -/
def Half.sendTo (h : Half) (r s : Nat) (c : Cell) : Half := h.serve r (h.sideTo r s) c

/-- A service cell for every station: on both rotations (R305). -/
def Half.sendAll (h : Half) (r : Nat) (c : Cell) : Half := (h.serve r .east c).serve r .west c

/-! ## Paths (R286, R287) -/

/-- A record covers a slot. -/
def StreamRec.covers (s : StreamRec) (row lane : Nat) : Bool :=
  s.lane == lane && decide (s.first ≤ row) && decide (row < s.first + s.count)

/-- The record's rotation leaves across this side. -/
def StreamRec.side (s : StreamRec) : Side := if s.westward then .west else .east

/-- The stations that a cell of a record visits first on its way, in order, each with whether the cell has turned by then. -/
def Half.firstVisits (h : Half) (r : Nat) (s : StreamRec) : List (Nat × Bool) :=
  let x := h.ring r
  match x.plan with
  | none => []
  | some p =>
    let ps := if s.westward then (p.present x.seen).reverse else p.present x.seen
    match p.lines x.seen x.edge with
    | [] =>
      if ps.contains s.publisher then
        let rest := turnAfter s.publisher ps
        ((rest.takeWhile fun y => y != p.head) ++ [p.head]).map fun y => (y, false)
      else []
    | ls =>
      let line := (ls.find? fun l => l.contains (h.station r)).getD []
      let l := if s.westward then line.reverse else line
      if l.contains s.publisher then
        let i := l.idxOf s.publisher
        ((l.drop (i + 1)).map fun y => (y, false)) ++ ((l.take i).reverse.map fun y => (y, true))
      else []

/-- What a station does with a stream cell. -/
structure SlotAct where
  copy  : Bool
  strip : Bool
  /-- the cell has been turned already -/
  turned : Bool

/-- The record of a cell in a slot of the rotation that leaves across `side`, and whether the cell has turned. -/
def Half.recordOf (h : Half) (r : Nat) (side : Side) (row lane source : Nat) : Option (StreamRec × Bool) :=
  match (h.ring r).plan with
  | none => none
  | some p =>
    let fits (s : StreamRec) : Bool := s.source == source && s.sublink == h.id.num && s.covers row lane
    match p.streams.find? fun s => fits s && s.side == side with
    | some s => some (s, false)
    | none => (p.streams.find? fits).map fun s => (s, true)

/-- Copy and strip decisions of this station for a cell of a record (R287). -/
def Half.slotAct (h : Half) (r : Nat) (s : StreamRec) (turned : Bool) : SlotAct :=
  let v := h.firstVisits r s
  let me := h.station r
  let subs := v.filter fun x => bitAt s.subs x.1
  let mine := subs.any fun x => x.1 == me && x.2 == turned
  { copy := mine, strip := mine && (subs.getLast?.map fun x => x.1) == some me, turned := turned }

/-! ## Publishing and service cells in slots (R280, R288, R303) -/

/-- The station publishes and copies on a rotation (R288, R294 step 7). -/
def Half.active (h : Half) (r : Nat) (side : Side) : Bool := h.ringMember r && decide (2 ≤ ((h.ring r).rot side).laps)

/-- The rotation on which this station places the cells of a record of its own: the record's, or, where that ends at this station as
an end of a line, the one that it heads, onto which it turns them (R286). -/
def Half.placeSide (h : Half) (r : Nat) (s : StreamRec) : Side :=
  if h.endsTo r s.side && !h.flag (F.RNG_STATE_HEAD r) then s.side.other else s.side

/-- The record of this station that reserves a slot of the rotation that leaves across `side`. -/
def Half.ownRecord (h : Half) (r : Nat) (side : Side) (row lane : Nat) : Option StreamRec := match (h.ring r).plan with
  | none => none
  | some p => p.streams.find? fun s =>
    s.publisher == h.station r && s.sublink == h.id.num && h.placeSide r s == side && s.covers row lane

/-- The slots of a record that are still to come in a lap whose slot (row, lane) is passing. -/
def StreamRec.toCome (s : StreamRec) (row lane : Nat) : Nat :=
  let next := if s.lane < lane then row + 1 else row
  s.first + s.count - max s.first next

/-- The place, among the waiting cells of its stream, of the cell that a slot of a record takes: the slots of a lap are taken in record
order, so those of earlier records still to come come first (R288). -/
def Half.slotPlace (h : Half) (r : Nat) (s : StreamRec) (row lane : Nat) : Nat := match (h.ring r).plan with
  | none => 0
  | some p => ((p.streams.takeWhile fun x => x != s).filter fun x =>
      x.publisher == s.publisher && x.source == s.source && x.sublink == s.sublink).foldl (fun n x => n + x.toCome row lane) 0

/-- The window of a source that this half publishes. -/
def Half.pubWindow (h : Half) (ident : Nat) : Option Nat := (List.range h.sources.length).find? fun i => match h.source i with
  | none => false
  | some s => s.rcd.ident == ident && s.rcd.publish

/-- The cell that waits for a slot of a record, the `k`-th of its stream's waiting cells, and the half without it. -/
def Half.takeWaiting (h : Half) (r : Nat) (s : StreamRec) (k : Nat) : Option (Cell × Half) :=
  if s.forward then
    match (h.ring r).fwd.find? fun f => f.source == s.source && f.waiting != [] with
    | none => none
    | some f => f.waiting[k]?.map fun c => (c, h.onRing r fun (x : RingSt) => { x with
        fwd := x.fwd.map fun (g : FwdSt) => if g.source = s.source then { g with waiting := g.waiting.eraseIdx k } else g })
  else match h.pubWindow s.source with
    | none => none
    | some i => match h.source i with
      | none => none
      | some src => src.pub.waiting[k]?.map fun c => (c, h.onSource i fun (y : SourceSt) =>
          { y with pub := { y.pub with waiting := y.pub.waiting.eraseIdx k } })

/-- The rest of the frame that waits for a record's slots is not sent. -/
def Half.dropFrame (h : Half) (r : Nat) (s : StreamRec) : Half :=
  if s.forward then h.onRing r fun (x : RingSt) => { x with
    fwd := x.fwd.map fun (g : FwdSt) => if g.source = s.source then { g with waiting := [], cut := g.waiting.head?.map fun c => c.field 28 16 } else g }
  else match h.pubWindow s.source with
    | none => h
    | some i => h.onSource i fun (y : SourceSt) => { y with pub := { y.pub with waiting := [], cut := true } }

/-- A slot in which a service cell may be sent (R280): ring control in lane 3 of row 0, any of them in soft rows and in firm slots
that no record names. -/
def Half.freeFor (h : Half) (r row lane : Nat) (c : Cell) : Bool :=
  if row = 0 then lane == 3 && c.type == 14
  else if 3932 ≤ row then true
  else match (h.ring r).plan with
    | none => false
    | some p => !(p.streams.any fun s => s.sublink == h.id.num && s.covers row lane)

/-- The first waiting service cell that may use a slot. -/
def Half.takeService (h : Half) (r : Nat) (side : Side) (row lane : Nat) : Option (Cell × Half) :=
  (((h.ring r).rot side).wait.find? fun c => h.freeFor r row lane c).map fun c =>
    (c, h.onRot r side fun (x : RotSt) => { x with wait := dropFirst (fun y => y == c) x.wait })

/-- A slot as it leaves: a publisher's reserved slot takes its next cell when empty, and is a collision when full; another empty
slot may take a service cell (R280, R288). -/
def Half.fillSlot (h : Half) (t r : Nat) (side : Side) (row lane : Nat) (c : Cell) : Half × Cell :=
  match if h.active r side then h.ownRecord r side row lane else none with
  | some s =>
    if c.type ≠ 0 then (((h.dropFrame r s).tally (F.RNG_TALLY0_COLLIDE r) 1).ringFault t r 4 (leBytes 2 s.source), c)
    else match h.takeWaiting r s (h.slotPlace r s row lane) with
      | some w => (w.2, w.1)
      | none => (h, emptySlot)
  | none =>
    if c.type ≠ 0 then (h, c)
    else match h.takeService r side row lane with
      | some w => (w.2, w.1)
      | none => (h, emptySlot)

/-- A copied cell of a source that this gateway forwards waits for its slots on the other ring: at most one tile row (R303). -/
def Half.forwardCell (h : Half) (r : Nat) (c : Cell) : Half :=
  let q := 1 - r
  let source := c.field 16 12
  match (h.ring q).plan with
  | none => h
  | some p =>
    if p.streams.any fun s => s.forward && s.publisher == h.station q && s.source == source && s.sublink == h.id.num then
      let f := ((h.ring q).fwd.find? fun x => x.source == source).getD { source := source, waiting := [], cut := none }
      let put (g : FwdSt) (h : Half) : Half :=
        h.onRing q fun (x : RingSt) => { x with fwd := x.fwd.filter (fun y => y.source != source) ++ [g] }
      if f.cut = some (c.field 28 16) then h
      else if f.waiting.any fun w => w.field 53 9 != c.field 53 9 || w.field 28 16 != c.field 28 16 then
        (put { f with cut := some (c.field 28 16) } h).tally (F.RNG_TALLY1_FWDOVR q) 1
      else put { f with waiting := f.waiting ++ [c], cut := none } h
    else h

/-! ## Laps (R279, R283, R285) -/

/-- The segment at a side is one that the station treats as broken. -/
def RingSt.broken (x : RingSt) : Side → Bool
  | .west => x.brokenW
  | .east => x.brokenE

/-- The segment at a side is cut, in the topology in force or by this station's own finding: the station is an end there (R285). -/
def Half.cutAt (h : Half) (r : Nat) (side : Side) : Bool := (h.ring r).broken side || (match side with
  | .west => h.flag (F.RNG_STATE_ENDW r)
  | .east => h.flag (F.RNG_STATE_ENDE r))

/-- Rows of a rotation go out across a side: its link is up and its segment is not broken, across which only idle cells go
(R285). -/
def Half.sendsRows (h : Half) (r : Nat) (side : Side) : Bool :=
  !(h.ring r).broken side && (h.ringLink r side).any fun l => h.linkUp l

/-- LAPSTART fields that a station writes as it forwards or sends one (R283). -/
def Half.markStart (h : Half) (r : Nat) (c : LapStart) : LapStart :=
  let me := h.station r
  let joined := h.ringMember r
  let c1 : LapStart := if joined then { c with seen := setBitNat c.seen me true } else c
  let c2 : LapStart := if h.candidate r then { c1 with cand := setBitNat c1.cand me true } else c1
  let c3 : LapStart := { c2 with edge := c2.edge ||| h.ownEdges r }
  if h.isMaster r then { c3 with master := h.ringAddr r, mplan := h.get (F.RNG_PLANCRC_CRC r) } else c3

/-- What every LAPSTART shows, whether it goes on or ends here (R283, R294 step 7, R300). -/
def Half.learnMaster (h : Half) (r : Nat) (side : Side) (c : LapStart) : Half :=
  let joined := h.ringMember r
  (h.sets [(F.RNG_LAP_LAPNUM r, c.lapNum), (F.RNG_MPLANCRC_CRC r, c.mplan)]).onRing r fun (x : RingSt) =>
    ({ x with heard := some c.master } : RingSt).onRot side fun (z : RotSt) =>
      { z with kcand := c.kcand, laps := if joined then min 2 (z.laps + 1) else 0 }

/-- What a LAPSTART shows that passes here, or that a head sends (R289); the rotation's numbers go on from it (R279). -/
def Half.learn (h : Half) (r : Nat) (side : Side) (c : LapStart) : Half :=
  let joined := h.ringMember r
  let h1 := (((h.learnMaster r side c).setMap (F.RNG_SEEN_MAP r) c.kseen).setMap (F.RNG_EDGE_MAP r) c.kedge)
  h1.onRing r fun (x : RingSt) =>
    let y : RingSt := { x with
      newSeen := if joined then setBitNat c.kseen (h.station r) true else c.kseen
      newEdge := c.kedge }
    y.onRot side fun (z : RotSt) => { z with num := (c.lapNum + 1) % 2 ^ 16 }

/-- A lap boundary of the rotation that leaves across `side` at a leaving station: it stops at the first, and closes its bypass one lap
period later, at the next of the same rotation (R296). -/
def Half.leaveLap (h : Half) (t r : Nat) (side : Side) : Half :=
  if h.ringState r = rsLeaving then
    match (h.ring r).leaveOn with
    | none => (h.onRing r fun (x : RingSt) => { x with leaveOn := some side }).ringStopsCopy t
    | some s =>
    if s ≠ side then h
    else
      let h1 := if r = 0 then h.askOpen false else h
      let num (x : RotSt) : RotSt := { RotSt.reset with num := x.num }
      let h2 := h1.onRing r fun (x : RingSt) => { RingSt.reset with plan := x.plan, east := num x.east, west := num x.west }
      let h3 := h2.onRingRegs r fun h => h.sets
        [(F.RNG_STATE_STATE r, rsOff), (F.RNG_STATE_LINE r, 0), (F.RNG_STATE_SPLIT r, 0), (F.RNG_STATE_ENDW r, 0),
         (F.RNG_STATE_ENDE r, 0), (F.RNG_STATE_HEAD r, 0), (F.RNG_STATE_MASTER r, 0), (F.RNG_STATE_CAND r, 0),
         (F.RNG_TOPO_WEND r, 0xFF), (F.RNG_TOPO_EEND r, 0xFF), (F.RNG_TOPO_LINES r, 0)]
      h3.ringStopsCopy t
  else h

/-- SEEN, CAND and EDGE that a head has collected: from both rotations in a loop, from the one that ended here in a line
(R283). -/
def Half.collected (h : Half) (r : Nat) (side : Side) : Nat × Nat × Nat :=
  let x := h.ring r
  let own : Nat × Nat × Nat := (setBitNat 0 (h.station r) true, if h.candidate r then setBitNat 0 (h.station r) true else 0, h.ownEdges r)
  let or3 (a : Nat × Nat × Nat) (b : Option (Nat × Nat × Nat)) : Nat × Nat × Nat := match b with
    | some y => (a.1 ||| y.1, a.2.1 ||| y.2.1, a.2.2 ||| y.2.2)
    | none => a
  if h.flag (F.RNG_STATE_HEAD r) then or3 (or3 own x.east.ended) x.west.ended else or3 own (x.rot side.other).ended

/-- The LAPSTART that a head sends across a side (R279, R283). -/
def Half.headStart (h : Half) (r : Nat) (side : Side) : LapStart :=
  let k := h.collected r side
  let none_ := !h.hasMaster r
  h.markStart r {
    addr := h.ringAddr r, lapNum := ((h.ring r).rot side).num, mplan := if none_ then 0 else h.get (F.RNG_MPLANCRC_CRC r)
    seen := 0, cand := 0, edge := 0, kseen := k.1, kcand := k.2.1, kedge := k.2.2
    master := if none_ then 0x3FFF else ((h.ring r).heard.filter fun a => a != 0x3FFF).getD (h.get (F.RNG_MASTER_ADDR r))
    ring := ((h.ring r).plan.map fun p => p.ring).getD 0, rot := side == .west, line := h.flag (F.RNG_STATE_LINE r) }

/-- Row 0 of a lap across a side: soft rows not begun are dropped, turned cells of the lap before go into this one (R281,
R286). -/
def Half.beginLap (h : Half) (r : Nat) (side : Side) (c : LapStart) : Half :=
  let x := (h.ring r).rot side
  let drop := match x.next with
    | some n => if 0 < n ∧ h.sendsRows r side then 4096 - n else 0
    | none => 0
  ((h.onRot r side fun (y : RotSt) => { y with
    next := some 0, due := false, start := some (lapStartCell c), turn := y.turning, turning := [], part := [], out := [] }).tally
      (F.RNG_TALLY1_SOFTDROP r) drop).learn r side c

/-- A head starts a lap across a side, or notes that row 0 is due while firm rows of a lap under way remain; a lap none of whose
rows was asked for by a TX_CELL_ROW counts as sent (log entry 32). -/
def Half.startLap (h : Half) (r : Nat) (side : Side) : Half :=
  if h.headsTo r side then
    match ((h.ring r).rot side).next with
    | some n =>
      if 0 < n ∧ n < 3932 ∧ h.sendsRows r side then h.onRot r side fun (y : RotSt) => { y with due := true } else h.beginLap r side (h.headStart r side)
    | none => h.beginLap r side (h.headStart r side)
  else h

/-- Candidates that the peer half's plane shows. -/
def Module.otherCands (m : Module) (h : HalfId) (r : Nat) : Nat :=
  if linkOk (m.half h) (m.half h.peer) then ((m.half h.peer).ring r).cands else 0

/-- The lap period of a ring, by the plan's RATE (R279). -/
def Half.lapNs (h : Half) (r : Nat) : Nat := ringLapNs (((h.ring r).plan.map fun p => p.rate).getD 4)

/-- One lap period after the previous row 0 (R279): a lap boundary of the station, at which a head begins a lap of each rotation that it
heads. -/
def Module.ringLapStart (m : Module) (t : Nat) (h : HalfId) (r : Nat) : Module :=
  m.onLive h fun x =>
    let st := x.ringState r
    if st = rsJoined ∨ st = rsLeaving then
      let x1 := (x.applyTopo t r).onRing r fun (y : RingSt) => { y with lapAt := some t }
      let side := if x1.headsTo r .east then Side.east else if x1.headsTo r .west then .west else (x1.ring r).leaveOn.getD .east
      let x2 := x1.leaveLap t r side
      if x2.headsTo r .east || x2.headsTo r .west then
        ((x2.startLap r .east).startLap r .west).computeMaster t r (m.otherCands h r)
      else x2
    else x

/-- One row of a lap that this station heads: LAPSTART, time cells and a free lane in row 0, turned cells and empty slots after
it (R280, R285, R311). A turned cell leaves the turn buffer as it goes. -/
def Half.headRow (h : Half) (t r : Nat) (side : Side) (row : Nat) : Half × List Cell :=
  let lb := h.lb t
  (List.range 4).foldl (fun (acc : Half × List Cell) lane =>
    let x := (acc.1.ring r).rot side
    let base : Half × Cell :=
      if row = 0 then
        if lane = 0 then (acc.1, x.start.getD emptySlot)
        else if lane = 1 then acc.1.timeCell .a r lb
        else if lane = 2 then acc.1.timeCell .b r lb
        else (acc.1, emptySlot)
      else (acc.1, ((x.turn.find? fun y => y.1 == row && y.2.1 == lane).map fun y => y.2.2).getD emptySlot)
    let w := base.1.fillSlot t r side row lane base.2
    (w.1.onRot r side fun (y : RotSt) => { y with turn := y.turn.filter fun z => z.1 != row || z.2.1 != lane }, acc.2 ++ [w.2])) (h, [])

/-- The ring and side of a link of the port plan. -/
def Half.ringSide (h : Half) (l : Nat) : Option (Nat × Side) :=
  let k := (h.linkRec l).kind
  if 2 ≤ k ∧ k ≤ 5 then some ((k - 2) / 2, if k % 2 = 0 then .west else .east) else none

/-- Before a row is sent on a ring link, the next row of its rotation is given to the link (R279, R281). -/
def Half.feedRing (h : Half) (t l : Nat) : Half :=
  match h.ringSide l with
  | none => h
  | some (r, side) =>
    if (h.run l).queue ≠ [] ∨ (h.ring r).broken side then h
    else
      let give (h : Half) (cs : List Cell) : Half := h.onRun l fun (y : LinkRun) => { y with queue := cs }
      let h0 := match ((h.ring r).rot side).next with
        | some n => if ((h.ring r).rot side).due && decide (3932 ≤ n) then h.beginLap r side (h.headStart r side) else h
        | none => h
      let x := (h0.ring r).rot side
      match x.next with
      | some n =>
        if n < 4096 then
          let w := h0.headRow t r side n
          give (w.1.onRot r side fun (y : RotSt) => { y with next := some (n + 1) }) w.2
        else h0
      | none => match x.out with
        | [] => h0
        | row :: rest => give (h0.onRot r side fun (y : RotSt) => { y with out := rest }) row.2

/-! ## Joining (R294 to R296) -/

/-- A join that cannot proceed: bypass closed, JOINRES, fault class RING code 5, or CFG code 4 for another plan (R91, R294). -/
def Half.joinFails (h : Half) (t r result : Nat) (local_ : Bool) : Half :=
  let h1 := if r = 0 then h.askOpen false else h
  let h2 := (h1.onRingRegs r fun h => (h.set (F.RNG_STATE_JOINRES r) result).set (F.RNG_STATE_STATE r) rsRefused).tally
    (F.RNG_TALLY1_REFUSED r) 1
  if local_ && result == 1 then h2.fault t clsCfg 4 h.id.num (leBytes 2 0x71 ++ leBytes 2 r)
  else h2.ringFault t r 5 []

/-- With both ring links UP an opening station sends JOIN to the master (R294 step 5). -/
def Half.tryJoin (h : Half) (r : Nat) : Half :=
  let up (side : Side) : Bool := (h.ringLink r side).any fun l => h.linkUp l
  match (h.ring r).plan, (h.ring r).heard with
  | some p, some m =>
    if h.ringState r = rsOpening ∧ up .west ∧ up .east then
      let me := h.station r
      let seen := (h.ring r).newSeen
      let c : JoinCell := {
        addr := h.ringAddr r, crc := p.crc, west := (p.neighbour seen me .west).getD me
        east := (p.neighbour seen me .east).getD me
        cand := ((h.image.map fun i => bitAt i.man.roles 2).getD false) && decide (4 ≤ h.get F.RST_STRAP_INDEX ∧ h.get F.RST_STRAP_INDEX ≤ 6) }
      (h.ringEnter r rsJoining).sendTo r (m % 128) (joinCell c m)
    else h
  | _, _ => h

/-- Steps 1 to 4 of joining, at a LAPSTART (R294). -/
def Half.listen (h : Half) (t r : Nat) (c : LapStart) : Half :=
  if c.master = 0x3FFF then h
  else if c.mplan ≠ h.get (F.RNG_PLANCRC_CRC r) then h.joinFails t r 1 true
  else if bitAt c.kseen (h.station r) then h.joinFails t r 2 true
  else ((if r = 0 then h.askOpen true else h).ringEnter r rsOpening).tryJoin r

/-- The rows of an earlier lap that have not been sent when row 0 arrives: soft rows are dropped (R281). -/
def Half.dropSoft (h : Half) (r : Nat) (side : Side) : Half :=
  let x := ((h.ring r).rot side).flush
  let keep := x.out.filter fun y => decide (y.1 < 3932)
  (h.onRot r side fun _ => { x with out := keep, row := 0 }).tally (F.RNG_TALLY1_SOFTDROP r) (x.out.length - keep.length)

/-- The ring's cells pass through the station: its bypass is open. -/
def Half.ringInline (h : Half) (r : Nat) : Bool :=
  let s := h.ringState r
  s == rsOpening || s == rsJoining || s == rsJoined || s == rsLeaving

/-- A LAPSTART arrives across `from_` (R283, R289, R294, R297, R300): a lap boundary of the station, at which the topology learned before
it takes effect. It ends at a head; across a segment that is cut in the topology in force alone it shows the topology of another
line, and goes no further (R298). -/
def Module.lapstart (m : Module) (t : Nat) (h : HalfId) (r : Nat) (from_ : Side) (c : LapStart) : Module :=
  m.onLive h fun x =>
    let side := from_.other
    match (x.ring r).plan with
    | none => x
    | some p =>
      let st := x.ringState r
      if c.ring ≠ p.ring ∨ st = rsOff ∨ (x.ring r).broken from_ then x
      else
        let x0 : Half := if c.addr = x.ringAddr r then x else x.onRing r fun (y : RingSt) => { y with alone := false }
        let x1 := ((x0.applyTopo t r).dropSoft r side).onRot r side fun (y : RotSt) => { y with heardAt := t }
        let x2 := if x1.headsTo r side then x1 else x1.leaveLap t r side
        let ends := x2.endsTo r side
        let out := x2.markStart r c
        let x3 := if ends then (x2.learnMaster r side c).onRot r side fun (y : RotSt) => { y with ended := some (out.seen, out.cand, out.edge) }
          else x2.learn r side c
        let x4 := if x3.ringInline r && !ends && !x3.headsTo r side then x3.onRot r side fun y => y.place 0 (lapStartCell out) else x3
        let x5 := x4.computeMaster t r (m.otherCands h r)
        if st = rsListen then x5.listen t r c else x5

/-- A JOIN reaches the ring master (R294 step 6). -/
def Half.joinArrives (h : Half) (r : Nat) (c : JoinCell) : Half :=
  match (h.ring r).plan with
  | none => h
  | some p =>
    if h.isMaster r then
      let seen := (h.ring r).seen
      let n := c.addr % 128
      let result := if c.crc ≠ p.crc then 1 else if bitAt seen n then 2
        else if p.neighbour seen n .west = some c.west ∧ p.neighbour seen n .east = some c.east ∧ p.order.contains n then 0 else 3
      h.sendTo r n (joinAckCell (h.ringAddr r) c.addr result)
    else h

/-- A JOINACK arrives (R294 steps 6 and 7). -/
def Half.joinAckArrives (h : Half) (t r dest result : Nat) : Half :=
  if h.ringState r = rsJoining ∧ dest = h.ringAddr r then
    if result = 0 then
      let fresh (x : RotSt) : RotSt := { x with laps := 0, heardAt := t }
      ((h.onRingRegs r fun h => (h.set (F.RNG_STATE_JOINRES r) 0).set (F.RNG_STATE_STATE r) rsJoined).onRing r fun (x : RingSt) =>
        { x with
          brokenW := false, brokenE := false, newSeen := setBitNat x.newSeen (h.station r) true, east := fresh x.east,
          west := fresh x.west }).showCandidate r
    else h.joinFails t r (result % 4) false
  else h

/-- A LEAVE arrives (R296): a head no longer shows the station's bit from its next LAPSTART. -/
def Half.leaveArrives (h : Half) (r addr : Nat) : Half :=
  let n := addr % 128
  let off (e : Option (Nat × Nat × Nat)) : Option (Nat × Nat × Nat) := e.map fun x => (setBitNat x.1 n false, setBitNat x.2.1 n false, x.2.2)
  if h.ringState r = rsJoined ∧ ((h.ring r).plan.map fun p => p.ring) = some (ringOf addr) then
    h.onRing r fun (x : RingSt) =>
      { x with east := { x.east with ended := off x.east.ended }, west := { x.west with ended := off x.west.ended } }
  else h

/-- A write of RNG_CTRL.JOINEN (R294, R296). -/
def Half.joinEnable (h : Half) (r : Nat) (on : Bool) : Half :=
  let st := h.ringState r
  let h1 := h.setFlag (F.RNG_CTRL_JOINEN r) on
  if on then
    if (st = rsOff ∨ st = rsRefused) ∧ (h.ring r).plan ≠ none then
      h1.onRingRegs r fun h => (h.set (F.RNG_STATE_JOINRES r) 0xF).set (F.RNG_STATE_STATE r) rsListen
    else h1
  else if st = rsJoined then
    ((h1.sendAll r (leaveCell (h.ringAddr r))).onRing r fun (x : RingSt) => { x with leaveOn := none }).ringEnter r rsLeaving
  else if st = rsLeaving ∨ st = rsOff then h1
  else (if r = 0 then h1.askOpen false else h1).ringEnter r rsOff

/-- A master candidate that has seen no LAPSTART opens its bypass and heads as a line of one, naming itself master (R295). -/
def Half.candidateAlone (h : Half) (t r : Nat) : Half :=
  let s := h.get F.RST_STRAP_INDEX
  let may := ((h.image.map fun i => bitAt i.man.roles 2).getD false) && decide (4 ≤ s) && decide (s ≤ 6)
  if may && h.ringState r == rsListen && (h.ring r).heard == none && (h.ring r).plan != none then
    let me := h.station r
    let h1 := (if r = 0 then h.askOpen true else h).ringEnter r rsJoined
    let h2 := ((h1.cutSegment t r .west).cutSegment t r .east).onRing r fun (x : RingSt) => { x with
      newSeen := setBitNat 0 me true, newEdge := 0, heard := some (h.ringAddr r), alone := true
      east := { x.east with heardAt := t }, west := { x.west with heardAt := t } }
    let h3 := (h2.set (F.RNG_MPLANCRC_CRC r) (h.get (F.RNG_PLANCRC_CRC r))).onRingRegs r fun h =>
      (h.set (F.RNG_MASTER_ADDR r) (h.ringAddr r)).set (F.RNG_STATE_MASTER r) 1
    let h4 := if h.get (F.RNG_MASTER_ADDR r) = h.ringAddr r then h3 else (h3.tally (F.RNG_TALLY0_MASTERCHG r) 1).ringFault t r 2 []
    h4.applyTopo t r
  else h

/-! ## Breaks and healing (R297, R298) -/

/-- The segment at a side becomes broken. -/
def Half.breakSegment (h : Half) (t r : Nat) (side : Side) : Half :=
  if h.ringState r = rsJoined ∧ (h.ring r).broken side = false then
    let h1 := h.cutSegment t r side
    (h1.onRot r side.other fun (x : RotSt) => { x with part := [] }).ringStopsCopy t
  else h

/-- A ring link goes down. -/
def Half.ringLinkDown (h : Half) (t r : Nat) (side : Side) : Half := ((h.breakSegment t r side).ringStopsCopy t).noteWhole t r

/-- No valid LAPSTART on a rotation for 4 lap periods (R297). -/
def Half.lapstartTimeout (h : Half) (t r : Nat) (from_ : Side) : Half :=
  let again (h : Half) : Half := (h.tally (F.RNG_TALLY1_NOLAP r) 4).onRot r from_.other fun (y : RotSt) => { y with heardAt := t }
  if h.ringState r = rsJoined ∧ (h.ring r).broken from_ = false then (again h).breakSegment t r from_
  else if h.ringInline r then again h
  else h

/-- 4 lap periods after the last valid LAPSTART of the rotation that arrives across `from_` (R297). -/
def Half.lapstartDue (h : Half) (r : Nat) (from_ : Side) : Nat := ((h.ring r).rot from_.other).heardAt + 4 * h.lapNs r

/-- Since when a segment has been fit to be whole. -/
def RingSt.whole (x : RingSt) : Side → Option Nat
  | .west => x.wholeW
  | .east => x.wholeE

/-- The end of the 16 lap periods for which a segment must be fit to be whole (R298). DEDUCED (log entry 131; unsafe): they count from
when its link is up and its run within the limit, and where the link stayed up, from the break. -/
def Half.healDue (h : Half) (r : Nat) (side : Side) : Nat := (((h.ring r).whole side).map fun a => a + 16 * h.lapNs r).getD 0

/-- The segment at a side has been whole for 16 lap periods, its link up and its own run within the limit (R298, R299): its EDGE bit
clears. -/
def Half.segmentHealed (h : Half) (r : Nat) (side : Side) : Half :=
  let x := h.ring r
  let up := (h.ringLink r side).any fun l => h.linkUp l
  if up && !h.runOver r x.newSeen side && x.broken side then
    (h.onRing r fun (y : RingSt) => match side with
      | .west => { y with brokenW := false }
      | .east => { y with brokenE := false }).onRot r side.other fun (y : RotSt) => { y with heardAt := max y.heardAt (h.healDue r side) }
  else h

/-! ## Cells passing (R281, R286, R287) -/

/-- A management cell addressed, on this hop, to this station (R305): a cell that an even number of relays has passed travels to
the ring's master, another one to its destination or to the gateway that reaches its ring. -/
def Half.mgmtHere (h : Half) (r : Nat) (dest hops : Nat) : Bool :=
  match (h.ring r).plan with
  | none => false
  | some p =>
    if hops = 0 ∧ ringOf dest = p.ring then dest == h.ringAddr r
    else if hops % 2 = 0 then h.isMaster r
    else if ringOf dest = p.ring then dest == h.ringAddr r
    else p.gateways.any fun g => g.station == h.station r && bitAt g.reach (ringOf dest)

/-- The station takes a service cell out of the ring, and what it does with it is another matter. -/
def Half.takesService (h : Half) (r : Nat) (c : Cell) : Bool :=
  if c.type = 3 then decide (2 ≤ c.field 16 4)
  else if c.type = 14 then
    match c.field 16 4 with
    | 1 => h.isMaster r
    | 2 => c.field 34 14 == h.ringAddr r
    | 3 => false
    | _ => true
  else h.mgmtHere r (c.field 16 14) (c.field 60 4)

/-- The cell is of a stream (types 1 and 2). -/
def Cell.isTile (c : Cell) : Bool := c.type == 1 || c.type == 2

/-- A cell that arrives in a slot, other than LAPSTART and the time cells of row 0: what the station takes, the cell as it goes
on, and the half with a turned cell kept. -/
def Half.slotArrives (h : Half) (r : Nat) (side : Side) (row lane : Nat) (c : Cell) : Half × Bool × Cell :=
  let ends := h.endsTo r side
  if c.isTile then
    match h.recordOf r side row lane (c.field 16 12) with
    | none => (h, false, c)
    | some (s, turned) =>
      let a := h.slotAct r s turned
      let h1 := if ends && !h.flag (F.RNG_STATE_HEAD r) && !turned && !a.strip then
          h.onRot r side.other fun (x : RotSt) => { x with turning := x.turning ++ [(row, lane, c)] } else h
      (h1, a.copy && h.active r side, if a.strip then emptySlot else c)
  else if c.type = 0 then (h, false, c)
  else
    let take := h.takesService r c
    (h, take || (c.type == 14 && c.field 16 4 == 3), if take then emptySlot else c)

/-- A cell arrives across `from_` in lane `pos` of a ring link (R281): the cells that the station takes out or copies are
answered. -/
def Module.ringCell (m : Module) (t : Nat) (h : HalfId) (r : Nat) (from_ : Side) (pos : Nat) (c : Cell) (stamp : Nat) : Module × List Cell :=
  let side := from_.other
  let x := m.half h
  if c.type = 14 ∧ c.field 16 4 = 0 then (m.lapstart t h r from_ (lapStartOf c), [])
  else if x.cutAt r from_ then (m, [])
  else
    let x1 := if pos = 0 then x.onRot r side fun (y : RotSt) => { y.flush with row := (y.row + 1) % 4096 } else x
    let row := ((x1.ring r).rot side).row
    if row = 0 ∧ c.type = 3 ∧ c.field 16 4 = 1 then (m.setHalf h (x1.syncArrives t r from_ (syncOfCell c) stamp), [])
    else if row = 0 ∧ c.type = 3 ∧ c.field 16 4 = 0 then
      match domainOf (c.field 20 2) with
      | none => (m.setHalf h (x1.passOn r side pos c), [])
      | some d =>
        let w := if x1.isSource d r then x1.timeCell d r (x1.lb t) else (x1, c)
        (m.setHalf h (w.1.passOn r side pos w.2), [])
    else
      let w := x1.slotArrives r side row pos c
      let got := if w.2.1 then [c] else []
      if w.1.endsTo r side || !w.1.ringInline r then (m.setHalf h w.1, got)
      else
        let f := w.1.fillSlot t r side row pos w.2.2
        (m.setHalf h (f.1.onRot r side fun y => y.place pos f.2), got)

/-- RNG block idle for a block reset (R68): the station has left its rings on this plane. -/
def Half.ringIdle (h : Half) : Bool := [0, 1].all fun r => h.ringState r == rsOff || h.ringState r == rsRefused

/-- Both ring links of a joined station, or of one that follows: used at the end of step 8 (R60). -/
def Half.ringDone (h : Half) : Bool :=
  let one (r : Nat) : Bool := (h.ring r).plan == none || h.ringState r == rsJoined
  one 0 && one 1

end Sys2Proof.Machine
end

