-- ==== Sys2Proof/Machine/Host.lean ====
section
/-!
DEFINITION. The host block (chapter 17) but for the requests themselves: management cells and their way over the rings (R305,
R374, R382), completions and kept completions (R376, R377, R381), the output queue of the service port and the engine inboxes
(R385, R386), and the events of subscriptions (R383).
-/
namespace Sys2Proof.Machine

/-! ## Management cells (R374) -/

/-- The header of a management cell. -/
def mgmtHdr (dest src tag origin opcode hops len status : Nat) : Nat := hdrOf
  [(16, 14, dest), (30, 14, src), (44, 8, tag), (52, 4, origin), (56, 4, opcode), (60, 4, hops), (64, 8, len), (72, 8, status)]

/-- A completion or an event as a cell. -/
def rspCell (c : MgmtRsp) : Cell :=
  { type := if c.event then 6 else 5
    hdr := mgmtHdr c.dest c.src c.tag c.origin c.opcode c.hops c.len c.status
    payload := padTo 240 c.payload }

/-- A request as a cell. -/
def reqCell (c : MgmtReq) : Cell :=
  { type := 4, hdr := mgmtHdr c.dest c.src c.tag c.origin c.opcode c.hops c.len 0, payload := padTo 240 c.payload }

/-- A cell read as a completion or an event. -/
def rspOfCell (c : Cell) : MgmtRsp :=
  { event := c.type == 6, dest := c.field 16 14, src := c.field 30 14, tag := c.field 44 8, origin := c.field 52 4
    opcode := c.field 56 4, hops := c.field 60 4, len := c.field 64 8, status := c.field 72 8
    payload := c.payload.take (c.field 64 8) }

/-- A cell read as a request. -/
def reqOfCell (c : Cell) : MgmtReq :=
  { dest := c.field 16 14, src := c.field 30 14, tag := c.field 44 8, origin := c.field 52 4, opcode := c.field 56 4
    hops := c.field 60 4, len := c.field 64 8, payload := c.payload.take (c.field 64 8) }

/-- The cell with a further relay counted in HOPS. -/
def Cell.hopped (c : Cell) : Cell := { c with hdr := c.hdr - c.field 60 4 * 2 ^ 32 + (c.field 60 4 + 1) % 16 * 2 ^ 32 }

/-! ## The way over the rings (R305, R382) -/

/-- What becomes of a management cell that this station puts on its way. -/
inductive RelayEnd where
  /-- placed on a ring -/
  | sent
  /-- this station is the addressee -/
  | here
  /-- a check of R382 fails, or the ring has no master -/
  | refused
  deriving DecidableEq, Repr

/-- The address lies on ring `r` of this plane. -/
def Half.onRingOf (h : Half) (r dest : Nat) : Bool := match (h.ring r).plan with
  | some p => ringOf dest == p.ring
  | none => false

/-- The gateway of ring `r` whose REACH holds the ring of an address, present in KSEEN. -/
def Half.gatewayTo (h : Half) (r dest : Nat) : Option Nat := match (h.ring r).plan with
  | some p => (p.gateways.find? fun g =>
      bitAt g.reach (ringOf dest) && (g.station == h.station r || bitAt (h.ring r).seen g.station)).map fun g => g.station
  | none => none

/-- Management cells waiting for a slot on this plane. -/
def Half.relayQueue (h : Half) : Nat :=
  let n (x : RotSt) : Nat := (x.wait.filter fun c => 4 ≤ c.type && c.type ≤ 6).length
  (h.rings.map fun x => n x.east + n x.west).sum

/-- A relay of R382 at ring `r` may pass a cell on. -/
def Half.relayPasses (h : Half) (r : Nat) (c : Cell) : Bool :=
  (h.onRingOf r (c.field 16 14) || (h.gatewayTo r (c.field 16 14)).isSome) && decide (c.field 60 4 < 8)
    && decide (h.relayQueue < 256)

/-- A management cell on its way on ring `r` of this plane: to the ring's master while an even number of relays has passed it
(but straight to an addressee on the sender's own ring), else to the addressee or to the gateway that reaches it. A station that
is itself the next relay passes it on (R305, R382). -/
def Half.route : Nat → Half → Nat → Cell → Half × RelayEnd
  | 0, h, _, _ => (h, .refused)
  | n + 1, h, r, c =>
    let dest := c.field 16 14
    let hops := c.field 60 4
    let last (h : Half) : Half × RelayEnd :=
      if dest = h.ringAddr r then (h, .here) else (h.sendTo r (dest % 128) c, .sent)
    if !h.ringJoined r then (h, .refused)
    else if hops = 0 ∧ h.onRingOf r dest then last h
    else if hops % 2 = 0 then
      if h.isMaster r then
        if h.relayPasses r c then Half.route n h r c.hopped else (h, .refused)
      else if h.hasMaster r then (h.sendTo r (h.get (F.RNG_MASTER_ADDR r) % 128) c, .sent)
      else (h, .refused)
    else if h.onRingOf r dest then last h
    else match h.gatewayTo r dest with
      | none => (h, .refused)
      | some g =>
        if g = h.station r then
          if h.relayPasses r c then Half.route n h (1 - r) c.hopped else (h, .refused)
        else (h.sendTo r g c, .sent)

/-- The ring of this plane on which a cell of this station starts: the addressee's own, else one with another station as
gateway to it, else the first joined ring. -/
def Half.ringFor (h : Half) (dest : Nat) : Option Nat :=
  let joined := [0, 1].filter h.ringJoined
  match joined.find? fun r => h.onRingOf r dest with
  | some r => some r
  | none => match joined.find? fun r => (match h.gatewayTo r dest with
      | some g => g != h.station r
      | none => false) with
    | some r => some r
    | none => joined.head?

/-- A cell of this station put on its way on this plane. -/
def Half.sendMgmt (h : Half) (c : Cell) : Half × RelayEnd := match h.ringFor (c.field 16 14) with
  | some r => Half.route 10 h r c
  | none => (h, .refused)

/-! ## The service port's queue and the engines' inboxes -/

/-- The host block of a half changed. -/
def Half.onHost (h : Half) (f : HostSt → HostSt) : Half := { h with host := f h.host }

/-- Header and payload of a COMPLETION or EVENT frame (R385). -/
def rspBody (c : MgmtRsp) : List Byte :=
  beBytes 10 (mgmtHdr c.dest c.src c.tag c.origin c.opcode c.hops c.len c.status) ++ padTo c.len c.payload

/-- A frame enters the output queue: a completion or reply always has room, an event only outside the 64 reserved places
(R386). -/
def Half.putFrame (h : Half) (kind : Nat) (body : List Byte) : Half :=
  let full := 64 ≤ (h.host.queue.filter fun f => f.kind == 2).length
  if kind = 2 ∧ full then h.tally F.HST_SVCTALLY_EVDROP 1
  else h.onHost fun (x : HostSt) => { x with queue := x.queue ++ [⟨kind, body, none⟩] }

/-- A frame for the service port's host, in the half that holds the port (R17, R386). -/
def Module.toService (m : Module) (kind : Nat) (body : List Byte) : Module :=
  m.onLive m.holder fun h => h.putFrame kind body

/-- What half `h` has for half `k` reaches it: its own, or over the half link (R17, R386). -/
def Module.reaches (m : Module) (h k : HalfId) : Bool := h == k || linkOk (m.half h) (m.half k)

/-- A completion or event reaches an engine: 64 places for completions and 16 for events; the request that it answers is
outstanding no more, and source 4 is raised (R356, R374). -/
def Half.toEngine (h : Half) (n : Nat) (c : MgmtRsp) : Half :=
  let e := h.engine n
  let room := (e.inbox.filter fun x => x.event == c.event).length < (if c.event then 16 else 64)
  let h1 := if c.event then h else
    h.onEngine n fun (e : Engine) => { e with sent := dropFirst (fun s => s == (c.src, c.tag)) e.sent }
  if room then (h1.onEngine n fun (e : Engine) => { e with inbox := e.inbox ++ [c] }).raiseAt n irqHost else h1

/-- A completion or event that has reached this station is handed to its origin (R374), over the half link if that is with the other
half. -/
def Module.giveRsp (m : Module) (h : HalfId) (c : MgmtRsp) : Module :=
  if c.origin = 8 then if m.reaches h m.holder then m.toService (if c.event then 2 else 1) (rspBody c) else m
  else if c.origin < 8 then
    if m.reaches h (halfOf (c.origin / 4)) then m.onLive (halfOf (c.origin / 4)) fun x => x.toEngine (c.origin % 4) c else m
  else m.onHalf h fun x => x.tally F.HST_MGTTALLY_DISCARD 1

/-- A completion or event of half `h` travels to its requester: to the service port's host, or as a cell on the plane of the
half. One that cannot be sent is lost (R382). -/
def Module.deliver (m : Module) (h : HalfId) (who : Requester) (c : MgmtRsp) : Module :=
  if who.service then if m.reaches h m.holder then m.toService (if c.event then 2 else 1) (rspBody c) else m
  else
    let w := (m.half h).sendMgmt (rspCell c)
    let m1 := m.setHalf h w.1
    match w.2 with
    | .sent => m1
    | .here => m1.giveRsp h c
    | .refused => m1.onHalf h fun x => x.tally F.HST_MGTTALLY_DISCARD 1

/-! ## Completions (R376, R377, R381) -/

/-- The address under which a half answers a requester of station `s`: the one of the two that shares its ring, else ADDR0. -/
def Half.answerAddr (h : Half) (s : Nat) : Nat :=
  if (h.ring 1).plan.isSome ∧ ringOf s = ringOf (h.ringAddr 1) then h.ringAddr 1 else h.ringAddr 0

/-- FLAGS of a completion. -/
def rspFlags (late untrusted again : Bool) : Nat := bit late + 2 * bit untrusted + 4 * bit again

/-- The payload of a completion: SESSION, FLAGS, and what follows from byte 3. -/
def Half.rspPayload (h : Half) (flags : Nat) (rest : List Byte) : List Byte :=
  beBytes 2 (h.get F.HST_SESSION_SESSION) ++ [BitVec.ofNat 8 flags] ++ rest

/-- A completion of half `h`. -/
def Half.completion (h : Half) (who : Requester) (tag opcode status flags : Nat) (rest : List Byte) : MgmtRsp :=
  let p := h.rspPayload flags rest
  { event := false, dest := who.station, src := h.answerAddr who.station, tag := tag, origin := who.origin, opcode := opcode
    hops := 0, len := p.length, status := status, payload := p }

/-- The bytes from byte 3 on for lateness in bytes 8 to 15. -/
def lateRest (late : Option Int) : List Byte := match late with
  | some d => List.replicate 5 0 ++ beBytes 8 (unsigned 64 d)
  | none => []

/-- The bytes from byte 3 on for a refused access. -/
def accessRest (d : Denial) : List Byte :=
  [0, BitVec.ofNat 8 d.cause, BitVec.ofNat 8 d.region, 0, 0] ++ beBytes 5 d.first

/-- The bytes from byte 3 on for data that start at byte 16. -/
def dataRest (data : List Byte) : List Byte := List.replicate 13 0 ++ data

/-- A frame of the output queue is a completion of this module's own that has not been sent. -/
def Half.ownUnsent (h : Half) (f : SvcOut) : Bool :=
  f.kind == 1 && f.oseq.isNone && (beAt f.body 0 10 / 2 ^ 52) % 2 ^ 14 == h.ringAddr 0

/-- A completion frame of this module's own, with this tag, waits to be sent to the service port's host. -/
def Half.unsent (h : Half) (tag : Nat) : Bool := h.host.queue.any fun f =>
  h.ownUnsent f && (beAt f.body 0 10 / 2 ^ 44) % 256 == tag

/-- A request of this tag is outstanding in the half: it has not been answered, or its answer has not been sent. -/
def Half.tagBusy (h : Half) (who : Requester) (tag : Nat) : Bool :=
  h.host.outstanding.any (fun o => o.who == who && o.tag == tag) || (who.service && h.unsent tag)

/-- A half keeps the completion of a request other than READ that completed DONE, the last 64 of each requester (R381). -/
def HostSt.keep (x : HostSt) (k : Kept) : HostSt :=
  let mine := (k :: x.kept.filter fun y => y.who == k.who).take 64
  { x with kept := mine ++ x.kept.filter fun y => y.who != k.who }

/-- A request is answered without having been outstanding. -/
def Module.answer (m : Module) (h : HalfId) (who : Requester) (c : MgmtRsp) : Module :=
  (m.onHalf h fun x => x.tally F.HST_MGTTALLY_REQS 1).deliver h who c

/-- An outstanding request completes. A request that a reset of the half has discarded has no completion (R380). -/
def Module.complete (m : Module) (h : HalfId) (who : Requester) (tag opcode len : Nat) (payload : List Byte) (status flags : Nat)
    (rest : List Byte) : Module :=
  let x := m.half h
  if x.host.outstanding.contains ⟨who, tag⟩ then
    let c := x.completion who tag opcode status flags rest
    let done (s : HostSt) : HostSt := { s with outstanding := dropFirst (fun o => o == ⟨who, tag⟩) s.outstanding }
    let keep (s : HostSt) : HostSt :=
      if opcode ≠ 0 ∧ status = stDone then s.keep ⟨who, tag, opcode, len, payload, c⟩ else s
    (m.onHalf h fun x => x.onHost fun s => keep (done s)).answer h who c
  else m

/-- A completed selection or change is reported to whoever made it. -/
def Module.finish (m : Module) (f : Finish) : Module := match f.origin with
  | .none => m
  | .reg h n => m.onLive h fun x => x.showResult n f.status f.what
  | .host h who tag opcode len payload =>
    m.complete h who tag opcode len payload f.status (rspFlags f.late.isSome f.untrusted false) (lateRest f.late)

/-- Several completions in turn. -/
def Module.finishAll (m : Module) (fs : List Finish) : Module := fs.foldl Module.finish m

/-! ## Events (R383) -/

/-- The event of a class to a subscriber. -/
def Half.eventOf (h : Half) (lb : Nat) (s : Sub) (cls : Nat) (data : List Byte) : MgmtRsp :=
  let p := beBytes 2 (h.get F.HST_SESSION_SESSION) ++ beBytes 2 s.eseq ++ [BitVec.ofNat 8 cls, 0]
    ++ beBytes 4 (h.get F.RBK_LAP_LAP) ++ beBytes 8 lb ++ data
  { event := true, dest := s.who.station, src := h.answerAddr s.who.station, tag := s.tag, origin := s.who.origin, opcode := 7
    hops := 0, len := p.length, status := 0, payload := p }

/-- The events that a subscription has waiting, with its ESEQ stepped for each. -/
def Half.eventsOf (h : Half) (lb : Nat) : Sub → List (Nat × List Byte) → List MgmtRsp
  | _, [] => []
  | s, (cls, data) :: rest => h.eventOf lb s cls data :: h.eventsOf lb { s with eseq := (s.eseq + 1) % 2 ^ 16 } rest

/-- The subscription after its waiting events have been sent. -/
def Sub.flushed (s : Sub) : Sub := { s with eseq := (s.eseq + s.due.length) % 2 ^ 16, due := [] }

/-- At the end of a lap a half sends the latest event of each class to each subscriber. -/
def Module.flushEvents (m : Module) (t : Nat) (h : HalfId) : Module :=
  let x := m.half h
  let out := x.host.subs.flatMap fun s => (x.eventsOf (x.lb t) s s.due).map fun e => (s.who, e)
  let m1 := m.onHalf h fun x => x.onHost fun (y : HostSt) => { y with subs := y.subs.map Sub.flushed }
  out.foldl (fun (m : Module) e => m.deliver h e.1 e.2) m1

/-! ## The engine windows -/

/-- Cell bytes 0 to 255 of a window's outbound buffer. -/
def Half.eoutBytes (h : Half) (n : Nat) : List Byte :=
  (List.range 64).flatMap fun k => leBytes 4 (h.reg (0xF1000 + 0x400 * n + 4 * k)).toNat

/-- A request's LEN and fields fit the table of R374 and the layout of its OPCODE (R375). A reserved ORIGIN or a LEN above 240 breaks
the table too (log entry 134). -/
def mgmtFits (r : MgmtReq) : Bool :=
  let p := r.payload
  let addrOk := beAt p 0 5 % 4 == 0
  let count := beAt p 6 2
  let pick (k : Nat) : Bool := decide (byteAt p k < 8) && decide (byteAt p (k + 1) < 4)
  decide (r.len ≤ 240) && decide (r.origin ≤ 8) && match r.opcode with
  | 0 => decide (8 ≤ r.len) && addrOk && decide (1 ≤ count) && decide (count ≤ 56)
  | 1 => decide (12 ≤ r.len) && addrOk
  | 2 => decide (16 ≤ r.len) && addrOk
  | 3 => decide (16 ≤ r.len) && addrOk && decide (4 ≤ count) && decide (count ≤ 224) && count % 4 == 0 && decide (16 + count ≤ r.len)
  | 4 => decide (1 ≤ r.len)
  | 5 => decide (4 ≤ r.len) && pick 0
  | 6 => decide (32 ≤ r.len) && decide (byteAt p 4 < 2) && (byteAt p 4 == 0 || pick 0)
  | 7 => decide (2 ≤ r.len) && (List.range 16).all fun n => !bitAt (beAt p 0 2) n || eventClasses.contains n
  | _ => false

/-- Field HST_ESTAT.RESULT of the window of engine `n`. -/
def Half.esendResult (h : Half) (n v : Nat) : Half := h.set (F.HST_ESTAT_RESULT n) v

/-- A write of HST_ESEND.GO: the outbound buffer is sent as a request of engine `n` on this plane: SENT, FORMAT or LIMIT. A cell
that cannot be placed is answered with NO_ROUTE (R382). A request that is issued again under its tag (R381) counts once among the 64
outstanding (log entry 134). -/
def Module.esend (m : Module) (h : HalfId) (n : Nat) : Module :=
  let x := m.half h
  let bytes := x.eoutBytes n
  let c := (Cell.parse bytes).2
  let r : MgmtReq := { reqOfCell c with origin := 4 * h.num + n, hops := 0, src := x.answerAddr (c.field 16 14) }
  if r.dest = x.ringAddr 0 ∨ r.dest = x.ringAddr 1 ∨ r.dest = 0x3FFF ∨ !mgmtFits r then m.onHalf h fun x => x.esendResult n 2
  else if 64 ≤ (x.engine n).sent.length ∧ (x.engine n).sent.contains (r.dest, r.tag) = false then m.onHalf h fun x => x.esendResult n 3
  else
    let w := x.sendMgmt (reqCell r)
    let x1 := (w.1.esendResult n 1).onEngine n fun (e : Engine) => { e with
      sent := if e.sent.contains (r.dest, r.tag) then e.sent else e.sent ++ [(r.dest, r.tag)] }
    let who : Requester := { station := r.src, origin := r.origin, service := false }
    match w.2 with
    | .sent => m.setHalf h x1
    | _ => (m.setHalf h x1).giveRsp h
        { x1.completion who r.tag r.opcode stNoRoute 0 [] with src := r.dest }

/-- A write of HST_EPOP.POP: the oldest inbound cell goes; while cells remain source 4 is raised again. -/
def Half.epop (h : Half) (n : Nat) : Half :=
  let h1 := h.onEngine n fun (e : Engine) => { e with inbox := e.inbox.drop 1 }
  if (h1.engine n).inbox.isEmpty then h1 else h1.raiseAt n irqHost

end Sys2Proof.Machine
end

