-- ==== Sys2Proof/Machine/Links.lean ====
section
/-!
DEFINITION. What a link report (R112) and a lane that leaves UP mean for the block that uses the link: the panel port, a ring,
or the intake of native cells.
-/
namespace Sys2Proof.Machine

/-- A link of a half comes up. -/
def Half.linkComesUp (h : Half) (t l : Nat) : Half :=
  let h1 := h.followAllNosig t
  if (h1.linkRec l).kind = 1 ∧ l < 16 then h1.panelLinkUp t
  else match h1.ringSide l with
    | some (r, _) => (h1.noteWhole t r).tryJoin r
    | none => h1

/-- A link of a half goes down: a panel sub-link is lost, a ring station becomes an end, or native frames in progress end. -/
def Half.linkGoesDown (h : Half) (t l : Nat) : Half :=
  let h1 := if (h.linkRec l).kind = 1 ∧ l < 16 then h.panelLinkDown t
    else match h.ringSide l with
      | some (r, side) => h.ringLinkDown t r side
      | none => h.nativeDown t l
  h1.followAllNosig t

/-- A lane left UP: the row in progress of its ring link is discarded (R110), and a unit of computation on the lane is cut short
(R335). -/
def Half.laneDropped (h : Half) (p : Nat) : Half :=
  let h1 := match h.linkOf p with
    | some l => match h.ringSide l with
      | some (r, side) => h.onRot r side.other fun (x : RotSt) => { x with part := [] }
      | none => h
    | none => h
  let h2 := match h.linkOf p with
    | some l => match h.ringSide l with
      | some (r, side) => h1.cvuAbort 3 fun s _ => s == segIndex r side
      | none => h1
    | none => h1
  h2.cvuAbort 1 fun s _ => s == devicePort h.id p

/-- Reports of links and lanes; received cells are another matter. -/
def Half.linkEvent (t : Nat) (h : Half) : LaneEvent → Half
  | .cell _ _ _ _ _ => h
  | .linkDown l => h.linkGoesDown t l
  | .linkUp l => h.linkComesUp t l
  | .dropped p => h.laneDropped p

/-- Several reports in turn. -/
def Half.linkEvents (h : Half) (t : Nat) (evs : List LaneEvent) : Half := evs.foldl (Half.linkEvent t) h

/-- A half changed by an operation that also reports links. -/
def Half.reporting (h : Half) (t : Nat) (w : Half × List LaneEvent) : Half := if h.inReset then h else w.1.linkEvents t w.2

end Sys2Proof.Machine
end

