-- ==== Sys2Proof/Machine/Baton.lean ====
section
/-!
DEFINITION. The half link and the baton (R12 to R19, R192, R362, R363): the payload of a baton flit, its sending and its
acceptance, silence, flits that fail their CRC, and the ledger mirror (R420) and software entries (R421).
-/
namespace Sys2Proof

/-- FLAGS of a graphic change (R363). -/
def GChange.flags (g : GChange) : Nat := bit g.valid + 2 * bit g.setState + 4 * bit g.setAlpha + 8 * bit g.sync

/-- The four bytes of a graphic change in the baton. -/
def GChange.bytes (g : GChange) : List Byte :=
  leBytes 1 g.layer ++ leBytes 1 g.state ++ leBytes 1 g.alpha ++ leBytes 1 g.flags

/-- A graphic change read from offset `k` of a baton. -/
def GChange.parse (bs : List Byte) (k : Nat) : GChange :=
  let f := byteAt bs (k + 3)
  { layer := byteAt bs k, state := byteAt bs (k + 1), alpha := byteAt bs (k + 2), valid := bitAt f 0, setState := bitAt f 1
    setAlpha := bitAt f 2, sync := bitAt f 3 }

/-- FLAGS of a baton. -/
def Baton.flags (b : Baton) : Nat :=
  bit b.running + 2 * bit b.alone + 4 * bit b.owner + 8 * bit b.joining + 16 * bit b.jready + 32 * bit b.ret

/-- PNLCTL of a baton. -/
def Baton.pnlCtl (b : Baton) : Nat := b.subMask + 4 * bit b.rangeValid + 8 * bit b.commitFwd + 16 * bit b.linkUp

/-- The 56 bytes of a baton payload (R363). -/
def Baton.bytes (b : Baton) : List Byte :=
  leBytes 4 b.bseq ++ leBytes 1 b.flags ++ leBytes 1 (bit b.ownPace + 2 * bit b.ownMem) ++ leBytes 2 0 ++ leBytes 4 b.lap
    ++ leBytes 4 b.shedLap ++ leBytes 1 b.scene ++ leBytes 1 (bit b.pending) ++ leBytes 1 b.current ++ leBytes 1 0
    ++ leBytes 4 b.sceneLap ++ leBytes 4 b.first ++ leBytes 4 b.last ++ leBytes 4 b.rangeLap ++ leBytes 1 b.pnlCtl
    ++ leBytes 1 b.take ++ leBytes 2 0 ++ leBytes 4 b.gLap ++ b.g0.bytes ++ b.g1.bytes ++ leBytes 4 b.retLap

/-- A baton payload read back (R363). -/
def Baton.parse (bs : List Byte) : Baton :=
  let f := byteAt bs 4
  let c := byteAt bs 5
  let p := byteAt bs 36
  { bseq := leAt bs 0 4, running := bitAt f 0, alone := bitAt f 1, owner := bitAt f 2, joining := bitAt f 3, jready := bitAt f 4
    ret := bitAt f 5, ownPace := bitAt c 0, ownMem := bitAt c 1, lap := leAt bs 8 4, shedLap := leAt bs 12 4, scene := byteAt bs 16
    pending := bitAt (byteAt bs 17) 0, current := byteAt bs 18, sceneLap := leAt bs 20 4, first := leAt bs 24 4
    last := leAt bs 28 4, rangeLap := leAt bs 32 4, subMask := p % 4, rangeValid := bitAt p 2, commitFwd := bitAt p 3
    linkUp := bitAt p 4, take := byteAt bs 37, gLap := leAt bs 40 4, g0 := GChange.parse bs 44, g1 := GChange.parse bs 48
    retLap := leAt bs 52 4 }

end Sys2Proof

namespace Sys2Proof.Machine

/-! ## The link arbiter (R13) -/

/-- The class of a message on the half link (R13): the ledger mirror and latch records are status. -/
def LinkMsg.cls : LinkMsg → FlitClass
  | .ledger _ => .status
  | .latch _ => .status
  | .baton _ => .baton
  | .resend c => c

/-- The oldest waiting message of a class. -/
def LinkSt.waiting (l : LinkSt) (c : FlitClass) : Option LinkMsg := l.out.find? fun x => x.cls == c

/-- The message granted next: baton, status, fetch and host in that order, but a waiting host flit at the latest as the sixteenth. -/
def LinkSt.pick (l : LinkSt) : Option LinkMsg :=
  let order : List FlitClass := if 15 ≤ l.hostWait then [.host, .baton, .status, .fetch] else [.baton, .status, .fetch, .host]
  order.findSome? l.waiting

/-- One grant of the arbiter: the message goes onto the wires. -/
def LinkSt.grant (l : LinkSt) : LinkSt := match l.pick with
  | none => l
  | some x => { l with
    out := l.out.erase x
    wire := l.wire ++ [x]
    hostWait := if x.cls = .host ∨ (l.waiting .host).isNone then 0 else l.hostWait + 1 }

/-- At most `n` grants, until a message that satisfies `p` is on the wires. -/
def LinkSt.grantFor (p : LinkMsg → Bool) : Nat → LinkSt → LinkSt
  | 0, l => l
  | n + 1, l => if l.wire.any p || !l.out.any p then l else LinkSt.grantFor p n l.grant

/-- A message that satisfies `p` reaches the peer: the arbiter has granted it, and whatever went before it. -/
def LinkSt.deliver (p : LinkMsg → Bool) (l : LinkSt) : LinkSt :=
  let l1 := LinkSt.grantFor p l.out.length l
  { l1 with wire := dropFirst p l1.wire }

/-- Number of a flit class (R13). -/
def flitClassNum : FlitClass → Nat
  | .baton => 0
  | .status => 1
  | .fetch => 2
  | .host => 3

/-- The peer of half `h` no longer holds a message that has arrived; its flit passed the peer's LINK point outbound (R333). -/
def Module.consumes (m : Module) (h : HalfId) (p : LinkMsg → Bool) : Module := m.onHalf h.peer fun x =>
  let y := x.onLink (LinkSt.deliver p)
  match (x.link.wire ++ x.link.out).find? p with
  | some c => y.cvuFlit 0 (flitClassNum c.cls) none
  | none => y

/-- A flit that the model does not spell passes the LINK point of half `h` inbound (R333). -/
def Module.inbound (m : Module) (h : HalfId) (c : FlitClass) : Module := m.onLive h fun x => x.cvuFlit 1 (flitClassNum c) none

/-! ## Sending -/

/-- BATON_SEND: a baton flit is due (R362). -/
def Module.batonSend (m : Module) (t : Nat) (h : HalfId) : Module := m.onHalf h fun x => x.batonNow t

/-! ## Acceptance -/

/-- A baton is taken by a half: link healthy on this side and BSEQ newer, or the first since the peer's reset (R15, R362). -/
def Half.takesBaton (h : Half) (b : Baton) : Bool :=
  !h.inReset && !h.flag F.LNK_STATUS_FAILED && (match h.link.lastBseq with
    | some l => newer 32 b.bseq l
    | none => true)

/-- The link after an accepted baton. -/
def LinkSt.accept (l : LinkSt) (t : Nat) (b : Baton) : LinkSt :=
  { l with lastBseq := some b.bseq, lastAt := some t, peer := some b, silentFrom := t }

/-- Lap `lap` lies ahead of the half's present lap, or no lap has begun. -/
def Half.lapAhead (h : Half) (lap : Nat) : Bool := !h.lapBegun || newer 32 lap (h.get F.RBK_LAP_LAP)

/-- Pending scene and scene in force of the owner's baton (R188, R363). -/
def Half.batonScene (h : Half) (b : Baton) (first : Bool) : Half :=
  let h1 := if b.owner && b.pending && h.lapAhead b.sceneLap then (h.onActs fun x => x.nameScene b.sceneLap b.scene).showPending else h
  if h1.mode = modeHalfStart ∧ b.owner ∧ (first ∨ h1.get F.RBK_SCENE_CURRENT ≠ b.current) then h1.enterScene b.current else h1

/-- One graphic change of the owner's baton (R213, R363): a SYNC entry applies at once in a joining half. -/
def Half.batonGraphic (b : Baton) (h : Half) (g : GChange) : Half :=
  if !b.owner || !g.valid || decide (8 ≤ g.layer) then h
  else if g.sync then (if h.mode = modeHalfStart then h.applyG g else h)
  else if h.lapAhead b.gLap then h.onActs fun x => x.nameGraphic b.gLap g else h

/-- The owner's COMMIT of the lap of its range, as the other half knows it (R268): the range of a sub-link whose SUBMASK bit is clear is
zero (R265). This half sends it where the owner asks, not after its own deadline (R275). -/
def Half.batonCommit (h : Half) (t : Nat) (b : Baton) : Half :=
  if b.owner && b.subMask != 0 && (h.lap.commit.map fun c => c.1) != some b.rangeLap then
    let own := ((h.lap.range.filter fun r => r.1 == b.rangeLap).map fun r => (r.2.1, r.2.2)).getD (0, 0)
    let put (s : HalfId) (r : Nat × Nat) : List Nat := if bitAt b.subMask s.num then [r.1, r.2] else [0, 0]
    let of (s : HalfId) : Nat × Nat := if s = h.id then own else (b.first, b.last)
    let ranges := put .h0 (of .h0) ++ put .h1 (of .h1)
    let h1 := h.onLap fun (l : LapSt) => l.noteCommit (b.rangeLap, b.subMask, ranges)
    let timely := b.rangeLap == h.get F.RBK_LAP_LAP && decide ((h.lb t : Int) ≤ h.deadlineAt)
    if b.commitFwd && timely && h1.panelUp && h1.mayTalk t then h1.sendCommit b.rangeLap b.subMask ranges else h1
  else h

/-- Roles of the peer's failed engines (R360, R361): TWIN, with source 15. -/
def Half.batonTake (h : Half) (b : Baton) : Half :=
  [1, 2, 3].foldl (fun (h : Half) n =>
    let on := bitAt b.take n
    if on && !h.flag (F.ENG_STATE_TWIN n) then (h.set (F.ENG_STATE_TWIN n) 1).roleChange n n
    else if !on && h.flag (F.ENG_STATE_TWIN n) && !h.flag F.SYS_HALF_ALONE then (h.set (F.ENG_STATE_TWIN n) 0).roleChange n n
    else h) h

/-- The return lap that the owner names (R61). -/
def Half.batonReturn (h : Half) (b : Baton) : Half :=
  if b.owner && b.ret && h.lapAhead b.retLap then { h with starter := { h.starter with returnLap := some b.retLap } } else h

/-- A joining peer: its SYNC entries are due from the owner (R363). -/
def Half.batonJoining (h : Half) (b : Baton) (was : Bool) : Half :=
  if h.owner && b.joining && !was then h.onActs fun (x : ActSt) => { x with sync := List.range 8 } else h

/-- The fields of an accepted baton take effect in the receiving half (R362, R363). -/
def Half.acceptBaton (h : Half) (t : Nat) (b : Baton) : Half :=
  let first := h.link.lastBseq.isNone
  let was := (h.link.peer.map fun p => p.joining).getD false
  let h1 := (h.onLink fun l => l.accept t b).set F.SYS_HALF_PEER_UP 1
  let h2 := [b.g0, b.g1].foldl (Half.batonGraphic b) (h1.batonScene b first)
  let h3 := (h2.peerCauses b.shedLap b.ownPace b.ownMem).batonCommit t b
  let h4 := ((h3.batonTake b).batonReturn b).batonJoining b was
  (h4.tryCommit t false).raise irqBaton

/-- A valid baton flit reaches half `h` (R362). -/
def Module.batonReceive (m : Module) (t : Nat) (h : HalfId) (b : Baton) : Module :=
  let x := m.half h
  let m1 := m.consumes h fun y => match y with
    | .baton c => c.bseq == b.bseq
    | _ => false
  if x.takesBaton b then
    let p := m1.half h.peer
    let x1 := (x.acceptBaton t b)
    let x2 := (x1.refeed p t .a).refeed p t .b
    let p1 := p.onLink fun (l : LinkSt) => { l with
      exchanged := true, exchangedAt := if l.exchanged then l.exchangedAt else t }
    (m1.setHalf h x2).setHalf h.peer p1
  else m1

/-- No baton for 2 ms (R356). -/
def Half.silence2ms (h : Half) : Half := if !h.inReset && h.link.lastBseq.isSome then h.raise irqNoBaton else h

/-- 5 ms of baton silence (R16): PEER_UP falls and the lamplighter is asked to reset the other half. -/
def Module.batonSilence (m : Module) (t : Nat) (h : HalfId) : Module :=
  let x := m.half h
  if !x.inReset && x.link.lastBseq.isSome then
    let m1 := m.onHalf h fun x => x.set F.SYS_HALF_PEER_UP 0
    if m1.lamp.stopped then m1
    else m1.onLamp fun l => l.onHalf h fun (y : LampHalf) => { y with request := some (y.request.getD t) }
  else m

/-! ## Flits (R15) -/

/-- The half declares the half link failed (R15). -/
def Half.linkFails (h : Half) (t : Nat) : Half :=
  let h1 := h.set F.LNK_STATUS_FAILED 1
  h1.fault t clsLink 1 0 (h1.wordBytes F.LNK_STATUS_word.off)

/-- A flit whose CRC fails is sent again; more than 16 resends in 1 ms fail the link (R15). -/
def Half.flitResend (h : Half) (t : Nat) : Half :=
  let ats := t :: h.link.resendAt.filter fun a => decide (t < a + msNs)
  let h1 := (h.onLink fun (l : LinkSt) => { l with resendAt := ats }).tally F.LNK_TALLY_RESENDS 1
  if 16 < ats.length ∧ h1.flag F.LNK_STATUS_FAILED = false then h1.linkFails t else h1

/-- The CRC of a flit: CRC-16/CCITT-FALSE over header and payload. -/
def flitCrcOk (f : Flit) : Bool := f.bytes.length == 62 && crcValue crc16Ccitt [] f.bytes == f.crc

/-- A flit arrives at half `h` (R13, R15): a bad one is sent again; a baton flit is accepted by R362. The messages of the other
classes arrive by commands of their own. -/
def Module.flitReceive (m : Module) (t : Nat) (h : HalfId) (f : Flit) : Module :=
  if (m.half h).inReset then m
  else
  let m := m.onHalf h fun x => x.cvuFlit 1 (flitClassNum f.cls) (some (padTo 62 f.bytes))
  if flitCrcOk f then
    let m1 := m.consumes h fun y => y == .resend f.cls
    match f.cls with
    | .baton => m1.batonReceive t h (Baton.parse (f.bytes.drop 6))
    | _ => m1
  else
    let m1 := m.onHalf h fun x => x.flitResend t
    m1.onLive h.peer fun x => x.send (.resend f.cls)

/-! ## Ledger mirror and software entries (R420, R421) -/

/-- A ledger entry of the peer is kept in the mirror with MIRROR set (R420). -/
def Half.mirrorEntry (h : Half) (entry : List Byte) : Half :=
  let e := padTo 48 entry
  let e1 := e.set 6 (e.getD 6 0 ||| 0x10)
  let h1 : Half := { h with flt := { h.flt with mirror := lastN 64 (h.flt.mirror ++ [e1]) } }
  h1.set F.FLT_STATUS_MIRROR h1.flt.mirror.length

/-- A ledger entry arrives over the half link. -/
def Module.mirrorReceive (m : Module) (h : HalfId) (entry : List Byte) : Module :=
  if linkOk (m.half h) (m.half h.peer) then
    let m1 := m.consumes h fun y => y == .ledger entry
    m1.onHalf h fun x => x.mirrorEntry entry
  else m

/-- The 48 bytes of FLT_SWBUF. -/
def Half.swBuf (h : Half) : List Byte := (List.range 12).flatMap fun k => h.wordBytes (0x140100 + 4 * k)

/-- A write of FLT_SWADD.GO by master `m` (R421). -/
def Half.swAdd (h : Half) (t m : Nat) : Half :=
  let b := h.swBuf
  let cls := byteAt b 4
  if cls < 1 ∨ 0x10 < cls then h.fault t clsHost 3 m (leBytes 4 1)
  else
    let flags := h.id.num + 2 + 8 * bit (bitAt (byteAt b 6) 3)
    h.writeEntry (fun seq => leBytes 4 seq ++ [BitVec.ofNat 8 cls, b.getD 5 0, BitVec.ofNat 8 flags, b.getD 7 0]
      ++ leBytes 4 h.entryLap ++ b.drop 12) cls

end Sys2Proof.Machine
end

