-- ==== Sys2Proof/Machine/Reset.lean ====
section
/-!
DEFINITION. Reset scopes and what they keep (R49, R50), the lamplighter's fault records (R417), false starts (R63) and half
resets (R16, R19, R42, R61).
-/
namespace Sys2Proof.Machine

/-- LMP_STATUS.STATE code of a phase. -/
def LampPhase.code : LampPhase → Nat
  | .noVaon => 0
  | .off => 0
  | .waitWake => 0
  | .waitGood => 0
  | .heldResetN => 1
  | .heldFalse => 1
  | .heldTrip => 1
  | .heldVcore => 1
  | .released => 1
  | .starting => 1
  | .running => 2
  | .recovery => 3
  | .laneTest => 5
  | .restEntry => 4
  | .rest => 4

/-- The lamplighter enters a phase at time `t`, shown in LMP_STATUS.STATE. -/
def Lamp.enter (l : Lamp) (t : Nat) (p : LampPhase) : Lamp :=
  let l : Lamp := { l with phase := p, phaseAt := t }
  l.set F.LMP_STATUS_STATE p.code

/-- A module start is in progress: released, or in its steps (R54). -/
def LampPhase.inStart : LampPhase → Bool
  | .released => true
  | .starting => true
  | _ => false

/-- LIVE_OK is driven low, counting a fall, and the 100 ms begin again (R368). -/
def Lamp.liveLow (l : Lamp) : Lamp :=
  let l := if l.flag F.LMP_STATUS_LIVEOK then { l with liveFalls := satAdd 16 l.liveFalls 1 } else l
  let l : Lamp := { l with liveFrom := none }
  (l.set F.LMP_STATUS_LIVEOK 0).set F.LMP_LIVE_HOLDOFF 1

/-! ## Fault records of the lamplighter (R417) -/

/-- Wall seconds of the module at time `t`, while wall time exists in a half. -/
def Module.wallSec (m : Module) (t : Nat) : Option Nat :=
  match m.half0.wall t, m.half1.wall t with
  | some w, _ => some (nsSec w)
  | none, some w => some (nsSec w)
  | none, none => none

/-- A half whose ledger takes an entry of the lamplighter at once: out of reset and past step 6 (R417). -/
def Half.takesLampFault (h : Half) : Bool := !h.inReset && decide (6 ≤ h.step)

/-- A fault that the lamplighter detects: one of its last eight, and an entry of every half that takes one (R417). -/
def Module.lampFault (m : Module) (t cls code unit : Nat) (detail : List Byte) : Module :=
  let r : LampRec := { cls := cls, code := code, unit := unit, wall := m.wallSec t, detail := detail,
                       in0 := m.half0.takesLampFault, in1 := m.half1.takesLampFault }
  let put (h : Half) : Half := if h.takesLampFault then h.fault t cls code unit detail else h
  (m.onBoth put).onLamp fun l => { l with recs := lastN 8 (l.recs ++ [r]) }

/-- A kept entry of the lamplighter as a ledger entry (R417): LAP 0xFFFF_FFFF, LOCAL at writing, WALL as at detection. -/
def Half.lateEntry (h : Half) (t : Nat) (r : LampRec) : Half :=
  h.writeEntry (fun seq => entryBytes seq r.cls r.code (h.id.num + 4 + (if r.wall.isSome then 8 else 0)) r.unit
    (2 ^ 32 - 1) (h.lb t) (r.wall.getD 0) r.detail) r.cls

/-- Whether a kept entry is in the ledger of a half. -/
def LampRec.held (r : LampRec) : HalfId → Bool
  | .h0 => r.in0
  | .h1 => r.in1

/-- The kept entry marked as held by a half. -/
def LampRec.mark (r : LampRec) (h : HalfId) (b : Bool) : LampRec :=
  match h with
  | .h0 => { r with in0 := b }
  | .h1 => { r with in1 := b }

/-- The kept entry after a reset that clears the ledgers. -/
def LampRec.unheld (r : LampRec) : LampRec := { r with in0 := false, in1 := false }

/-- At the end of a half's step 6 the kept entries that its ledger does not hold are written (R417). -/
def Module.flushRecs (m : Module) (t : Nat) (h : HalfId) : Module :=
  let todo := m.lamp.recs.filter fun r => !r.held h
  (m.onHalf h fun x => todo.foldl (fun x r => x.lateEntry t r) x).onLamp
    fun l => { l with recs := l.recs.map fun r => r.mark h true }

/-! ## What a reset keeps (R50) -/

/-- Register offsets that a warm or half reset keeps: RST_CAUSE, FLT_HEAD, FLT_STATUS and FLT_CLASS0 to 3 (R50). -/
def keptOffset (off : Nat) : Bool :=
  off == 0x10008 || off == 0x140000 || off == 0x140004 || (0x140010 ≤ off && off ≤ 0x14001C)

/-- RST_CAUSE with a cause added (R51). -/
def Half.addCause (h : Half) (c : Nat) : Half := (h.setBit F.RST_CAUSE_CAUSES (c - 1) true).set F.RST_CAUSE_LAST c

/-- RST_CAUSE with several causes: every bit, and the lowest code in LAST (R49). -/
def Half.addCauses (h : Half) (cs : List Nat) : Half :=
  let h := cs.foldl Half.addCause h
  match cs.min? with
  | some c => h.set F.RST_CAUSE_LAST c
  | none => h

/-- A half put into reset (R50). `cold`: ledger, cause bits and frame store are lost. `keepStrap`: a half reset keeps the STRAP
index. The session given is the new one of R380. -/
def Half.intoReset (h : Half) (cold keepStrap : Bool) (causes : List Nat) (session : Nat) : Half :=
  let base := Half.reset h.id
  let kept := if cold then [] else h.regs.filter fun c => keptOffset c.1 || (keepStrap && c.1 == 0x10004)
  let h' : Half := { base with
    free := h.free
    regs := kept
    store := { out := if keepStrap then h.store.out else 0, errAt := []
               bad := if cold then [] else h.store.bad.filter fun a => decide (0x70000000 ≤ a)
               scrubAt := 0 }
    fst := if cold then [] else sparseClear (fun a => a < 0x70000000) h.fst
    flt := if cold then LedgerSt.reset else h.flt }
  (h'.addCauses causes).set F.HST_SESSION_SESSION session

/-- A half released from reset at time `t` in a mode; in a half start it is no commit owner before the return lap (R19, R61). A
fused key hash shows in LDR_KEYHASH0 to 7 (R387). -/
def Half.release (h : Half) (t mode : Nat) (fuse : Option (List Byte)) : Half :=
  let h : Half := { h with inReset := false, starter := { h.starter with releasedAt := t } }
  let h := h.set F.RST_STATE_MODE mode
  let h := if mode = modeHalfStart then h.set F.SYS_HALF_COMMIT_OWNER 0 else h
  match fuse with
  | some d => h.forBelow 8 fun h i => h.set (F.LDR_KEYHASH_word i) (leAt d (4 * i) 4)
  | none => h

/-- A start step of a half ends at time `t` (RST_STATE.STEP, RST_STEPTIME). -/
def Half.endStep (h : Half) (t n : Nat) : Half :=
  (h.set F.RST_STATE_STEP n).set (F.RST_STEPTIME_MS n) (min 65535 ((t - h.starter.releasedAt) / msNs))

/-- What the lamplighter notes of a half that enters reset: the session steps (R380), its requests and lines are forgotten. -/
def LampHalf.intoReset (x : LampHalf) (t : Nat) (hold : HalfHold) : LampHalf :=
  { x with hold := hold, resetAt := t, session := (x.session + 1) % 2 ^ 16, request := none, healthAt := none, kickAt := none,
           holdAt := none }

/-- The telemetry values that come from the core (R388): RST_CAUSE.LAST of half 0, LDR_STATUS.KEY, the serial of the loaded image
(a free value without one), ADDR0, the margins and the VCORE settings of both halves. -/
def Module.coreBytes (m : Module) : List Byte :=
  let h := m.half0
  let x := m.half m.holder
  let serial := match x.get F.LDR_STATUS_SLOT with
    | 1 => x.get F.LDR_SERIALA_SERIAL
    | 2 => x.get F.LDR_SERIALB_SERIAL
    | _ => Config.freeValue 2 m.lamp.free
  let addr := match x.image with
    | some i => if i.man.addr0 < 2 ^ 14 then i.man.addr0 else 0xFFFF
    | none => 0xFFFF
  leBytes 1 (h.get F.RST_CAUSE_LAST) ++ leBytes 1 (x.get F.LDR_STATUS_KEY) ++ beBytes 4 serial ++ beBytes 2 addr
    ++ beBytes 2 (h.get F.PACE_HALF_MARGIN) ++ beBytes 2 (m.half1.get F.PACE_HALF_MARGIN)
    ++ leBytes 1 (h.get F.PACE_REG_SETTING) ++ leBytes 1 (m.half1.get F.PACE_REG_SETTING)

/-- A reset of cold or warm scope of the whole module (R49, R50): both halves enter reset, the counts and holds of half starts
clear, and the lamplighter enters phase `p`. -/
def Module.intoReset (m : Module) (t : Nat) (scope : Scope) (causes : List Nat) (p : LampPhase) : Module :=
  let cold := scope != .warm
  let lamp := (m.lamp.liveLow.set F.LMP_LIVE_GRANT 0).set F.LMP_LIVE_NOTRUNNING 1
  let lamp := { lamp with
    scope := scope
    cause := causes.min?.getD 0
    startAt := t
    step3At := none
    step4At := none
    grantFrom := none
    h0 := { lamp.h0.intoReset t .none with falseStarts := 0 }
    h1 := { lamp.h1.intoReset t .none with falseStarts := 0 }
    recs := if cold then lamp.recs.map LampRec.unheld else lamp.recs
    mirror := if m.half0.inReset && m.half1.inReset then lamp.mirror else m.coreBytes
    pass := { learned := none, waiting := none, busy := none } }
  let lamp := lamp.enter t p
  { m with
    half0 := m.half0.intoReset cold false causes lamp.h0.session
    half1 := m.half1.intoReset cold false causes lamp.h1.session
    lamp := lamp }

/-- Both halves released: the starters begin (R38, R60). The manual gives a commanded, watchdog or supply reset no length: the
halves go in the step that resets them (log entries 36 and 111). -/
def Module.releaseBoth (m : Module) (t : Nat) : Module :=
  let m := m.onBoth fun h => h.release t modeStart m.fuse
  m.onLamp fun (l : Lamp) => Lamp.enter { l with startAt := t } t .released

/-- A false start (R63): the count steps to at most 15 and fault class START records the cause, with the RST_STATE word and the
step time of the step that failed. -/
def Module.falseStart (m : Module) (t cause : Nat) : Module :=
  let h := m.half0
  let n := h.step + 1
  let detail := h.wordBytes F.RST_STATE_word.off ++ h.wordBytes (F.RST_STEPTIME_word n).off
  (m.onLamp fun l => { l with fsCount := satAdd 4 l.fsCount 1 }).lampFault t clsStart 1 cause detail

/-- The reset of both halves ends, unless a thermal trip (R45) or RESET_N low (R52) still holds it. -/
def Module.letGo (m : Module) (t : Nat) : Module :=
  if m.lamp.tripped then m.onLamp fun l => l.enter t .heldTrip
  else if m.lamp.resetNLow then m.onLamp fun l => l.enter t .heldResetN
  else m.releaseBoth t

/-! ## Requests of one lamplighter sample period (R49) -/

/-- Number of the lamplighter sample period of 30.5 µs that holds time `t`; periods count from the start of the module's clock
(log entry 31). -/
def sampleSlot (t : Nat) : Nat := t / 30500

/-- No request yet in the sample period of time `t`. -/
def ResetAsk.fresh (t : Nat) : ResetAsk := { slot := sampleSlot t, scope := none, causes := [], halves := [], late := [] }

/-- The requests of the sample period of time `t`. -/
def Lamp.askedAt (l : Lamp) (t : Nat) : ResetAsk := match l.asked with
  | some a => if a.slot = sampleSlot t then a else ResetAsk.fresh t
  | none => ResetAsk.fresh t

/-- How far a scope reaches. -/
def Scope.reach : Scope → Nat
  | .warm => 0
  | .cold => 1
  | .powerOn => 2

/-- A fault of this half as the bytes of its entry at time `t`, with SEQ still open. -/
def Half.faultBytes (h : Half) (t cls code unit : Nat) (detail : List Byte) : List Byte :=
  let wall := h.wall t
  entryBytes 0 cls code (h.entryFlags 0 wall) unit h.entryLap (h.lb t) (match wall with
    | some w => nsSec w
    | none => 0) detail

/-- An entry kept as bytes is written, with its SEQ (R417). -/
def Half.writeKept (h : Half) (cls : Nat) (bs : List Byte) : Half := h.writeEntry (fun seq => leBytes 4 seq ++ bs.drop 4) cls

/-- The loss of REFCLK as each half still qualified on it would record it (R54). -/
def Module.lateTime (m : Module) (t : Nat) (causes : List Nat) : List (HalfId × List Byte) :=
  if causes.contains 14 then
    ([HalfId.h0, HalfId.h1].filter fun h => (m.half h).flag F.RST_QUAL_TIME).map fun h =>
      (h, (m.half h).faultBytes t clsTime 3 2 ((m.half h).wordBytes F.TIM_STATUS_word.off))
  else []

/-- A reset of cold or warm scope with its phase; `released` lets the halves go at once, where nothing else holds them. -/
def Module.applyReset (m : Module) (t : Nat) (scope : Scope) (causes : List Nat) (p : LampPhase) : Module :=
  let m := m.intoReset t scope causes p
  if p == .released then m.letGo t else m

/-- A module reset noted among the requests of its sample period. -/
def Module.noteReset (m : Module) (t : Nat) (scope : Scope) (causes : List Nat) (late : List (HalfId × List Byte)) : Module :=
  m.onLamp fun (l : Lamp) => { l with asked := some { l.askedAt t with scope := some scope, causes := causes, halves := [], late := late } }

/-- A reset request of cold or warm scope takes effect (R49, R54): a start in progress ends as a false start. In one sample period
a wider module reset discards the request, an equal one is merged with it, and the half resets of the period are discarded. The
phase that follows is given. -/
def Module.requestReset (m : Module) (t : Nat) (scope : Scope) (causes : List Nat) (p : LampPhase) : Module :=
  let a := m.lamp.askedAt t
  if m.lamp.stopped then m
  else match a.scope with
  | some s =>
    if scope.reach < s.reach then m
    else if scope.reach = s.reach then
      let all := a.causes ++ causes
      let m1 := if p == .released then m.onBoth fun h => h.addCauses all else m.applyReset t scope all p
      m1.noteReset t scope all a.late
    else (m.applyReset t scope causes p).noteReset t scope causes a.late
  | none =>
    let late := m.lateTime t causes
    let m1 := if m.lamp.phase.inStart then m.falseStart t (causes.min?.getD 0) else m
    let m2 := a.halves.reverse.foldl (fun (m : Module) x => m.onHalf x.1 fun h => h.setReg F.RST_CAUSE_word.off x.2.1) m1
    (m2.applyReset t scope causes p).noteReset t scope causes late

/-! ## Half resets -/

/-- What the survivor sees of its peer's reset: LNK_STATUS.PEER_RESET (R19), the peer's BSEQ is forgotten (R362) and the baton
received before counts no longer. -/
def Half.peerEntersReset (h : Half) : Half :=
  if h.inReset then h
  else
    let gone := h.link.out.length + h.link.wire.length
    let h : Half := { h with
      link := { h.link with
        lastBseq := none, peer := none, exchanged := false, lost := !h.flag F.SYS_HALF_ALONE, out := [], wire := [], hostWait := 0 }
      starter := { h.starter with returnLap := none }
      lap := { h.lap with aloneLap := none } }
    (((h.set F.LNK_STATUS_PEER_RESET 1).set F.SYS_HALF_PEER_UP 0).tally F.SYS_XDISC_COUNT gone).dropCross

/-- The lamplighter applies a half reset (R50, R368): the half enters reset, GRANT is set and LIVE_OK falls. -/
def Module.applyHalfReset (m : Module) (t : Nat) (h : HalfId) (causes : List Nat) (hold : HalfHold) : Module :=
  let lamp := (m.lamp.onHalf h fun x => x.intoReset t hold).liveLow.set F.LMP_LIVE_GRANT 1
  let lamp := { lamp with grantFrom := some h }
  let m := { m with lamp := lamp }
  let m := m.onHalf h fun x => x.intoReset false true causes (lamp.half h).session
  m.onHalf h.peer Half.peerEntersReset

/-- Causes asked of half `h` in the requests of a sample period. -/
def ResetAsk.causesOf (a : ResetAsk) (h : HalfId) : List Nat := (a.halves.filter fun x => x.1 == h).flatMap fun x => x.2.2

/-- A half reset noted among the requests of its sample period. -/
def Module.noteHalf (m : Module) (t : Nat) (h : HalfId) (before : Word) (causes : List Nat) : Module :=
  m.onLamp fun (l : Lamp) =>
    let a := l.askedAt t
    { l with asked := some { a with halves := a.halves ++ [(h, before, causes)] } }

/-- A half reset becomes one warm reset of both halves, with the causes of every request concerned (R49). One for the half's own
VCORE ends when that supply has been back for 100 ms (R42, R54). -/
def Module.warmInstead (m : Module) (t : Nat) (h : HalfId) (causes : List Nat) (hold : HalfHold) : Module :=
  let all := ((m.lamp.askedAt t).halves.flatMap fun x => x.2.2) ++ causes
  if hold = .vcore then
    (m.requestReset t .warm all .heldVcore).onLamp fun l => l.onHalf h fun (x : LampHalf) => { x with hold := .vcore }
  else m.requestReset t .warm all .released

/-- A request for a half reset (R49, R54, R365): discarded by a module reset of the same sample period; none for a half already in
reset, but that a further request of the period sets its cause; a warm reset during a module start, which is a false start, and
when the other half is in reset; else the half reset. -/
def Module.requestHalfReset (m : Module) (t : Nat) (h : HalfId) (causes : List Nat) (hold : HalfHold) : Module :=
  let a := m.lamp.askedAt t
  if m.lamp.stopped || a.scope.isSome then m
  else if (m.half h).inReset then
    match a.causesOf h with
    | [] => m
    | cs => (m.onHalf h fun x => x.addCauses (cs ++ causes)).noteHalf t h ((m.half h).reg F.RST_CAUSE_word.off) causes
  else if m.lamp.phase.inStart || (m.half h.peer).inReset then m.warmInstead t h causes hold
  else (m.applyHalfReset t h causes hold).noteHalf t h ((m.half h).reg F.RST_CAUSE_word.off) causes

end Sys2Proof.Machine
end

