-- ==== Sys2Proof/Machine/Touch.lean ====
section
/-!
DEFINITION. Touch (R390 to R407): decoding, classes of nodes, baselines, the start, contacts and their tracking, reports, their
ring and what the finger touched.
-/
namespace Sys2Proof.Machine

/-! ## Decoding (R393, R394) -/

/-- Matrix nodes and self electrodes of a configuration in reset. -/
def NodeSt.reset : NodeSt := { base := 0, raw := 0, down := false, start := false, relearn := none, low := 0, since := 0 }

/-- Polarity H[r][j]: odd parity of r AND j is negative. -/
def polarity (r j : Nat) : Int :=
  if (bitsAt (r &&& j) 0 1 + bitsAt (r &&& j) 1 1 + bitsAt (r &&& j) 2 1) % 2 = 0 then 1 else -1

/-- The mutual count of row 8g + r of a column from its eight interval samples (R393). -/
def mutualCount (s : List Int) (r : Nat) : Int := ((List.range 8).foldl (fun acc j => acc + polarity r j * s.getD j 0) 0) / 8

/-- Raw values of the matrix in row order. -/
def TouchConf.decode (c : TouchConf) (samples : List (List (List Int))) : List Int :=
  (List.range (c.rows * c.cols)).map fun k =>
    let row := k / c.cols
    mutualCount ((samples.getD (row / 8) []).getD (k % c.cols) []) (row % 8)

/-- Mutual delta: a finger lowers the count (R394). -/
def NodeSt.dm (n : NodeSt) : Int := n.base / 256 - n.raw

/-- Self delta: a finger raises the count (R394). -/
def NodeSt.ds (n : NodeSt) : Int := n.raw - n.base / 256

/-- A node meets R394. -/
def TouchConf.touched (c : TouchConf) (n : NodeSt) : Bool :=
  decide ((c.touchTh : Int) ≤ n.dm) || (n.down && decide ((c.relTh : Int) ≤ n.dm))

/-- A self electrode of threshold `th` is pressed (R394). -/
def selfPressed (th : Nat) (n : NodeSt) : Bool := decide ((th : Int) ≤ n.ds) || (n.down && decide ((th / 2 : Nat) ≤ n.ds))

/-! ## Classes and groups (R395, R400) -/

/-- The neighbours of node `k` in the matrix, including diagonals. -/
def TouchConf.around (c : TouchConf) (k : Nat) : List Nat :=
  let row := k / c.cols
  let col := k % c.cols
  (List.range 9).filterMap fun i =>
    let r := row + i / 3
    let q := col + i % 3
    if i = 4 ∨ r = 0 ∨ q = 0 ∨ c.rows < r ∨ c.cols < q then none else some ((r - 1) * c.cols + (q - 1))

/-- Grows a group from its frontier: the group and the nodes left. The argument bounds the steps. -/
def TouchConf.grow (c : TouchConf) : Nat → List Nat → List Nat → List Nat → List Nat × List Nat
  | 0, _, rest, group => (group, rest)
  | _ + 1, [], rest, group => (group, rest)
  | n + 1, k :: front, rest, group =>
    let near := c.around k
    let new := rest.filter near.contains
    c.grow n (front ++ new) (rest.filter fun x => !near.contains x) (group ++ new)

/-- Groups of adjoining nodes. The argument bounds their number. -/
def TouchConf.groups (c : TouchConf) : Nat → List Nat → List (List Nat)
  | 0, _ => []
  | _ + 1, [] => []
  | n + 1, k :: rest =>
    let g := c.grow (rest.length + 1) [k] rest [k]
    g.1 :: c.groups n g.2

/-- Classes of R395. -/
inductive NodeClass where
  | free | finger | water
  deriving DecidableEq, Repr

/-- A group adjoins WATER on two opposite sides. -/
def TouchConf.between (c : TouchConf) (water : Nat → Bool) (g : List Nat) : Bool :=
  let left := g.any fun k => k % c.cols != 0 && water (k - 1)
  let right := g.any fun k => k % c.cols + 1 != c.cols && water (k + 1)
  let up := g.any fun k => decide (c.cols ≤ k) && water (k - c.cols)
  let down := g.any fun k => decide (k + c.cols < c.rows * c.cols) && water (k + c.cols)
  (left && right) || (up && down)

/-- Class of each node (R394, R395). -/
def TouchConf.classes (c : TouchConf) (nodes rowE colE : List NodeSt) : List NodeClass :=
  if c.mode = 2 then
    let first := (List.range nodes.length).map fun k =>
      let n := nodes.getD k NodeSt.reset
      let self := decide ((c.selfTh : Int) ≤ (rowE.getD (k / c.cols) NodeSt.reset).ds)
        && decide ((c.selfTh : Int) ≤ (colE.getD (k % c.cols) NodeSt.reset).ds)
      if n.dm ≤ -(c.waterTh : Int) then NodeClass.water
      else if c.touched n then (if self then .finger else .water)
      else .free
    let isWater (k : Nat) : Bool := first.getD k .free == .water
    let fingers := (List.range nodes.length).filter fun k => first.getD k .free == .finger
    let wet := (c.groups fingers.length fingers).filter fun g =>
      (c.maxArea != 0 && decide (c.maxArea < g.length)) || c.between isWater g
    (List.range nodes.length).map fun k => if wet.any fun g => g.contains k then .water else first.getD k .free
  else nodes.map fun n => if c.touched n then .finger else .free

/-! ## Contacts (R400, R401) -/

/-- Local maxima of dm in a group; of equal neighbours the first in row order. -/
def TouchConf.peaks (c : TouchConf) (nodes : List NodeSt) (g : List Nat) : List Nat :=
  let d (k : Nat) : Int := (nodes.getD k NodeSt.reset).dm
  g.filter fun k => (c.around k).all fun y => !g.contains y || (if y < k then decide (d y < d k) else decide (d y ≤ d k))

/-- Weighted centroid over the 3 × 3 nodes around a peak, column and row, in 1/256 node (R400). -/
def TouchConf.centroid (c : TouchConf) (nodes : List NodeSt) (k : Nat) : Nat × Nat :=
  let cells := k :: c.around k
  let w (y : Nat) : Nat := (nodes.getD y NodeSt.reset).dm.toNat
  let total := (cells.map w).sum
  let along (f : Nat → Nat) : Nat := ((cells.map fun y => w y * (256 * f y + 128)).sum) / total
  (along fun y => y % c.cols, along fun y => y / c.cols)

/-- Screen position of a centroid: SWAP, FLIPX, FLIPY, origin and pitch, clamped to the screen (R400). -/
def TouchConf.place (c : TouchConf) (width height : Nat) (nodes : List NodeSt) (k : Nat) : Nat × Nat :=
  let cells := k :: c.around k
  let w (y : Nat) : Nat := (nodes.getD y NodeSt.reset).dm.toNat
  let total := (cells.map w).sum
  let swap := bitAt c.flags 0
  let kx (y : Nat) : Nat := if swap then y / c.cols else y % c.cols
  let ky (y : Nat) : Nat := if swap then y % c.cols else y / c.cols
  let nx := if swap then c.rows else c.cols
  let ny := if swap then c.cols else c.rows
  let fx (y : Nat) : Nat := if bitAt c.flags 1 then nx - 1 - kx y else kx y
  let fy (y : Nat) : Nat := if bitAt c.flags 2 then ny - 1 - ky y else ky y
  let cx := ((cells.map fun y => w y * (256 * fx y + 128)).sum) / total
  let cy := ((cells.map fun y => w y * (256 * fy y + 128)).sum) / total
  (min (width - 1) (c.xorg + cx * c.xpitch / 4096), min (height - 1) (c.yorg + cy * c.ypitch / 4096))

/-- Squared distance of two positions. -/
def dist2 (a b : Nat × Nat) : Nat :=
  let d (x y : Nat) : Nat := (x - y) + (y - x)
  d a.1 b.1 * d a.1 b.1 + d a.2 b.2 * d a.2 b.2

/-- The contacts of a frame, not yet named: peak, position in nodes, area, strength, and whether a node of it was touched at
start. A node counts for the nearest peak of its group. -/
def TouchConf.finds (c : TouchConf) (width height : Nat) (nodes : List NodeSt) (cls : List NodeClass) (now : Nat) : List Contact :=
  let fingers := (List.range nodes.length).filter fun k => cls.getD k .free == .finger
  (c.groups fingers.length fingers).flatMap fun g =>
    let ps := c.peaks nodes g
    let xy (k : Nat) : Nat × Nat := (k % c.cols, k / c.cols)
    let owner (k : Nat) : Nat := ps.foldl (fun b p => if dist2 (xy k) (xy p) < dist2 (xy k) (xy b) then p else b) (ps.headD k)
    ps.map fun p =>
      let mine := g.filter fun k => owner k == p
      { ident := 0, cq := c.centroid nodes p, pos := c.place width height nodes p
        area := (mine.filter fun k => decide ((c.touchTh : Int) ≤ (nodes.getD k NodeSt.reset).dm)).length
        strength := (nodes.getD p NodeSt.reset).dm.toNat, since := now
        start := mine.any fun k => (nodes.getD k NodeSt.reset).start }

/-- The nearest pair of an old and a new contact within TRACKDIST. -/
def TouchConf.nearest (c : TouchConf) (old new : List Contact) : Option (Contact × Contact) :=
  let lim := (64 * c.track) * (64 * c.track)
  let pairs := old.flatMap fun o => (new.filter fun n => decide (dist2 o.cq n.cq ≤ lim)).map fun n => (o, n)
  pairs.foldl (fun (b : Option (Contact × Contact)) p => match b with
    | none => some p
    | some q => if dist2 p.1.cq p.2.cq < dist2 q.1.cq q.2.cq then some p else b) none

/-- Matches old and new contacts, the nearest pair first (R401): the contacts that keep an identity, what is left of the old, and
what is left of the new. The argument bounds the pairs. -/
def TouchConf.track_ (c : TouchConf) : Nat → List Contact → List Contact → List Contact × List Contact × List Contact
  | 0, old, new => ([], old, new)
  | k + 1, old, new => match c.nearest old new with
    | none => ([], old, new)
    | some (o, n) =>
      let r := c.track_ k (old.erase o) (new.erase n)
      ({ n with ident := o.ident, since := o.since, start := o.start } :: r.1, r.2.1, r.2.2)

/-- New contacts take the lowest free identities; those beyond 16 are left over (R401). -/
def nameContacts (used : List Nat) : List Contact → List Contact × Nat
  | [] => ([], 0)
  | c :: cs => match (List.range 16).find? fun i => !used.contains i with
    | none => ([], cs.length + 1)
    | some i =>
      let r := nameContacts (i :: used) cs
      ({ c with ident := i } :: r.1, r.2)

/-! ## Baselines (R396, R397, R399) -/

/-- Limit of a movement, limited to DRIFTMAX / FRAMERATE with 8 fraction bits. -/
def TouchConf.step (c : TouchConf) (n : NodeSt) : Int :=
  let lim : Int := ((c.drift * 256 / c.rate : Nat) : Int)
  clampI (-lim) lim (n.raw * 256 - n.base)

/-- Mean of a list of movements, none for an empty one. -/
def meanMove (l : List Int) : Option Int := if l = [] then none else some (l.foldl (fun a b => a + b) 0 / (l.length : Int))

/-- A frame of a node touched at start whose delta has fallen below RELEASETH (R399): the frame of the fall itself, then the eight frames
whose mean becomes the baseline; a touch within them keeps the reference. -/
def NodeSt.relearnStep (n : NodeSt) (again : Bool) : NodeSt := match n.relearn with
  | none => n
  | some (k, sum) =>
    if again then { n with relearn := none, start := false }
    else if k = 0 then { n with relearn := some (1, 0) }
    else if 8 ≤ k then { n with relearn := none, start := false, base := (sum + n.raw) * 32 }
    else { n with relearn := some (k + 1, sum + n.raw) }

/-- A node or electrode whose delta has stayed below −RELEASETH for 1 s takes its raw value (R397). -/
def TouchConf.resettle (c : TouchConf) (delta : Int) (n : NodeSt) : NodeSt :=
  let low := if delta < -(c.relTh : Int) then n.low + 1 else 0
  if c.rate ≤ low then { n with base := n.raw * 256, low := 0 } else { n with low := low }

/-- Baselines of the matrix at the end of a frame (R396, R397). -/
def TouchConf.moveNodes (c : TouchConf) (nodes : List NodeSt) (cls : List NodeClass) : List NodeSt :=
  let node (k : Nat) : NodeSt := nodes.getD k NodeSt.reset
  let busy (k : Nat) : Bool := cls.getD k .free != .free || (node k).down
  let frozen (k : Nat) : Bool := busy k || (c.around k).any busy
  let all := List.range nodes.length
  let free := all.filter fun k => !frozen k && (node k).start == false
  let moves := free.map fun k => (k, c.step (node k))
  let total := meanMove (moves.map fun x => x.2)
  all.map fun k =>
    let n := node k
    if n.start then n.relearnStep (c.touched n)
    else if frozen k then
      let near := (moves.filter fun x => x.1 / c.cols == k / c.cols || x.1 % c.cols == k % c.cols).map fun x => x.2
      { n with base := n.base + ((meanMove near).getD (total.getD 0)), low := 0 }
    else
      let m : NodeSt := { n with base := n.base + c.step n }
      if c.mode = 2 then m else c.resettle n.dm m

/-- Baselines of self electrodes at the end of a frame (R396, R397). -/
def TouchConf.moveSelfs (c : TouchConf) (selfs : List NodeSt) : List NodeSt :=
  let moves := (selfs.filter fun n => !n.down && !n.start).map c.step
  let mean := (meanMove moves).getD 0
  selfs.map fun n =>
    if n.start then n.relearnStep n.down
    else if n.down then { n with base := n.base + mean, low := 0 }
    else c.resettle n.ds { n with base := n.base + c.step n }

/-- A node or electrode is touched or pressed in this frame, or not. One touched at start whose delta is `below` its release threshold
keeps the reference for 8 frames more (R399). -/
def NodeSt.released (n : NodeSt) (down below : Bool) : NodeSt :=
  if n.start && n.relearn.isNone && below then { n with down := down, relearn := some (0, 0) } else { n with down := down }

/-! ## Reports (R402 to R407) -/

/-- The 32 bytes of a report (R402). -/
def repBytes (frame : Nat) (r : TouchRep) (flags word time : Nat) : List Byte :=
  let reg := match r.region with
    | none => 0xFFFF
    | some (h, i) => i % 1024 + 1024 * h.num
  leBytes 4 frame ++ leBytes 1 r.kind ++ leBytes 1 r.ident ++ leBytes 2 flags ++ leBytes 2 r.pos.1 ++ leBytes 2 r.pos.2
    ++ leBytes 2 r.area ++ leBytes 2 r.strength ++ leBytes 1 r.top ++ leBytes 1 (word % 256) ++ leBytes 2 (word / 256) ++ leBytes 2 reg
    ++ leBytes 2 0 ++ leBytes 8 time

/-- STATUS byte and AGE, as one number, of a report without a region word: AGELAYER 0xF, AGE 0xFFFF. -/
def noStatus : Nat := 0x78 + 256 * 0xFFFF

/-- The word of a region as the report carries it, with NOTLIVE and OVER. -/
structure RepStatus where
  word    : Nat
  notLive : Bool
  over_   : Bool
  unknown : Bool

/-- STATUS, AGELAYER, AGE and OVER of an AGE_REGSTAT word (R406). -/
def statusOf (w : Nat) : RepStatus :=
  let f (x : Field) : Nat := bitsAt w x.lo x.width
  let st := f (F.AGE_REGSTAT_STATUS 0)
  let isOver := f (F.AGE_REGSTAT_OVER 0) == 1
  { word := st + 8 * f (F.AGE_REGSTAT_LAYER 0) + 256 * f (F.AGE_REGSTAT_AGE 0)
    notLive := decide (2 ≤ st) || isOver, over_ := isOver, unknown := false }

/-- Status of a report whose content is not known (R407). -/
def unknownStatus : RepStatus := { word := noStatus, notLive := true, over_ := false, unknown := true }

/-- Of two region words the one whose status comes first in R243. -/
def worseWord (a b : Nat) : Nat :=
  let rank (w : Nat) : Nat := statusOrder.idxOf (bitsAt w (F.AGE_REGSTAT_STATUS 0).lo (F.AGE_REGSTAT_STATUS 0).width)
  if rank b < rank a then b else a

/-- The contents that a half showed in an interval: what stood at its start and what came within it (R406). -/
def shownWithin (l : List ShownRec) (h : HalfId) (start stop : Nat) : List ShownRec :=
  let mine := l.filter fun r => r.half == h
  let came := mine.filter fun r => decide ((start : Int) < r.since) && decide (r.since ≤ (stop : Int))
  came ++ ((mine.filter fun r => decide (r.since ≤ (start : Int))).head?.toList)

/-- Status of a report (R406, R407). -/
def TouchSt.status (x : TouchSt) (running : Bool) (waiting : HalfId → Bool) (r : TouchRep) (start stop : Nat) : RepStatus :=
  match r.region with
  | none => if r.unknown || !running then unknownStatus else { word := noStatus, notLive := false, over_ := false, unknown := false }
  | some (h, i) =>
    if r.unknown || !running || waiting h then unknownStatus
    else
      let shown := shownWithin x.shown h start stop
      match shown.map fun (y : ShownRec) => y.words.getD i 0xFFFFF000 with
      | [] => unknownStatus
      | w :: ws => if shown.any fun (y : ShownRec) => y.words.length ≤ i then unknownStatus else statusOf (ws.foldl worseWord w)

/-- The ring has room for a report (R403). -/
def Half.reportRoom (h : Half) : Bool := (h.get F.TCH_RINGPTR_WR + 1) % 64 != h.get F.TCH_RINGPTR_RD

/-- The half with its touch block changed. -/
def Half.onTouch (h : Half) (f : TouchSt → TouchSt) : Half := { h with touch := f h.touch }

/-- The touch DMA (master 11) writes one report into the ring (R403): a full ring or a refusal leaves it out and makes a RESYNC
sequence due. -/
def Module.putReport (m : Module) (t : Nat) (bytes : List Byte) : Module :=
  let h := m.half0
  let lost (h : Half) : Half := h.onTouch fun (x : TouchSt) => { x with resync := true }
  if h.reportRoom then
    let wr := h.get F.TCH_RINGPTR_WR
    let off := 2048 * h.get F.TCH_RING_BASE + 32 * wr
    let a := 0x100600000 + off
    match m.checkAccess .h0 a (.words 8) mTouch .write with
    | none => m.onHalf .h0 fun h => ({ h with sram := memWrite h.sram off bytes } : Half).set F.TCH_RINGPTR_WR ((wr + 1) % 64)
    | some d => m.onHalf .h0 fun h =>
      let h1 := (h.refuse t a d mTouch .write).tally F.TCH_TALLY_REFUSED 1
      lost (h1.fault t clsTch 4 0 (h1.wordBytes F.TCH_STATUS_word.off))
  else m.onHalf .h0 fun h => lost ((h.tally F.TCH_TALLY_DROPPED 1).set F.TCH_STATUS_OVERFLOW 1)

/-- A report as written. -/
def Module.report (m : Module) (t frame stop : Nat) (r : TouchRep) (s : RepStatus) (last : Bool) : Module :=
  let flags := r.flags + 16 * bit s.notLive + 32 * bit s.unknown + 64 * bit s.over_ + 256 * bit last
  m.putReport t (repBytes frame r flags s.word stop)

/-- Tile attribution of a contact at a screen position (R405): region, top layer, and whether it is UNKNOWN because the set has
changed (R407). -/
def Module.touchTarget (m : Module) (pos : Nat × Nat) : Option (HalfId × Nat) × Nat × Bool :=
  let tx := pos.1 / 16
  let ty := pos.2 / 16
  let side : HalfId := if m.half0.alone then .h0 else if tx < ((m.half0.image.map fun i => i.man.boundary).getD 0) then .h0 else .h1
  let h := m.half side
  if h.inReset then (none, 0xFF, true)
  else match h.setEntries.find? fun e =>
      let w := h.runWork e .normal
      decide (w.tx0 ≤ tx) && decide (tx < w.tx0 + w.tw) && decide (w.ty0 ≤ ty) && decide (ty < w.ty0 + w.th) with
    | none => (none, 0xFF, false)
    | some e =>
      let w := h.runWork e .normal
      let inside := w.list.filter fun c => (h.scene.map fun s => (s.layer c.layer).inDest pos.1 pos.2).getD false
      let top := (inside.getLast?.map fun c => c.layer).getD 0xFF
      let shown := (h.lap.regions[w.region]?.bind fun r => r.shown).isSome
      (some (side, w.region), top, !shown)

/-- A report of a contact. -/
def Module.contactRep (m : Module) (c : TouchConf) (t : Nat) (down up lost wet : Bool) (x : Contact) : TouchRep :=
  let a := m.touchTarget x.pos
  let long := c.hold != 0 && decide (x.since + c.hold * secNs < t)
  { kind := 0, ident := x.ident
    flags := bit down + 2 * bit up + 4 * bit long + 8 * bit x.start + 128 * bit wet + 512 * bit lost
    pos := x.pos, area := if up then 0 else x.area, strength := if up then 0 else x.strength, top := a.2.1, region := a.1
    unknown := a.2.2 }

/-- A report of a self electrode. -/
def buttonRep (c : TouchConf) (t : Nat) (down up lost wet : Bool) (i : Nat) (n : NodeSt) : TouchRep :=
  let long := c.hold != 0 && decide (n.since + c.hold * secNs < t)
  { kind := 1, ident := i
    flags := bit down + 2 * bit up + 4 * bit long + 8 * bit n.start + 128 * bit wet + 512 * bit lost
    pos := (0, 0), area := 0, strength := if up then 0 else n.ds.toNat, top := 0xFF, region := none, unknown := false }

/-- The RESYNC report. -/
def resyncRep : TouchRep :=
  { kind := 2, ident := 0, flags := 0, pos := (0, 0), area := 0, strength := 0, top := 0xFF, region := none, unknown := false }

/-- Numbered elements of a list. -/
def numbered {α : Type} (l : List α) : List (Nat × α) := (List.range l.length).zip l

/-- The module runs (R407). -/
def Module.isRunning (m : Module) : Bool := m.half0.mode == modeRunning

/-- A half waits for the report of a predicted blanking in an interval (R406). -/
def Half.awaitsBlanking (h : Half) (start stop : Nat) : Bool :=
  !h.inReset && (match h.lap.blank with
    | none => false
    | some (b, _) => (List.range 4).any fun k =>
      let p : Int := b + (((k + 1) * h.get F.AGE_PERIOD_NS : Nat) : Int)
      decide ((start : Int) < p) && decide (p ≤ (stop : Int)) && h.get F.AGE_PERIOD_NS != 0)

/-- The RESYNC sequence, when room has returned (R403): one RESYNC report and one for every present contact and pressed
electrode. -/
def Module.resyncRing (m : Module) (t : Nat) : Module :=
  let h := m.half0
  let x := h.touch
  match x.conf with
  | none => m
  | some c =>
    if x.resync && h.reportRoom then
      let frame := h.get F.TCH_FRAME_FRAME
      let lb := h.lb t
      let m1 := m.onHalf .h0 fun h => h.onTouch fun (y : TouchSt) => { y with resync := false }
      let reps := x.contacts.map (m.contactRep c t false false false false)
        ++ ((numbered x.selfs).filter fun p => p.2.down).map fun p => buttonRep c t false false false false p.1 p.2
      let m2 := m1.report t frame lb resyncRep (x.status m.isRunning (fun _ => false) resyncRep lb lb) (reps == [])
      (numbered reps).foldl (fun m p => m.report t frame lb p.2 (x.status m.isRunning (fun _ => false) p.2 lb lb) (p.1 + 1 == reps.length)) m2
    else m

/-- When the wait for the BLANKING reports of the held frame runs out (R406): 500 µs after the last blanking predicted within its
measurement. -/
def Half.touchWaitEnd (h : Half) (t start stop : Nat) : Nat := match h.lap.blank with
  | none => 0
  | some (b, _) => ((List.range 4).filterMap fun k =>
      let p : Int := b + (((k + 1) * h.get F.AGE_PERIOD_NS : Nat) : Int)
      if (start : Int) < p ∧ p ≤ (stop : Int) then some (t + (p + 500000 - (h.lb t : Int)).toNat) else none).foldl max 0

/-- Reports of a frame are written once their status is known (R406); `out`: the wait has run out. -/
def Module.finishFrame (m : Module) (t : Nat) (out : Bool) : Module :=
  let x := m.half0.touch
  match x.held with
  | none => m
  | some f =>
    let waits (h : HalfId) : Bool := (m.half h).awaitsBlanking f.start f.stop
    if !out && (f.reps.any fun r => (r.region.map fun q => waits q.1).getD false) then m
    else
      let m1 := m.onHalf .h0 fun h => h.onTouch fun (y : TouchSt) => { y with held := none }
      let m2 := m1.resyncRing t
      (numbered f.reps).foldl (fun m p =>
        m.report t f.frame f.stop p.2 (x.status m.isRunning waits p.2 f.start f.stop) (p.1 + 1 == f.reps.length)) m2

/-- The region words that a half shows from a reported blanking on; those of half 1 come over the half link (R406). A mirror that cannot
come is known to be missing (R407). -/
def Module.mirrorStatus (m : Module) (t : Nat) (h : HalfId) : Module :=
  let x := m.half h
  match x.lap.blank with
  | none => m
  | some (b, _) =>
    let take := h == .h0 || linkOk m.half0 m.half1
    let words := if take then (List.range x.lap.regions.length).map fun i => (x.reg (F.AGE_REGSTAT_word i).off).toNat else []
    if m.half0.inReset = false then
      let m1 := m.onHalf .h0 fun y => y.onTouch fun (z : TouchSt) => { z with
        shown := (ShownRec.mk h b words :: z.shown).take 16 }
      m1.finishFrame t false
    else m

/-- Contacts end for another cause than release (R404): UP with LOST, LAST in the final report. -/
def Module.loseContacts (m : Module) (t : Nat) : Module :=
  let m0 := (m.finishFrame t true).resyncRing t
  let h := m0.half0
  let x := h.touch
  match x.conf with
  | none => m0
  | some c =>
    let frame := h.get F.TCH_FRAME_FRAME
    let lb := h.lb t
    let reps := x.contacts.map (m0.contactRep c t false true true false)
      ++ ((numbered x.selfs).filter fun p => p.2.down).map fun p => buttonRep c t false true true false p.1 p.2
    let m1 := m0.onHalf .h0 fun h => (h.onTouch fun (y : TouchSt) => { y with
      contacts := [], selfs := y.selfs.map fun (n : NodeSt) => { n with down := false }
      nodes := y.nodes.map fun (n : NodeSt) => { n with down := false } }).set F.TCH_STATUS_CONTACTS 0
    (numbered reps).foldl (fun m p => m.report t frame lb p.2 (x.status m.isRunning (fun _ => false) p.2 lb lb) (p.1 + 1 == reps.length)) m1

/-- STATE codes of TCH_STATUS. -/
def tsOff : Nat := 0
def tsDisabled : Nat := 1
def tsBaseline : Nat := 2
def tsRunning : Nat := 3
def tsNoSupply : Nat := 4

/-- Measurement begins with a start baseline (R399). -/
def Half.startScan (h : Half) : Half :=
  let h1 := h.onTouch fun (x : TouchSt) => match x.conf with
    | none => x
    | some c => { x with
      nodes := List.replicate (c.rows * c.cols) NodeSt.reset, selfs := c.self.map fun _ => NodeSt.reset
      rowE := if c.mode = 2 then List.replicate c.rows NodeSt.reset else []
      colE := if c.mode = 2 then List.replicate c.cols NodeSt.reset else []
      frames := 0, contacts := [], held := none }
  h1.sets [(F.TCH_STATUS_STATE, tsBaseline), (F.TCH_FRAME_FRAME, 0), (F.TCH_STATUS_STARTNODES, 0), (F.TCH_STATUS_WET, 0),
    (F.TCH_STATUS_CONTACTS, 0), (F.TCH_STATUS_NOMAP, bit h.touch.refMap.isNone)]

/-- At the end of start step 7 a SCAN that was set before takes effect (R399). -/
def Half.scanAfterStart (h : Half) : Half :=
  if h.id == .h0 && h.flag F.TCH_CTRL_SCAN && h.touch.conf.isSome && h.get F.TCH_STATUS_STATE == tsOff then h.startScan else h

/-- A write of TCH_CTRL.SCAN, which takes effect only after start step 7 (R399, R404). -/
def Module.scan (m : Module) (t : Nat) (on : Bool) : Module :=
  let h := m.half0
  let was := h.flag F.TCH_CTRL_SCAN
  let m1 := m.onHalf .h0 fun h => h.setFlag F.TCH_CTRL_SCAN on
  if on then
    if !was && decide (7 ≤ h.step) && h.touch.conf.isSome && h.get F.TCH_STATUS_STATE != tsDisabled then
      m1.onHalf .h0 Half.startScan
    else m1
  else if h.get F.TCH_STATUS_STATE = tsDisabled then m1
  else (m1.loseContacts t).onHalf .h0 fun h => h.set F.TCH_STATUS_STATE tsOff

/-- VTCH leaves its window (R42, R404): measurement stops, contacts are LOST, fault class TCH code 2. -/
def Module.touchSupplyStop (m : Module) (t : Nat) : Module :=
  let st := m.half0.get F.TCH_STATUS_STATE
  let m1 := if st = tsBaseline ∨ st = tsRunning then (m.loseContacts t).onHalf .h0 fun h => h.set F.TCH_STATUS_STATE tsNoSupply else m
  m1.onHalf .h0 fun h => h.fault t clsTch 2 0 (h.wordBytes F.TCH_STATUS_word.off)

/-- Raw values of a frame put into nodes. -/
def putRaw (nodes : List NodeSt) (raw : List Int) : List NodeSt :=
  (numbered nodes).map fun p => { p.2 with raw := raw.getD p.1 0 }

/-- The start baseline of one node or electrode (R399) from the sum of eight raw values in `base`: the node, and whether it deviates
toward or away from a finger. -/
def TouchConf.settle (c : TouchConf) (ref : Option Int) (mutualNode : Bool) (n : NodeSt) : NodeSt × Bool × Bool :=
  let mean := n.base * 32
  match ref with
  | none => ({ n with base := mean, low := 0 }, false, false)
  | some r =>
    let d := if mutualNode then 8 * r - n.base else n.base - 8 * r
    let toward := decide (8 * (c.startTh : Int) < d)
    let away := decide (d < -8 * (c.startTh : Int))
    if toward then ({ n with base := r * 256, down := true, start := true }, true, false)
    else if away then ({ n with base := r * 256 }, false, true)
    else ({ n with base := mean }, false, false)

/-- Frames 1 to 8 after the discarded one: raw values are summed in `base`, and settled after the eighth (R399). -/
def Half.baselineFrame (h : Half) (t : Nat) (c : TouchConf) (x : TouchSt) : Half :=
  let sum (l : List NodeSt) : List NodeSt := l.map fun (n : NodeSt) => { n with base := n.base + n.raw }
  let y : TouchSt := { x with nodes := sum x.nodes, selfs := sum x.selfs, rowE := sum x.rowE, colE := sum x.colE }
  if x.frames < 9 then h.onTouch fun _ => y
  else
    let ref (i : Nat) : Option Int := x.refMap.map fun m => m.getD i 0
    let ns := (numbered y.nodes).map fun p => c.settle (ref p.1) true p.2
    let ss := (numbered y.selfs).map fun p => c.settle (ref (c.rows * c.cols + p.1)) false p.2
    let es (l : List NodeSt) : List NodeSt := l.map fun n => (c.settle none false n).1
    let dev := (ns ++ ss).filter fun p => p.2.1 || p.2.2
    let away := (ns ++ ss).any fun p => p.2.2
    let pressed (n : NodeSt) : NodeSt := { n with since := t }
    let h1 := (h.onTouch fun _ => { y with
      nodes := ns.map fun p => p.1, selfs := ss.map fun p => pressed p.1, rowE := es y.rowE, colE := es y.colE }).sets
        [(F.TCH_STATUS_STATE, tsRunning), (F.TCH_STATUS_STARTNODES, dev.length)]
    if away then h1.fault t clsTch 3 0 (h1.wordBytes F.TCH_STATUS_word.off) else h1

/-- A frame in RUNNING (R394 to R402): classes, contacts and pressed electrodes, reports, then baselines. -/
def Module.runningFrame (m : Module) (t : Nat) (c : TouchConf) (x : TouchSt) (frame stop : Nat) : Module :=
  let im := m.half0.image
  let width := 16 * ((im.map fun i => i.man.width).getD 0)
  let height := 16 * ((im.map fun i => i.man.height).getD 0)
  let cls := c.classes x.nodes x.rowE x.colE
  let wet := cls.contains .water
  let found := c.finds width height x.nodes cls t
  let tr := c.track_ 16 x.contacts found
  let used := x.contacts.map fun k => k.ident
  let fresh := nameContacts used (tr.2.2.take (16 - tr.1.length))
  let extra := (tr.2.2.length - (16 - tr.1.length)) + fresh.2
  let all := tr.1 ++ fresh.1
  let stay := (List.range 16).filterMap fun i => all.find? fun k => k.ident == i
  let isNew (k : Contact) : Bool := fresh.1.contains k
  let selfs := (numbered x.selfs).map fun p =>
    let on := selfPressed ((c.self.getD p.1 (0, 0)).2) p.2
    let n := p.2.released on (!on)
    if on && !p.2.down then { n with since := t } else n
  let was (i : Nat) : Bool := (x.selfs.getD i NodeSt.reset).down
  let down (p : Nat × NodeSt) : TouchRep := buttonRep c t (!was p.1) false false wet p.1 p.2
  let up (p : Nat × NodeSt) : TouchRep := buttonRep c t false true false wet p.1 p.2
  let reps := stay.map (fun k => m.contactRep c t (isNew k) false false wet k)
    ++ ((numbered selfs).filter fun p => p.2.down).map down
    ++ tr.2.1.map (fun k => m.contactRep c t false true false wet k)
    ++ ((numbered selfs).filter fun p => !p.2.down && was p.1).map up
  let nodes := (numbered x.nodes).map fun p => p.2.released (cls.getD p.1 .free == .finger) (decide (p.2.dm < (c.relTh : Int)))
  let edge (l : List NodeSt) : List NodeSt := c.moveSelfs (l.map fun (n : NodeSt) => { n with down := decide ((c.selfTh : Int) ≤ n.ds) })
  let span := 8 * ceilDiv c.rows 8 * 100000 + (bit (c.self != []) + (if c.mode = 2 then 2 else 0)) * 50000
  let y : TouchSt := { x with
    contacts := stay, nodes := c.moveNodes nodes cls, selfs := c.moveSelfs selfs, rowE := edge x.rowE, colE := edge x.colE
    held := if reps = [] then none else some { frame := frame, reps := reps, start := stop - span, stop := stop } }
  let m1 := m.onHalf .h0 fun h =>
    let h1 := (h.onTouch fun _ => y).sets [(F.TCH_STATUS_CONTACTS, stay.length), (F.TCH_STATUS_WET, bit wet)]
    let h2 := if wet then h1.tally F.TCH_TALLY_WATER 1 else h1
    h2.tally F.TCH_TALLY_EXTRA extra
  m1.finishFrame t false

/-- A touch frame's measurement ends (R393 to R407). `vtch`: VTCH is in its window. -/
def Module.touchFrame (m : Module) (t : Nat) (samples : List (List (List Int))) (selfRaw rowSelf colSelf : List Int) (stamp : Nat) :
    Module :=
  let h := m.half0
  let st := h.get F.TCH_STATUS_STATE
  let vtch := !bitAt m.lamp.outActed 8
  if h.inReset || !vtch || !h.flag F.TCH_CTRL_SCAN || st == tsDisabled || st == tsOff then m
  else match h.touch.conf with
    | none => m
    | some c =>
      let m0 := if st = tsNoSupply then m.onHalf .h0 Half.startScan else m.finishFrame t true
      let h0 := m0.half0
      let n := h0.touch.frames + 1
      let x : TouchSt := { h0.touch with
        frames := n, nodes := putRaw h0.touch.nodes (c.decode samples), selfs := putRaw h0.touch.selfs selfRaw
        rowE := putRaw h0.touch.rowE rowSelf, colE := putRaw h0.touch.colE colSelf }
      let m1 := m0.onHalf .h0 fun h => ((h.onTouch fun _ => x).set F.TCH_FRAME_FRAME n).raiseAt 2 irqTouch
      if n = 1 then m1
      else if h0.get F.TCH_STATUS_STATE = tsBaseline then m1.onHalf .h0 fun h => h.baselineFrame t c x
      else m1.runningFrame t c x n stamp

/-- The node that TCH_NODESEL names, as TCH_NODEVAL shows it. -/
def Half.nodeVal (h : Half) : Nat :=
  let x := h.touch
  let cols := (x.conf.map fun c => c.cols).getD 0
  let n : Option NodeSt := if h.flag F.TCH_NODESEL_SELF then x.selfs[h.get F.TCH_NODESEL_COL]?
    else if h.get F.TCH_NODESEL_COL < cols then x.nodes[h.get F.TCH_NODESEL_ROW * cols + h.get F.TCH_NODESEL_COL]? else none
  match n with
  | none => 0
  | some k => unsigned 16 (k.base / 256) * 65536 + unsigned 16 k.raw

/-- The TCH block is idle for R68. -/
def Half.touchIdle (h : Half) : Bool := !h.flag F.TCH_CTRL_SCAN

end Sys2Proof.Machine
end

