-- ==== Sys2Proof/Machine/Power.lean ====
section
/-!
DEFINITION. Power, supplies and temperature as the lamplighter watches them (R38 to R45), RESET_N (R52), the rest state and
waking (R369), and the holds of module and half resets.
-/
namespace Sys2Proof.Machine

/-! ## VAON and PWR_EN -/

/-- A lamplighter power-on reset (R42, R50): everything resets, the false-start count is lost; flash and fuse stay. -/
def Module.lampReset (m : Module) (t : Nat) (p : LampPhase) : Module :=
  { Module.reset with flash := m.flash, fuse := m.fuse, lamp := Lamp.enter Lamp.reset t p }

/-- VAON falls below 1.62 V (R42). -/
def Module.vaonLow (m : Module) (t : Nat) : Module := m.lampReset t .noVaon

/-- VAON rises: the lamplighter makes its power-on reset and begins sampling (R49). -/
def Module.vaonRise (m : Module) (t : Nat) : Module := m.lampReset t .off

/-- PWR_EN goes high and PWR_GOOD is awaited (R38, R41). -/
def Lamp.raisePower (l : Lamp) (t : Nat) : Lamp := Lamp.enter { l with pwrEn := true, pwrGood := false } t .waitGood

/-- PWR_EN is raised 10 ms after lamplighter power-on (R38); a wake raises it by itself (R369). -/
def Module.pwrEnRaise (m : Module) (t : Nat) : Module :=
  if m.lamp.phase = .off ∧ m.lamp.attempts = 0 then m.onLamp fun l => l.raisePower t else m

/-- A wake event powers the module again (R41, R369): cold scope, whose start clears RST_CAUSE and sets cause 5 for RESET_N (wake
code 3) and 2 for any other (R50). -/
def Module.wake (m : Module) (t code : Nat) : Module :=
  let cause := if code = 3 then 5 else 2
  let lamp : Lamp := { m.lamp with scope := .cold, cause := cause, attempts := 0, wakeHeld := none }
  let m : Module := { m with lamp := (lamp.raisePower t).set F.LMP_WAKE_CAUSE code }
  m.onBoth fun h => (h.setReg F.RST_CAUSE_word.off 0).addCause cause

/-- The phases in which a wake event wakes the module at once (R41, R369). -/
def LampPhase.asleep : LampPhase → Bool
  | .waitWake => true
  | .rest => true
  | _ => false

/-- A wake event: it wakes a sleeping module, and is held during the 1 ms before PWR_EN falls (R369). -/
def Module.wakeEvent (m : Module) (t code : Nat) : Module :=
  if m.lamp.phase.asleep then m.wake t code
  else if m.lamp.phase = .restEntry then m.onLamp fun (l : Lamp) => { l with wakeHeld := some (l.wakeHeld.getD code) }
  else m

/-- PWR_GOOD is released (R38): the starters are released, unless RESET_N is low or a thermal trip stands. -/
def Module.pwrGoodRise (m : Module) (t : Nat) : Module :=
  if m.lamp.phase = .waitGood then
    let m : Module := { m with lamp := { m.lamp with pwrGood := true, attempts := 0, outLast := 0, outActed := 0 } }
    m.letGo t
  else m

/-- PWR_GOOD is not released within 100 ms (R41): PWR_EN falls, fault PWR code 2, a false start with cause 4; after the third
consecutive one the lamplighter waits for a wake event. -/
def Module.pwrGoodTimeout (m : Module) (t : Nat) : Module :=
  if m.lamp.phase = .waitGood then
    let m := (m.lampFault t clsPwr 2 0xFF []).falseStart t 4
    let n := m.lamp.attempts + 1
    let m := m.intoReset t .cold [4] (if 3 ≤ n then .waitWake else .off)
    m.onLamp fun (l : Lamp) => { l with pwrEn := false, attempts := n }
  else m

/-- 1 s after a PWR_GOOD timeout PWR_EN is raised again, unless three attempts have failed (R41). -/
def Module.pwrRetry (m : Module) (t : Nat) : Module :=
  if m.lamp.phase = .off ∧ 1 ≤ m.lamp.attempts ∧ m.lamp.attempts < 3 then m.onLamp fun l => l.raisePower t else m

/-! ## Supplies and temperature -/

/-- Window of supply `i` of the telemetry order in mV (R42): 0.66 V to 0.94 V for VCORE0 and VCORE1, nominal ±8 % for the
others. -/
def supplyWindow (i : Nat) : Nat × Nat := match i with
  | 0 => (660, 940)
  | 1 => (660, 940)
  | 2 => (828, 972)
  | 3 => (1104, 1296)
  | 4 => (460, 540)
  | 5 => (966, 1134)
  | 6 => (1656, 1944)
  | 7 => (1656, 1944)
  | 8 => (3036, 3564)
  | _ => (1656, 1944)

/-- Supply `i` lies outside its window. -/
def supplyOut (mv : List Nat) (i : Nat) : Bool :=
  let v := mv.getD i 0
  let w := supplyWindow i
  decide (v < w.1) || decide (w.2 < v)

/-- The supplies outside their windows as bits 0 to 8, and PWR_GOOD low as bit 10 (VAON is judged by itself, R42). PWR_GOOD low
counts like a supply, at its second sample (log entry 111). -/
def outBits (mv : List Nat) (good : Bool) : Nat :=
  ((List.range 9).filter (supplyOut mv)).foldl (fun b i => b + 2 ^ i) (if good then 0 else 2 ^ 10)

/-- Phases in which the module is powered and its supplies are watched (R42). -/
def LampPhase.powered : LampPhase → Bool
  | .heldResetN => true
  | .heldFalse => true
  | .heldTrip => true
  | .heldVcore => true
  | .released => true
  | .starting => true
  | .running => true
  | .recovery => true
  | .laneTest => true
  | _ => false

/-- The whole module is reset because of a supply (R42): cold scope, cause 2, fault PWR with the supply's index and its mV. The
manual gives this reset no length: with PWR_GOOD high the halves go at once, the supply still out or not, and with PWR_GOOD low
they wait for it (log entry 111). -/
def Module.supplyReset (m : Module) (t unit mv : Nat) (good : Bool) : Module :=
  let m := m.lampFault t clsPwr 1 unit (leBytes 4 mv)
  let m := m.requestReset t .cold [2] (if good then .released else .waitGood)
  if good then m else m.onLamp fun (l : Lamp) => { l with pwrGood := false }

/-- One supply sample while the module is powered (R42): the row of widest scope among the conditions that now hold for the
second sample running governs. `twice`: every supply out for two samples, `acts`: those for which nothing has been done yet. -/
def Module.actOnSupplies (m : Module) (t : Nat) (mv : List Nat) (good : Bool) (twice acts : Nat) : Module :=
  let on (i : Nat) : Bool := bitAt acts i
  let whole := [2, 3, 4, 5, 6, 7].find? on
  if on 10 then m.supplyReset t 0xFF 0 good
  else match whole with
  | some i => m.supplyReset t i (mv.getD i 0) good
  | none =>
    if bitAt twice 0 && bitAt twice 1 && (on 0 || on 1) then
      m.supplyReset t (if on 0 then 0 else 1) (mv.getD (if on 0 then 0 else 1) 0) good
    else
      let m1 := if on 8 then m.touchSupplyStop t else m
      let m2 := if on 0 then (m1.lampFault t clsPwr 1 0 (leBytes 4 (mv.getD 0 0))).requestHalfReset t .h0 [9] .vcore else m1
      if on 1 then (m2.lampFault t clsPwr 1 1 (leBytes 4 (mv.getD 1 0))).requestHalfReset t .h1 [9] .vcore else m2

/-- When a VCORE entered its window, for the release of a half held for it. -/
def vcoreSince (x : LampHalf) (t : Nat) (out : Bool) : LampHalf :=
  { x with vcoreOk := if out then none else some (x.vcoreOk.getD t) }

/-- The lamplighter's sample of supplies, PWR_GOOD and temperatures, each millisecond (R42). VTCH is acted on in the touch block of
half 0, once that half is out of reset. -/
def Module.supplySample (m : Module) (t : Nat) (mv : List Nat) (good : Bool) (temps : List Int) : Module :=
  let out := if m.lamp.phase.powered then outBits mv good else 0
  let twice := (List.range 11).foldl (fun b i => if bitAt out i && bitAt m.lamp.outLast i then b + 2 ^ i else b) 0
  let done := if m.half0.inReset then setBitNat twice 8 false else twice
  let acts := (List.range 11).foldl (fun b i => if bitAt done i && !bitAt m.lamp.outActed i then b + 2 ^ i else b) 0
  let lamp : Lamp := { m.lamp with
    mv := mv
    temps := temps
    due := { m.lamp.due with supply := t + msNs }
    outLast := out
    outActed := done
    h0 := vcoreSince m.lamp.h0 t (supplyOut mv 0)
    h1 := vcoreSince m.lamp.h1 t (supplyOut mv 1) }
  let m : Module := { m with lamp := lamp }
  if acts = 0 then m else m.actOnSupplies t mv good twice acts

/-- A sensor at 112 °C or above for two samples (R45): the whole module is reset and held, fault PWR code 3. The trip stands, whatever
other reset comes, until its release condition holds. -/
def Module.thermalTrip (m : Module) (t : Nat) (temps : List Int) : Module :=
  if m.lamp.phase.powered && m.lamp.phase != .heldTrip && temps.any fun x => decide (112 ≤ x) then
    let m : Module := { m with lamp := { m.lamp with temps := temps, tripped := true } }
    (m.lampFault t clsPwr 3 0xFF []).requestReset t .cold [3] .heldTrip
  else m

/-- All sensors at 95 °C or below (R45): the reset is released, or stays held while RESET_N is low. -/
def Module.tripRelease (m : Module) (t : Nat) (temps : List Int) : Module :=
  if m.lamp.tripped ∧ temps.all (fun x => decide (x ≤ 95)) then
    let m : Module := { m with lamp := { m.lamp with temps := temps, tripped := false } }
    if m.lamp.phase = .heldTrip then m.letGo t else m
  else m

/-! ## RESET_N and the holds -/

/-- RESET_N has been sampled low for 1 ms (R52, R369): a warm reset held while low, or a wake of a sleeping module. -/
def Module.resetNAssert (m : Module) (t : Nat) : Module :=
  if m.lamp.stopped || m.lamp.phase == .noVaon then m
  else
    let m : Module := { m with lamp := { m.lamp with resetNLow := true } }
    if m.lamp.phase.asleep || m.lamp.phase == .restEntry then m.wakeEvent t 3
    else if m.lamp.phase.powered && m.lamp.phase != .heldTrip && m.lamp.phase != .heldResetN then
      m.requestReset t .warm [5] .heldResetN
    else m

/-- 1 ms after RESET_N is sampled high (R52): the start begins. -/
def Module.resetNRelease (m : Module) (t : Nat) : Module :=
  if m.lamp.stopped then m
  else
    let m : Module := { m with lamp := { m.lamp with resetNLow := false } }
    if m.lamp.phase = .heldResetN then m.letGo t else m

/-- The 1 s hold after a false start ends (R64). -/
def Module.falseHoldEnd (m : Module) (t : Nat) : Module :=
  if m.lamp.phase = .heldFalse then m.letGo t else m

/-- 60 s of continuous RUNNING: the false-start count clears (R65). -/
def Module.clearCount (m : Module) : Module :=
  if m.lamp.phase = .running then m.onLamp fun (l : Lamp) => { l with fsCount := 0 } else m

/-- The mode in which a half leaves a half reset: a half start while the module runs (R61). In recovery mode and in lane test, which
make no half start, it comes back in the mode of the module (log entry 112). -/
def LampPhase.halfMode : LampPhase → Option Nat
  | .running => some modeHalfStart
  | .recovery => some modeRecovery
  | .laneTest => some modeLaneTest
  | _ => none

/-- A half held in reset is released and makes a half start (R60, R61): the survivor no longer sees it held. -/
def Module.releaseHalf (m : Module) (t : Nat) (h : HalfId) : Module :=
  match m.lamp.phase.halfMode with
  | none => m
  | some mode =>
    if (m.half h).inReset then
      let m := m.onLamp fun l => l.onHalf h fun (x : LampHalf) => { x with hold := .none }
      let m := m.onHalf h fun x =>
        let y := x.release t mode m.fuse
        if mode = modeHalfStart then y else y.endStep t 1
      m.onHalf h.peer fun x => (x.set F.LNK_STATUS_PEER_RESET 0).set F.RST_STATE_PEERHELD 0
    else m

/-- A half reset of 1 ms ends (R61). -/
def Module.halfResetRelease (m : Module) (t : Nat) (h : HalfId) : Module :=
  if (m.lamp.half h).hold = .brief ∧ m.lamp.stopped = false then m.releaseHalf t h else m

/-- A half reset for the half's own VCORE ends once that supply has stayed in its window for 100 ms (R42); one that became a warm
reset ends so for both halves, when no other VCORE is waited for. -/
def Module.vcoreRelease (m : Module) (t : Nat) (h : HalfId) : Module :=
  if (m.lamp.half h).hold = .vcore ∧ m.lamp.stopped = false ∧ (m.lamp.half h).vcoreOk.isSome then
    if m.lamp.phase = .heldVcore then
      let m1 := m.onLamp fun l => l.onHalf h fun (x : LampHalf) => { x with hold := .none }
      if (m.lamp.half h.peer).hold = .vcore then m1 else m1.letGo t
    else m.releaseHalf t h
  else m

/-- A half false start (R61): the count steps, the half is reset again with cause 15, and the third holds it; the peer sees
PEERHELD. With the peer itself in reset it is one warm reset (R49). -/
def Module.halfFalseStart (m : Module) (t : Nat) (h : HalfId) : Module :=
  let n := (m.lamp.half h).falseStarts + 1
  let m := m.onLamp fun l => l.onHalf h fun (x : LampHalf) => { x with falseStarts := min 3 n }
  let m := m.requestHalfReset t h [15] (if 3 ≤ n then .falseStarts else .brief)
  if (m.lamp.half h).hold = .falseStarts then m.onLive h.peer fun x => x.set F.RST_STATE_PEERHELD 1 else m

/-- RST_CMD.CLEAR_HALFFS through the service port (R61): both counts clear, and a half held after three half false starts is
released. -/
def Module.clearHalfFs (m : Module) (t : Nat) : Module :=
  let clear (x : LampHalf) : LampHalf := { x with falseStarts := 0 }
  let m := m.onLamp fun (l : Lamp) => { l with h0 := clear l.h0, h1 := clear l.h1 }
  let m := if m.lamp.h0.hold = .falseStarts then m.releaseHalf t .h0 else m
  if m.lamp.h1.hold = .falseStarts then m.releaseHalf t .h1 else m

/-! ## The rest state (R369) -/

/-- LMP_REST with KEY and GO while RUNNING (R369): LIVE_OK falls, both holds stop and every core enters reset. -/
def Module.enterRest (m : Module) (t : Nat) : Module := m.intoReset t .cold [] .restEntry

/-- After 1 ms PWR_EN falls (R369); a wake event held meanwhile acts now. -/
def Module.restPowerOff (m : Module) (t : Nat) : Module :=
  if m.lamp.phase = .restEntry then
    let l : Lamp := { m.lamp with
      pwrEn := false, pwrGood := false, gangBase := [0, 0, 0], gangSeen := [0, 0, 0], gangHits := [0, 0, 0]
      due := { m.lamp.due with scan := t } }
    let m : Module := { m with lamp := (l.enter t .rest).set F.KEY_GANGSTAT_SCANS 0 }
    match m.lamp.wakeHeld with
    | some c => m.wake t c
    | none => m
  else m

/-- LMP_WAKE.TIMER seconds of rest have passed (R369). -/
def Module.wakeTimer (m : Module) (t : Nat) : Module :=
  if m.lamp.phase = .rest ∧ m.lamp.get F.LMP_WAKE_TIMER ≠ 0 then m.wake t 4 else m

end Sys2Proof.Machine
end

