-- ==== Sys2Proof/Machine/Keys.lean ====
section
/-!
DEFINITION. Operator inputs of the lamplighter (R408 to R413): keys with their events, the ganged scan of the rest state, and
the lamps. The lamplighter's millisecond count is the simulated clock in whole milliseconds.
-/
namespace Sys2Proof.Machine

/-- The lamplighter's millisecond count. -/
def lampMs (t : Nat) : Nat := t / msNs

/-! ## Key events (R412) -/

/-- KIND codes of KEY_EVENT. -/
def kePress : Nat := 0
def keRelease : Nat := 1
def keChatter : Nat := 2
def keStable : Nat := 3
def keStuck : Nat := 4

/-- A KEY_EVENT word. -/
def keyWord (kind k t : Nat) (level stuck : Bool) : Word :=
  BitVec.ofNat 32 (2 ^ 31 + kind * 2 ^ 28 + k * 2 ^ 24 + bit level * 2 ^ 17 + bit stuck * 2 ^ 16 + lampMs t % 2 ^ 16)

/-- The half whose engine hears key events (R412): half 0 while it is out of reset and running, else half 1. -/
def Module.keyHalf (m : Module) : HalfId := if !m.half0.inReset && m.half0.mode == modeRunning then .h0 else .h1

/-- A key event enters the FIFO, or is dropped and counted when 16 wait (R412). -/
def Module.keyEvent (m : Module) (w : Word) : Module :=
  if 16 ≤ m.lamp.events.length then m.onLamp fun l => l.tally F.KEY_TALLY_EVDROP 1
  else
    let m1 := m.onLamp fun (l : Lamp) => { l with events := l.events ++ [w] }
    m1.onLive m.keyHalf fun h => (h.raiseAt 2 irqKey).note irqKey (beBytes 4 w.toNat)

/-- The oldest event leaves the FIFO: KEY_EVENT has been read. -/
def Lamp.popEvent (l : Lamp) : Lamp := { l with events := l.events.tail }

/-- KEY_EVENT as it reads now. -/
def Lamp.eventWord (l : Lamp) : Word := l.events.headD 0

/-! ## Keys (R409 to R411) -/

/-- Key `k`. -/
def Lamp.key (l : Lamp) (k : Nat) : KeySt := l.keys.getD k KeySt.reset

/-- Bit `k` of a lamplighter field. -/
def Lamp.setBit (l : Lamp) (f : Field) (k : Nat) (b : Bool) : Lamp := l.set f (setBitNat (l.get f) k b)

/-- Key `k` takes a state, which KEY_STATE and KEY_CHATTER show (R412). -/
def Lamp.setKey (l : Lamp) (k : Nat) (x : KeySt) : Lamp :=
  let l1 : Lamp := { l with keys := l.keys.set k x }
  ((l1.setBit F.KEY_STATE_PRESSED k x.active).setBit F.KEY_STATE_STUCK k x.stuck).setBit F.KEY_CHATTER_CHATTER k x.chatter

/-- A sample of a key in CHATTER (R410): it leaves after 500 consecutive samples without a level change; the time in CHATTER does not count
toward LIMIT (R411). -/
def Module.chatterSample (m : Module) (t k : Nat) (x : KeySt) : Module :=
  if 500 ≤ x.quiet then
    let y : KeySt := { x with
      active := x.level
      differ := 0
      changes := []
      stuck := x.stuck && x.level
      chatter := false
      since := if x.active then x.since + (t - x.chatterAt) else t }
    (m.onLamp fun l => l.setKey k y).keyEvent (keyWord keStable k t x.level false)
  else m.onLamp fun l => l.setKey k x

/-- An accepted transition of key `k` (R409 to R412): the 21st within 1 s begins CHATTER; a PRESS may wake the module. -/
def Module.keyTransition (m : Module) (t k : Nat) (x : KeySt) : Module :=
  let changes := t :: x.changes.filter fun c => decide (t < c + secNs)
  if 20 < changes.length then
    let y : KeySt := { x with active := x.level, differ := 0, changes := changes, chatter := true,
                              since := if x.active then x.since else t, chatterAt := t }
    (m.onLamp fun l => (l.setKey k y).tally F.KEY_TALLY_CHATTERS 1).keyEvent (keyWord keChatter k t false false)
  else
    let y : KeySt := { x with active := x.level, differ := 0, changes := changes, stuck := false, since := t }
    let m1 := (m.onLamp fun l => l.setKey k y).keyEvent
      (if x.level then keyWord kePress k t false false else keyWord keRelease k t false x.stuck)
    if x.level && m1.lamp.flag (F.KEY_CFG_WAKE k) && m1.lamp.flag F.LMP_WAKE_KEYEN then m1.wakeEvent t 1 else m1

/-- A sample of key `k` at pin level `high` (R409). -/
def Module.keyStep (m : Module) (t k : Nat) (high : Bool) : Module :=
  let x := m.lamp.key k
  let act := high != m.lamp.flag (F.KEY_CFG_ACTLOW k)
  let y : KeySt := { x with
    level := act
    quiet := if act == x.level then x.quiet + 1 else 0
    differ := if act == x.active then 0 else x.differ + 1 }
  if y.chatter then m.chatterSample t k y
  else if 8 ≤ y.differ then m.keyTransition t k y
  else m.onLamp fun l => l.setKey k y

/-- The lamplighter works: VAON is present and it has not stopped. -/
def Lamp.alive (l : Lamp) : Bool := l.phase != .noVaon && !l.stopped

/-- The sample of KEY0 to KEY15, every millisecond in every state of the module (R409, R412). -/
def Module.keySample (m : Module) (t levels : Nat) : Module :=
  if m.lamp.alive then
    (List.range 16).foldl (fun m k => m.keyStep t k (bitAt levels k)) (m.onLamp fun (l : Lamp) => { l with due := { l.due with key := t + msNs } })
  else m

/-- Key `k` has stayed accepted-active for its LIMIT (R411). -/
def Module.keyStuck (m : Module) (t k : Nat) : Module :=
  let x := m.lamp.key k
  if m.lamp.alive && decide (k < 16) && m.lamp.get (F.KEY_CFG_LIMIT k) != 0 && x.active && !x.chatter && !x.stuck then
    (m.onLamp fun l => l.setKey k { x with stuck := true }).keyEvent (keyWord keStuck k t false false)
  else m

/-! ## The ganged scan of the rest state (R408) -/

/-- Detection threshold: the code of a group whose baseline is known exceeds it by TH or more. -/
def Lamp.gangOver (l : Lamp) (g code : Nat) : Bool :=
  l.gangSeen.getD g 0 == 4 && decide (l.gangBase.getD g 0 + 4 * l.get F.KEY_GANGCTRL_TH ≤ 4 * code)

/-- A group detects: above the threshold in two consecutive scans. -/
def Lamp.gangDetects (l : Lamp) (g : Nat) : Bool := decide (2 ≤ l.gangHits.getD g 0)

/-- A code of group `g` is taken: into the mean of the first four, or against the baseline. -/
def Lamp.gangTake (l : Lamp) (g code : Nat) : Lamp :=
  if l.gangSeen.getD g 0 < 4 then { l with
    gangBase := l.gangBase.set g (l.gangBase.getD g 0 + code)
    gangSeen := l.gangSeen.set g (l.gangSeen.getD g 0 + 1) }
  else { l with gangHits := l.gangHits.set g (if l.gangOver g code then l.gangHits.getD g 0 + 1 else 0) }

/-- The baseline of group `g` moves by 1 code toward the measured code while the group detects nothing. -/
def Lamp.gangDrift (l : Lamp) (g code : Nat) : Lamp :=
  let b := l.gangBase.getD g 0
  if l.gangSeen.getD g 0 < 4 || l.gangDetects g then l
  else { l with gangBase := l.gangBase.set g (if b < 4 * code then min (b + 4) (4 * code) else max (b - 4) (4 * code)) }

/-- The groups of KEY_GANGCTRL. -/
def Lamp.gangs (l : Lamp) : List Nat := (List.range 3).filter fun g => bitAt (l.get F.KEY_GANGCTRL_GROUPS) g

/-- PERIOD of the ganged scan in ns: below 20 ms acts as 20, above 1,000 as 1,000. -/
def Lamp.gangPeriod (l : Lamp) : Nat := (min 1000 (max 20 (l.get F.KEY_GANGCTRL_PERIOD))) * msNs

/-- The codes of the ganged groups are taken; every 10 s the baselines move. -/
def Lamp.gangScan (l : Lamp) (t : Nat) (codes : List Nat) : Lamp :=
  let fresh := l.gangs.any fun g => l.gangSeen.getD g 0 < 4
  let l1 := l.gangs.foldl (fun l g => l.gangTake g (codes.getD g 0)) l
  if fresh then { l1 with gangAt := t }
  else if l1.gangAt + 10 * secNs ≤ t then
    { l1.gangs.foldl (fun l g => l.gangDrift g (codes.getD g 0)) l1 with gangAt := t }
  else l1

/-- A scan of the rest state (R408): a detection wakes the module while LMP_WAKE.TOUCHEN is set; without VTCH nothing is
detected. -/
def Module.restScan (m : Module) (t : Nat) (codes : List Nat) : Module :=
  if m.lamp.phase = .rest ∧ m.lamp.stopped = false ∧ m.lamp.gangs ≠ [] then
    let m : Module := { m with lamp := { m.lamp with due := { m.lamp.due with scan := t + m.lamp.gangPeriod } } }
    let l := m.lamp.set F.KEY_GANGSTAT_SCANS (m.lamp.get F.KEY_GANGSTAT_SCANS + 1)
    if supplyOut l.mv 8 then { m with lamp := (l.set F.KEY_GANGSTAT_NOSUPPLY 1) }
    else
      let l1 := (l.set F.KEY_GANGSTAT_NOSUPPLY 0).gangScan t codes
      let hits := (List.range 3).filter l1.gangDetects
      if hits ≠ [] ∧ l1.flag F.LMP_WAKE_TOUCHEN then
        let l2 := l1.set F.KEY_GANGSTAT_DETECT (hits.foldl (fun n g => n + 2 ^ g) 0)
        Module.wakeEvent { m with lamp := l2 } t 2
      else { m with lamp := l1 }
  else m

/-! ## Lamps (R413) -/

/-- The kick line of a half has changed within the last 20 ms. -/
def LampHalf.kicked (x : LampHalf) (t : Nat) : Bool := match x.kickAt with
  | some k => decide (t ≤ k + 20 * msNs)
  | none => false

/-- The module is past start step 7, in neither recovery mode nor the rest state. -/
def Module.lampsAllowed (m : Module) : Bool :=
  m.lamp.alive && ((!m.half0.inReset && decide (7 ≤ m.half0.step)) || (!m.half1.inReset && decide (7 ≤ m.half1.step)))
    && (m.lamp.phase == .starting || m.lamp.phase == .running)

/-- Lamp `n` is lit at time `t` (R413). -/
def Module.lampLit (m : Module) (t n : Nat) : Bool :=
  let l := m.lamp
  (bitAt (l.get F.KEY_LAMP_ON) n || (bitAt (l.get F.KEY_LAMP_BLINK) n && decide (lampMs t % 500 < 250)))
    && (!bitAt (l.get F.KEY_LAMP_LIVE) n || l.flag F.LMP_STATUS_LIVEOK)
    && m.lampsAllowed && (l.h0.kicked t || l.h1.kicked t)

end Sys2Proof.Machine
end

