-- ==== Sys2Proof/Machine/Supervise.lean ====
section
/-!
DEFINITION. Supervision (R16, R53, R120, R358 to R371): heartbeats and engine failures, kick and health lines, the holds of
the bypasses, LIVE_OK, the watchdogs, the grant of a half reset, and the lamplighter that stops.
-/
namespace Sys2Proof.Machine

/-! ## Engines that beat and fail (R358 to R361) -/

/-- STATE codes of ENG_STATE. -/
def esReset : Nat := 0
def esRunning : Nat := 1
def esHalted : Nat := 2
def esFailed : Nat := 3
def esWaiting : Nat := 4

/-- STATE of engine `n`. -/
def Half.engState (h : Half) (n : Nat) : Nat := h.get (F.ENG_STATE_STATE n)

/-- DETAIL of class ENG (R419). -/
def Half.engDetail (h : Half) (n : Nat) : List Byte :=
  let e := h.engine n
  leBytes 1 e.csr.mcause.toNat ++ leBytes 3 0 ++ leBytes 4 e.csr.mepc.toNat ++ h.wordBytes (F.ENG_STATE_word n).off

/-- Engine `n` fails (R359, R361): halted as FAILED, counted, recorded with a code, source 15 on the steward. The half
names it in TAKE of a baton that it sends at once (R360). -/
def Half.engineFails (h : Half) (t n code : Nat) : Half :=
  let fails := min 3 (h.get (F.ENG_STATE_FAILS n) + 1)
  let h1 := (h.sets [(F.ENG_STATE_STATE n, esFailed), (F.ENG_STATE_FAILS n, fails), (F.ENG_STATE_OWN n, 0)]).setBit F.ENG_SUPV_FAILED n true
  let h2 := h1.fault t clsEng (if fails = 3 then 3 else code) (4 * h.id.num + n) (h1.engDetail n)
  (h2.roleChange 0 n).batonNow t

/-- An engine other than a steward has not beaten for BEATLIMIT (R359). -/
def Half.beatLimit (h : Half) (t n : Nat) : Half :=
  if 1 ≤ n ∧ n < 4 ∧ (h.engState n = esRunning ∨ h.engState n = esWaiting) then h.engineFails t n 1 else h

/-- ENG_BEAT of engine `n` (R359, R361): the beat counts; the first beat after a return takes its role back, and a
baton tells the peer at once. -/
def Half.beat (h : Half) (t n : Nat) : Half :=
  let back := (h.engine n).returning
  let h1 := h.onEngine n fun (e : Engine) => { e with beatAt := t, beaten := true, returning := false }
  if back then (h1.set (F.ENG_STATE_OWN n) 1).batonNow t else h1

/-- A steward's beat toggles its half's kick line (R364). -/
def LampHalf.kick (x : LampHalf) (t : Nat) : LampHalf := { x with kickLine := !x.kickLine, kickAt := some t }

/-- A write of ENG_BEAT.BEAT in window `n` of half `h`. -/
def Module.beat (m : Module) (t : Nat) (h : HalfId) (n : Nat) : Module :=
  let m1 := m.onHalf h fun x => x.beat t n
  if n = 0 then m1.onLamp fun l => l.onHalf h fun x => x.kick t else m1

/-- ENG_CTRL.HALT by master `m` (R358): a steward halts only for the debug port. -/
def Half.halt (h : Half) (n m : Nat) : Half :=
  if (h.engState n = esRunning ∨ h.engState n = esWaiting) ∧ (n ≠ 0 ∨ m = mDebug) then h.set (F.ENG_STATE_STATE n) esHalted else h

/-- ENG_CTRL.RESUME (R358). The time of a halt is no part of a BEATLIMIT interval, in which the engine runs (R359): the interval
begins anew (log entry 133). -/
def Half.resume (h : Half) (t n : Nat) : Half :=
  if h.engState n = esHalted then
    (h.onEngine n fun (e : Engine) => { e with beatAt := max e.beatAt t }).set (F.ENG_STATE_STATE n) esRunning
  else h

/-! ## Watchdogs and peer requests -/

/-- RST_WDOG.KICK (R53): only the half's own steward restarts the 20 ms. -/
def Half.kickDog (h : Half) (t m : Nat) : Half :=
  if m = stewardOf h.id ∧ h.flag F.RST_WDOG_ARMED then { h with starter := { h.starter with wdogAt := t } } else h

/-- A half held in reset by its own starter (R370): the peer and the lamplighter learn nothing of it. -/
def Module.holdOwn (m : Module) (t : Nat) (h : HalfId) : Module :=
  let m1 := m.onLamp fun l => l.onHalf h fun x => x.intoReset t .stopped
  m1.onHalf h fun x => x.intoReset false true [7] (m1.lamp.half h).session

/-- 20 ms without a kick (R53, R365, R370): a half reset with cause 7; warm when alone, or while the other half is held in reset
or about to be reset; the half's own hold when the lamplighter has stopped. -/
def Module.stewardWatchdog (m : Module) (t : Nat) (h : HalfId) : Module :=
  let x := m.half h
  if x.inReset || !x.flag F.RST_WDOG_ARMED then m
  else if x.flag F.ENG_SUPV_LMPSTOP then m.holdOwn t h
  else if x.flag F.SYS_HALF_ALONE || (m.lamp.half h).request.isSome then m.requestReset t .warm [7] .released
  else m.requestHalfReset t h [7] .brief

/-- The lamplighter grants a half's request to reset its peer (R16): half 0's request goes before half 1's, which is then
discarded; a request of a half held in reset is ignored. -/
def Module.grant (m : Module) (t : Nat) (h : HalfId) : Module :=
  let asks (k : HalfId) : Bool := (m.lamp.half k).request.isSome && !(m.half k).inReset
  if m.lamp.stopped || !asks h || (h == .h1 && asks .h0) then m
  else
    let clear (x : LampHalf) : LampHalf := { x with request := none }
    let m1 := m.onLamp fun (l : Lamp) => { l with h0 := clear l.h0, h1 := clear l.h1 }
    let m2 := m1.lampFault t clsLink 2 0 ((m.half h).wordBytes F.LNK_STATUS_word.off)
    m2.requestHalfReset t h.peer [8] .brief

/-- A half whose kick line the lamplighter watchdog watches: out of reset and past step 6 (R60, R364). -/
def Half.dogWatched (h : Half) : Bool := !h.inReset && decide (6 ≤ h.step)

/-- No kick line has changed for 50 ms (R364): warm reset with cause 6. Not in recovery mode or lane test (R66). -/
def Module.lampWatchdog (m : Module) (t : Nat) : Module :=
  if m.lamp.alive && (m.lamp.phase == .starting || m.lamp.phase == .running) && (m.half0.dogWatched || m.half1.dogWatched) then
    m.requestReset t .warm [6] .released
  else m

/-! ## Holds and LIVE_OK -/

/-- The hold of half `h` is toggled at this sample (R366, R367). -/
def Module.holds (m : Module) (t : Nat) (h : HalfId) : Bool :=
  let x := m.half h
  !x.inReset && decide (7 ≤ x.step)
    && (m.lamp.phase == .laneTest || ((m.lamp.phase == .starting || m.lamp.phase == .running) && (m.lamp.half h).kicked t))

/-- HOLD bit of a half. -/
def holdField : HalfId → Field
  | .h0 => F.LMP_STATUS_HOLD0
  | .h1 => F.LMP_STATUS_HOLD1

/-- KICK bit of a half. -/
def kickField : HalfId → Field
  | .h0 => F.LMP_STATUS_KICK0
  | .h1 => F.LMP_STATUS_KICK1

/-- HBAD bit of a half. -/
def badField : HalfId → Field
  | .h0 => F.LMP_LIVE_H0BAD
  | .h1 => F.LMP_LIVE_H1BAD

/-- One half at a lamplighter sample: kick shown, and the hold toggled, which opens the pairs that ask for it (R120, R366). -/
def Module.sampleHold (m : Module) (t : Nat) (h : HalfId) : Module :=
  let on := m.holds t h
  let l := (m.lamp.setFlag (kickField h) ((m.lamp.half h).kicked t)).setFlag (holdField h) on
  if on then
    let l1 := l.onHalf h fun (x : LampHalf) => { x with holdLine := !x.holdLine, holdAt := some t }
    Module.onHalf { m with lamp := l1 } h Half.openPairs
  else { m with lamp := l }

/-- A half that is RUNNING has not toggled its health line within 3 ms (R368). -/
def Module.healthBad (m : Module) (t : Nat) (h : HalfId) : Bool :=
  let x := m.half h
  !x.inReset && x.mode == modeRunning && (match (m.lamp.half h).healthAt with
    | some a => decide (a + 3 * msNs < t)
    | none => true)

/-- The key fuse is blank (R79, R80). -/
def Module.keyOpen (m : Module) : Bool := m.fuse.isNone

/-- The conditions of LIVE_OK at a sample (R368). -/
def Module.sampleLive (m : Module) (t : Nat) : Module :=
  let l := ((m.lamp.setFlag F.LMP_LIVE_NOTRUNNING (m.lamp.phase != .running)).setFlag F.LMP_LIVE_KEYOPEN m.keyOpen)
  let l1 := (l.setFlag (badField .h0) (m.healthBad t .h0)).setFlag (badField .h1) (m.healthBad t .h1)
  let bad := [F.LMP_LIVE_NOTRUNNING, F.LMP_LIVE_KEYOPEN, F.LMP_LIVE_H0BAD, F.LMP_LIVE_H1BAD, F.LMP_LIVE_GRANT].any fun f => l1.flag f
  let l2 := l1.setFlag F.LMP_LIVE_LIVE (!bad)
  if bad then { m with lamp := l2.liveLow }
  else { m with lamp := { l2 with liveFrom := some (l2.liveFrom.getD t), liveTrig := t } }

/-- HEART steps every millisecond (R370). -/
def Lamp.heartBeat (l : Lamp) (t : Nat) : Lamp :=
  if l.heartAt + msNs ≤ t then { (l.set F.LMP_STATUS_HEART (l.get F.LMP_STATUS_HEART + 1)) with heartAt := t } else l

/-- A sample of the lamplighter (R364, R366 to R368, R370). -/
def Module.lampSample (m : Module) (t : Nat) : Module :=
  if m.lamp.alive then
    (((m.sampleHold t .h0).sampleHold t .h1).sampleLive t).onLamp fun l =>
      { l.heartBeat t with due := { l.due with sample := t + 30500 } }
  else m

/-- A half toggles its health line (R368). -/
def Module.healthToggle (m : Module) (t : Nat) (h : HalfId) : Module :=
  let x := (m.half h)
  if !x.inReset && x.mode == modeRunning && !x.unhealthy t && !x.overstays && (m.lamp.half h).kicked t then
    m.onLamp fun l => l.onHalf h fun (y : LampHalf) => { y with healthLine := !y.healthLine, healthAt := some t }
  else m

/-- Every condition has held for 100 ms (R368): LIVE_OK rises. -/
def Lamp.holdoffEnd (l : Lamp) : Lamp :=
  if l.alive && l.flag F.LMP_LIVE_LIVE && l.liveFrom.isSome then (l.set F.LMP_STATUS_LIVEOK 1).set F.LMP_LIVE_HOLDOFF 0 else l

/-- The toggle that drives LIVE_OK is no longer retriggered (R368). -/
def Lamp.toggleExpire (l : Lamp) (t : Nat) : Lamp := if l.stopped || decide (l.liveTrig < t) then l.liveLow else l

/-- 250 µs after the last toggle of its hold a pair closes (R120). -/
def Module.bypassClose (m : Module) (h : HalfId) (k : Nat) : Module :=
  if k < 4 ∧ m.lamp.flag (holdField h) = false then m.onHalf h fun x => x.set (F.LANE_STATUS_BYPASS (16 + k)) 0 else m

/-- The survivor's alone commit is applied (R368): GRANT clears at the first report that applies it. -/
def Module.clearGrant (m : Module) (h : HalfId) (c : BlankingCell) : Module :=
  match m.lamp.grantFrom, (m.half h).lap.aloneLap with
  | some g, some a =>
    if g = h.peer ∧ c.flipped ∧ newer 32 a c.lapCommit = false then
      m.onLamp fun (l : Lamp) => { (l.set F.LMP_LIVE_GRANT 0) with grantFrom := none }
    else m
  | _, _ => m

/-! ## The lamplighter stops (R370) -/

/-- HEART has not changed for 4 ms as a starter sees it: LMPSTOP and fault class PWR; the holds have stopped and LIVE_OK is
low. -/
def Module.heartStop (m : Module) (t : Nat) (h : HalfId) : Module :=
  if (m.half h).inReset then m
  else
    let put (x : Half) : Half :=
      let x1 := x.set F.ENG_SUPV_LMPSTOP 1
      x1.fault t clsPwr 5 0xFF (x1.wordBytes F.PACE_REG_word.off)
    let m1 := (m.onHalf h put).onBoth Half.closePairs
    m1.onLamp fun l =>
      let l1 := (l.set F.LMP_STATUS_HOLD0 0).set F.LMP_STATUS_HOLD1 0
      { l1.liveLow with stopped := true }

/-! ## Rest (R369) and RST_CMD (R54) -/

/-- A write of LMP_REST by master `master`, issued in half `h` (R369): without effect once the lamplighter has stopped (R370). -/
def Module.restWrite (m : Module) (t : Nat) (h : HalfId) (master : Nat) (v : Word) : Module :=
  if m.lamp.stopped then m
  else if m.lamp.phase = .running then
    if bitsAt v.toNat 24 8 = 0xA5 ∧ bitAt v.toNat 0 then m.enterRest t else m
  else m.onHalf h fun x => x.fault t clsHost 2 master (leBytes 4 v.toNat)

/-- CLEAR_FS and CLEAR_HALFFS of RST_CMD, through the service port only (R54, R61, R65). -/
def Module.clearCounts (m : Module) (t master : Nat) (v : Nat) : Module :=
  if master = mService ∧ m.lamp.stopped = false then
    let m1 := if bitAt v 3 then m.clearHalfFs t else m
    if bitAt v 2 then m1.onLamp fun (l : Lamp) => { l with fsCount := 0 } else m1
  else m

/-- A write of RST_CMD of half `h` by master `m` (R51, R54): without its key it only records HOST; the clears apply first, and
RESTART governs over RESET_HALF. -/
def Module.rstCmd (m : Module) (t : Nat) (h : HalfId) (master : Nat) (v : Word) : Module :=
  let w := v.toNat
  if bitsAt w 24 8 ≠ 0x5A then m.onHalf h fun x => x.fault t clsHost 1 master (leBytes 4 w)
  else
    let m1 := m.clearCounts t master w
    let cause := if master = mService then 11 else 10
    if bitAt w 0 then m1.requestReset t .warm [cause] .released
    else if bitAt w 1 then m1.requestHalfReset t h [cause] .brief
    else m1

end Sys2Proof.Machine
end

