-- ==== Sys2Proof/Machine/BlockReset.lean ====
section
/-!
DEFINITION. Idle indicators and block resets (R67 to R69), and the start of an engine at its ENTRY (R354, R361).
-/
namespace Sys2Proof.Machine

/-- Engine numbers of the engine blocks 7, 8 and 9 of R68. -/
def blockEngine : Nat → Nat
  | 7 => 3
  | 8 => 1
  | _ => 2

/-- No push, commit or keepalive is in progress on the panel sub-link (R68): no region is open, no cell of one waits to be sent, and
every keepalive has its echo. -/
def Half.panelIdle (h : Half) : Bool :=
  h.lap.push.cur.isNone && h.panel.tokens.isEmpty && match h.panelLink with
    | none => true
    | some l => (h.run l).queue.all fun c => decide (c.type < 7) || decide (11 < c.type)

/-- Block `b` of R68 is idle. -/
def Half.blockIdle (h : Half) (b : Nat) : Bool :=
  match b with
  | 0 => (List.range 16).all fun n => !h.flag (F.CVU_CTRL_ENABLE n)
  | 1 => ((List.range 48).all fun i => !h.flag (F.INK_SCTRL_ENABLE i)) && h.sources.all fun s => s.pub.waiting.isEmpty
  | 2 => h.lap.runs.isEmpty
  | 3 => h.panelIdle
  | 4 => h.ringIdle
  | 5 => h.time.a.st != .tracked && h.time.b.st != .tracked
  | 6 => h.id == .h0 && h.touchIdle
  | 7 | 8 | 9 =>
    let n := blockEngine b
    (h.engState n == esHalted || h.engState n == esFailed) && decide (h.get (F.ENG_STATE_FAILS n) < 3)
  | _ => false

/-- The idle indicators, bit `b` for block `b`. -/
def Half.idleMask (h : Half) : Nat := ((List.range 10).map fun b => bit (h.blockIdle b) * 2 ^ b).sum

/-- RESULT codes of RST_BLKSTAT. -/
def blkDone : Nat := 0
def blkNotIdle : Nat := 1
def blkBusy : Nat := 2

/-- A write of RST_BLKRST (R67, R69): BUSY while a block reset runs, NOT_IDLE with the blocks that are not idle, or the blocks
are isolated and their reset runs. -/
def Half.askBlocks (h : Half) (blocks : Nat) : Half :=
  let req := blocks % 1024
  if h.starter.isolated ≠ 0 then h.set F.RST_BLKSTAT_RESULT blkBusy
  else if req = 0 then h
  else
    let bad := req - (req &&& h.idleMask)
    if bad ≠ 0 then (h.set F.RST_BLKSTAT_NOTIDLE bad).set F.RST_BLKSTAT_RESULT blkNotIdle
    else
      let h1 : Half := { h with starter := { h.starter with isolated := req } }
      h1.set F.RST_BLKRST_BLOCKS req

/-- A half-relative register offset belongs to block `b` of R68. -/
def blockHolds (b off : Nat) : Bool :=
  let k := off / 0x10000
  match b with
  | 0 => k == 0xC
  | 1 => k == 0x4
  | 2 => k == 0x7
  | 3 => k == 0x9
  | 4 => k == 0xA
  | 5 => k == 0xB
  | 6 => k == 0x10
  | 7 | 8 | 9 => off / 0x100 == 0xE00 + blockEngine b
  | _ => false

/-- The RW fields of block `b` return to their reset values; RWS fields too until they are sealed. -/
def Half.resetFields (h : Half) (b : Nat) : Half :=
  (h.regs.filter fun c => blockHolds b c.1).foldl (fun (h : Half) c => match regSpec c.1 with
    | none => h
    | some r =>
      let mask := r.rw ||| (if h.sealed then 0 else r.rws)
      h.setReg c.1 ((c.2 &&& ~~~mask) ||| (resetWord h.id c.1 &&& mask))) h

/-- An engine begins at ENTRY with mtvec at ENTRY and interrupts disabled (R354). An engine without a program does not. -/
def Half.engineBegins (h : Half) (t n : Nat) (returning : Bool) : Half :=
  match (h.engine n).entry with
  | none => h
  | some e =>
    let csr : Csrs := { Csrs.reset with mtvec := BitVec.ofNat 32 e }
    (h.onEngine n fun (x : Engine) => { x with
      pc := BitVec.ofNat 32 e
      x := List.replicate 32 0
      csr := csr
      handling := false
      beatAt := t
      beaten := false
      returning := returning }).set (F.ENG_STATE_STATE n) esRunning

/-- A block reset of engine `n`: FAILED clears and the engine restarts at ENTRY; a failed engine then serves its own role again
from its first beat (R361). -/
def Half.engineAgain (h : Half) (t n : Nat) : Half :=
  ((h.setBit F.ENG_SUPV_FAILED n false).engineBegins t n (h.engState n == esFailed || (h.engine n).returning))

/-- One block is reset; with its words ENG_TIMECMP the compare value in force goes back too. -/
def Half.resetBlock (h : Half) (t b : Nat) : Half :=
  let h1 := h.resetFields b
  if 7 ≤ b then
    (h1.onEngine (blockEngine b) fun (x : Engine) => { x with timecmp := 2 ^ 64 - 1 }).engineAgain t (blockEngine b)
  else h1

/-- The block reset in progress completes (R67). -/
def Half.blocksDone (h : Half) (t : Nat) : Half :=
  let req := h.starter.isolated
  if req = 0 then h
  else
    let h1 := (List.range 10).foldl (fun (h : Half) b => if bitAt req b then h.resetBlock t b else h) h
    let h2 : Half := { h1 with starter := { h1.starter with isolated := 0 } }
    (h2.set F.RST_BLKRST_BLOCKS 0).set F.RST_BLKSTAT_RESULT blkDone

end Sys2Proof.Machine
end

