-- ==== Sys2Proof/Machine/Select.lean ====
section
/-!
DEFINITION. How a selection or change reaches the commit owner (R188, R213, R273, R326): decided where it arrives when that half
is the owner, and forwarded over the half link otherwise.
-/
namespace Sys2Proof.Machine

/-- The half that decides a change received by half `h`: itself as commit owner, or its peer across the half link. -/
def Module.ownerFor (m : Module) (h : HalfId) : Option HalfId :=
  if (m.half h).owner then some h
  else if linkOk (m.half h) (m.half h.peer) ∧ (m.half h.peer).owner then some h.peer
  else none

/-- A mode change that the owner has named is known to both halves. -/
def Module.shareMode (m : Module) (w : HalfId) : Module :=
  let d := (m.half w).panel.dueModes
  if linkOk (m.half w) (m.half w.peer) then m.onHalf w.peer fun x => { x with panel := { x.panel with dueModes := d } } else m

/-- What the owner has decided enters the module. -/
def Module.decided (m : Module) (w : HalfId) (c : Change) (r : Half × List Finish) : Module :=
  let m1 := m.setHalf w r.1
  (if c.isMode then m1.shareMode w else m1).finishAll r.2

/-- An immediate change received by half `h`; without a way to the owner a request ends with NO_ROUTE and a register keeps
PENDING. -/
def Module.select (m : Module) (h : HalfId) (c : Change) (o : Origin) : Module := match m.ownerFor h with
  | some w => m.decided w c ((m.half w).chooseNow c o)
  | none => match o with
    | .host _ _ _ _ _ _ => m.finish ⟨o, c, stNoRoute, none, false⟩
    | _ => m

/-- A scheduled change received by half `h` at time `t`. -/
def Module.selectAt (m : Module) (t : Nat) (h : HalfId) (c : Change) (wall expiry : Int) (o : Origin) : Module :=
  match m.ownerFor h with
  | some w => m.decided w c ((m.half w).chooseAt t c wall expiry o)
  | none => match o with
    | .host _ _ _ _ _ _ => m.finish ⟨o, c, stNoRoute, none, false⟩
    | _ => m

/-- A selection written to the select register of half `h`: its status register shows it PENDING until it completes. -/
def Module.selectReg (m : Module) (h : HalfId) (c : Change) : Module :=
  let w := (m.half h).noteSelection c
  (m.setHalf h w.1).select h c (.reg h w.2)

end Sys2Proof.Machine
end

