-- ==== Sys2Proof/Machine/RegAccess.lean ====
section
/-!
DEFINITION. Reads and writes of registers (R5 to R10, R445): the value that a register shows, what a read does besides, the access
codes, and the effect of a write on the block that holds the register.
-/
namespace Sys2Proof.Machine

/-! ## Reads -/

/-- A word with the bits from `lo` replaced by those of a Boolean. -/
def putFlag (w : Word) (lo : Nat) (b : Bool) : Word := putBits w lo 1 (bit b)

/-- A natural number as a word that saturates at `m`. -/
def satWord (m v : Nat) : Word := BitVec.ofNat 32 (min m v)

/-- A signed number of ns as a word that saturates. -/
def satSigned (x : Int) : Word := BitVec.ofNat 32 (unsigned 32 (clampI (-(2 ^ 31)) (2 ^ 31 - 1) x))

/-- SYS and LNK as they read: PEER_UP while a baton of the last 5 ms is held, the link and the peer as they are. -/
def Module.readSys (m : Module) (t : Nat) (h : HalfId) (off : Nat) : Word :=
  let x := m.half h
  let p := m.half h.peer
  let w := x.reg off
  if off = F.SYS_HALF_word.off then putFlag w 2 (x.link.lastAt.any fun a => decide (t ≤ a + 5 * msNs))
  else if off = F.LNK_STATUS_word.off then putFlag (putFlag w 0 (linkOk x p)) 1 p.inReset
  else w

/-- The RST block as it reads: the counts of the lamplighter and the idle indicators. -/
def Module.readRst (m : Module) (h : HalfId) (off : Nat) : Word :=
  let x := m.half h
  let w := x.reg off
  if off = F.RST_STATE_word.off then
    putBits (putBits (putBits w 24 4 m.lamp.fsCount) 20 4 (m.lamp.half h).falseStarts) 16 1
      (bit ((m.lamp.half h.peer).hold == .falseStarts))
  else if off = F.RST_IDLE_word.off then BitVec.ofNat 32 x.idleMask
  else w

/-- The CMP block as it reads: the watch rectangle selected by CMP_WATCHSEL; a disabled rectangle's enable bit reads 0. -/
def Half.readCmp (h : Half) (off : Nat) : Word :=
  let n := h.get F.CMP_WATCHSEL_INDEX
  let last := h.lap.watch.find? fun x => x.number == n
  let w := h.reg off
  if off = F.CMP_WATCHLAST_word.off then BitVec.ofNat 32 ((last.map fun x => x.value).getD 0)
  else if off = F.CMP_WATCHEXP_word.off then
    BitVec.ofNat 32 (((h.image.bind fun i => i.watch.find? fun x => x.number == n).map fun x => x.expect).getD 0)
  else if off = F.CMP_WATCHSTAT_word.off then
    let lap := (last.map fun x => x.lap).getD 0
    let off := if n < 32 then h.getBit F.CMP_WATCHDIS0_RECTS n else h.getBit F.CMP_WATCHDIS1_RECTS (n - 32)
    BitVec.ofNat 32 (lap * 65536 + (if off then 4 else (last.map fun x => x.result).getD 0))
  else if off = F.CMP_WATCHEN0_word.off then w &&& ~~~h.reg F.CMP_WATCHDIS0_word.off
  else if off = F.CMP_WATCHEN1_word.off then w &&& ~~~h.reg F.CMP_WATCHDIS1_word.off
  else w

/-- PNL_STATUS as it reads. -/
def Half.readPnl (h : Half) (t off : Nat) : Word :=
  let w := h.reg off
  if off = F.PNL_STATUS_word.off then
    let up := match h.panelLink with
      | some l => (h.upLanes l).foldl (fun a p => a + 2 ^ h.get (F.LANE_STATUS_POS p)) 0
      | none => 0
    putFlag (putBits w 16 4 up) 13 (h.unhealthy t)
  else w

/-- The words of a group whose first word latches the others (R445): what the group holds at time `t`, first word first. -/
def Half.latchGroup (h : Half) (t off : Nat) : List (Nat × Word) :=
  let half (v k : Nat) : Word := BitVec.ofNat 32 (v / 2 ^ (32 * k))
  if off = F.TIM_LOCALLO_word.off then [(off, half (h.lb t) 0), (off + 4, half (h.lb t) 1)]
  else if off = F.TIM_WALLSECLO_word.off then
    match h.wallTicks t with
    | none => [(off, 0), (off + 4, 0), (off + 8, 0)]
    | some w => [(off, half (tickSec w) 0), (off + 4, half (tickSec w) 1), (off + 8, BitVec.ofNat 32 (tickFrac w))]
  else if (off / 0x10000 = 0xC ∧ off % 0x80 = 0x2C ∧ off < 0xC0800) ∨ (off / 0x10000 = 0xE ∧ off % 0x100 = 0x28 ∧ off < 0xE0400) then
    [(off, h.reg off), (off + 4, h.reg (off + 4))]
  else []

/-- The latching word of the group that an offset belongs to without latching it. -/
def latchedBy (off : Nat) : Option Nat :=
  if off = F.TIM_LOCALHI_word.off then some (off - 4)
  else if off = F.TIM_WALLSECHI_word.off then some (off - 4)
  else if off = F.TIM_WALLFRAC_word.off then some (off - 8)
  else if off / 0x10000 = 0xC ∧ off % 0x80 = 0x30 ∧ off < 0xC0800 then some (off - 4)
  else if off / 0x10000 = 0xE ∧ off % 0x100 = 0x2C ∧ off < 0xE0400 then some (off - 4)
  else none

/-- The TIM block as it reads. -/
def Half.readTim (h : Half) (t off : Nat) : Word :=
  let lb := h.lb t
  let err (d : Domain) : Word :=
    if (h.time.dom d).st == .tracked || (h.time.dom d).st == .lost then satWord (2 ^ 32 - 1) (h.eown d lb) else BitVec.ofNat 32 (2 ^ 32 - 1)
  if off = F.TIM_STATUS_word.off then (h.timeStatus lb).reg off
  else if off = F.TIM_AB_word.off then
    if h.time.a.st == .tracked && h.time.b.st == .tracked then satSigned (h.time.a.at lb - h.time.b.at lb) else 0x80000000
  else if off = F.TIM_SLEW_word.off then if h.time.refB.isSome then satSigned ((h.time.offset lb).tdiv (2 ^ 32)) else 0
  else if off = F.TIM_ERRA_word.off then err .a
  else if off = F.TIM_ERRB_word.off then err .b
  else if off = F.TIM_EW_word.off then
    putFlag (satWord (2 ^ 31 - 1) ((h.ew lb).getD (2 ^ 31 - 1))) 31 (h.trusted lb)
  else if off = F.TIM_DSW_word.off then satWord (2 ^ 32 - 1) h.time.dsw
  else h.reg off

/-- The lowest source that is pending and enabled at engine `n` (R357). -/
def Half.claimable (h : Half) (n : Nat) : Option Nat :=
  (List.range 16).find? fun s => h.getBit (F.ENG_IRQPEND_PEND n) s && h.getBit (F.ENG_IRQEN_EN n) s

/-- Bits of the engines whose twin's role is served too (R360). -/
def Half.twins (h : Half) : Nat := ((List.range 4).map fun n => h.get (F.ENG_STATE_TWIN n) * 2 ^ n).sum

/-- The ENG block as it reads. -/
def Half.readEng (h : Half) (t off : Nat) : Word :=
  let n := (off % 0x1000) / 0x100
  if off = F.ENG_SUPV_word.off then
    let age := match h.link.lastAt with
      | some a => min 255 ((t - a) / msNs)
      | none => 255
    putBits (putBits (h.reg off) 16 8 age) 8 4 h.twins
  else if off < 0xE0400 ∧ off % 0x100 = 0x20 then BitVec.ofNat 32 ((h.claimable n).getD 0xFF)
  else h.reg off

/-- The HST block as it reads. -/
def Half.readHst (h : Half) (off : Nat) : Word :=
  let n := (off - 0xF1000) / 0x400
  let k := (off - 0xF1000) % 0x400
  if off = F.HST_SVCSTAT_word.off then
    let unsent := (h.host.queue.filter fun f => f.oseq.isNone).length
    let sent := (h.host.queue.filter fun f => f.oseq.isSome).length
    putBits (putBits (h.reg off) 24 8 (min 255 (unsent + sent))) 16 8 sent
  else if off = F.HST_LOAD_word.off then
    BitVec.ofNat 32 (h.host.subs.length * 65536 + min 2047 (h.host.outstanding.length + (h.host.queue.filter h.ownUnsent).length))
  else if 0xF1000 ≤ off ∧ off < 0xF2000 then
    if k = 0x104 then putBits (h.reg off) 16 8 (h.engine n).inbox.length
    else if 0x200 ≤ k ∧ k < 0x300 then
      match (h.engine n).inbox with
      | [] => 0
      | c :: _ => BitVec.ofNat 32 (leAt ((rspCell c).bytes 0) (k - 0x200) 4)
    else h.reg off
  else h.reg off

/-- Position from the newest of the ledger entry at index `n`. -/
def Half.entryAge (h : Half) (n : Nat) : Nat := (h.get F.FLT_HEAD_SEQ + 512 - 1 - n) % 256

/-- The FLT block as it reads: the entries by index, the mirror oldest first (R418, R420). -/
def Module.readFlt (m : Module) (h : HalfId) (off : Nat) : Word :=
  let x := m.half h
  if 0x141000 ≤ off ∧ off < 0x144000 then
    let k := off - 0x141000
    match x.flt.entries[x.entryAge (k / 0x30)]? with
    | some e => BitVec.ofNat 32 (leAt e.bytes (k % 0x30) 4)
    | none => 0
  else if 0x144000 ≤ off ∧ off < 0x144C00 then
    let k := off - 0x144000
    match x.flt.mirror[k / 0x30]? with
    | some e => BitVec.ofNat 32 (leAt e (k % 0x30) 4)
    | none => 0
  else if off = F.FLT_STATUS_word.off then
    putBits (x.reg off) 8 4 (m.lamp.recs.filter fun r => !r.held h).length
  else x.reg off

/-- The word that a register of a half shows at time `t` (R6, R10). -/
def Module.readReg (m : Module) (t : Nat) (h : HalfId) (off : Nat) : Word :=
  let x := m.half h
  match x.latchGroup t off with
  | w :: _ => w.2
  | [] => match latchedBy off with
    | some _ => sparseGet (fun _ => 0) x.latch off
    | none => match off / 0x10000 with
      | 0x0 | 0x13 => m.readSys t h off
      | 0x1 => m.readRst h off
      | 0x4 => if 0x41000 ≤ off ∧ x.sources.length ≤ (off - 0x41000) / 0x40 then 0 else x.reg off
      | 0x7 => x.readCmp off
      | 0x9 => x.readPnl t off
      | 0xB => x.readTim t off
      | 0xE => x.readEng t off
      | 0xF => x.readHst off
      | 0x10 => if h = .h1 then 0 else if off = F.TCH_NODEVAL_word.off then BitVec.ofNat 32 x.nodeVal else x.reg off
      | 0x14 => m.readFlt h off
      | _ => x.reg off

/-- What a read of a register does besides returning it: it latches a group, claims an interrupt or marks a ledger entry as read
(R357, R418, R445). -/
def Half.readTouch (h : Half) (t off : Nat) : Half :=
  match h.latchGroup t off with
  | _ :: rest => { h with latch := rest.foldl (fun l w => sparsePut (fun _ => 0) l w.1 w.2) h.latch }
  | [] =>
    if off / 0x10000 = 0xE ∧ off < 0xE0400 ∧ off % 0x100 = 0x20 then
      let n := (off % 0x1000) / 0x100
      match h.claimable n with
      | some s => h.setBit (F.ENG_IRQPEND_PEND n) s false
      | none => h
    else if 0x141000 ≤ off ∧ off < 0x144000 then
      let k := h.entryAge ((off - 0x141000) / 0x30)
      { h with flt := { h.flt with entries := h.flt.entries.modify k fun (e : LedgerRec) => { e with read := true } } }
    else h

/-- The word that a lamplighter register shows: the kick lines and the oldest key event are live. -/
def Module.readLamp (m : Module) (t off : Nat) : Word :=
  let l := m.lamp
  if off = F.LMP_STATUS_word.off then putFlag (putFlag (l.reg off) 4 (l.h0.kicked t)) 5 (l.h1.kicked t)
  else if off = F.KEY_EVENT_word.off then l.eventWord
  else l.reg off

/-! ## Writes -/

/-- A register word after a write, by the access codes of R6; sealed RWS fields stay (R7). -/
def RegSpec.written (r : RegSpec) (sealed : Bool) (old v : Word) : Word :=
  let rw := r.rw ||| (if sealed then 0 else r.rws)
  let w := (old &&& ~~~rw) ||| (v &&& rw)
  (w &&& ~~~(v &&& r.w1c)) ||| (v &&& r.w1s)

/-- A write by the access codes alone; one that meets sealed fields is tallied (R7). -/
def Half.plainWrite (h : Half) (off : Nat) (v : Word) : Half := match regSpec off with
  | none => h
  | some r =>
    let h1 := if h.sealed && r.rws != 0 then h.tally F.SYS_SEALTALLY_COUNT 1 else h
    h1.setReg off (r.written h.sealed (h.reg off) v)

/-- The written word with bit `i` as the register holds it. -/
def Half.keepBit (h : Half) (off i : Nat) (v : Word) : Word := putFlag v i (bitAt (h.reg off).toNat i)

/-- A write in the RST block. -/
def Module.writeRst (m : Module) (t : Nat) (h : HalfId) (master off : Nat) (v : Word) : Module :=
  if off = F.RST_CMD_word.off then m.rstCmd t h master v
  else if off = F.RST_WDOG_word.off then
    if bitAt v.toNat 0 then m.onHalf h fun x => x.kickDog t master else m
  else if off = F.RST_BLKRST_word.off then m.onHalf h fun x => x.askBlocks v.toNat
  else m.onHalf h fun x => x.plainWrite off v

/-- A write of LANE_PATTERN: the selections, then the checker, then the generator (R117, R118). A running generator given another
pattern starts it from its beginning. -/
def Half.writePattern (h : Half) (t p : Nat) (v : Word) : Half :=
  let off := (F.LANE_PATTERN_word p).off
  let h1 := h.plainWrite off (h.keepBit off 7 (h.keepBit off 3 v))
  let h2 := h1.chkEnable p (bitAt v.toNat 7)
  let on := h2.flag (F.LANE_PATTERN_GENEN p)
  let h3 := if on && bitAt v.toNat 3 && h1.get (F.LANE_PATTERN_GENSEL p) != h.get (F.LANE_PATTERN_GENSEL p) then h2.seedGen p else h2
  h3.reporting t (h3.genEnable t p (bitAt v.toNat 3))

/-- A write in the LANE block. -/
def Half.writeLane (h : Half) (t off : Nat) (v : Word) : Half :=
  let p := (off - 0x30000) / 0x800
  if 24 ≤ p then h
  else if off = (F.LANE_CTRL_word p).off then h.reporting t (h.laneCtrl t p v)
  else if off = (F.LANE_EQ_word p).off then (h.plainWrite off v).eqWritten p
  else if off = (F.LANE_PATTERN_word p).off then h.writePattern t p v
  else if off = (F.LANE_INJECT_word p).off then
    let every := h.injectEvery p
    let h1 := h.plainWrite off v
    let h2 := if h1.injectEvery p = every then h1 else h1.restartRate p
    if bitAt v.toNat 31 then h2.fire p else h2
  else h.plainWrite off v

/-- A write of INK_SCTRL of window `i`. -/
def Half.writeSource (h : Half) (t i : Nat) (v : Word) : Half := match h.source i with
  | none => h
  | some _ =>
    let off := (F.INK_SCTRL_word i).off
    (h.plainWrite off (h.keepBit off 0 v)).sourceEnable t i (bitAt v.toNat 0)

/-- A write in the INK block. -/
def Half.writeInk (h : Half) (t off : Nat) (v : Word) : Half :=
  let i := (off - 0x41000) / 0x40
  if off < 0x41000 then h.plainWrite off v
  else if h.sources.length ≤ i then h
  else if off = (F.INK_SCTRL_word i).off then h.writeSource t i v
  else h.plainWrite off v

/-- A write of CMP_WATCHEN: the bit of a disabled rectangle cannot be set. -/
def Half.writeWatchEn (h : Half) (off dis : Nat) (v : Word) : Half := h.plainWrite off (v &&& ~~~h.reg dis)

/-- A write of PNL_CTRL: MARGIN, then RUN, then REINIT. -/
def Half.writePnlCtrl (h : Half) (t : Nat) (v : Word) : Half :=
  let off := F.PNL_CTRL_word.off
  let h1 := h.plainWrite off (h.keepBit off 0 v)
  let on := bitAt v.toNat 0
  let h2 := if on == h1.flag F.PNL_CTRL_RUN then h1 else h1.pnlRun t on
  if bitAt v.toNat 1 then h2.reinit t else h2

/-- A write of TIM_GMCMD. -/
def Half.writeGmCmd (h : Half) (t : Nat) (v : Word) : Half :=
  if bitAt v.toNat 0 then h.gmCmd t (if bitAt v.toNat 1 then .b else .a) (bitAt v.toNat 2) else h

/-- A write in the CVU block: while its unit is enabled, a configuration register does not change (R337). -/
def Half.writeCvu (h : Half) (off : Nat) (v : Word) : Half :=
  let n := (off - 0xC0000) / 0x80
  let k := off % 0x80
  if 16 ≤ n then h
  else if k = 0 then h.cvuCtrl n v
  else if k ≤ 0x28 then if h.flag (F.CVU_CTRL_ENABLE n) then h else h.plainWrite off v
  else if k = 0x3C then h.cvuFeed n (beBytes 4 v.toNat)
  else if k = 0x40 then h.cvuFeed n [BitVec.ofNat 8 v.toNat]
  else if k = 0x44 then if bitAt v.toNat 0 then h.cvuFeedEnd n else h
  else h.plainWrite off v

/-- A write of ENG_TIMECMPHI applies both words of the compare value (R357). -/
def Half.writeTimecmp (h : Half) (n : Nat) (v : Word) : Half :=
  let h1 := h.plainWrite (F.ENG_TIMECMPHI_word n).off v
  h1.onEngine n fun (e : Engine) => { e with timecmp := v.toNat * 2 ^ 32 + h1.get (F.ENG_TIMECMPLO_word n) }

/-- A write of ENG_CTRL: HALT, and RESUME where HALT is not asked. -/
def Half.writeEngCtrl (h : Half) (t n master : Nat) (v : Word) : Half :=
  if bitAt v.toNat 0 then h.halt n master else if bitAt v.toNat 1 then h.resume t n else h

/-- A write in the ENG block. -/
def Module.writeEng (m : Module) (t : Nat) (h : HalfId) (master off : Nat) (v : Word) : Module :=
  let n := (off % 0x10000) / 0x100
  let k := off % 0x100
  if 4 ≤ n then m
  else if k = 0 then m.onHalf h fun x => x.writeEngCtrl t n master v
  else if k = 8 then if bitAt v.toNat 0 then m.beat t h n else m
  else if k = 0x14 then m.onHalf h fun x => x.writeTimecmp n v
  else if k = 0x18 then m.onHalf h fun x => x.plainWrite off (v &&& 0xFFFF)
  else m.onHalf h fun x => x.plainWrite off v

/-- A write in the HST block. -/
def Module.writeHst (m : Module) (h : HalfId) (off : Nat) (v : Word) : Module :=
  let n := (off - 0xF1000) / 0x400
  let k := (off - 0xF1000) % 0x400
  if 0xF1000 ≤ off ∧ off < 0xF2000 ∧ k = 0x100 then if bitAt v.toNat 0 then m.esend h n else m
  else if 0xF1000 ≤ off ∧ off < 0xF2000 ∧ k = 0x300 then
    if bitAt v.toNat 0 then m.onHalf h fun x => x.epop n else m
  else m.onHalf h fun x => x.plainWrite off v

/-- A write of CMP_GSEL with GO set submits a graphic change (R213). -/
def gselChange (v : Word) : Change :=
  let w := v.toNat
  .graphic (bitsAt w 16 3) (bitAt w 23) (bitAt w 24) (bitsAt w 0 6) (bitsAt w 8 8)

/-- A write in the blocks whose registers act beyond their access codes. -/
def Module.writeReg (m : Module) (t : Nat) (h : HalfId) (master off : Nat) (v : Word) : Module :=
  let w := v.toNat
  let on (f : Half → Half) : Module := m.onHalf h f
  let plain : Module := on fun x => x.plainWrite off v
  match off / 0x10000 with
  | 0x0 => if off = F.SYS_SEALTALLY_word.off then (if bitAt w 31 then on fun x => x.set F.SYS_SEALTALLY_COUNT 0 else m) else plain
  | 0x1 => m.writeRst t h master off v
  | 0x3 => on fun x => x.writeLane t off v
  | 0x4 => on fun x => x.writeInk t off v
  | 0x6 =>
    if off = F.RBK_SCENESEL_word.off then (if bitAt w 8 then m.selectReg h (.scene (w % 256)) else m)
    else if off = F.RBK_TAGS_word.off then (if bitAt w 31 then on fun x => x.set F.RBK_TAGS_PEAK 0 else m)
    else plain
  | 0x7 =>
    if off = F.CMP_GSEL_word.off then (if bitAt w 25 then m.selectReg h (gselChange v) else m)
    else if off = F.CMP_WATCHEN0_word.off then on fun x => x.writeWatchEn off F.CMP_WATCHDIS0_word.off v
    else if off = F.CMP_WATCHEN1_word.off then on fun x => x.writeWatchEn off F.CMP_WATCHDIS1_word.off v
    else plain
  | 0x9 =>
    if off = F.PNL_CTRL_word.off then on fun x => x.writePnlCtrl t v
    else if off = F.PNL_MODESEL_word.off then (if bitAt w 8 then m.selectReg h (.mode (w % 256)) else m)
    else plain
  | 0xA =>
    let r := (off - 0xA0000) / 0x100
    if r < 2 ∧ off = (F.RNG_CTRL_word r).off then on fun x => x.joinEnable r (bitAt w 0) else plain
  | 0xB => if off = F.TIM_GMCMD_word.off then on fun x => x.writeGmCmd t v else plain
  | 0xC => on fun x => x.writeCvu off v
  | 0xD => if off = F.ACR_SWITCH_word.off then (if bitAt w 0 then on fun x => x.acrGo else m) else plain
  | 0xE => m.writeEng t h master off v
  | 0xF => m.writeHst h off v
  | 0x10 => if h = .h1 then m else if off = F.TCH_CTRL_word.off then m.scan t (bitAt w 0) else plain
  | 0x12 =>
    if off = F.PACE_LOW_word.off then (if bitAt w 31 then on fun x => x.setReg off (resetWord h off) else m) else plain
  | 0x13 => if off = F.LNK_LOAD_word.off then (if bitAt w 31 then on fun x => x.set F.LNK_LOAD_PEAK_FETCH 0 else m) else plain
  | 0x14 => if off = F.FLT_SWADD_word.off then (if bitAt w 0 then on fun x => x.swAdd t master else m) else plain
  | _ => plain

/-- The block of R68 that an offset belongs to is isolated by a block reset in progress. -/
def Half.isolates (h : Half) (off : Nat) : Bool :=
  h.starter.isolated != 0 && (List.range 10).any fun b => bitAt h.starter.isolated b && blockHolds b off

/-- A write that has passed its check takes effect, or waits at an isolated block (R68). -/
def Module.putReg (m : Module) (t : Nat) (h : HalfId) (master off : Nat) (v : Word) : Module :=
  if (m.half h).isolates off then
    m.onHalf h fun x => { x with starter := { x.starter with waiting := x.starter.waiting ++ [(master, off, v)] } }
  else m.writeReg t h master off v

/-- A write of a lamplighter register by master `master`, issued in half `h`. -/
def Module.writeLamp (m : Module) (t : Nat) (h : HalfId) (master off : Nat) (v : Word) : Module :=
  if off = F.LMP_REST_word.off then m.restWrite t h master v
  else match lmpRegSpec off with
    | none => m
    | some r => m.onLamp fun l => l.setReg off (r.written false (l.reg off) v)

/-- The block reset of a half completes, and the writes that waited proceed in their order (R67, R68). -/
def Module.blocksDone (m : Module) (t : Nat) (h : HalfId) : Module :=
  let todo := (m.half h).starter.waiting
  let m1 := m.onHalf h fun x => { x.blocksDone t with starter := { (x.blocksDone t).starter with waiting := [] } }
  todo.foldl (fun (m : Module) w => m.writeReg t h w.1 w.2.1 w.2.2) m1

/-! ## Accesses by device address -/

/-- A read that reaches an isolated block waits for the end of its reset (R68): the reset, which ends within 100 µs, ends then
(DESIGN CHOICE, log entry 121; unsafe). -/
def Module.awaitBlock (m : Module) (t : Nat) (h : HalfId) (off : Nat) : Module :=
  if (m.half h).isolates off then m.blocksDone t h else m

/-- Little-endian value of `n` bytes at a device address, and what reading them does besides. -/
def Module.readAt (m : Module) (t a n : Nat) : Nat × Module := match decodeAddr a with
  | .store h off => (leVal (memRead (m.half h).fst off n), m)
  | .sram h off => (leVal (memRead (m.half h).sram off n), m)
  | .reg h off =>
    let m1 := m.awaitBlock t h off
    ((m1.readReg t h off).toNat, m1.onHalf h fun x => x.readTouch t off)
  | .lamp off => ((m.readLamp t off).toNat, if off = F.KEY_EVENT_word.off then m.onLamp Lamp.popEvent else m)
  | .absent => (0, m)

/-- A write of the `n` low bytes of `v` at a device address by a master that issues in half `issuer`. -/
def Module.writeAt (m : Module) (t : Nat) (issuer : HalfId) (master a n v : Nat) : Module := match decodeAddr a with
  | .store h off => m.onHalf h fun x => x.storeWrite off (leBytes n v)
  | .sram h off => m.onHalf h fun x => { x with sram := memWrite x.sram off (leBytes n v) }
  | .reg h off => m.putReg t h master off (BitVec.ofNat 32 v)
  | .lamp off => m.writeLamp t issuer master off (BitVec.ofNat 32 v)
  | .absent => m

end Sys2Proof.Machine
end

