-- ==== Sys2Proof/Machine/HostReq.lean ====
section
/-!
DEFINITION. Requests (R372 to R382): who makes one, what it may reach, its effect and its completion; management cells that arrive
at this station or pass through it.
-/
namespace Sys2Proof.Machine

/-- A request on ring `r` comes from the master of the ROOT ring, or from the master of ring `r`. -/
def Half.fromMaster (h : Half) (station r : Nat) : Bool × Bool := match (h.ring r).plan with
  | some p =>
    let is := h.get (F.RNG_MASTER_ADDR r) == station
    (is && p.root == p.ring, is)
  | none => (false, false)

/-- The master identity of a requester (R372). -/
def Half.identity (h : Half) (q : Requester) : Nat :=
  let a := h.fromMaster q.station 0
  let b := h.fromMaster q.station 1
  if q.service then mService
  else if q.origin = 8 then mRelayed
  else if a.1 || b.1 then mWallMaster
  else if a.2 || b.2 then mRingMaster
  else mOther

/-- The half that executes a request received by half `h` (R373): the other half for an address of its range, while it is out
of reset. -/
def Module.executor (m : Module) (h : HalfId) (r : MgmtReq) : HalfId :=
  if r.opcode < 4 then match (decodeAddr (beAt r.payload 0 5)).half? with
    | some x => if (m.half x).inReset then h else x
    | none => h
  else h

/-- A completion of half `h` at once, of a request that never was outstanding. -/
def Module.answerNow (m : Module) (h : HalfId) (q : Requester) (r : MgmtReq) (status : Nat) : Module :=
  m.answer h q ((m.half h).completion q r.tag r.opcode status 0 [])

/-- The kept completion of an equal request (R381). -/
def Half.keptFor (h : Half) (q : Requester) (r : MgmtReq) : Option Kept := h.host.kept.find? fun k =>
  k.who == q && k.tag == r.tag && k.opcode == r.opcode && k.len == r.len && k.payload == r.payload

/-- A kept completion with REPEAT set. -/
def repeated (c : MgmtRsp) : MgmtRsp := { c with payload := c.payload.set 2 (c.payload.getD 2 0 ||| 4) }

/-- Completions of this module's own that wait to be sent to the service port's host, in the half that keeps its queue. -/
def Module.ownWaiting (m : Module) : Nat :=
  let y := m.half m.holder
  (y.host.queue.filter y.ownUnsent).length

/-- A request of this tag is outstanding in half `x`, its completion not sent (R377). -/
def Module.tagBusy (m : Module) (x : HalfId) (q : Requester) (tag : Nat) : Bool :=
  (m.half x).tagBusy q tag || (q.service && (m.half m.holder).unsent tag)

/-- A request that would pass the limits of half `x`: 64 of one requester, 32 requesters. A request is outstanding until its completion is
sent, so the service port's host counts with those that wait in its queue (R377, R386). -/
def Module.overLimit (m : Module) (x : HalfId) (q : Requester) : Bool :=
  let h := m.half x
  let waiting := if q.service then m.ownWaiting else 0
  let mine := (h.host.outstanding.filter fun o => o.who == q).length + waiting
  let others := ((h.host.outstanding.map fun o => o.who).eraseDups).length
  decide (64 ≤ mine) || (mine == 0 && decide (32 ≤ others))

/-! ## Accesses (R379) -/

/-- The words of a series of `n` word reads from address `a`, as bytes sent most significant byte first. -/
def Module.readWords (t : Nat) : Nat → Nat → Module → List Byte × Module
  | 0, _, m => ([], m)
  | n + 1, a, m =>
    let r := m.readAt t a 4
    let rest := Module.readWords t n (a + 4) r.2
    (beBytes 4 r.1 ++ rest.1, rest.2)

/-- A series of `n` word writes of bytes in address order. -/
def Module.writeWords (t : Nat) (issuer : HalfId) (master : Nat) : Nat → Nat → List Byte → Module → Module
  | 0, _, _, m => m
  | n + 1, a, bs, m => Module.writeWords t issuer master n (a + 4) (bs.drop 4) (m.writeAt t issuer master a 4 (leAt bs 0 4))

/-- The words that an access request reaches. -/
def reqWords (r : MgmtReq) : Nat := match r.opcode with
  | 0 => beAt r.payload 6 2
  | 3 => beAt r.payload 6 2 / 4
  | _ => 1

/-- The kinds of access that a request makes, all checked before any effect. -/
def reqKinds (r : MgmtReq) : List AccessKind := match r.opcode with
  | 0 => [.read]
  | 2 => [.read, .write]
  | _ => [.write]

/-- The first refusal of an access request. -/
def Module.reqDenied (m : Module) (h : HalfId) (master : Nat) (r : MgmtReq) : Option (AccessKind × Denial) :=
  (reqKinds r).findSome? fun k => (m.checkAccess h (beAt r.payload 0 5) (.words (reqWords r)) master k).map fun d => (k, d)

/-- The uncorrectable error that an access request meets before any effect (R169): a masked write and a word write read what they do not
replace, and so do the ends of a BLOCK_WRITE. -/
def Module.reqError (m : Module) (r : MgmtReq) : Option (HalfId × Nat) :=
  m.memError (beAt r.payload 0 5) (4 * reqWords r) (r.opcode == 1 || r.opcode == 3)

/-- The 8-byte words that a BLOCK_WRITE replaces whole hold no error any more (R169). -/
def Module.replaced (m : Module) (a n : Nat) : Module := match decodeAddr a with
  | .store h off => m.onHalf h fun x => x.storeWrite off (memRead x.fst off n)
  | _ => m

/-- The effect of an access request that has passed its checks, and the data it returns. -/
def Module.doAccess (m : Module) (t : Nat) (h : HalfId) (master : Nat) (r : MgmtReq) : List Byte × Module :=
  let a := beAt r.payload 0 5
  match r.opcode with
  | 0 => Module.readWords t (reqWords r) a m
  | 1 => ([], m.writeAt t h master a 4 (beAt r.payload 8 4))
  | 2 =>
    let old := m.readAt t a 4
    let mask := beAt r.payload 12 4
    ([], old.2.writeAt t h master a 4 ((old.1 &&& (2 ^ 32 - 1 - mask)) ||| (beAt r.payload 8 4 &&& mask)))
  | _ => ([], (Module.writeWords t h master (reqWords r) a (r.payload.drop 16) m).replaced a (4 * reqWords r))

/-- An access request received by half `h` and executed by half `x`: refused with its cause, or done. -/
def Module.accessReq (m : Module) (t : Nat) (h x : HalfId) (q : Requester) (r : MgmtReq) : Module :=
  let master := (m.half h).identity q
  match m.reqDenied h master r with
  | some (k, d) =>
    let m1 := m.onHalf h fun y => y.refuse t (beAt r.payload 0 5) d master k
    m1.complete x q r.tag r.opcode r.len r.payload stAccess 0 (accessRest d)
  | none => match m.reqError r with
    | some e => (m.meetsError t e).complete x q r.tag r.opcode r.len r.payload stMemErr 0 []
    | none =>
    let w := m.doAccess t h master r
    w.2.complete x q r.tag r.opcode r.len r.payload stDone 0 (if r.opcode = 0 then dataRest w.1 else [])

/-! ## Subscriptions (R383) -/

/-- The subscriptions with that of a requester set, replaced or ended; none when a 17th is asked. -/
def subscribe (subs : List Sub) (q : Requester) (tag mask : Nat) : Option (List Sub) :=
  if mask = 0 then some (subs.filter fun s => s.who != q)
  else if subs.any fun s => s.who == q then
    some (subs.map fun (s : Sub) => if s.who = q then { s with tag := tag, mask := mask, due := s.due.filter fun d => bitAt mask d.1 } else s)
  else if 16 ≤ subs.length then none
  else some (subs ++ [⟨q, tag, mask, 0, []⟩])

/-- EVENT_SUBSCRIBE. -/
def Module.subscribeReq (m : Module) (h : HalfId) (q : Requester) (r : MgmtReq) : Module :=
  match subscribe (m.half h).host.subs q r.tag (beAt r.payload 0 2) with
  | none => m.complete h q r.tag r.opcode r.len r.payload stReqLimit 0 []
  | some l => (m.onHalf h fun x => x.onHost fun (s : HostSt) => { s with subs := l }).complete h q r.tag r.opcode r.len r.payload stDone 0 []

/-! ## A request (R372 to R381) -/

/-- The graphic change of four payload bytes. -/
def graphicOf (p : List Byte) : Change := .graphic (byteAt p 0) (bitAt (byteAt p 1) 0) (bitAt (byteAt p 1) 1) (byteAt p 2) (byteAt p 3)

/-- The request takes effect, or waits for its lap; it is outstanding in half `x`. -/
def Module.runReq (m : Module) (t : Nat) (h x : HalfId) (q : Requester) (r : MgmtReq) : Module :=
  let p := r.payload
  let o : Origin := .host x q r.tag r.opcode r.len p
  match r.opcode with
  | 0 | 1 | 2 | 3 => m.accessReq t h x q r
  | 4 => m.select h (.scene (byteAt p 0)) o
  | 5 => m.select h (graphicOf p) o
  | 6 => m.selectAt t h (if byteAt p 4 = 0 then .scene (byteAt p 0) else graphicOf p) (r308ns (beAt p 8 8) (beAt p 16 4))
      (r308ns (beAt p 20 8) (beAt p 28 4)) o
  | _ => m.subscribeReq h q r

/-- Recovery mode answers only READ, WRITE and WRITE_MASKED of the RST or LDR block of half 0 (R387). -/
def recoveryAllows (r : MgmtReq) : Bool :=
  let a := beAt r.payload 0 5
  decide (r.opcode < 3) && decide (0x100010000 ≤ a) && decide (a + 4 * reqWords r ≤ 0x100030000)

/-- A request of requester `q` that reaches half `h`: completed at once with the status of what turns it away, answered with a
kept completion, or outstanding and executed. -/
def Module.request (m : Module) (t : Nat) (h : HalfId) (q : Requester) (r : MgmtReq) : Module :=
  let x := m.executor h r
  let y := m.half x
  if (m.half h).inReset then m
  else if (m.half h).mode = modeRecovery ∧ recoveryAllows r = false then m.answerNow h q r stRecovery
  else if x ≠ h ∧ linkOk (m.half h) y = false then m.answerNow h q r stNoRoute
  else if m.tagBusy x q r.tag then m.answerNow x q r stTagBusy
  else match y.keptFor q r with
    | some k => m.answer x q (repeated k.rsp)
    | none =>
      if !mgmtFits r then m.answerNow x q r stFormat
      else if m.overLimit x q then m.answerNow x q r stReqLimit
      else
        (m.onHalf x fun y => y.onHost fun (s : HostSt) => { s with outstanding := s.outstanding ++ [⟨q, r.tag⟩] }).runReq t h x q r

/-- A request that arrives in a management cell is taken while MGTEN is 1 and a ring of the plane is joined (R372). -/
def Module.cellRequest (m : Module) (t : Nat) (h : HalfId) (q : Requester) (r : MgmtReq) : Module :=
  let x := m.half h
  if x.inReset then m
  else if x.flag F.HST_CTRL_MGTEN && (x.ringJoined 0 || x.ringJoined 1) then m.request t h q r
  else m.onHalf h fun x => x.tally F.HST_MGTTALLY_DISCARD 1

/-- A request of a requester, by the way it came. -/
def Module.requestBy (m : Module) (t : Nat) (h : HalfId) (q : Requester) (r : MgmtReq) : Module :=
  if q.service then m.request t m.holder q r else m.cellRequest t h q r

/-- The request record of a command that gives the parts of a request. -/
def reqOf (q : Requester) (tag opcode : Nat) (payload : List Byte) : MgmtReq :=
  { dest := 0x3FFF, src := q.station, tag := tag, origin := q.origin, opcode := opcode, hops := 0, len := payload.length
    payload := payload }

/-! ## Management cells that arrive (R305, R382) -/

/-- A completion or event for this station: handed to its origin while MGTEN is 1. -/
def Module.cellRsp (m : Module) (h : HalfId) (c : MgmtRsp) : Module :=
  let x := m.half h
  if x.inReset then m
  else if x.flag F.HST_CTRL_MGTEN && (c.dest == x.ringAddr 0 || c.dest == x.ringAddr 1) then m.giveRsp h c
  else m.onHalf h fun x => x.tally F.HST_MGTTALLY_DISCARD 1

/-- A relay that does not pass a cell on answers a request with NO_ROUTE and discards anything else. -/
def Module.noRoute (m : Module) (h : HalfId) (c : Cell) : Module :=
  if c.type = 4 then
    let r := reqOfCell c
    let who : Requester := { station := r.src, origin := r.origin, service := false }
    let rsp := { (m.half h).completion who r.tag r.opcode stNoRoute 0 [] with src := r.dest }
    (m.onHalf h fun x => x.tally F.HST_MGTTALLY_NOROUTE 1).answer h who rsp
  else m.onHalf h fun x => x.tally F.HST_MGTTALLY_DISCARD 1

/-- A cell whose addressee is this station. -/
def Module.addressed (m : Module) (t : Nat) (h : HalfId) (c : Cell) : Module :=
  if c.type = 4 then
    let r := reqOfCell c
    m.cellRequest t h { station := r.src, origin := r.origin, service := false } r
  else m.cellRsp h (rspOfCell c)

/-- A management cell that this station takes from ring `r`, as addressee or as relay. -/
def Module.mgmtCell (m : Module) (t : Nat) (h : HalfId) (r : Nat) (crcOk : Bool) (c : Cell) : Module :=
  let x := m.half h
  let dest := c.field 16 14
  let hops := c.field 60 4
  if x.inReset || !x.mgmtHere r dest hops then m
  else if dest = x.ringAddr r ∧ (hops = 0 ∨ hops % 2 = 1) then
    if crcOk then m.addressed t h c else m.onHalf h fun x => x.tally F.HST_MGTTALLY_DISCARD 1
  else if !crcOk then m.noRoute h c
  else
    let w := Half.route 10 x r c
    match w.2 with
    | .sent => m.setHalf h w.1
    | .here => (m.setHalf h w.1).addressed t h c
    | .refused => m.noRoute h c

/-- A request on the service port (R384): for this module, or sent as a management cell with this module's address as SRC. In
recovery mode nothing is sent (R387). -/
def Module.serviceReq (m : Module) (t : Nat) (r : MgmtReq) : Module :=
  let h := m.holder
  let x := m.half h
  let own : Requester := { station := x.ringAddr 0, origin := 8, service := true }
  if r.dest = 0x3FFF ∨ r.dest = x.ringAddr 0 ∨ r.dest = x.ringAddr 1 then m.request t h own r
  else if x.mode = modeRecovery then m.answerNow h own r stRecovery
  else
    let out : MgmtReq := { r with src := x.answerAddr r.dest, origin := 8, hops := 0 }
    let fail (m : Module) : Module := m.answer h own { x.completion own r.tag r.opcode stNoRoute 0 [] with dest := out.src }
    match x.ringFor r.dest with
    | none => fail m
    | some k =>
      if !x.hasMaster k then fail m
      else
        let w := Half.route 10 x k (reqCell out)
        match w.2 with
        | .sent => m.setHalf h w.1
        | .here => m.request t h own r
        | .refused => m.noRoute h (reqCell out)

end Sys2Proof.Machine
end

