-- ==== Sys2Proof/Machine/Ed25519.lean ====
section
/-!
DEFINITION. The signature and digest functions that R79 names: SHA-256 of a key, SHA-512, and Ed25519 verification as RFC 8032
defines it, without pre-hashing or context. The manual names the functions and does not write them out; their definitions
here are the published ones (log entry 5).
-/
namespace Sys2Proof.Machine

/-! ## SHA-2 -/

/-- The words, rotation counts and constants that tell SHA-256 and SHA-512 apart. -/
structure ShaForm where
  bits   : Nat
  rounds : Nat
  /-- rotations of the two round functions; then rotations and shift of the two schedule functions -/
  big0   : List Nat
  big1   : List Nat
  small0 : List Nat
  small1 : List Nat

def sha256Form : ShaForm := ⟨32, 64, [2, 13, 22], [6, 11, 25], [7, 18, 3], [17, 19, 10]⟩
def sha512Form : ShaForm := ⟨64, 80, [28, 34, 39], [14, 18, 41], [1, 8, 7], [19, 61, 6]⟩

/-- The whole `k`-th root of `v` where it has at most the given number of bits: the root of `v` without its `k` lowest bits, and one
more bit. -/
def rootOf (k v : Nat) : Nat → Nat
  | 0 => 0
  | n + 1 =>
    let r := 2 * rootOf k (v / 2 ^ k) n
    if (r + 1) ^ k ≤ v then r + 1 else r

/-- The first 64 bits after the binary point of the `k`-th root of a number below 512. -/
def rootFraction (k p : Nat) : Nat := rootOf k (p * 2 ^ (64 * k)) 69 % 2 ^ 64

/-- The first 80 primes. -/
def shaPrimes : List Nat := (List.range 410).filter fun p => decide (2 ≤ p) && (List.range 21).all fun d => decide (d < 2) || d == p || p % d != 0

/-- The round constants of SHA-512: cube roots of the first 80 primes; SHA-256 takes the upper halves of the first 64. -/
def shaK : List Nat := shaPrimes.map (rootFraction 3)

/-- Initial values of SHA-512: square roots of the first 8 primes; SHA-256 takes the upper halves. -/
def shaInit : List Nat := (shaPrimes.take 8).map (rootFraction 2)

/-- A constant in the word width of a form. -/
def ShaForm.const (f : ShaForm) (k : Nat) : Nat := k / 2 ^ (64 - f.bits)

/-- Rotation right of a word. -/
def ShaForm.ror (f : ShaForm) (x n : Nat) : Nat := x / 2 ^ n + x % 2 ^ n * 2 ^ (f.bits - n)

/-- Three rotations combined. -/
def ShaForm.mix (f : ShaForm) (r : List Nat) (x : Nat) : Nat := r.foldl (fun a n => a ^^^ f.ror x n) 0

/-- Two rotations and a shift combined. -/
def ShaForm.sched (f : ShaForm) (r : List Nat) (x : Nat) : Nat :=
  (f.ror x (r.getD 0 0) ^^^ f.ror x (r.getD 1 0)) ^^^ (x / 2 ^ r.getD 2 0)

/-- The message schedule, newest word first. -/
def ShaForm.extend (f : ShaForm) : Nat → List Nat → List Nat
  | 0, w => w
  | n + 1, w =>
    let x := f.sched f.small1 (w.getD 1 0) + w.getD 6 0 + f.sched f.small0 (w.getD 14 0) + w.getD 15 0
    f.extend n ((x % 2 ^ f.bits) :: w)

/-- One round over the eight working variables. -/
def ShaForm.round (f : ShaForm) (v : List Nat) (k w : Nat) : List Nat :=
  match v with
  | [a, b, c, d, e, g, h, i] =>
    let ch := (e &&& g) ^^^ ((2 ^ f.bits - 1 - e) &&& h)
    let t1 := i + f.mix f.big1 e + ch + k + w
    let t2 := f.mix f.big0 a + (((a &&& b) ^^^ (a &&& c)) ^^^ (b &&& c))
    [(t1 + t2) % 2 ^ f.bits, a, b, c, (d + t1) % 2 ^ f.bits, e, g, h]
  | _ => v

/-- One block of 16 words under the round constants `ks`. -/
def ShaForm.block (f : ShaForm) (ks hash words : List Nat) : List Nat :=
  let w := (f.extend (f.rounds - 16) words.reverse).reverse
  let v := (ks.zip w).foldl (fun v kw => f.round v kw.1 kw.2) hash
  (hash.zip v).map fun p => (p.1 + p.2) % 2 ^ f.bits

/-- `n` words of a byte string, most significant byte first. -/
def ShaForm.wordsOf (f : ShaForm) (bs : List Byte) (n : Nat) : List Nat :=
  (List.range n).map fun i => beAt bs (i * (f.bits / 8)) (f.bits / 8)

/-- The padded message: 0x80, zeros, and the length in bits. -/
def ShaForm.pad (f : ShaForm) (msg : List Byte) : List Byte :=
  let blk := 2 * f.bits
  let used := (msg.length + 1 + f.bits / 4) % blk
  msg ++ [0x80] ++ List.replicate (if used = 0 then 0 else blk - used) 0 ++ beBytes (f.bits / 4) (8 * msg.length)

/-- Blocks of a padded message, one after another. -/
def ShaForm.blocks (f : ShaForm) (ks : List Nat) : Nat → List Byte → List Nat → List Nat
  | 0, _, hash => hash
  | n + 1, bs, hash => f.blocks ks n (bs.drop (2 * f.bits)) (f.block ks hash (f.wordsOf bs 16))

/-- The digest of a message. -/
def ShaForm.digest (f : ShaForm) (msg : List Byte) : List Byte :=
  let p := f.pad msg
  (f.blocks (shaK.map f.const) (p.length / (2 * f.bits)) p (shaInit.map f.const)).flatMap fun w => beBytes (f.bits / 8) w

def sha256 (msg : List Byte) : List Byte := sha256Form.digest msg
def sha512 (msg : List Byte) : List Byte := sha512Form.digest msg

/-! ## Ed25519 -/

/-- The field's prime, the group order and the curve constant. -/
def edP : Nat := 2 ^ 255 - 19
def edL : Nat := 2 ^ 252 + 27742317777372353535851937790883648493
def edD : Nat := 37095705934669439343138083508754565189542113879843219016388785533085940283555

def edAdd (a b : Nat) : Nat := (a + b) % edP
def edSub (a b : Nat) : Nat := (a + edP - b % edP) % edP
def edMul (a b : Nat) : Nat := a * b % edP

/-- Powers in the field by the bits of the exponent, `n` bits, most significant first. -/
def edPow (b e : Nat) : Nat → Nat
  | 0 => 1
  | n + 1 =>
    let r := edPow b (e / 2) n
    let r := edMul r r
    if e % 2 = 1 then edMul r b else r

/-- A point in extended coordinates. -/
structure EdPoint where
  x : Nat
  y : Nat
  z : Nat
  t : Nat

def EdPoint.zero : EdPoint := ⟨0, 1, 1, 0⟩

/-- Addition of points, complete on this curve. -/
def EdPoint.add (p q : EdPoint) : EdPoint :=
  let a := edMul (edSub p.y p.x) (edSub q.y q.x)
  let b := edMul (edAdd p.y p.x) (edAdd q.y q.x)
  let c := edMul (edMul (2 * p.t) q.t) edD
  let d := edMul (2 * p.z) q.z
  let e := edSub b a
  let f := edSub d c
  let g := edAdd d c
  let h := edAdd b a
  ⟨edMul e f, edMul g h, edMul f g, edMul e h⟩

/-- Multiple of a point by an `n`-bit scalar. -/
def EdPoint.times (p : EdPoint) (s : Nat) : Nat → EdPoint
  | 0 => EdPoint.zero
  | n + 1 =>
    let r := p.times (s / 2) n
    let r := r.add r
    if s % 2 = 1 then r.add p else r

/-- Equality of points. -/
def EdPoint.same (p q : EdPoint) : Bool :=
  edMul p.x q.z == edMul q.x p.z && edMul p.y q.z == edMul q.y p.z

/-- The x of a y with a given sign, if the point is on the curve. -/
def edRecover (y sign : Nat) : Option Nat :=
  if edP ≤ y then none
  else
    let u := edSub (edMul y y) 1
    let v := edAdd (edMul (edMul edD y) y) 1
    let v3 := edMul (edMul v v) v
    let x := edMul (edMul u v3) (edPow (edMul (edMul u (edMul v3 v3)) v) ((edP - 5) / 8) 255)
    let w := edMul v (edMul x x)
    let root := if w = u then some x else if w = edSub 0 u then some (edMul x (edPow 2 ((edP - 1) / 4) 255)) else none
    root.bind fun r => if r = 0 ∧ sign = 1 then none else some (if r % 2 = sign then r else edSub 0 r)

/-- Decoding of a point of 32 bytes. -/
def edDecode (bs : List Byte) : Option EdPoint :=
  let n := leAt bs 0 32
  let y := n % 2 ^ 255
  (edRecover y (n / 2 ^ 255)).map fun x => ⟨x, y, 1, edMul x y⟩

/-- The base point. -/
def edBase : EdPoint :=
  let x := 15112221349535400772501151409588531511454012693041857206046113283949847762202
  let y := 46316835694926478169428394003475163141307993866256225615783033603165251855960
  ⟨x, y, 1, edMul x y⟩

/-- Verification of a 64-byte signature of a message under a 32-byte key, with the equation of RFC 8032 multiplied by 8. -/
def ed25519Verify (key msg sig : List Byte) : Bool :=
  let s := leAt sig 32 32
  match edDecode key, edDecode (sig.take 32) with
  | some a, some r =>
    let k := leVal (sha512 (sig.take 32 ++ key ++ msg)) % edL
    decide (s < edL) && EdPoint.same ((edBase.times s 253).times 8 4) ((r.add (a.times k 253)).times 8 4)
  | _, _ => false

end Sys2Proof.Machine
end

