-- ==== Sys2Proof/Machine/Image.lean ====
section
/-!
DEFINITION. The Tuilayth image as it lies in the flash (R70 to R84): reading modes and slots, headers, manifest, signature and
the order of the checks of step 3.
-/
namespace Sys2Proof.Machine

/-! ## Reading the flash -/

/-- `n` bytes of a listed memory from address `a`, an unlisted byte being 0xFF; the list starts at or after `a`. -/
def flashTake : Nat → Mem → Nat → List Byte
  | 0, _, _ => []
  | n + 1, m, a => match m with
    | [] => 0xFF :: flashTake n [] (a + 1)
    | (k, v) :: rest => if k = a then v :: flashTake n rest (a + 1) else 0xFF :: flashTake n m (a + 1)

/-- `n` bytes of the flash from address `a`. -/
def Flash.read (f : Flash) (a n : Nat) : List Byte := flashTake n (f.bytes.dropWhile fun c => decide (c.1 < a)) a

/-- Both bytes and addresses of a fixed part are zero. -/
def zeroAt (p : List Byte) (k n : Nat) : Bool := (sliceBytes p k n).all fun b => b == 0

/-- Consecutive records of a payload, `size` bytes each, `n` of them. -/
def recordsOf (size : Nat) : Nat → List Byte → List (List Byte)
  | 0, _ => []
  | n + 1, p => p.take size :: recordsOf size n (p.drop size)

/-- LDR_FLASH.MODE (R71): 3 for 4-4-4, 2 for 1-4-4, 1 for 1-1-1. -/
def sfdpMode (f : Sfdp) : Nat := if f.quad444 then 3 else if f.quad144 then 2 else 1

/-- Read rate B in bytes per second (R71). -/
def sfdpRate (f : Sfdp) : Nat := if sfdpMode f = 1 then 12500000 else 50000000

/-- LDR_FLASH.ADDR (R72): 0 3-byte, 1 4-byte instructions, 2 4-byte mode. -/
def sfdpAddr (f : Sfdp) : Nat :=
  if f.density ≤ 2 ^ 24 then 0 else if f.addr4Inst then 1 else if f.addr4Mode then 2 else 0

/-- The density taken for every purpose of the loader (R72). -/
def sfdpTaken (f : Sfdp) : Nat := if sfdpAddr f = 0 then min f.density (2 ^ 24) else f.density

/-- Size of a slot (R74). -/
def sfdpSlotSize (f : Sfdp) : Nat := min (sfdpTaken f / 2) (2 ^ 28)

/-- Load limit in ms (R83). -/
def loadLimit (len rate : Nat) : Nat := 500 + 2 * (len * 1000 / rate)

/-! ## Result codes (R93) -/

def ldOk : Nat := 0
def ldNotRead : Nat := 1
def ldNoSfdp : Nat := 2
def ldBadHeader : Nat := 3
def ldTooLong : Nat := 4
def ldBadManifest : Nat := 5
def ldKeyMismatch : Nat := 6
def ldBadSignature : Nat := 7
def ldRoleMismatch : Nat := 8
def ldRange : Nat := 9
def ldSectionCrc : Nat := 10
def ldSectionFormat : Nat := 11
def ldRuleOverlap : Nat := 12
def ldCapacity : Nat := 13
def ldContent : Nat := 14
def ldTimeout : Nat := 15

/-- A check in order: whether it holds, its code and the offset that it names. -/
abbrev Check := Bool × Nat × Nat

/-- The first check that fails: code and offset. -/
def firstFail (cs : List Check) : Option (Nat × Nat) := (cs.find? fun c => !c.1).map fun c => c.2

/-! ## Section headers (R76) -/

/-- A section as read. -/
structure Section where
  ofs     : Nat
  type    : Nat
  version : Nat
  len     : Nat
  count   : Nat
  recSize : Nat
  half    : Nat
  place   : Nat
  clean   : Bool
  crc     : Nat
  crcOk   : Bool
  payload : List Byte
  deriving DecidableEq, Repr

/-- The section of `len` bytes at slot offset `ofs`. -/
def Flash.sect (f : Flash) (base ofs len : Nat) : Section :=
  let h := f.read (base + ofs) 32
  let p := f.read (base + ofs + 32) (len - 32)
  { ofs := ofs, type := leAt h 0 2, version := leAt h 2 2, len := leAt h 4 4, count := leAt h 8 4, recSize := leAt h 12 2
    half := byteAt h 14, place := leAt h 16 8, clean := byteAt h 15 == 0 && zeroAt h 24 4
    crc := leAt h 28 4, crcOk := crcOf (h.take 28 ++ p) == leAt h 28 4, payload := p }

/-- COUNT, RECSIZE and LENGTH agree (R76). -/
def Section.consistent (s : Section) : Bool :=
  s.clean && s.version == 1 && s.len % 4 == 0 && (s.recSize == 0 || s.len == 32 + s.count * s.recSize)

/-! ## Header and manifest (R75, R77, R78) -/

/-- An entry of the manifest. -/
structure ManEntry where
  type : Nat
  ofs  : Nat
  len  : Nat
  crc  : Nat
  zero : Bool
  deriving DecidableEq, Repr

/-- The manifest's entries in a payload. -/
def manEntries (p : List Byte) (n : Nat) : List ManEntry := (recordsOf 16 n (p.drop 32)).map fun r =>
  { type := leAt r 0 2, ofs := leAt r 4 4, len := leAt r 8 4, crc := leAt r 12 4, zero := zeroAt r 2 2 }

/-- The fixed part of the manifest. -/
def manifestOf (p : List Byte) (serial : Nat) : Manifest :=
  { designPace := if leAt p 4 2 = 0 then 1400 else leAt p 4 2, roles := byteAt p 6, addr0 := leAt p 8 2, addr1 := leAt p 10 2
    width := leAt p 12 2, height := leAt p 14 2, boundary := leAt p 16 2, maxRefresh := leAt p 18 2, minSilicon := byteAt p 24
    serial := serial }

/-- The section codes of the catalogue (R84). -/
def catalogue : List Nat :=
  [0x10, 0x11, 0x12, 0x13, 0x14, 0x15, 0x16, 0x17, 0x20, 0x21, 0x30, 0x40, 0x41, 0x50, 0x60, 0x70, 0x71, 0x80, 0x90, 0xA0, 0xA1,
   0xB0, 0xC0]

/-- The codes that every role requires (R84). -/
def requiredAlways : List Nat :=
  [0x10, 0x11, 0x12, 0x13, 0x14, 0x15, 0x16, 0x17, 0x20, 0x21, 0x30, 0x50, 0x60, 0x70, 0x80, 0xB0, 0xC0]

/-- The role of a strap index (R58): 0 none, 1 standalone, 2 ring station and master candidate, 3 gateway, 4 ring station. -/
def strapRole (i : Nat) : Nat :=
  if 1 ≤ i ∧ i ≤ 3 then 1 else if 4 ≤ i ∧ i ≤ 6 then 2 else if 7 ≤ i ∧ i ≤ 9 then 3
  else if i = 10 ∨ i = 11 ∨ i = 15 then 4 else 0

/-- The slots that a strap index permits (R58): 1 slot A, 2 slot B; both under newest valid. -/
def strapSlots (i : Nat) : List Nat :=
  if i = 2 ∨ i = 5 ∨ i = 8 ∨ i = 10 then [1] else if i = 3 ∨ i = 6 ∨ i = 9 ∨ i = 11 then [2]
  else if strapRole i = 0 then [] else [1, 2]

/-- ROLES suits the strap (R81 check 5). -/
def rolesSuit (i roles : Nat) : Bool := match strapRole i with
  | 1 => bitAt roles 0
  | 2 => bitAt roles 1 && bitAt roles 2
  | 3 => bitAt roles 3
  | 4 => bitAt roles 1
  | _ => false

/-- The image of a slot as its header gives it. -/
structure SlotHead where
  serial : Nat
  len    : Nat
  manLen : Nat
  sigOfs : Nat
  deriving DecidableEq, Repr

/-- The header fields of a slot. -/
def slotHead (h : List Byte) : SlotHead :=
  { serial := leAt h 8 4, len := leAt h 12 4, manLen := leAt h 20 4, sigOfs := leAt h 24 4 }

/-- Check 1 of R81: the header (R75). -/
def headerFail (h : List Byte) (slotSize : Nat) : Option (Nat × Nat) :=
  let x := slotHead h
  firstFail
    [(leAt h 0 4 == 0x4C495554, ldBadHeader, 0x00), (leAt h 4 2 == 1, ldBadHeader, 0x04), (leAt h 6 2 == 0x40, ldBadHeader, 0x06),
     (leAt h 16 4 == 0x40, ldBadHeader, 0x10), (x.sigOfs + 0xA0 == x.len, ldBadHeader, 0x18), (zeroAt h 0x1C 4, ldBadHeader, 0x1C),
     (zeroAt h 0x30 12, ldBadHeader, 0x30), (crcOf (h.take 0x3C) == leAt h 0x3C 4, ldBadHeader, 0x3C),
     (decide (0x200 ≤ x.len ∧ x.len ≤ slotSize), ldTooLong, 0x0C)]

/-- Ascending, on 256-byte boundaries, each after the end of the one before, all between `from_` and `sig` (R78). -/
def entriesFit (sig : Nat) : Nat → List ManEntry → Bool
  | _, [] => true
  | end_, e :: rest => e.ofs % 256 == 0 && decide (end_ ≤ e.ofs) && decide (e.ofs + e.len ≤ sig) && entriesFit sig (e.ofs + e.len) rest

/-- No code twice, sections of assets and palettes being told apart by HALF (R78, R84). -/
def noTypeTwice : List (Nat × Nat) → Bool
  | [] => true
  | e :: rest => (rest.all fun x => x.1 != e.1 || ((e.1 == 0x40 || e.1 == 0x41) && x.2 != e.2)) && noTypeTwice rest

/-- The station addresses of a manifest suit its ROLES (R77): ADDR0 is 0xFFFF in an image that is standalone only and ADDR1 in one that
is no gateway; any other is a ring number and a station in 14 bits. -/
def Manifest.addressesFit (m : Manifest) : Bool :=
  (if m.roles = 1 then m.addr0 == 0xFFFF else m.roles == 0 || decide (m.addr0 < 2 ^ 14))
    && (if bitAt m.roles 3 then decide (m.addr1 < 2 ^ 14) else m.addr1 == 0xFFFF)

/-- Check 2 of R81: the manifest section and the rules of R77 and R78. R93 names no code for an ADDR0 or ADDR1 outside its rule; it is
RANGE, as for the other fields of R77 (log entry 114). `strap` is the index whose role requires sections. -/
def Flash.manifestFail (f : Flash) (base strap : Nat) (x : SlotHead) : Option (Nat × Nat) :=
  let s := f.sect base 0x40 x.manLen
  let p := s.payload
  let n := s.count
  let es := manEntries p n
  let man := manifestOf p 0
  let pace := leAt p 4 2
  let types := es.map fun e => e.type
  let halves := es.map fun e => (e.type, byteAt (f.read (base + e.ofs) 32) 14)
  let needed := requiredAlways ++ (if strapRole strap = 1 then [] else [0x71])
  firstFail
    [(decide (0x40 + x.manLen ≤ x.sigOfs) && s.crcOk, ldBadManifest, 0x40),
     (s.type == 1 && s.version == 1 && s.clean && s.half == 0xFF && s.place == 0 && s.recSize == 0
        && s.len == x.manLen && s.len == 64 + 16 * n, ldBadManifest, 0x40),
     (leAt p 0 2 == 1, ldBadManifest, 0x60), (leAt p 2 2 == n, ldBadManifest, 0x62),
     (byteAt p 7 == 0 && zeroAt p 0x19 7 && es.all (fun e => e.zero), ldBadManifest, 0x60),
     (decide (n ≤ 64), ldRange, 0x62), (pace == 0 || decide (1000 ≤ pace ∧ pace ≤ 1500), ldRange, 0x64),
     (decide (man.roles < 16), ldRange, 0x66), (man.addressesFit, ldRange, 0x68), (decide (2 ≤ man.width ∧ man.width ≤ 480), ldRange, 0x6C),
     (decide (1 ≤ man.height ∧ man.height ≤ 270), ldRange, 0x6E), (decide (1 ≤ man.boundary ∧ man.boundary + 1 ≤ man.width), ldRange, 0x70),
     (decide (2400 ≤ man.maxRefresh ∧ man.maxRefresh ≤ 14400), ldRange, 0x72),
     (x.sigOfs % 256 == 0, ldBadManifest, 0x18), (entriesFit x.sigOfs (0x40 + x.manLen) es, ldBadManifest, 0x80),
     (types.all fun t => catalogue.contains t || bitAt t 15, ldBadManifest, 0x80),
     (noTypeTwice halves, ldBadManifest, 0x80), (needed.all fun t => types.contains t, ldBadManifest, 0x80)]

/-- The key hash as fused; a blank fuse accepts any key (R80). -/
def keyAccepted (fuse : Option (List Byte)) (key : List Byte) : Bool := match fuse with
  | none => true
  | some d => sha256 key == d

/-- Checks 3 and 4 of R81: the signature section, the key and the signature (R79, R80). -/
def Flash.signatureFail (f : Flash) (fuse : Option (List Byte)) (base : Nat) (x : SlotHead) : Option (Nat × Nat) :=
  let s := f.sect base x.sigOfs 0xA0
  let p := s.payload
  firstFail
    [(s.crcOk && s.type == 0xF0 && s.consistent && s.len == 0xA0 && s.count == 1 && s.recSize == 0x80 && s.half == 0xFF
        && zeroAt p 96 32, ldBadSignature, x.sigOfs),
     (keyAccepted fuse (p.take 32), ldKeyMismatch, x.sigOfs),
     (ed25519Verify (p.take 32) (f.read base (0x40 + x.manLen)) ((p.drop 32).take 64), ldBadSignature, x.sigOfs)]

/-- The result of step 3 for one slot (R81): a failure, or the header. -/
def Flash.slotFail (f : Flash) (fuse : Option (List Byte)) (base slotSize strap major : Nat) : Option (Nat × Nat) :=
  let h := f.read base 64
  let x := slotHead h
  let p := (f.sect base 0x40 (min x.manLen 0x500)).payload
  ((headerFail h slotSize).or (f.manifestFail base strap x)).or
    ((f.signatureFail fuse base x).or
      (firstFail [(rolesSuit strap (byteAt p 6), ldRoleMismatch, 0x66), (decide (byteAt p 24 ≤ major), ldRange, 0x78)]))

/-- Offset of a slot in the flash (R74). -/
def slotBase (slotSize slot : Nat) : Nat := if slot = 2 then slotSize else 0

end Sys2Proof.Machine
end

