-- ==== Sys2Proof/Machine/Sections.lean ====
section
/-!
DEFINITION. The content sections of the image (R84), record by record: what each section says, and the rules that a section
must meet by itself (R97, R143, R175, R182, R183, R202, R209, R210, R225, R257, R290, R291, R327, R346, R354, R390 to R392).
-/
namespace Sys2Proof.Machine

/-- `some x` when the condition holds. -/
def whenOk {α : Type} (c : Bool) (x : α) : Option α := if c then some x else none

/-- Every number of a list occurs once. -/
def noTwice : List Nat → Bool
  | [] => true
  | x :: xs => !xs.contains x && noTwice xs

/-! ## Catalogue rules (R84) -/

/-- RECSIZE of a section's records. -/
def sectionRecSize (t : Nat) : Nat :=
  if t = 0x20 ∨ t = 0x21 then 32 else if t = 0x60 then 24 else if t = 0x80 then 32 else if t = 0xA0 then 192
  else if t = 0xC0 then 64 else 0

/-- HALF of a section suits its code. -/
def halfSuits (t half : Nat) : Bool :=
  if 0x10 ≤ t ∧ t ≤ 0x13 then half == 0
  else if 0x14 ≤ t ∧ t ≤ 0x17 then half == 1
  else if t = 0x20 then half == 0
  else if t = 0x21 then half == 1
  else if t = 0x40 ∨ t = 0x41 then half == 0 || half == 1
  else if t = 0xA0 ∨ t = 0xA1 then half == 0
  else half == 0xFF

/-- The asset area of a half holds the payload, which begins on a 256-byte boundary. -/
def placeSuits (half place len : Nat) : Bool :=
  place % 256 == 0 && decide (storeAddr (halfOf half) 0x70000000 ≤ place ∧ place + len ≤ storeAddr (halfOf half) 0x7F000000)

/-- Limits of R84 on the number of records, in an image of these ROLES: a port plan holds 16 link records and 48 port records (R97), a
slot plan one plan, or two for a gateway. -/
def countSuits (s : Section) (roles : Nat) : Bool :=
  if s.type = 0x20 ∨ s.type = 0x21 then decide (1 ≤ s.count ∧ s.count ≤ 8192)
  else if s.type = 0x30 then decide (s.count ≤ 256)
  else if s.type = 0x60 then decide (s.count ≤ 128)
  else if s.type = 0x70 then decide (s.count ≤ 64)
  else if s.type = 0x71 then decide (s.count ≤ if bitAt roles 3 then 2 else 1)
  else if s.type = 0xA0 ∨ s.type = 0xC0 then decide (s.count ≤ 1)
  else if s.type = 0x80 then decide (s.count ≤ 96)
  else if s.type = 0x90 then decide (s.count ≤ 64)
  else if 0x10 ≤ s.type ∧ s.type ≤ 0x17 then decide (s.payload.length ≤ 32 + 131072)
  else true

/-- Ranges of placed sections that overlap. -/
def overlaps (a b : Nat × Nat) : Bool := decide (a.1 < b.1 + b.2) && decide (b.1 < a.1 + a.2)

/-- Checks 1 to 3 of R86 for a section of the catalogue against its manifest entry and the ranges placed before. -/
def sectionFail (s : Section) (e : ManEntry) (roles : Nat) (placed : List (Nat × Nat)) : Option Nat :=
  let asset := s.type == 0x40 || s.type == 0x41
  if !(s.type == e.type && s.len == e.len && s.crc == e.crc && s.consistent) then some ldSectionFormat
  else if !s.crcOk then some ldSectionCrc
  else if bitAt s.type 15 then none
  else if !(s.recSize == sectionRecSize s.type && halfSuits s.type s.half && countSuits s roles) then some ldSectionFormat
  else if asset then
    if placeSuits s.half s.place s.payload.length && placed.all (fun r => !overlaps r (s.place, s.payload.length)) then none
    else some ldSectionFormat
  else if s.place = 0 then none else some ldSectionFormat

/-! ## Programs, rules, time (R354, R346, R327) -/

/-- An engine program: BEATLIMIT, ENTRY and the bytes to load. -/
def programOf (s : Section) : Option (Nat × Nat × List Byte) :=
  let p := s.payload
  let entry := leAt p 4 4
  let len := leAt p 8 4
  let beat := byteAt p 2
  whenOk (s.count == 1 && leAt p 0 2 == 1 && (beat == 0 || decide (10 ≤ beat)) && byteAt p 3 == 0 && entry % 2 == 0
      && decide (entry < len) && decide (4 ≤ len ∧ len ≤ 131072) && zeroAt p 12 20 && p.length == 32 + len)
    (if beat = 0 then 100 else beat, entry, p.drop 32)

/-- An access-rule record (R346): half, number, base page, pages, read mask, write mask. -/
structure RuleRec where
  half  : Nat
  num   : Nat
  base  : Nat
  pages : Nat
  rmask : Nat
  wmask : Nat
  deriving DecidableEq, Repr

/-- A record keeps the table of R346. -/
def RuleRec.fits (r : RuleRec) : Bool :=
  decide (r.half ≤ 1) && decide (r.num ≤ 63) && decide (r.base < 2 ^ 28) && decide (1 ≤ r.pages ∧ r.pages ≤ 2 ^ 28 - r.base)
    && decide (r.rmask < 2 ^ 20) && decide (r.wmask < 2 ^ 20)

/-- Two records of one half share a number or a page. -/
def RuleRec.clash (a b : RuleRec) : Bool :=
  a.half == b.half && (a.num == b.num || overlaps (a.base, a.pages) (b.base, b.pages))

/-- No two records clash. -/
def rulesApart : List RuleRec → Bool
  | [] => true
  | r :: rest => (rest.all fun x => !r.clash x) && rulesApart rest

/-- The access rules; none is RULE_OVERLAP (check 4 of R86). -/
def rulesOf (s : Section) : Option (List RuleRec) :=
  let recs := recordsOf 24 s.count s.payload
  let rs := recs.map fun p => RuleRec.mk (byteAt p 0) (byteAt p 1) (leAt p 4 4) (leAt p 8 4) (leAt p 12 4) (leAt p 16 4)
  whenOk (decide (1 ≤ s.count) && recs.all (fun p => zeroAt p 2 2 && zeroAt p 20 4) && rs.all RuleRec.fits && rulesApart rs
    && decide ((rs.filter fun r => r.half == 0).length ≤ 64) && decide ((rs.filter fun r => r.half == 1).length ≤ 64)) rs

/-- `v`, or `d` where it is 0. -/
def orElse (v d : Nat) : Nat := if v = 0 then d else v

/-- A field that is 0 or lies in a range. -/
def zeroOr (v lo hi : Nat) : Bool := v == 0 || decide (lo ≤ v ∧ v ≤ hi)

/-- The time configuration with its defaults applied (R327), for the addresses of the manifest. -/
def timeConfOf (s : Section) (man : Manifest) : Option TimeConf :=
  let p := s.payload
  let role := byteAt p 2
  let flags := byteAt p 3
  let own (a : Nat) : Bool := a != 0xFFFF && (a == man.addr0 || a == man.addr1)
  let ring (r : Nat) : Bool := r == 0xFF || (bitAt man.roles 3 && (r == man.addr0 / 128 % 128 || r == man.addr1 / 128 % 128))
  whenOk (s.count == 1 && leAt p 0 2 == 1 && decide (role < 4) && decide (flags < 8) && (!bitAt flags 2 || bitAt role 1)
      && ring (byteAt p 8) && ring (byteAt p 9) && zeroOr (leAt p 10 2) 5 1000 && zeroOr (leAt p 12 4) 100 1000000
      && zeroOr (leAt p 28 4) 1 3600000 && zeroAt p 32 32 && (!bitAt role 0 || own (leAt p 4 2)) && (!bitAt role 1 || own (leAt p 6 2)))
    { gmA := bitAt role 0, gmB := bitAt role 1, preferB := bitAt flags 0, revert := bitAt flags 1, follow := bitAt flags 2
      gmAddrA := leAt p 4 2, gmAddrB := leAt p 6 2, upRingA := byteAt p 8, upRingB := byteAt p 9
      timeout := orElse (leAt p 10 2) 20, peerErr := orElse (leAt p 12 4) 2000, asym := orElse (leAt p 16 2) 20
      servoErr := orElse (leAt p 18 2) 32, holdRate := orElse (leAt p 20 4) 1000, gmErr := leAt p 24 4
      expiry := orElse (leAt p 28 4) 1000 }

/-! ## Ports and rings (R97, R290, R291) -/

/-- The port plan: link records and port records, ports counted device-wide; none where the layout is broken. -/
def portPlanOf (s : Section) : Option (List LinkRec × List PortRec) :=
  let p := s.payload
  let n := byteAt p 2
  let ls := recordsOf 8 16 (p.drop 32)
  let ps := recordsOf 12 48 (p.drop 160)
  let links := ls.map fun r => LinkRec.mk (byteAt r 0) (byteAt r 1) (byteAt r 2) (byteAt r 3) (byteAt r 4)
  let ports := ps.map fun r => PortRec.mk (byteAt r 1) (byteAt r 2) (byteAt r 3) (byteAt r 4) (byteAt r 5) (byteAt r 6) (byteAt r 7) (byteAt r 8)
  whenOk (p.length == 736 && s.count == 64 && leAt p 0 2 == 1 && decide (n ≤ 16) && zeroAt p 3 29
      && ls.all (fun r => zeroAt r 5 3) && ps.all (fun r => zeroAt r 9 3)
      && (List.range 48).all (fun k => byteAt (ps.getD k []) 0 == k)
      && (List.range 16).all (fun k => (byteAt (ls.getD k []) 0 == 0) == decide (n ≤ k))
      && (links.take n).all (fun l => decide (l.kind ≤ 6) && decide (1 ≤ l.lanes ∧ l.lanes ≤ 4) && decide (1 ≤ l.rate ∧ l.rate ≤ 4)
        && decide (1 ≤ l.minLanes ∧ l.minLanes ≤ l.lanes))
      && ports.all (fun r => decide (r.role ≤ 4) && decide (r.swing < 8) && decide (r.pre < 8) && decide (r.post < 16)
        && (r.ctle == 0xFF || decide (r.ctle < 16)) && decide (r.dfe ≤ 1) && (r.role == 3 || r.link == 0xFF)
        && (if r.role = 2 then decide (1 ≤ r.rate ∧ r.rate < 16)
            else if r.role = 1 ∨ r.role = 4 then decide (1 ≤ r.rate ∧ r.rate ≤ 4) else true))) (links, ports)

/-- A stream record (R291); none where it breaks the table. -/
def streamOf (p : List Byte) : Option StreamRec :=
  let flags := byteAt p 3
  let first := leAt p 6 2
  let count := leAt p 8 2
  whenOk (decide (leAt p 0 2 < 4096) && decide (flags < 8) && decide (byteAt p 4 ≤ 3) && byteAt p 5 == 0 && zeroAt p 10 2
      && decide (1 ≤ first) && decide (1 ≤ count) && decide (first + count ≤ 3932))
    { source := leAt p 0 2, publisher := byteAt p 2, westward := bitAt flags 0, sublink := bit (bitAt flags 1), forward := bitAt flags 2
      lane := byteAt p 4, first := first, count := count, cells := leAt p 12 4, subs := leAt p 16 16 }

/-- A gateway record (R291). -/
def gatewayOf (p : List Byte) : GatewayRec := { station := byteAt p 0, other := byteAt p 1, reach := leAt p 4 16 }

/-- Bytes of a plan block (R290). -/
def blockLen (p : List Byte) : Nat := 0x90 + 32 * leAt p 6 2 + 20 * byteAt p 8

/-- A plan block (R290). -/
def ringPlanOf (p : List Byte) : Option RingPlan :=
  let n := byteAt p 3
  let k := leAt p 6 2
  let g := byteAt p 8
  let order := ((p.drop 0x10).take n).map fun b => b.toNat
  let rest := (p.drop (0x10 + n)).take (128 - n)
  let ss := (recordsOf 32 k (p.drop 0x90)).map streamOf
  let gs := recordsOf 20 g (p.drop (0x90 + 32 * k))
  let streams := ss.filterMap fun x => x
  whenOk (decide (p.length = blockLen p) && decide (leAt p 0 2 ≤ 127) && decide (1 ≤ byteAt p 2 ∧ byteAt p 2 ≤ 4) && decide (1 ≤ n ∧ n ≤ 128)
      && decide (k ≤ 4096) && decide (g ≤ 127) && zeroAt p 9 7 && order.all (fun s => decide (s ≤ 127)) && noTwice order
      && rest.all (fun b => b == 0xFF) && order.contains (byteAt p 4) && ss.all Option.isSome && gs.all (fun r => zeroAt r 2 2)
      && streams.all (fun s => order.contains s.publisher))
    { ring := leAt p 0 2, rate := byteAt p 2, order := order, head := byteAt p 4, root := byteAt p 5, streams := streams
      gateways := gs.map gatewayOf, crc := crcOf p }

/-- The plan blocks of the ring slot plan (R290). -/
def ringPlansOf (s : Section) : Option (List RingPlan) :=
  let p := s.payload
  let n := byteAt p 2
  let b0 := p.drop 32
  let l0 := blockLen b0
  let b1 := b0.drop l0
  if leAt p 0 2 = 1 ∧ zeroAt p 3 29 ∧ s.count = n then
    if n = 1 ∧ b0.length = l0 then (ringPlanOf b0).map fun x => [x]
    else if n = 2 then
      match ringPlanOf (b0.take l0), ringPlanOf b1 with
      | some x, some y => some [x, y]
      | _, _ => none
    else none
  else none

/-! ## Sources (R143) -/

/-- A directory record. -/
def sourceOf (p : List Byte) : SourceRec :=
  { ident := leAt p 0 2, kind := byteAt p 2, half := byteAt p 3, port := byteAt p 4, flags := byteAt p 5, format := byteAt p 6
    freezew := byteAt p 7, width := leAt p 8 2, height := leAt p 10 2, rate := leAt p 12 4, uplat := leAt p 16 4, parent := leAt p 20 2
    factor := byteAt p 22, nosign := orElse (byteAt p 23) 4, slotbase := leAt p 24 4 }

/-- A record keeps the table of R143. -/
def SourceRec.fits (r : SourceRec) : Bool :=
  decide (1 ≤ r.ident ∧ r.ident ≤ 0xFFE) && decide (1 ≤ r.kind ∧ r.kind ≤ 4) && decide (r.half ≤ 1) && decide (r.flags < 4)
    && decide (r.format ≤ 2) && (decide (r.kind ≤ 2) || r.port == 0xFF) && (if r.kind = 1 then decide (r.uplat ≤ 1000000) else r.uplat == 0)
    && (if r.kind = 4 then r.factor == 2 || r.factor == 4 || r.factor == 8 else r.factor == 1 && r.parent == 0)
    && (r.held || r.slotbase == 0)

/-- The source directory; none where a record breaks the table or an identity occurs twice (check 5 of R86). -/
def sourcesOf (s : Section) : Option (List SourceRec) :=
  let recs := recordsOf 32 s.count s.payload
  let rs := recs.map sourceOf
  whenOk (recs.all (fun p => zeroAt p 28 4) && rs.all SourceRec.fits && noTwice (rs.map fun r => r.ident)) rs

/-! ## Scenes (R182, R183) -/

/-- A layer record; the alpha of a layer that is not used is its own. -/
def layerOf (p : List Byte) : LayerRec :=
  { source := leAt p 0 2, flags := byteAt p 2, matrix := byteAt p 3, dx := leAt p 4 2, dy := leAt p 6 2, dw := leAt p 8 2, dh := leAt p 10 2
    sx := leAt p 12 2, sy := leAt p 14 2, sw := leAt p 16 2, sh := leAt p 18 2, hset := byteAt p 20, vset := byteAt p 21
    budget := leAt p 22 2, warn := byteAt p 24, lalpha := byteAt p 25 }

/-- A layer record keeps the table of R183; a class V graphic layer has PREMUL clear (R219). -/
def layerFits (k : Nat) (p : List Byte) : Bool :=
  let flags := byteAt p 2
  if !bitAt flags 0 then zeroAt p 0 28
  else decide (flags < 8) && zeroAt p 26 2
    && (if k < 8 then !bitAt flags 1 && decide (leAt p 0 2 < 4096) && decide (leAt p 22 2 ≤ 10000) && decide (byteAt p 24 ≤ 99)
        else byteAt p 3 == 0 && zeroAt p 16 9 && !(bitAt flags 1 && bitAt flags 2))

/-- One half of a scene record. -/
def sceneHalfOf (p : List Byte) (k : Nat) : SceneHalf :=
  { bandFirst := leAt p (8 + 8 * k) 2, bandCount := leAt p (10 + 8 * k) 2, aloneFirst := leAt p (12 + 8 * k) 2
    aloneCount := leAt p (14 + 8 * k) 2, bandRegions := leAt p (0x18 + 2 * k) 2, aloneRegions := leAt p (0x1C + 2 * k) 2 }

/-- A scene record. -/
def sceneOf (p : List Byte) : Scene :=
  { valid := bitAt (byteAt p 1) 0, background := leAt p 4 4, h0 := sceneHalfOf p 0, h1 := sceneHalfOf p 1
    layers := (recordsOf 28 16 (p.drop 32)).map layerOf }

/-- A scene record keeps the tables of R182 and R183. -/
def sceneFits (k : Nat) (p : List Byte) : Bool :=
  let regs := (List.range 4).map fun i => leAt p (0x18 + 2 * i) 2
  let ls := recordsOf 28 16 (p.drop 32)
  byteAt p 0 == k && decide (byteAt p 1 < 2) && zeroAt p 2 2 && decide (leAt p 4 4 < 2 ^ 30)
    && (byteAt p 1 == 0 || regs.all fun n => decide (1 ≤ n ∧ n ≤ 1024))
    && (List.range 16).all fun i => layerFits i (ls.getD i [])

/-- The scene table: scenes and the default (R182). -/
def scenesOf (s : Section) : Option (List Scene × Nat) :=
  let p := s.payload
  let n := leAt p 2 2
  let recs := recordsOf 480 n (p.drop 32)
  whenOk (leAt p 0 2 == 1 && decide (1 ≤ n ∧ n ≤ 256) && s.count == n && p.length == 32 + 480 * n && zeroAt p 5 27
    && (List.range n).all fun k => sceneFits k (recs.getD k [])) (recs.map sceneOf, byteAt p 4)

/-! ## Coefficients (R202) -/

/-- The coefficient section: sets, matrices, and the reduced-tap sets of V0 to V7. -/
def coefOf (s : Section) : Option (List (List Byte) × List (List Byte) × List Nat) :=
  let p := s.payload
  let n := byteAt p 2
  let k := byteAt p 3
  let sets := recordsOf 1048 n (p.drop 32)
  let mats := recordsOf 32 k (p.drop (32 + 1048 * n))
  let red := (List.range 8).map fun i => byteAt p (4 + i)
  let vertical (x : Nat) : Bool := sets.any fun r => byteAt r 0 == x && byteAt r 1 == 1
  whenOk (leAt p 0 2 == 1 && decide (1 ≤ n ∧ n ≤ 64) && decide (k ≤ 8) && s.count == n + k && p.length == 32 + 1048 * n + 32 * k
      && noTwice (sets.map fun r => byteAt r 0) && noTwice (mats.map fun r => byteAt r 0)
      && sets.all (fun r => decide (byteAt r 0 < 64) && (if byteAt r 1 = 0 then byteAt r 2 == 8
          else byteAt r 1 == 1 && decide (1 ≤ byteAt r 2 ∧ byteAt r 2 ≤ 6)))
      && mats.all (fun r => decide (byteAt r 0 < 8)) && red.all (fun x => x == 0xFF || vertical x)) (sets, mats, red)

/-- A coefficient of a set record. -/
def setCoef (r : List Byte) (phase tap : Nat) : Int := signed 16 (leAt r (0x18 + 16 * phase + 2 * tap) 2)

/-- Check 7 of R86 rejects a set (R203). -/
def setRejected (r : List Byte) : Bool :=
  let taps := byteAt r 2
  (List.range 64).any fun p =>
    let cs := (List.range 8).map fun k => setCoef r p k
    cs.any (fun c => decide (c < -2048) || decide (2047 < c)) || decide (cs.foldl (fun a c => a + c) 0 ≠ 1024)
      || (cs.drop taps).any fun c => decide (c ≠ 0)

/-- A matrix record with an offset outside its range is rejected (R203). -/
def matrixRejected (r : List Byte) : Bool := (List.range 3).any fun k =>
  decide (1023 < leAt r (0x14 + 2 * k) 2) || decide (signed 16 (leAt r (0x1A + 2 * k) 2) < -1023)
    || decide (1023 < signed 16 (leAt r (0x1A + 2 * k) 2))

/-! ## Graphics (R209, R210) -/

/-- Bytes of a tile of a graphic format (R208). -/
def graphicTileBytes (format : Nat) : Nat := if format = 0 then 1024 else if format = 1 then 256 else 128

/-- An image record. -/
def imageOf (half place : Nat) (p : List Byte) : GImage :=
  { number := leAt p 0 2, half := half, format := byteAt p 2, palette := byteAt p 3, tw := leAt p 4 2, th := leAt p 6 2
    addr := place + leAt p 8 4 }

/-- The graphic assets: images and state sets; none where the section breaks R209 by itself. -/
def assetsOf (s : Section) : Option (List GImage × List GSet) :=
  let p := s.payload
  let ni := leAt p 2 2
  let ns := leAt p 4 2
  let nk := leAt p 6 2
  let irs := recordsOf 16 ni (p.drop 32)
  let srs := recordsOf 4 ns (p.drop (32 + 16 * ni))
  let krs := recordsOf 8 nk (p.drop (32 + 16 * ni + 4 * ns))
  let images := irs.map (imageOf s.half s.place)
  let states := srs.map fun r => leAt r 0 2
  let sets := krs.map fun r => GSet.mk (byteAt r 0) ((states.drop (leAt r 2 2)).take (byteAt r 1)) (byteAt r 4)
  let look (n : Nat) : Option GImage := images.find? fun g => g.number == n
  let alike (l : List Nat) : Bool := match l with
    | [] => false
    | x :: _ => l.all fun y => match look x, look y with
      | some a, some b => a.format == b.format && a.tw == b.tw && a.th == b.th
      | _, _ => false
  whenOk (leAt p 0 2 == 1 && decide (1 ≤ ni ∧ ni ≤ 1024) && decide (1 ≤ ns ∧ ns ≤ 4096) && decide (1 ≤ nk ∧ nk ≤ 256)
      && s.count == ni + ns + nk && zeroAt p 8 24
      && irs.all (fun r => decide (leAt r 0 2 ≤ 1023) && decide (byteAt r 2 ≤ 2) && (byteAt r 2 != 0 || byteAt r 3 == 0xFF)
          && decide (1 ≤ leAt r 4 2 ∧ leAt r 4 2 ≤ 480) && decide (1 ≤ leAt r 6 2 ∧ leAt r 6 2 ≤ 270) && leAt r 8 4 % 32 == 0 && zeroAt r 12 4
          && decide (leAt r 8 4 + graphicTileBytes (byteAt r 2) * leAt r 4 2 * leAt r 6 2 ≤ p.length))
      && srs.all (fun r => zeroAt r 2 2 && (look (leAt r 0 2)).isSome)
      && krs.all (fun r => decide (1 ≤ byteAt r 1 ∧ byteAt r 1 ≤ 64) && decide (leAt r 2 2 + byteAt r 1 ≤ ns) && decide (byteAt r 4 < byteAt r 1)
          && zeroAt r 5 3)
      && sets.all (fun k => alike k.images) && noTwice (images.map fun g => g.number) && noTwice (sets.map fun k => k.number))
    (images, sets)

/-- Palette records one after another, from offset `k` of the payload; none where one breaks R210 or the bytes do not end with the
last. -/
def palettesFrom (s : Section) : Nat → Nat → Option (List GPalette)
  | 0, k => whenOk (k == s.payload.length) []
  | n + 1, k =>
    let h := sliceBytes s.payload k 16
    let e := leAt h 2 2
    let es := recordsOf 8 e (s.payload.drop (k + 16))
    let ok := decide (k + 16 + 8 * e ≤ s.payload.length) && decide (byteAt h 0 ≤ 254) && byteAt h 1 == 0 && decide (1 ≤ e ∧ e ≤ 256)
      && zeroAt h 4 12 && es.all fun r => decide (leAt r 0 4 < 2 ^ 30) && zeroAt r 5 3
    if ok then (palettesFrom s n (k + 16 + 8 * e)).map fun l => GPalette.mk (byteAt h 0) s.half e (s.place + k + 16) :: l else none

/-- The palettes section (R210). -/
def palettesOf (s : Section) : Option (List GPalette) :=
  let p := s.payload
  let n := byteAt p 2
  if leAt p 0 2 = 1 ∧ 1 ≤ n ∧ s.count = n ∧ zeroAt p 3 29 then
    (palettesFrom s n 32).bind fun l => whenOk (noTwice (l.map fun x => x.number)) l
  else none

/-! ## Watch rectangles and panel (R225, R257) -/

/-- A watch rectangle record. -/
def watchOf (p : List Byte) : WatchRec :=
  { number := byteAt p 0, flags := byteAt p 1, variants := byteAt p 2, condmask := byteAt p 3, x := leAt p 4 2, y := leAt p 6 2
    w := leAt p 8 2, h := leAt p 10 2, expect := leAt p 12 4, scenes := leAt p 16 32
    cond := (List.range 8).map fun g => (byteAt p (0x30 + 2 * g), byteAt p (0x31 + 2 * g)) }

/-- The watch rectangle set (R225). -/
def watchSetOf (s : Section) : Option (List WatchRec) :=
  let p := s.payload
  let n := byteAt p 2
  let ws := (recordsOf 64 n (p.drop 32)).map watchOf
  whenOk (leAt p 0 2 == 1 && decide (1 ≤ n ∧ n ≤ 64) && s.count == n && p.length == 32 + 64 * n && zeroAt p 3 29
    && ws.all (fun w => decide (w.number ≤ 63) && decide (w.flags < 4) && decide (w.variants < 8) && decide (1 ≤ w.w ∧ 1 ≤ w.h))
    && noTwice (ws.map fun w => w.number)) ws

/-- The panel initialisation set with its emblem tiles (R257). -/
def panelSetOf (s : Section) (man : Manifest) : Option (PanelSet × List (List Byte)) :=
  let p := s.payload
  let n := byteAt p 2
  let ka := orElse (byteAt p 3) 5
  let si := orElse (leAt p 4 2) 250
  let x := leAt p 0x1C 2
  let y := leAt p 0x1E 2
  let w := leAt p 0x20 2
  let h := leAt p 0x22 2
  whenOk (leAt p 0 2 == 1 && decide (1 ≤ n ∧ n ≤ 16) && decide (ka ≤ 20) && decide (20 ≤ si ∧ si ≤ 2000) && decide (4 * ka ≤ si)
      && zeroAt p 6 2 && decide (leAt p 0x18 4 < 2 ^ 30) && zeroAt p 0x24 28 && s.count == 1 + w * h && p.length == 64 + 960 * w * h
      && (w * h == 0 || decide (x + w ≤ man.width ∧ y + h ≤ man.height)))
    ({ prefer := (List.range n).map fun i => byteAt p (8 + i), kaperiod := ka, silence := si, shutcol := leAt p 0x18 4
       etx0 := x, ety0 := y, etw := w, eth := h }, recordsOf 960 (w * h) (p.drop 64))

/-! ## Touch (R390 to R392) -/

/-- The touch configuration; none where it breaks R390 or R391. -/
def touchConfOf (s : Section) : Option TouchConf :=
  let p := s.payload
  let mode := byteAt p 2
  let rows := byteAt p 3
  let cols := byteAt p 4
  let sn := byteAt p 5
  let rate := byteAt p 6
  let touchTh := leAt p 8 2
  let selfs := (recordsOf 4 32 (p.drop 0x40))
  let used := selfs.take sn
  let pins := used.map fun r => byteAt r 0
  let matrix (x : Nat) : Bool := decide (x < rows) || decide (40 ≤ x ∧ x < 40 + cols)
  let time := 8 * ceilDiv rows 8 * 100 + ((if sn = 0 then 0 else 1) + (if mode = 2 then 2 else 0)) * 50
  whenOk (s.count == 1 && leAt p 0 2 == 1 && decide (mode ≤ 2)
      && (if mode = 0 then rows == 0 && cols == 0 && decide (1 ≤ sn) else decide (2 ≤ rows ∧ rows ≤ 40) && decide (2 ≤ cols ∧ cols ≤ 72))
      && decide (sn ≤ 32) && decide (30 ≤ rate ∧ rate ≤ 240) && decide (byteAt p 7 < 8) && decide (1 ≤ touchTh ∧ touchTh ≤ 32767)
      && decide (1 ≤ leAt p 10 2 ∧ leAt p 10 2 ≤ touchTh) && decide (1 ≤ leAt p 0x1E 2 ∧ leAt p 0x1E 2 ≤ 1000) && zeroAt p 0x20 32
      && used.all (fun r => decide (byteAt r 0 ≤ 111) && byteAt r 1 == 0 && !matrix (byteAt r 0)) && noTwice pins
      && (selfs.drop sn).all (fun r => byteAt r 0 == 0xFF && byteAt r 1 == 0)
      && (mode != 1 || decide (rows * cols < 1024)) && (mode != 2 || decide (1024 ≤ rows * cols))
      && decide (time * rate ≤ 1000000))
    { mode := mode, rows := rows, cols := cols, rate := rate, flags := byteAt p 7, touchTh := touchTh, relTh := leAt p 10 2
      selfTh := leAt p 12 2, waterTh := leAt p 14 2, startTh := leAt p 16 2, hold := leAt p 18 2, xorg := leAt p 0x14 2
      yorg := leAt p 0x16 2, xpitch := leAt p 0x18 2, ypitch := leAt p 0x1A 2, maxArea := byteAt p 0x1C, track := byteAt p 0x1D
      drift := leAt p 0x1E 2, self := used.map fun r => (byteAt r 0, leAt r 2 2) }

/-- The touch reference map: ROWS, COLS, SELFN and the counts (R392). -/
def touchMapOf (s : Section) : Option (Nat × Nat × Nat × List Int) :=
  let p := s.payload
  let rows := byteAt p 2
  let cols := byteAt p 3
  let sn := byteAt p 4
  let n := rows * cols + sn
  whenOk (leAt p 0 2 == 1 && zeroAt p 5 27 && s.count == n && decide (32 + 2 * n ≤ p.length))
    (rows, cols, sn, (recordsOf 2 n (p.drop 32)).map fun r => signed 16 (leAt r 0 2))

/-- The map fits the configuration (check 8 of R86). -/
def mapFits (c : TouchConf) (m : Nat × Nat × Nat × List Int) : Bool :=
  m.1 == c.rows && m.2.1 == c.cols && m.2.2.1 == c.self.length

/-! ## Route book (R175, R176, R178) -/

/-- A route book record keeps KIND and the reserved bits of R175, R176 and R178. -/
def entryFits (p : List Byte) : Bool := match byteAt p 0 with
  | 0 => true
  | 1 => decide (byteAt p 1 < 4) && decide (leAt p 2 2 ≤ 1023) && decide (leAt p 4 2 ≤ 479) && decide (leAt p 6 2 ≤ 269)
      && decide (1 ≤ leAt p 8 2 ∧ leAt p 8 2 ≤ 480) && decide (1 ≤ leAt p 10 2 ∧ leAt p 10 2 ≤ 270)
  | 2 => decide (byteAt p 1 ≤ 2) && decide (byteAt p 2 ≤ 15) && decide (byteAt p 3 < 4) && zeroAt p 14 2 && zeroAt p 24 8
  | _ => false

/-- The route book records of a half. -/
def bookOf (s : Section) : Option (List (List Byte)) :=
  let recs := recordsOf 32 s.count s.payload
  whenOk (recs.all entryFits) recs

end Sys2Proof.Machine
end

