-- ==== Sys2Proof/Machine/Checks.lean ====
section
/-!
DEFINITION. The checks of step 4 that compare sections with one another (R86 checks 5 to 11 with R98, R144, R172, R181, R184, R201,
R203, R207, R209, R211, R226, R292 and R293), on halves in which the sections have been placed.
-/
namespace Sys2Proof.Machine

/-! ## The source directory (R144) -/

/-- The bit of an SDI rate mask that a picture format needs (R146), 0 where no standard carries it. -/
def sdiMaskBit (w h rate : Nat) : Nat :=
  let slow := rate == 23976 || rate == 24000 || rate == 25000 || rate == 29970 || rate == 30000
  let fast := rate == 50000 || rate == 59940 || rate == 60000
  if w = 1280 ∧ h = 720 then (if fast then 1 else 0)
  else if w = 1920 ∧ h = 1080 then (if slow then 1 else if fast then 2 else 0)
  else if w = 3840 ∧ h = 2160 then (if slow then 4 else if fast then 8 else 0)
  else 0

/-- A proxy has the geometry of R166. -/
def proxyFits (r p : SourceRec) : Bool :=
  let w := ceilDiv p.width r.factor
  p.ident == r.parent && (p.kind == 1 || p.kind == 2) && p.half == r.half && r.format == p.format && r.rate == p.rate
    && r.width == (if r.format = 0 then w + w % 2 else w) && r.height == ceilDiv p.height r.factor

/-- A directory record against the port plan and the other records (R144). -/
def LoadSt.sourceFits (l : LoadSt) (r : SourceRec) : Bool :=
  let srcs := l.img.sources
  let ringImage := bitAt l.img.man.roles 1 || bitAt l.img.man.roles 3
  let port := l.ports.getD r.port PortRec.off
  let kindOk := match r.kind with
    | 1 => decide (r.port < 48) && r.port / 24 == r.half && port.role == 2 && r.format == 0
        && decide (sdiMaskBit r.width r.height r.rate &&& port.rate ≠ 0)
    | 2 => l.links.any fun k => k.kind == 6 && k.first == r.port && k.first / 24 == r.half
    | 3 => ringImage && !r.publish
    | _ => ringImage && r.publish && !r.held && srcs.any (proxyFits r)
  let needed := r.held || r.publish || (r.kind == 3 && l.rings.any fun p => p.streams.any fun s =>
    s.forward && s.source == r.ident && s.sublink == r.half)
  kindOk && needed && decide (16 ≤ r.width ∧ r.width ≤ 7680) && (r.format != 0 || r.width % 2 == 0)
    && decide (16 ≤ r.height ∧ r.height ≤ 4320) && decide (1000 ≤ r.rate ∧ r.rate ≤ 144000)
    && (!r.held || decide (r.slotbase * 1024 + 3 * r.tiles * 1024 ≤ 0x70000000))

/-- The slots of a held record. -/
def SourceRec.slotRange (r : SourceRec) : Nat × Nat := (r.slotbase * 1024, 3 * r.tiles * 1024)

/-- The slots of no two records of a half overlap. -/
def slotsApart : List SourceRec → Bool
  | [] => true
  | r :: rest => (rest.all fun x => x.half != r.half || !overlaps x.slotRange r.slotRange) && slotsApart rest

/-- Check 5 of R86 for the directory with R144. -/
def LoadSt.directoryFits (l : LoadSt) : Bool :=
  let srcs := l.img.sources
  let held := srcs.filter SourceRec.held
  let of (h : Nat) (rs : List SourceRec) : List SourceRec := rs.filter fun r => r.half == h
  let bits : Nat := held.foldl (fun a r => a + r.tiles * r.tileBytes * 8 * r.rate) 0
  srcs.all l.sourceFits && slotsApart held && decide (bits ≤ 400000000000000) && decide (held.length ≤ 64)
    && [0, 1].all fun h => decide ((of h held).length ≤ 32) && decide ((of h srcs).length ≤ 48)
        && decide (((of h srcs).filter fun r => r.kind == 4).length ≤ 2)
        && decide ((of h held).foldl (fun a r => a + 3 * r.tiles * 1024) 0 ≤ 0x70000000)

/-! ## The port plan (R94, R98) -/

/-- Ports of a half that a KIND of link may take: first and last, and whether the link must start at the first. -/
def kindPorts (kind : Nat) : Nat × Nat × Bool := match kind with
  | 1 => (12, 15, true)
  | 2 => (16, 19, true)
  | 3 => (20, 23, true)
  | 4 => (4, 7, true)
  | 5 => (8, 11, true)
  | _ => (0, 11, false)

/-- A link record against R98. -/
def LoadSt.linkFits (l : LoadSt) (k : Nat) (r : LinkRec) : Bool :=
  let g := kindPorts r.kind
  let p := r.first % 24
  r.kind == 0 || (decide (r.first + r.lanes ≤ 48) && decide (g.1 ≤ p) && decide (p + r.lanes ≤ g.2.1 + 1) && (!g.2.2 || p == g.1)
    && (List.range r.lanes).all fun i =>
      let q := l.ports.getD (r.first + i) PortRec.off
      q.role == 3 && q.link == k && q.rate == r.rate)

/-- A port record against R94 and R98. DEDUCED (log entry 135; unsafe): in a gateway ports 4 to 11 carry the lanes of its second ring
and nothing else, so NATIVE and SDI roles and links of KIND 6 are refused there. -/
def LoadSt.portFits (l : LoadSt) (gateway : Bool) (n : Nat) (q : PortRec) : Bool :=
  let p := n % 24
  let second := gateway && decide (4 ≤ p ∧ p ≤ 11)
  match q.role with
  | 1 => decide (p ≤ 11) && !second
  | 2 => decide (p ≤ 11) && !second
  | 3 =>
    let r := l.links.getD q.link ⟨0, 0, 0, 0, 0⟩
    decide (q.link < 16) && r.kind != 0 && decide (r.first ≤ n ∧ n < r.first + r.lanes) && (!second || r.kind == 4 || r.kind == 5)
  | _ => true

/-- R278: in the port plan of a ring station or gateway every ring link has LANES 4, MINLANES 4 and the RATE of its ring's plan. -/
def LoadSt.ringLinksFit (l : LoadSt) : Bool :=
  let roles := l.img.man.roles
  !(bitAt roles 1 || bitAt roles 3) || l.links.all fun r => !(decide (2 ≤ r.kind ∧ r.kind ≤ 5)) ||
    (r.lanes == 4 && r.minLanes == 4 && (l.rings[(r.kind - 2) / 2]?).all fun p => r.rate == p.rate)

/-- Check 6 of R86 for the port plan with R98. -/
def LoadSt.portsFit (l : LoadSt) : Bool :=
  let gateway := bitAt l.img.man.roles 3
  let kinds (h : Nat) : List Nat := (l.links.filter fun r => r.first / 24 == h && decide (1 ≤ r.kind ∧ r.kind ≤ 5)).map fun r => r.kind
  (List.range 16).all (fun k => l.linkFits k (l.links.getD k ⟨0, 0, 0, 0, 0⟩))
    && (List.range 48).all (fun n => l.portFits gateway n (l.ports.getD n PortRec.off))
    && l.ringLinksFit && noTwice (kinds 0) && noTwice (kinds 1) && (gateway || l.links.all fun r => r.kind != 4 && r.kind != 5)

/-! ## Ring slot plans (R292, R293) -/

/-- Consecutive elements of a list. -/
def consecutive : List Nat → List Nat
  | [] => []
  | [_] => []
  | x :: rest => x :: consecutive rest

/-- The segments that a record's cells use in a topology (R286): direction (true westward) and the station that sends. -/
def RingPlan.pathOf (p : RingPlan) (seen edge : Nat) (s : StreamRec) : List (Bool × Nat) :=
  let ps := if s.westward then (p.present seen).reverse else p.present seen
  match p.lines seen edge with
  | [] =>
    if ps.contains s.publisher then
      (s.publisher :: (turnAfter s.publisher ps).takeWhile fun y => y != p.head && y != s.publisher).map fun y => (s.westward, y)
    else []
  | ls =>
    let line := (ls.find? fun l => l.contains s.publisher).getD []
    let l := if s.westward then line.reverse else line
    (consecutive (l.drop (l.idxOf s.publisher))).map (fun y => (s.westward, y)) ++ (consecutive l.reverse).map fun y => (!s.westward, y)

/-- Two records share a row and a lane of a sub-link. -/
def StreamRec.meets (a b : StreamRec) : Bool :=
  a.sublink == b.sublink && a.lane == b.lane && overlaps (a.first, a.count) (b.first, b.count)

/-- The topologies of R293: present stations and broken segments. -/
def RingPlan.topologies (p : RingPlan) : List (Nat × Nat) :=
  let all := p.order.foldl (fun a s => setBitNat a s true) 0
  (all, 0) :: (setBitNat all p.head false, 0) :: p.order.map fun s => (all, 2 ^ s)

/-- Two records collide in a topology (R293). -/
def RingPlan.collide (p : RingPlan) (t : Nat × Nat) (a b : StreamRec) : Bool :=
  let pb := p.pathOf t.1 t.2 b
  (p.pathOf t.1 t.2 a).any fun x => pb.contains x

/-- No two records of a list collide in any topology. -/
def RingPlan.apart (p : RingPlan) : List StreamRec → Bool
  | [] => true
  | a :: rest => (rest.all fun b => !(a.meets b && p.topologies.any fun t => p.collide t a b)) && p.apart rest

/-- One plan block against the rules of R292 and R293. -/
def LoadSt.planFits (l : LoadSt) (k : Nat) (p : RingPlan) : Bool :=
  let man := l.img.man
  let addr := if k = 0 then man.addr0 else man.addr1
  let kinds := if k = 0 then [2, 3] else [4, 5]
  let me := addr % 128
  let other := l.rings.getD (1 - k) p
  let far := (if k = 0 then man.addr1 else man.addr0) % 128
  p.ring == addr / 128 % 128 && p.order.contains me
    && (l.links.all fun r => !kinds.contains r.kind || r.rate == p.rate)
    && (p.streams.all fun s => decide (s.cells * ringLapNs p.rate * 1001 ≤ s.count * secNs * 1000))
    && (p.streams.all fun s => !s.forward || ((p.gateways.any fun g => g.station == s.publisher)
        && (l.rings.length != 2 || s.publisher != me || other.streams.any fun x =>
              x.source == s.source && x.sublink == s.sublink && bitAt x.subs far)))
    && p.apart p.streams

/-- A directory record has its stream records (R292). -/
def LoadSt.streamsFit (l : LoadSt) (r : SourceRec) : Bool :=
  let plans := [(l.img.man.addr0, l.rings[0]?), (l.img.man.addr1, l.rings[1]?)]
  let has (f : Nat → StreamRec → Bool) : Bool := plans.any fun x => match x.2 with
    | none => false
    | some p => p.streams.any fun s => s.source == r.ident && s.sublink == r.half && f (x.1 % 128) s
  (!r.publish || has fun me s => s.publisher == me) && (r.kind != 3 || has fun me s => bitAt s.subs me)

/-- Check 6 of R86 for the slot plan under the role of the strap (R58). An image that is standalone only does not use one, and under a
standalone strap no image need carry one (R84). -/
def LoadSt.ringsFit (l : LoadSt) (role : Nat) : Bool :=
  let roles := l.img.man.roles
  if role = 1 ∧ l.rings = [] then true
  else if bitAt roles 1 || bitAt roles 3 then
    l.rings.length == (if bitAt roles 3 then 2 else 1) && (List.range l.rings.length).all (fun k => match l.rings[k]? with
      | some p => l.planFits k p
      | none => true) && l.img.sources.all l.streamsFit
  else true

/-! ## Scenes and layers (R184, R203, R207, R211) -/

/-- A matrix code suits a format (R207): codes 0 and 1 RGB, 2 to 7 component video, 0x80 to 0x87 a user matrix of the section. -/
def Half.matrixSuits (h : Half) (code format : Nat) : Bool :=
  if code ≤ 1 then format == 2 else if code ≤ 7 then format != 2
  else decide (0x80 ≤ code ∧ code ≤ 0x87) && h.flag (F.COEF_MDESC_PRESENT (code - 0x80))

/-- A set of a direction is in the section (R203). -/
def Half.setOf (h : Half) (n dir : Nat) : Bool := decide (n < 64) && h.flag (F.COEF_DESC_PRESENT n) && h.get (F.COEF_DESC_DIR n) == dir

/-- The scale ratio of an axis lies within 1/8 to 16 (R184). -/
def ratioFits (s d : Nat) : Bool := decide (1 ≤ s ∧ 1 ≤ d ∧ s ≤ 8 * d ∧ d ≤ 16 * s)

/-- A video layer record of a valid scene. -/
def Half.videoFits (h : Half) (im : ImageSt) (l : LayerRec) : Bool := match im.source l.source with
  | none => false
  | some r =>
    r.held && decide (l.dx + l.dw ≤ 16 * im.man.width ∧ l.dy + l.dh ≤ 16 * im.man.height)
      && decide (l.sx + l.sw ≤ r.width ∧ l.sy + l.sh ≤ r.height) && ratioFits l.sw l.dw && ratioFits l.sh l.dh
      && h.setOf l.hset 0 && h.setOf l.vset 1 && h.matrixSuits l.matrix r.format
      && (r.format != 0 || (l.sx % 2 == 0 && l.sw % 2 == 0))

/-- A graphic layer record of a valid scene (R211): every image of its set covers DEST. -/
def graphicDestFits (im : ImageSt) (l : LayerRec) : Bool := match im.gsets.find? fun s => s.number == l.source with
  | none => false
  | some s => s.images.all fun n => match im.images.find? fun g => g.number == n with
    | none => false
    | some g => decide (l.sx + l.dw ≤ 16 * g.tw ∧ l.sy + l.dh ≤ 16 * g.th)

/-- The layer records of a scene. -/
def Half.layersFit (h : Half) (im : ImageSt) (s : Scene) : Bool :=
  (List.range 16).all fun k =>
    let l := s.layer k
    !l.used || (if k < 8 then h.videoFits im l else graphicDestFits im l)

/-- Images of formats 1 and 2 name a palette of their own half (R209). -/
def palettesFit (im : ImageSt) : Bool := im.images.all fun g =>
  g.format == 0 || im.palettes.any fun p => p.number == g.palette && p.half == g.half

/-! ## Runs and contributions (R172, R177, R179, R181, R184, R201) -/

/-- The list words of a run. -/
def Half.runLists (h : Half) (i : Nat) : List Nat := [3, 4, 5, 6, 7].map fun k => h.entryWord i k

/-- A list word names contribution entries of the section (R177), OPAQUE only first (R179). -/
def Half.listFits (h : Half) (entries w : Nat) : Bool :=
  let es := listEntries w
  w == bitsAt w 0 13 + bitsAt w 16 5 * 2 ^ 16 && decide (bitsAt w 16 5 ≤ 16)
    && es.all (fun k => decide (k < entries) && bitsAt (h.entryWord k 0) 0 8 == 2)
    && (es.drop 1).all fun k => !(h.contrib k).opaqueC

/-- Source columns or lines that a window position needs (R197, R199): lowest and highest tile, over positions `a` to `b` with `lo`
samples before and `hi` after, in the window from `s` of `len`; `pairs` widens for chroma. -/
def needTiles (s len a b lo hi : Nat) (pairs : Bool) : Nat × Nat :=
  let first := max s (a - lo)
  let last := min (s + len - 1) (b + hi)
  let f1 := if pairs then max s (if first % 2 = 1 then first - 3 else first - 2) else first
  let l1 := if pairs then min (s + len - 1) (if last % 2 = 1 then last + 3 else last + 2) else last
  (f1 / 16, l1 / 16)

/-- A video contribution of a run against R201. -/
def Half.videoContribFits (h : Half) (im : ImageSt) (l : LayerRec) (c : Contrib) (r : RunWork) : Bool :=
  let x0 := 16 * r.tx0
  let y0 := 16 * r.ty0
  let x1 := max x0 l.dx
  let y1 := max y0 l.dy
  let x2 := min (x0 + 16 * r.tw) (l.dx + l.dw)
  let y2 := min (y0 + 16 * r.th) (l.dy + l.dh)
  let hstep := l.sw * 65536 / l.dw
  let vstep := l.sh * 65536 / l.dh
  let t := h.taps l.vset
  let fmt0 := ((im.source l.source).map fun s => s.format).getD 0 == 0
  let size := if fmt0 then 640 else 960
  let cols := needTiles l.sx l.sw (c.hstart / 65536) ((c.hstart + (x2 - 1 - x1) * hstep) / 65536) 3 4 fmt0
  let rows := needTiles l.sy l.sh (c.vstart / 65536) ((c.vstart + (y2 - 1 - y1) * vstep) / 65536) ((t - 1) / 2) (t / 2) false
  c.hstart == l.sx * 65536 + hstep / 2 + (x1 - l.dx) * hstep && c.vstart == l.sy * 65536 + vstep / 2 + (y1 - l.dy) * vstep
    && c.len == size && (!c.opaqueC || decide (l.dx ≤ x0 ∧ x0 + 16 * r.tw ≤ l.dx + l.dw ∧ l.dy ≤ y0 ∧ y0 + 16 * r.th ≤ l.dy + l.dh))
    && (decide (x2 ≤ x1 ∨ y2 ≤ y1) || decide (c.ftx0 ≤ cols.1 ∧ cols.2 < c.ftx0 + c.ftw ∧ c.fty0 ≤ rows.1 ∧ rows.2 < c.fty0 + c.fth))

/-- The half that holds what a contribution of a layer fetches. -/
def layerHolder (im : ImageSt) (c : Contrib) (l : LayerRec) : Option Nat :=
  if c.layer < 8 then (im.source l.source).map fun r => r.half
  else (im.gsets.find? fun s => s.number == l.source).bind fun s =>
    (s.images.head?).bind fun n => (im.images.find? fun g => g.number == n).map fun g => g.half

/-- A contribution of a run in a scene (R184, R201). -/
def Half.contribFits (h : Half) (im : ImageSt) (s : Scene) (r : RunWork) (alone : Bool) (c : Contrib) : Bool :=
  let l := s.layer c.layer
  if c.what = 0 then
    l.used && (layerHolder im c l == some (if c.cross then 1 - h.id.num else h.id.num)) && !(alone && c.cross)
      && (decide (8 ≤ c.layer) || h.videoContribFits im l c r)
  else decide (c.layer < 8) && !c.cross

/-- A list names a video layer. -/
def namesVideo (l : List Contrib) : Bool := l.any fun c => c.what == 0 && decide (c.layer < 8)

/-- Run entries of a half. -/
def Half.runEntries (h : Half) (im : ImageSt) : List Nat := (List.range im.entries).filter fun i => bitsAt (h.entryWord i 0) 0 8 == 1

/-- A run entry by itself, used by a scene or not (R176, R177, R179, R184): its list words, what its STALE, RSTALE and LATE lists
hold, and HASVIDEO; an alone run has no reduced lists. -/
def Half.entrySound (h : Half) (entries i : Nat) : Bool :=
  let e := h.entryWord i 0
  let list (k : Nat) : List Contrib := (listEntries (h.entryWord i k)).map h.contrib
  (h.runLists i).all (h.listFits entries) && (!bitAt e 8 || (h.entryWord i 6 == 0 && h.entryWord i 7 == 0))
    && !namesVideo (list 5) && !namesVideo (list 7) && (list 3).all (fun c => (list 4).contains c)
    && bitAt e 9 == namesVideo (list 3)

/-- A run of a set in a scene (R184). -/
def Half.runFits (h : Half) (im : ImageSt) (s : Scene) (alone : Bool) (i : Nat) : Bool :=
  let e := h.entryWord i 0
  let vs : List Variant := if alone then [.normal, .late, .stale] else [.normal, .late, .stale, .rlive, .rstale]
  decide (i < im.entries) && bitsAt e 0 8 == 1 && bitAt e 8 == alone
    && vs.all fun v => (h.runWork i v).list.all (h.contribFits im s (h.runWork i v) alone)

/-- The rectangle of a run in tiles: columns and rows. -/
def Half.runRect (h : Half) (i : Nat) : (Nat × Nat) × (Nat × Nat) :=
  let r := h.runWork i .normal
  ((r.tx0, r.tw), (r.ty0, r.th))

/-- Two rectangles share a tile. -/
def rectsMeet (a b : (Nat × Nat) × (Nat × Nat)) : Bool := overlaps a.1 b.1 && overlaps a.2 b.2

/-- No two rectangles of a list share a tile. -/
def rectsApart : List ((Nat × Nat) × (Nat × Nat)) → Bool
  | [] => true
  | r :: rest => (rest.all fun x => !rectsMeet r x) && rectsApart rest

/-- Tiles of rectangles. -/
def rectArea (l : List ((Nat × Nat) × (Nat × Nat))) : Nat := l.foldl (fun a r => a + r.1.2 * r.2.2) 0

/-- Rectangles that do not overlap cover columns `x0` of `w` and rows 0 of `ht` exactly. -/
def coverExactly (x0 w y0 ht : Nat) (l : List ((Nat × Nat) × (Nat × Nat))) : Bool :=
  rectsApart l && l.all (fun r => decide (x0 ≤ r.1.1 ∧ r.1.1 + r.1.2 ≤ x0 + w ∧ y0 ≤ r.2.1 ∧ r.2.1 + r.2.2 ≤ y0 + ht))
    && rectArea l == w * ht

/-- Rectangles cover their own bounding rectangle exactly. -/
def coverRect (l : List ((Nat × Nat) × (Nat × Nat))) : Bool :=
  let lo (f : (Nat × Nat) × (Nat × Nat) → Nat) : Nat := ((l.map f).min?).getD 0
  let hi (f : (Nat × Nat) × (Nat × Nat) → Nat) : Nat := ((l.map f).max?).getD 0
  let x0 := lo fun r => r.1.1
  let y0 := lo fun r => r.2.1
  coverExactly x0 (hi (fun r => r.1.1 + r.1.2) - x0) y0 (hi (fun r => r.2.1 + r.2.2) - y0) l

/-- Region numbers rise from `k` by steps of 1, runs of a region being consecutive, and end at `last`. -/
def regionsRise (last : Nat) : Nat → List Nat → Bool
  | k, [] => k == last
  | k, r :: rest => (r == k || r == k + 1) && regionsRise last r rest

/-- Runs of a set: entries. -/
def entriesFrom (first count : Nat) : List Nat := (List.range count).map fun k => first + k

/-- A set of runs of a scene covers an area in regions (R172, R181, R184). -/
def Half.setFitsScene (h : Half) (im : ImageSt) (s : Scene) (alone : Bool) (first count regions x0 w : Nat) : Bool :=
  let es := entriesFrom first count
  let regs := es.map fun i => (h.runWork i .normal).region
  es.all (h.runFits im s alone) && coverExactly x0 w 0 im.man.height (es.map h.runRect)
    && regs.head? == some 0 && regionsRise (regions - 1) 0 regs
    && (List.range regions).all fun k => coverRect ((es.filter fun i => (h.runWork i .normal).region == k).map h.runRect)

/-- The band and alone sets of a half in a valid scene. -/
def Half.sceneFitsBook (h : Half) (im : ImageSt) (s : Scene) : Bool :=
  let x := s.half h.id
  let b := if h.id = .h0 then (0, im.man.boundary) else (im.man.boundary, im.man.width - im.man.boundary)
  h.setFitsScene im s false x.bandFirst x.bandCount x.bandRegions b.1 b.2
    && h.setFitsScene im s true x.aloneFirst x.aloneCount x.aloneRegions 0 im.man.width

/-- Check 5 of R86 for the scene table and the route book of a half with R184, R201, R203, R207, R209 and R211. -/
def Half.bookFits (h : Half) (im : ImageSt) : Bool :=
  palettesFit im && ((im.scenes[im.default]?).map fun s => s.valid).getD false && (h.runEntries im).all (h.entrySound im.entries)
    && im.scenes.all fun s => !s.valid || (h.layersFit im s && h.sceneFitsBook im s)

/-! ## Line-buffer fit (R88, R196, R203) -/

/-- What check 9 finds for a run in the scenes that use it: marked CFGFAULT, given a reduced-tap set, and the sets it uses. -/
structure FitRes where
  marked  : Bool
  reduced : Bool
  sets    : List Nat
  deriving DecidableEq, Repr

/-- A video contribution of a layer. -/
def Half.fitContrib (h : Half) (l : LayerRec) (c : Contrib) : FitRes :=
  let badMatrix := decide (0x80 ≤ l.matrix) && h.flag (F.COEF_MDESC_REJECTED (l.matrix - 0x80))
  if !h.setGood l.hset || badMatrix then ⟨true, false, []⟩
  else match h.vsetOf l c.layer c.ftw with
    | none => ⟨true, false, []⟩
    | some v => ⟨false, v != l.vset, [l.hset, v]⟩

/-- Results combined. -/
def FitRes.and (a b : FitRes) : FitRes := ⟨a.marked || b.marked, a.reduced || b.reduced, (a.sets ++ b.sets).dedup⟩

/-- The scenes whose sets of a half hold run entry `i`. -/
def scenesUsing (im : ImageSt) (h : HalfId) (i : Nat) : List Scene := im.scenes.filter fun s =>
  let x := s.half h
  s.valid && (decide (x.bandFirst ≤ i ∧ i < x.bandFirst + x.bandCount) || decide (x.aloneFirst ≤ i ∧ i < x.aloneFirst + x.aloneCount))

/-- Check 9 for a run. -/
def Half.fitRun (h : Half) (im : ImageSt) (i : Nat) : FitRes :=
  let cs := ((h.runLists i).flatMap listEntries).dedup.map h.contrib
  (scenesUsing im h.id i).foldl (fun a s =>
    (cs.filter fun c => c.what == 0 && decide (c.layer < 8)).foldl (fun a c => a.and (h.fitContrib (s.layer c.layer) c)) a) ⟨false, false, []⟩

/-- Check 9 for every run: marks, LDR_SUBST.CFGRUNS, LDR_TAPSUB.RUNS and COEF_DESC.RUNS, and fault class CFG code 2 for each marked
run (R88). -/
def Half.fitRuns (h : Half) (t : Nat) (im : ImageSt) : Half :=
  (h.runEntries im).foldl (fun (h : Half) i =>
    let r := h.fitRun im i
    if r.marked then
      let w := 0x400000 + 32 * i
      let h1 := (h.setReg w (putBits (h.reg w) 11 1 1)).tally F.LDR_SUBST_CFGRUNS 1
      h1.fault t clsCfg 2 h.id.num (leBytes 2 (0x20 + h.id.num) ++ leBytes 2 i)
    else
      let h1 := if r.reduced then h.tally F.LDR_TAPSUB_RUNS 1 else h
      r.sets.foldl (fun (h : Half) n => h.tally (F.COEF_DESC_RUNS n) 1) h1) h

/-! ## Capacity (R89) -/

/-- Number of contributions of a list of a run, after R88. -/
def Half.listCount (h : Half) (i : Nat) (v : Variant) : Nat := if h.runFaulty i then 1 else (h.runWork i v).list.length

/-- Cross-half fetch bytes of a band run (R177). -/
def Half.crossBytes (h : Half) (i : Nat) : Nat :=
  if h.runFaulty i then 0
  else ([Variant.normal, .late, .stale, .rlive, .rstale].map fun v =>
    ((h.runWork i v).list.filter fun c => c.cross).foldl (fun a c => a + c.ftw * c.fth * c.len) 0).foldl max 0

/-- The capacity check of a scene in a half (R89). -/
def Half.capacityFits (h : Half) (im : ImageSt) (s : Scene) : Bool :=
  let x := s.half h.id
  let cap := 4 * im.man.designPace * 1000000 * 100
  let f := im.man.maxRefresh
  let px (i : Nat) : Nat := let r := h.runWork i .normal
                            r.tw * r.th * 256
  let top (i : Nat) : Nat := max (h.listCount i .normal) (max (h.listCount i .late) (h.listCount i .stale))
  let band := entriesFrom x.bandFirst x.bandCount
  let c := band.foldl (fun a i => a + px i * top i) 0
  let d := band.foldl (fun a i => a + px i * max (h.listCount i .rlive) (h.listCount i .rstale)) 0
  let b := band.foldl (fun a i => a + h.crossBytes i * 8) 0
  let a := (entriesFrom x.aloneFirst x.aloneCount).foldl (fun a i => a + px i * top i) 0
  decide (c * f ≤ cap) && decide (d * f ≤ cap) && decide (a * f ≤ cap) && decide (b * f ≤ 200 * 1000000000 * 100)

/-- Check 11 of R86 for a half. -/
def Half.capacityOk (h : Half) (im : ImageSt) : Bool := im.scenes.all fun s => !s.valid || h.capacityFits im s

/-! ## Watch rectangles (R226) -/

/-- A watch rectangle in pixels: columns and rows. -/
def WatchRec.rect (w : WatchRec) : (Nat × Nat) × (Nat × Nat) := ((w.x, w.w), (w.y, w.h))

/-- A run's rectangle in pixels. -/
def Half.runPixels (h : Half) (i : Nat) : (Nat × Nat) × (Nat × Nat) :=
  let r := h.runRect i
  ((16 * r.1.1, 16 * r.1.2), (16 * r.2.1, 16 * r.2.2))

/-- The part of a rectangle inside another. -/
def rectCut (a b : (Nat × Nat) × (Nat × Nat)) : (Nat × Nat) × (Nat × Nat) :=
  let cut (p q : Nat × Nat) : Nat × Nat :=
    let lo := max p.1 q.1
    (lo, min (p.1 + p.2) (q.1 + q.2) - lo)
  (cut a.1 b.1, cut a.2 b.2)

/-- DEST of a layer. -/
def LayerRec.dest (l : LayerRec) : (Nat × Nat) × (Nat × Nat) := ((l.dx, l.dw), (l.dy, l.dh))

/-- The rectangle `a` lies within `b`. -/
def rectIn (a b : (Nat × Nat) × (Nat × Nat)) : Bool :=
  decide (b.1.1 ≤ a.1.1 ∧ a.1.1 + a.1.2 ≤ b.1.1 + b.1.2 ∧ b.2.1 ≤ a.2.1 ∧ a.2.1 + a.2.2 ≤ b.2.1 + b.2.2)

/-- A contribution can reach a pixel of a rectangle. -/
def contribReaches (s : Scene) (c : Contrib) (q : (Nat × Nat) × (Nat × Nat)) : Bool :=
  let l := s.layer c.layer
  match c.what with
  | 0 => rectsMeet q l.dest
  | 2 => rectsMeet q l.dest && !(decide (16 < l.dw ∧ 16 < l.dh) && rectIn q ((l.dx + 8, l.dw - 16), (l.dy + 8, l.dh - 16)))
  | _ => true

/-- A contribution is class V and fixed under a rectangle's CONDMASK. -/
def contribFixed (s : Scene) (w : WatchRec) (c : Contrib) : Bool :=
  if c.what = 0 then decide (8 ≤ c.layer) && (s.layer c.layer).classV && bitAt w.condmask (c.layer - 8) else true

/-- Per-pixel alpha of a graphic image at an image pixel, as placed in its half (R208). -/
def Module.imageAlpha (m : Module) (im : ImageSt) (g : GImage) (px py : Nat) : Nat :=
  let h := m.half (halfOf g.half)
  let tile := g.addr % 0x80000000 + graphicTileBytes g.format * (py / 16 * g.tw + px / 16)
  let k := 16 * (py % 16) + px % 16
  let at_ (a : Nat) : Nat := (sparseGet (fun _ => (0 : Byte)) h.fst a).toNat
  let ofPalette (n : Nat) : Nat := match im.palettes.find? fun p => p.number == g.palette && p.half == g.half with
    | some p => if n < p.entries then at_ (p.addr % 0x80000000 + 8 * n + 4) else 0
    | none => 0
  match g.format with
  | 0 => at_ (tile + 4 * k)
  | 1 => ofPalette (at_ (tile + k))
  | _ => ofPalette (if k % 2 = 0 then at_ (tile + k / 2) / 16 else at_ (tile + k / 2) % 16)

/-- A fixed class V graphic contribution covers every pixel of a rectangle at full alpha in its COND state (R226). -/
def Module.contribCovers (m : Module) (im : ImageSt) (s : Scene) (w : WatchRec) (c : Contrib) (q : (Nat × Nat) × (Nat × Nat)) : Bool :=
  let l := s.layer c.layer
  let cond := w.cond.getD (c.layer - 8) (0, 0)
  c.what == 0 && contribFixed s w c && rectIn q l.dest && cond.2 == 255 && match im.stateImage l.source cond.1 with
    | none => false
    | some g => (List.range q.2.2).all fun j => (List.range q.1.2).all fun i =>
        m.imageAlpha im g (l.sx + q.1.1 + i - l.dx) (l.sy + q.2.1 + j - l.dy) == 255

/-- The pixels of a rectangle under a list depend only on fixed class V contributions (R226). -/
def Module.listSafe (m : Module) (im : ImageSt) (s : Scene) (w : WatchRec) (q : (Nat × Nat) × (Nat × Nat)) (l : List Contrib) : Bool :=
  (l.all fun c => !contribReaches s c q || contribFixed s w c)
    || (List.range l.length).any fun k => match l[k]? with
      | none => false
      | some c => m.contribCovers im s w c q && (l.drop (k + 1)).all (contribFixed s w)

/-- The lists of a run that a rectangle's VARIANTS name. -/
def watchVariants (w : WatchRec) (alone : Bool) : List Variant :=
  (if bitAt w.variants 0 then (if alone then [Variant.normal] else [.normal, .rlive]) else [])
    ++ (if bitAt w.variants 1 then [Variant.late] else [])
    ++ (if bitAt w.variants 2 then (if alone then [Variant.stale] else [.stale, .rstale]) else [])

/-- A rectangle in one set of a half and a scene. -/
def Module.watchInSet (m : Module) (im : ImageSt) (h : HalfId) (s : Scene) (w : WatchRec) (alone : Bool) : Bool :=
  let x := s.half h
  let hh := m.half h
  let es := if alone then entriesFrom x.aloneFirst x.aloneCount else entriesFrom x.bandFirst x.bandCount
  let lying := es.filter fun i => rectsMeet w.rect (hh.runPixels i)
  let regions := (lying.map fun i => (hh.runWork i .normal).region).dedup
  rectArea (lying.map fun i => rectCut w.rect (hh.runPixels i)) == w.w * w.h && regions.length == 1
    && lying.all (fun i => !hh.runFaulty i && (watchVariants w alone).all fun v =>
        m.listSafe im s w (rectCut w.rect (hh.runPixels i)) (hh.runWork i v).list)

/-- The half whose band holds a rectangle, if one does. -/
def watchBand (man : Manifest) (w : WatchRec) : Option HalfId :=
  if w.x + w.w ≤ 16 * man.boundary then some .h0 else if 16 * man.boundary ≤ w.x then some .h1 else none

/-- Check 10 of R86 for a rectangle (R226). -/
def Module.watchFits (m : Module) (im : ImageSt) (w : WatchRec) : Bool :=
  ((List.range im.scenes.length).filter fun k => bitAt w.scenes k).all fun k => match im.scenes[k]? with
    | none => true
    | some s => !s.valid || (
        (!bitAt w.flags 0 || (match watchBand im.man w with
          | none => false
          | some h => m.watchInSet im h s w false))
        && (!bitAt w.flags 1 || (m.watchInSet im .h0 s w true && m.watchInSet im .h1 s w true)))

/-- The rectangles that check 10 disables. -/
def Module.watchBad (m : Module) (im : ImageSt) : List Nat := (im.watch.filter fun w => !m.watchFits im w).map fun w => w.number

end Sys2Proof.Machine
end

