-- ==== Sys2Proof/Machine/Loader.lean ====
section
/-!
DEFINITION. The loader (R62, R70 to R93): step 3, the sections of step 4 as they arrive and are placed, the cross-checks, the
fallback to the other slot, and the end of a load.
-/
namespace Sys2Proof.Machine

/-! ## Loader registers -/

/-- LDR_STATUS.STATE codes. -/
def ldsSfdp : Nat := 1
def ldsHeaders : Nat := 2
def ldsSignature : Nat := 3
def ldsSections : Nat := 4
def ldsCrosscheck : Nat := 5
def ldsDone : Nat := 6
def ldsFailed : Nat := 7

/-- Loader registers are filled by the half that holds the flash bus and mirrored by the other half (R93). -/
def Module.ldr (m : Module) (fs : List (Field × Nat)) : Module := m.onBoth fun h => if h.inReset then h else h.sets fs

/-- The code register of a slot. -/
def slotCodeField (slot : Nat) : Field := if slot = 2 then F.LDR_SLOTCODE_B else F.LDR_SLOTCODE_A

/-- A slot failure: its code, section TYPE and offset. -/
def Module.slotFailure (m : Module) (slot code type ofs : Nat) : Module :=
  m.ldr [(slotCodeField slot, code), (F.LDR_FAIL_TYPE, type), (F.LDR_FAILOFS_OFFSET, ofs)]

/-- A false start of the loader: a warm reset held for 1 s (R64). -/
def Module.loadFalseStart (m : Module) (t cause : Nat) : Module := (m.falseStart t cause).intoReset t .warm [cause] .heldFalse

/-! ## Step 3 -/

/-- A load of a slot that has passed step 3. -/
def LoadSt.start (f : Flash) (slotSize slot : Nat) (other : Option Nat) (both : Bool) : LoadSt :=
  let base := slotBase slotSize slot
  let x := slotHead (f.read base 64)
  { slot := slot, base := base, other := other, both := both, next := 0
    img := { man := manifestOf (f.sect base 0x40 x.manLen).payload x.serial, entries := 0, scenes := [], default := 0, images := [],
             gsets := [], palettes := [], reduced := [], sources := [], watch := []
             panel := { prefer := [], kaperiod := 5, silence := 250, shutcol := 0, etx0 := 0, ety0 := 0, etw := 0, eth := 0 } }
    books := [0, 0], links := [], ports := [], rings := [], placed := [], touch := none, map := none, badTouch := false }

/-- The flash as SFDP declares it (R71, R72). -/
def sfdpFields (s : Sfdp) : List (Field × Nat) :=
  [(F.LDR_FLASH_DENSITY, Nat.log2 (sfdpTaken s)), (F.LDR_FLASH_ADDR, sfdpAddr s), (F.LDR_FLASH_MODE, sfdpMode s)]

/-- The load limit of a slot (R83). -/
def Module.limitOf (m : Module) (l : LoadSt) : Nat := match m.flash.sfdp with
  | none => 500
  | some s => loadLimit (slotHead (m.flash.read l.base 64)).len (sfdpRate s)

/-- A load begins in half `h`: step 4. In a half start, whose step 4 takes in the headers, it began with the end of step 2 (R62). -/
def Module.beginLoad (m : Module) (t : Nat) (h : HalfId) (l : LoadSt) : Module :=
  let m1 := m.ldr [(F.LDR_STATUS_STATE, ldsSections), (F.LDR_STATUS_SLOT, l.slot), (F.LDR_LIMIT_MS, m.limitOf l),
    (F.LDR_STATUS_RESULT, ldOk)]
  let from_ (x : Half) : Half := { x with starter := { x.starter with step4From := t } }
  let m2 := if l.both then m1.onBoth from_ else m1
  m2.onHalf h fun (x : Half) => { x with load := some l }

/-- An image header or a section passes the LOADER point of the half that holds the flash bus (R333): FILTER the section type, 0 for the
header, and everything where it is 0. -/
def Module.loaderPoint (m : Module) (type : Nat) (bytes : List Byte) : Module :=
  m.onLive m.holder fun x => x.cvuTake 8 (fun _ f => f == 0 || f == type) (some bytes) 0

/-- The header and the manifest of a slot pass the LOADER point as their CRCs cover them (R75, R76). -/
def Module.headerPoint (m : Module) (base : Nat) : Module :=
  let x := slotHead (m.flash.read base 64)
  let s := m.flash.sect base 0x40 x.manLen
  (m.loaderPoint 0 (m.flash.read base 60)).loaderPoint s.type (m.flash.read (base + 0x40) 28 ++ s.payload)

/-- Step 3 of a slot: its code, serial word, and register fields; a slot that the strap does not permit is not read (R81). -/
def Module.readSlot (m : Module) (slotSize slot : Nat) : Module × Bool :=
  let strap := m.lamp.strap
  if (strapSlots strap).contains slot then
    let base := slotBase slotSize slot
    let serial := leAt (m.flash.read base 64) 8 4
    let m1 := (m.headerPoint base).ldr [(if slot = 2 then F.LDR_SERIALB_SERIAL else F.LDR_SERIALA_SERIAL, serial)]
    match m.flash.slotFail m.fuse base slotSize strap (m.half0.get F.SYS_ID_MAJOR) with
    | some e => (m1.slotFailure slot e.1 0 e.2, false)
    | none => (m1.ldr [(slotCodeField slot, ldOk)], true)
  else (m, false)

/-- A blank key fuse (R80): LDR_STATUS.KEY is OPEN and fault class CFG is recorded in each half. -/
def Module.noteKey (m : Module) (t : Nat) : Module :=
  if m.fuse.isSome then m.ldr [(F.LDR_STATUS_KEY, 0)]
  else (m.ldr [(F.LDR_STATUS_KEY, 1)]).onBoth fun h => if h.inReset then h else h.fault t clsCfg 5 0xFF (leBytes 2 0xF0)

/-- Step 3 of a module start (R70, R71, R81): a slot is chosen, or the start is a false start with cause 13. -/
def Module.chooseSlot (m : Module) (t : Nat) : Module :=
  match m.flash.sfdp with
  | none => (m.ldr [(F.LDR_SLOTCODE_A, ldNoSfdp), (F.LDR_SLOTCODE_B, ldNoSfdp), (F.LDR_STATUS_RESULT, ldNoSfdp),
      (F.LDR_STATUS_STATE, ldsFailed)]).loadFalseStart t 13
  | some s =>
    let size := sfdpSlotSize s
    let m0 := m.ldr ((F.LDR_STATUS_STATE, ldsHeaders) :: sfdpFields s)
    let a := m0.readSlot size 1
    let b := a.1.readSlot size 2
    let m1 := b.1.ldr [(F.LDR_STATUS_STATE, ldsSignature)]
    let serial (f : Field) : Nat := (m1.half m1.holder).get f
    let first : Option Nat := match a.2, b.2 with
      | false, false => none
      | true, false => some 1
      | false, true => some 2
      | true, true => if serial F.LDR_SERIALA_SERIAL < serial F.LDR_SERIALB_SERIAL then some 2 else some 1
    match first with
    | none =>
      let named := if (strapSlots m.lamp.strap).contains 1 then 1 else 2
      let code := (m1.half m1.holder).get (slotCodeField named)
      (m1.ldr [(F.LDR_STATUS_RESULT, code), (F.LDR_STATUS_STATE, ldsFailed)]).loadFalseStart t 13
    | some k =>
      let other := if a.2 && b.2 then some (3 - k) else none
      (m1.noteKey t).beginLoad t m1.holder (LoadSt.start m1.flash size k other true)

/-- The load of a half start ends without an image (R93): the loader shows FAILED and a result. -/
def Module.halfLoadEnds (m : Module) (result : List (Field × Nat)) : Module := m.ldr ((F.LDR_STATUS_STATE, ldsFailed) :: result)

/-- A half start fails at once (R61): fault class CFG code 6. -/
def Module.halfLoadFails (m : Module) (t : Nat) (h : HalfId) (result : List (Field × Nat)) : Module :=
  ((m.halfLoadEnds result).onHalf h fun x => x.fault t clsCfg 6 h.num []).halfFalseStart t h

/-- The graphics of the peer, which a half start does not read again: images, state sets and palettes are device-wide (R209). -/
def Half.peerGraphics (p : Half) (h : HalfId) (im : ImageSt) : ImageSt := match p.image with
  | none => im
  | some o =>
    let images := o.images.filter fun g => g.half != h.num
    { im with
      images := images
      gsets := o.gsets.filter fun s => s.images.all fun n => images.any fun g => g.number == n
      palettes := o.palettes.filter fun x => x.half != h.num }

/-- Step 3 of a half start (R61, R62): the slot in force must verify and carry the peer's serial. R93 has no code for another serial:
RESULT then stays (log entry 115). -/
def Module.halfHeaders (m : Module) (t : Nat) (h : HalfId) : Module :=
  let p := m.half h.peer
  let slot := p.get F.LDR_STATUS_SLOT
  match m.flash.sfdp with
  | none => m.halfLoadFails t h [(F.LDR_STATUS_RESULT, ldNoSfdp)]
  | some s =>
    let size := sfdpSlotSize s
    let base := slotBase size slot
    let serial := leAt (m.flash.read base 64) 8 4
    let m := m.headerPoint base
    let same := match p.image with
      | some im => serial == im.man.serial
      | none => false
    match m.flash.slotFail m.fuse base size m.lamp.strap (p.get F.SYS_ID_MAJOR) with
    | some e => (m.slotFailure slot e.1 0 e.2).halfLoadFails t h [(F.LDR_STATUS_RESULT, e.1)]
    | none => if same then
      let l := LoadSt.start m.flash size slot none false
      let keep := [F.LDR_STATUS_KEY, F.LDR_SLOTCODE_A, F.LDR_SLOTCODE_B, F.LDR_SERIALA_SERIAL, F.LDR_SERIALB_SERIAL].map fun f => (f, p.get f)
      (m.onHalf h fun x => x.sets (keep ++ sfdpFields s)).beginLoad t h (if linkOk p (m.half h) then { l with img := p.peerGraphics h l.img } else l)
      else m.halfLoadFails t h []

/-- A half that waits for step 3 of its half start. -/
def Half.wantsHeaders (h : Half) : Bool := !h.inReset && h.mode == modeHalfStart && h.step == 2 && h.load.isNone && h.image.isNone

/-- The loader has read SFDP, headers and manifests (step 3); what it reads for half 1 while half 0 holds the bus goes over the half
link (R17, R62). -/
def Module.headersRead (m : Module) (t : Nat) (sfdp : Option Sfdp) : Module :=
  let m1 : Module := { m with flash := { m.flash with sfdp := sfdp } }
  if m1.lamp.phase = .starting then
    if m1.half0.step = 2 ∧ m1.half0.load.isNone then m1.chooseSlot t else m1
  else if m1.half0.wantsHeaders then m1.halfHeaders t .h0
  else if m1.half1.wantsHeaders ∧ (m1.holder = .h1 ∨ linkOk m1.half0 m1.half1) then m1.halfHeaders t .h1
  else m1

/-! ## Placing a section (R84, R86) -/

/-- The halves that a load places. -/
def LoadSt.targets (l : LoadSt) (h : HalfId) : List HalfId := if l.both then [.h0, .h1] else [h]

/-- A change made in the halves that a load places, of which HALF names one or both. -/
def Module.place (m : Module) (l : LoadSt) (h : HalfId) (half : Nat) (f : Half → Half) : Module :=
  (l.targets h).foldl (fun (m : Module) k => if half = 0xFF ∨ half = k.num then m.onHalf k f else m) m

/-- Words written from a register offset upwards. -/
def Half.setWords (h : Half) (off : Nat) : List Byte → Nat → Half
  | _, 0 => h
  | bs, n + 1 => Half.setWords (h.setReg off (BitVec.ofNat 32 (leAt bs 0 4))) (off + 4) (bs.drop 4) n

/-- An engine program placed in local SRAM, the rest of it zero (R354). -/
def Half.placeProgram (h : Half) (n beat entry : Nat) (code : List Byte) : Half :=
  let h1 := h.onEngine n fun (e : Engine) => { e with sram := memWrite [] 0 code, entry := some entry }
  if n = 0 then h1 else h1.set (F.ENG_STATE_BEATLIMIT n) beat

/-- A coefficient set placed (R204), with its mark of rejection. -/
def Half.placeSet (h : Half) (r : List Byte) : Half :=
  let n := byteAt r 0
  (h.setWords (0x510000 + 0x400 * n) (r.drop 0x18) 256).sets
    [(F.COEF_DESC_PRESENT n, 1), (F.COEF_DESC_REJECTED n, bit (setRejected r)), (F.COEF_DESC_DIR n, byteAt r 1), (F.COEF_DESC_TAPS n, byteAt r 2)]

/-- A colour matrix placed (R204). -/
def Half.placeMatrix (h : Half) (r : List Byte) : Half :=
  let n := byteAt r 0
  (h.setWords (0x520000 + 0x20 * n) r 8).sets [(F.COEF_MDESC_PRESENT n, 1), (F.COEF_MDESC_REJECTED n, bit (matrixRejected r))]

/-- Rejected sets and matrices recorded in a half (R86, R203): index of the set, 0x80 and the number of a matrix. -/
def Half.placeCoef (h : Half) (t : Nat) (sets mats : List (List Byte)) : Half :=
  let h1 := mats.foldl Half.placeMatrix (sets.foldl Half.placeSet h)
  let bad := ((sets.filter setRejected).map fun r => byteAt r 0) ++ (mats.filter matrixRejected).map fun r => 0x80 + byteAt r 0
  let h2 := h1.set F.LDR_SUBST_SETREJ bad.length
  bad.foldl (fun (h : Half) n => h.fault t clsCfg 1 0xFF (leBytes 2 0x50 ++ leBytes 2 n)) h2

/-- An access rule written into the shadow table (R346). -/
def Half.placeRule (h : Half) (r : RuleRec) : Half := h.sets
  [(F.ACR_SHBASE_PAGE r.num, r.base), (F.ACR_SHPAGES_COUNT r.num, r.pages), (F.ACR_SHRMASK_MASK r.num, r.rmask),
   (F.ACR_SHWMASK_MASK r.num, r.wmask)]

/-- The port plan of a half: its own link records keep their position, its ports are counted within it. -/
def Half.placePorts (h : Half) (links : List LinkRec) (ports : List PortRec) : Half :=
  let mine (r : LinkRec) : LinkRec := if r.first / 24 = h.id.num ∧ r.kind ≠ 0 then { r with first := r.first % 24 } else ⟨0, 0, 0, 0, 0⟩
  { h with port := { h.port with links := links.map mine, ports := (ports.drop (24 * h.id.num)).take 24 } }

/-- The ring plans of a half, with the registers that show them. -/
def Half.placeRings (h : Half) (man : Manifest) (ps : List RingPlan) : Half :=
  ((List.range ps.length).zip ps).foldl (fun (h : Half) kp =>
    let k := kp.1
    (h.onRing k fun (r : RingSt) => { r with plan := some kp.2 }).sets
      [(F.RNG_PLANCRC_CRC k, kp.2.crc), (F.RNG_TOPO_HEADSTN k, kp.2.head),
       (F.RNG_STATE_STATION k, (if k = 0 then man.addr0 else man.addr1) % 128)]) h

/-- A source window as the directory gives it. -/
def SourceSt.reset (r : SourceRec) : SourceSt :=
  { rcd := r, slots := [none, none, none], writing := none, nextSeq := 0, fresh := true, seen := false, since := 0, enabledOnce := false, noPid := 0
    badFormat := false, timedOut := false, refused := none, latch := none, latchLap := 0, order := 0, carried := (0, 0), kept := [], pub := PubSt.reset }

/-- The source directory of a half (R143): one window for each record of the half. -/
def Half.placeSources (h : Half) (rs : List SourceRec) : Half :=
  let own := rs.filter fun r => r.half == h.id.num
  ((List.range own.length).zip own).foldl (fun (h : Half) kr =>
    h.sets [(F.INK_SDESC_PORT kr.1, kr.2.port), (F.INK_SDESC_PUBLISH kr.1, bit kr.2.publish), (F.INK_SDESC_HELD kr.1, bit kr.2.held),
      (F.INK_SDESC_KIND kr.1, kr.2.kind), (F.INK_SDESC_ID kr.1, kr.2.ident), (F.INK_SCTRL_FREEZEW kr.1, kr.2.freezew)])
    { h with sources := own.map SourceSt.reset }

/-- The emblem copied into the module's own area (R257). -/
def Half.placeEmblem (h : Half) (tiles : List (List Byte)) : Half :=
  ((List.range tiles.length).zip tiles).foldl (fun (h : Half) kt => h.storeWrite (emblemAddr kt.1) kt.2) h

/-- Asset bytes placed at a device address. -/
def Half.placeAsset (h : Half) (a : Nat) (bs : List Byte) : Half := h.storeWrite (a % 0x80000000) bs

/-- A section of engine code, route book, access rules or ports placed. -/
def Module.placeWords (m : Module) (t : Nat) (l : LoadSt) (h : HalfId) (s : Section) : Option (Module × LoadSt) :=
  if 0x10 ≤ s.type ∧ s.type ≤ 0x17 then
    (programOf s).map fun p => (m.place l h s.half fun x => x.placeProgram ((s.type - 0x10) % 4) p.1 p.2.1 p.2.2, l)
  else if s.type = 0x20 ∨ s.type = 0x21 then
    (bookOf s).map fun rs =>
      (m.place l h s.half fun x => x.setWords 0x400000 s.payload (8 * rs.length), { l with books := l.books.set s.half rs.length })
  else if s.type = 0x50 then
    (coefOf s).map fun c =>
      (m.place l h 0xFF fun x => x.placeCoef t c.1 c.2.1, { l with img := { l.img with reduced := c.2.2 } })
  else if s.type = 0x60 then
    (rulesOf s).map fun rs =>
      (m.place l h 0xFF fun x => (rs.filter fun r => r.half == x.id.num).foldl Half.placeRule x, l)
  else if s.type = 0x70 then
    (portPlanOf s).map fun p => (m.place l h 0xFF fun x => x.placePorts p.1 p.2, { l with links := p.1, ports := p.2 })
  else if bitAt l.img.man.roles 1 || bitAt l.img.man.roles 3 then
    (ringPlansOf s).map fun ps => (m.place l h 0xFF fun x => x.placeRings l.img.man ps, { l with rings := ps })
  else some (m, l)

/-- A section that describes the picture placed. -/
def Module.placePicture (m : Module) (l : LoadSt) (h : HalfId) (s : Section) : Option (Module × LoadSt) :=
  if s.type = 0x30 then
    (scenesOf s).map fun p => (m, { l with img := { l.img with scenes := p.1, default := p.2 } })
  else if s.type = 0x40 then
    (assetsOf s).bind fun a =>
      let images := l.img.images ++ a.1
      let gsets := l.img.gsets ++ a.2
      whenOk (noTwice (images.map fun g => g.number) && noTwice (gsets.map fun g => g.number))
        (m.place l h s.half fun x => x.placeAsset s.place s.payload,
         { l with img := { l.img with images := images, gsets := gsets }, placed := (s.place, s.payload.length) :: l.placed })
  else if s.type = 0x41 then
    (palettesOf s).map fun ps =>
      (m.place l h s.half fun x => x.placeAsset s.place s.payload,
       { l with img := { l.img with palettes := l.img.palettes ++ ps }, placed := (s.place, s.payload.length) :: l.placed })
  else if s.type = 0x80 then
    (sourcesOf s).map fun rs => (m.place l h 0xFF fun x => x.placeSources rs, { l with img := { l.img with sources := rs } })
  else if s.type = 0x90 then
    (watchSetOf s).map fun ws => (m, { l with img := { l.img with watch := ws } })
  else
    (panelSetOf s l.img.man).map fun p =>
      (m.place l h 0xFF fun x => x.placeEmblem p.2, { l with img := { l.img with panel := p.1 } })

/-- A section placed after checks 1 to 3 (R84): none where it fails by its own content. -/
def Module.placeSection (m : Module) (t : Nat) (l : LoadSt) (h : HalfId) (s : Section) : Option (Module × LoadSt) :=
  if bitAt s.type 15 then some (m, l)
  else if s.type = 0xA0 then match touchConfOf s with
    | some c => some (m, { l with touch := some c })
    | none => some (m, { l with badTouch := true })
  else if s.type = 0xA1 then match touchMapOf s with
    | some x => some (m, { l with map := some x })
    | none => some (m, { l with badTouch := true })
  else if s.type = 0xC0 then
    (timeConfOf s l.img.man).map fun c => (m.place l h 0xFF fun x => x.onTime fun (y : TimeSt) => { y with conf := some c }, l)
  else if s.type = 0x30 ∨ s.type = 0x40 ∨ s.type = 0x41 ∨ s.type = 0x80 ∨ s.type = 0x90 ∨ s.type = 0xB0 then m.placePicture l h s
  else m.placeWords t l h s

/-! ## Failure and fallback (R82) -/

/-- Offsets of the registers that a load fills. -/
def loadedOffset (off : Nat) : Bool :=
  (0x400000 ≤ off && off < 0x600000) || (0xD0500 ≤ off && off < 0xD0900) || (0x41000 ≤ off && off < 0x42000)
    || (0xA0000 ≤ off && off < 0xA0200) || off == 0x20020 || off == 0x20024 || off == 0x70040 || off == 0x70044 || off == F.TCH_STATUS_word.off

/-- Everything that a load has placed in a half discarded. -/
def Half.discardLoad (h : Half) (l : LoadSt) : Half :=
  let own := l.placed.filter fun r => decide (r.1 / 0x80000000 = h.id.num)
  let inPlaced (a : Nat) : Bool := own.any fun r => decide (r.1 % 0x80000000 ≤ a ∧ a < r.1 % 0x80000000 + r.2)
  let h1 : Half := { h with
    regs := sparseClear loadedOffset h.regs
    fst := sparseClear (fun a => inPlaced a || decide (0x7F000000 ≤ a)) h.fst
    engines := h.engines.map fun (e : Engine) => { e with sram := [], entry := none }
    image := none
    load := none
    sources := []
    port := PortSt.reset
    rings := [RingSt.reset, RingSt.reset]
    touch := TouchSt.reset }
  ([1, 2, 3].foldl (fun (h : Half) n => h.set (F.ENG_STATE_BEATLIMIT n) 0) h1).onTime fun (x : TimeSt) => { x with conf := none }

/-- The slot being loaded fails a check of step 4 (R82): the other slot, else a false start with cause 13; a half start ends. -/
def Module.loadFails (m : Module) (t : Nat) (h : HalfId) (l : LoadSt) (code type ofs : Nat) : Module :=
  let m1 := m.slotFailure l.slot code type ofs
  if l.both then match l.other, m.flash.sfdp with
    | some k, some s =>
      let m2 := (m1.onBoth fun x => x.discardLoad l).ldr [(F.LDR_STATUS_FALLBACK, 1)]
      m2.beginLoad t h (LoadSt.start m.flash (sfdpSlotSize s) k none true)
    | _, _ => (m1.ldr [(F.LDR_STATUS_RESULT, code), (F.LDR_STATUS_STATE, ldsFailed)]).loadFalseStart t 13
  else m1.halfLoadFails t h [(F.LDR_STATUS_RESULT, code)]

/-- A half whose load in a half start has not ended (R62). -/
def Half.loadsLate (h : Half) : Bool := !h.inReset && h.mode == modeHalfStart && h.step == 2 && h.image.isNone

/-- The load limit in ms that runs for half `h` (R83): that of the slot in force until its own loader has read the header. -/
def Module.limitMs (m : Module) (h : HalfId) : Nat :=
  if (m.half h).get F.LDR_LIMIT_MS = 0 then (m.half h.peer).get F.LDR_LIMIT_MS else (m.half h).get F.LDR_LIMIT_MS

/-- When the load limit in progress ends (R82, R83): counted from the beginning of step 4, or from the fallback to the other slot. -/
def Module.loadLimitAt (m : Module) : Nat :=
  let h : HalfId := if m.lamp.phase = .starting ∨ m.half0.loadsLate then .h0 else .h1
  (m.half h).starter.step4From + m.limitMs h * msNs

/-- Step 4 does not end within the load limit (R60, R62): a false start with cause 12; a half start ends as a half false start. -/
def Module.loadLimitExpire (m : Module) (t : Nat) : Module :=
  if m.lamp.phase = .starting then
    if m.half0.step = 3 then
      (m.ldr [(F.LDR_STATUS_RESULT, ldTimeout), (F.LDR_STATUS_STATE, ldsFailed)]).loadFalseStart t 12
    else m
  else
    let end_ (h : HalfId) : Module := (m.halfLoadEnds [(F.LDR_STATUS_RESULT, ldTimeout)]).halfFalseStart t h
    if m.half0.loadsLate then end_ .h0 else if m.half1.loadsLate then end_ .h1 else m

/-! ## The end of a load -/

/-- Offset of the section of a type in the manifest. -/
def typeOfs (es : List ManEntry) (type : Nat) : Nat := ((es.find? fun e => e.type == type).map fun e => e.ofs).getD 0

/-- The image that a half holds. -/
def LoadSt.imageOf (l : LoadSt) (h : HalfId) : ImageSt := { l.img with entries := l.books.getD h.num 0 }

/-- Layer records that name a user matrix, over all scenes. -/
def matrixLayers (im : ImageSt) (k : Nat) : Nat :=
  (im.scenes.map fun s => ((List.range 8).filter fun n => (s.layer n).used && (s.layer n).matrix == 0x80 + k).length).sum

/-- Checks 5, 6 and 11: the first that fails, with its code and the section type. -/
def Module.crossFail (m : Module) (l : LoadSt) (h : HalfId) (early : Bool) : Option (Nat × Nat) :=
  let all (f : Half → ImageSt → Bool) : Bool := (l.targets h).all fun k => f (m.half k) (l.imageOf k)
  if early then firstFail
    [(l.directoryFits, ldContent, 0x80), (all Half.bookFits, ldContent, 0x30), (l.portsFit, ldContent, 0x70),
     (l.ringsFit (strapRole m.lamp.strap), ldContent, 0x71)]
  else firstFail
    ((l.targets h).map fun k => ((m.half k).capacityOk (l.imageOf k), ldCapacity, 0x20 + k.num))

/-- Check 8 (R86, R391, R392): the touch block takes its configuration, or is disabled with fault class TCH. -/
def Half.placeTouch (h : Half) (t : Nat) (l : LoadSt) : Half :=
  let bad := l.badTouch || match l.touch, l.map with
    | some c, some x => !mapFits c x
    | none, some _ => true
    | _, none => false
  if bad then (h.set F.TCH_STATUS_STATE tsDisabled)|> fun x => x.fault t clsTch 1 0 (x.wordBytes F.TCH_STATUS_word.off)
  else
    let h1 : Half := { h with touch := { h.touch with conf := l.touch, refMap := l.map.map fun x => x.2.2.2 } }
    h1.set F.TCH_STATUS_NOMAP (bit (l.touch.isSome && l.map.isNone))

/-- Check 10: rectangles disabled or not in the image (CMP_WATCHDIS), and fault class CFG for each disabled one. -/
def Half.placeWatch (h : Half) (t : Nat) (im : ImageSt) (bad : List Nat) : Half :=
  let off (n : Nat) : Bool := bad.contains n || !(im.watch.any fun w => w.number == n)
  let word (k : Nat) : Nat := (List.range 32).foldl (fun a i => if off (k + i) then a + 2 ^ i else a) 0
  let h1 := h.sets [(F.CMP_WATCHDIS0_RECTS, word 0), (F.CMP_WATCHDIS1_RECTS, word 32), (F.LDR_SUBST_WATCHOFF, bad.length)]
  bad.foldl (fun (h : Half) n => h.fault t clsCfg 3 0xFF (leBytes 2 0x90 ++ leBytes 2 n)) h1

/-- A half after every check has passed: the pattern store is filled (R218) and the switch of the access rules begins (R348). -/
def Half.finishLoad (h : Half) (im : ImageSt) : Half :=
  let h1 := (List.range 8).foldl (fun (h : Half) k => h.set (F.COEF_MDESC_LAYERS k) (matrixLayers im k)) h
  let h2 : Half := { h1 with
    image := some im
    load := none
    fst := (List.range 5).foldl (fun m k => memWrite m (0x7F000000 + 1024 * k) (granuleBytes (patternTile k))) h1.fst }
  (h2.sets [(F.LDR_DESIGN_MAXREFRESH, im.man.maxRefresh), (F.LDR_DESIGN_PACE, im.man.designPace)]).acrGo

/-- Every section has been placed: the cross-checks of R86 in their order, then the image takes effect. -/
def Module.endLoad (m : Module) (t : Nat) (h : HalfId) (l : LoadSt) (es : List ManEntry) : Module :=
  let hs := l.targets h
  let each (m : Module) (f : Half → Half) : Module := hs.foldl (fun (m : Module) k => m.onHalf k f) m
  let m0 := each (m.ldr [(F.LDR_STATUS_STATE, ldsCrosscheck)]) fun (x : Half) => { x with image := some (l.imageOf x.id) }
  match m0.crossFail l h true with
  | some e => m.loadFails t h l e.1 e.2 (typeOfs es e.2)
  | none =>
    let m1 := if hs.contains .h0 then m0.onHalf .h0 fun x => x.placeTouch t l else m0
    let m2 := each m1 fun x => x.fitRuns t (l.imageOf x.id)
    let bad := m2.watchBad l.img
    let m3 := each m2 fun x => x.placeWatch t l.img bad
    match m3.crossFail l h false with
    | some e => m3.loadFails t h l e.1 e.2 (typeOfs es e.2)
    | none =>
      let m4 := each m3 fun x => x.finishLoad (l.imageOf x.id)
      m4.ldr [(F.LDR_STATUS_STATE, ldsDone), (F.LDR_STATUS_RESULT, ldOk)]

/-! ## Sections as they arrive -/

/-- The load in progress and the half that holds it. -/
def Module.loading (m : Module) : Option (HalfId × LoadSt) := match m.half0.load, m.half1.load with
  | some l, _ => some (.h0, l)
  | none, some l => some (.h1, l)
  | none, none => none

/-- The manifest entries of the slot being loaded. -/
def Module.loadEntries (m : Module) (l : LoadSt) : List ManEntry :=
  let x := slotHead (m.flash.read l.base 64)
  let s := m.flash.sect l.base 0x40 x.manLen
  manEntries s.payload s.count

/-- An entry that a load reads: every one, or in a half start those of its half and of the whole device (R62). -/
def Module.concerns (m : Module) (l : LoadSt) (h : HalfId) (e : ManEntry) : Bool :=
  let half := byteAt (m.flash.read (l.base + e.ofs) 32) 14
  l.both || half == 0xFF || half == h.num

/-- The position of the next entry from `k` that a load reads. -/
def Module.nextEntry (m : Module) (l : LoadSt) (h : HalfId) (es : List ManEntry) (k : Nat) : Option (Nat × ManEntry) :=
  (((List.range es.length).zip es).drop k).find? fun x => m.concerns l h x.2

/-- A section can reach the halves that it concerns (R17): the holder of the flash bus reads it, and forwards what is not its own
alone over the half link. -/
def Module.forwards (m : Module) (l : LoadSt) (h : HalfId) (e : ManEntry) : Bool :=
  linkOk m.half0 m.half1 || (if l.both then byteAt (m.flash.read (l.base + e.ofs) 32) 14 == m.holder.num else h == m.holder)

/-- A section has been read (step 4): it is checked and placed; after the last one the cross-checks run. One that the half link
cannot forward does not arrive. -/
def Module.sectionArrival (m : Module) (t : Nat) : Module := match m.loading with
  | none => m
  | some (h, l) =>
    let es := m.loadEntries l
    match m.nextEntry l h es l.next with
    | none => m.endLoad t h l es
    | some (k, e) =>
      if m.forwards l h e = false then m
      else
      let s := m.flash.sect l.base e.ofs e.len
      let m := m.loaderPoint s.type ((m.flash.read (l.base + e.ofs) 28) ++ s.payload)
      match sectionFail s e l.img.man.roles l.placed with
      | some code => m.loadFails t h l code e.type e.ofs
      | none => match m.placeSection t l h s with
        | none => m.loadFails t h l (if e.type = 0x60 then ldRuleOverlap else ldContent) e.type e.ofs
        | some (m1, l1) =>
          let l2 : LoadSt := { l1 with next := k + 1 }
          if (m1.nextEntry l2 h es (k + 1)).isSome then m1.onHalf h fun (x : Half) => { x with load := some l2 }
          else m1.endLoad t h l2 es

end Sys2Proof.Machine
end

