-- ==== Sys2Proof/Machine/Start.lean ====
section
/-!
DEFINITION. Starts (R54 to R66): the strap, the islands and their clocks, the twelve steps of a module start and the steps of a
half start, their limits, and the entry into recovery mode and lane test.
-/
namespace Sys2Proof.Machine

/-! ## Step 1: the strap (R55 to R58) -/

/-- Upper band edges in ohms of the indices 0 to 14 (R55). -/
def strapEdges : List Nat := [825, 1212, 1778, 2607, 3829, 5621, 8252, 12120, 17780, 26070, 38290, 56210, 82520, 121200, 178100]

/-- The index of an average converter code: the resistance is 10 kΩ × code / (4096 − code) (R55). -/
def strapIndex (code : Nat) : Nat :=
  (strapEdges.filter fun e => decide (e * (4096 - code) < 10000 * code)).length

/-- Highest minus lowest code of a measurement. -/
def codeSpread (codes : List Nat) : Nat := (codes.max?.getD 0) - (codes.min?.getD 0)

/-- The rounded average of a measurement's codes. -/
def codeMean (codes : List Nat) : Nat := (codes.sum + codes.length / 2) / max 1 codes.length

/-- A strap measurement: the number of tries, the codes of the accepted one, and whether all three spread too far (R57). -/
def strapMeasure (codes : List (List Nat)) : Nat × List Nat × Bool :=
  let first := codes.take 3
  match first.findIdx? fun c => decide (codeSpread c ≤ 16) with
  | some i => (i + 1, first.getD i [], false)
  | none => (3, first.getLastD [], true)

/-- Indices 13 and 14 act as index 0 (R57). -/
def strapTaken (i : Nat) : Nat := if i = 13 ∨ i = 14 then 0 else i

/-- A half in a mode of its own, at the end of step 1. -/
def Half.enterMode (h : Half) (t mode : Nat) : Half := (h.set F.RST_STATE_MODE mode).endStep t 1

/-- Step 1 of a module start: the strap is measured, and the count and the index choose recovery mode, lane test or the steps that
follow (R58, R60, R64, R66). -/
def Module.start (m : Module) (t : Nat) (codes : List (List Nat)) : Module :=
  if m.lamp.phase ≠ .released then m
  else
    let s := strapMeasure codes
    let mean := codeMean s.2.1
    let index := if s.2.2 then 0 else strapTaken (strapIndex mean)
    let fields := [(F.RST_STRAP_CODE, mean), (F.RST_STRAP_SPREAD, codeSpread s.2.1), (F.RST_STRAP_TRIES, s.1), (F.RST_STRAP_INDEX, index)]
    let m1 := (m.onLamp fun (l : Lamp) => { l with strap := index }).onBoth fun h => h.sets fields
    let m2 := if s.2.2 then
        m1.lampFault t clsStart 2 m.lamp.cause (m1.half0.wordBytes F.RST_STATE_word.off ++ m1.half0.wordBytes (F.RST_STEPTIME_word 1).off)
      else m1
    if 3 ≤ m.lamp.fsCount ∨ index = 0 then
      (m2.onBoth fun h => h.enterMode t modeRecovery).onLamp fun l => l.enter t .recovery
    else if index = 12 then (m2.onBoth fun h => h.enterMode t modeLaneTest).onLamp fun l => l.enter t .laneTest
    else (m2.onBoth fun h => h.enterMode t modeStart).onLamp fun l => l.enter t .starting

/-! ## Islands (R59) -/

/-- The zero of the local base of a half whose time island is released at `t` (R307): the first of a start of both halves sets it for
both; a half that starts while its peer runs takes the peer's, to within 20 ns, a free value (log entry 130). -/
def Half.epochFrom (h : Half) (t : Nat) (peer : Option Nat) : Half := match h.epoch, peer with
  | none, some e =>
    if h.mode = modeHalfStart then
      let w := h.takeFree
      { w.2 with epoch := some (min t (e + 20 - w.1 % 41)) }
    else { h with epoch := some e }
  | none, none => { h with epoch := some t }
  | some _, _ => h

/-- An island of a half qualifies; the local base counts from the release of the time island (R307), which `peer` gives where the peer
half has one. Every other island derives from REFCLK and follows it. -/
def Half.qualify (h : Half) (t : Nat) (peer : Option Nat) (i : Island) : Half := match i with
  | .time => (h.set F.RST_QUAL_TIME 1).epochFrom t peer
  | .qspi => if h.flag F.RST_QUAL_TIME then h.set F.RST_QUAL_QSPI 1 else h
  | .portPll g => if h.flag F.RST_QUAL_TIME && decide (g < 6) then (h.setBit F.RST_QUAL_PORTPLL g true).groupClocked t g else h
  | .phy c => if h.flag F.RST_QUAL_TIME && decide (c < 8) then h.setBit F.RST_QUAL_PHY c true else h
  | .portRx _ => h

/-- A half in which islands qualify: recovery mode qualifies the time and QSPI islands, for a pass-through frame alone (R387). -/
def Module.qualifies (m : Module) (h : HalfId) (i : Island) : Bool :=
  let x := m.half h
  if x.inReset ∨ x.step = 0 ∧ x.mode ≠ modeHalfStart then false
  else if m.lamp.phase = .recovery then
    m.lamp.pass.waiting.isSome && h == .h0 && (i == .time || i == .qspi)
  else true

/-- The lanes of a port group whose transmit PLL has lost its clock are mapped out, every one that is at work (R95). -/
def Half.groupLost (h : Half) (t g : Nat) : Half :=
  [0, 1, 2, 3].foldl (fun (h : Half) k =>
    let p := 4 * g + k
    let s := h.laneState p
    if s = lsOff ∨ s = lsMappedOut then h else (h.isleReset p).mapOut t p none) h

/-- The reports of the links of a half, after its lanes changed. -/
def Half.reportAll (h : Half) (t : Nat) : Half :=
  (List.range 24).foldl (fun (h : Half) p => h.reporting t (h.laneReport t p)) h

/-- A channel whose PHY has lost its clock: mapped out in a running half, and out of the training result before that. -/
def Half.channelLost (h : Half) (t c : Nat) : Half :=
  if h.step < 5 then { h with store := { h.store with out := setBitNat h.store.out c true } } else h.mapOutChannel t c

/-- A half's own starter sees the loss of REFCLK (R54): it records TIME code 3 and asks for a warm reset; a half whose peer has asked
for it in the same sample period records its entry too, and the requests are one. -/
def Module.refclkLost (m : Module) (t : Nat) (h : HalfId) : Module :=
  if (m.half h).flag F.RST_QUAL_TIME then
    let m1 := m.onHalf h fun x =>
      ((x.set F.RST_QUALFAIL_TIME 1).set F.RST_QUAL_TIME 0).fault t clsTime 3 2 (x.wordBytes F.TIM_STATUS_word.off)
    m1.requestReset t .warm [14] .released
  else
    let a := m.lamp.askedAt t
    match a.late.find? fun x => x.1 == h with
    | none => m
    | some e => (m.onHalf h fun x => x.writeKept clsTime e.2).onLamp fun (l : Lamp) =>
      { l with asked := some { a with late := a.late.filter fun x => x.1 != h } }

/-- An island of a half loses its clock (R54, R59). -/
def Module.clockLost (m : Module) (t : Nat) (h : HalfId) (i : Island) : Module :=
  let x := m.half h
  if x.inReset then m
  else match i with
    | .time => m.refclkLost t h
    | .qspi => if x.flag F.RST_QUAL_QSPI then m.onHalf h fun x => (x.set F.RST_QUALFAIL_QSPI 1).set F.RST_QUAL_QSPI 0 else m
    | .portPll g =>
      if x.getBit F.RST_QUAL_PORTPLL g && decide (g < 6) then
        m.onHalf h fun x =>
          (((x.setBit F.RST_QUALFAIL_PORTPLL g true).setBit F.RST_QUAL_PORTPLL g false).groupLost t g).reportAll t
      else m
    | .phy c =>
      if x.getBit F.RST_QUAL_PHY c && decide (c < 8) then
        (m.dropFlights h c).onHalf h fun x => ((x.setBit F.RST_QUALFAIL_PHY c true).setBit F.RST_QUAL_PHY c false).channelLost t c
      else m
    | .portRx p => m.onHalf h fun x => x.reporting t (x.cdrLoss t p)

/-! ## The steps of a half -/

/-- Step 2: the time island, the QSPI island and every PHY have qualified; a channel mapped out since the last module start is not
waited for. -/
def Half.islandsDone (h : Half) : Bool :=
  h.flag F.RST_QUAL_TIME && h.flag F.RST_QUAL_QSPI &&
    (List.range 8).all fun c => h.getBit F.RST_QUAL_PHY c || bitAt h.store.out c

/-- Step 4: every section has been placed and the access rules of the image are in force (R85). -/
def Half.placedDone (h : Half) : Bool := h.image.isSome && !h.flag F.ACR_EPOCH_SWITCHING

/-- Channels that passed training and are not mapped out. -/
def Half.goodChannels (h : Half) : List Nat :=
  (List.range 8).filter fun c => bitAt (h.starter.trained.getD 0) c && !bitAt h.store.out c

/-- Step 5: the training result is applied and the channels are mapped (R170). -/
def Half.mapChannels (h : Half) (t : Nat) : Half :=
  let good := h.goodChannels
  let mask := (good.map fun c => 2 ^ c).sum
  let n := good.length
  let h1 := h.sets [(F.FST_CHMAP_FAILED, 255 - mask), (F.FST_CHMAP_INSERVICE, if 7 ≤ n then mask else 0), (F.FST_CHMAP_N, if 7 ≤ n then n else 0)]
  let failed := (List.range 8).filter fun c => !good.contains c
  let h2 := failed.foldl (fun (h : Half) c => h.fault t clsMem 2 c (h.memDetail 0)) h1
  (if n = 7 then h2.ownCauses 0 (h2.flag F.PACE_SHED_OWNPACE) true else h2).followAllNosig t

/-- Step 6 begins: the regulator is set, and every engine starts at its ENTRY (R126, R354). -/
def Half.startEngines (h : Half) (t : Nat) : Half :=
  (h.commandVcore t 80).forBelow 4 fun h n => (h.set (F.ENG_STATE_OWN n) 1).engineBegins t n false

/-- Step 6 ends: the steward watchdog is armed (R53). -/
def Half.armDog (h : Half) (t : Nat) : Half :=
  let h1 := h.set F.RST_WDOG_ARMED 1
  { h1 with starter := { h1.starter with wdogAt := t } }

/-- Step 7 begins: the ports are configured from the plan and the sources enabled (R60, R163). -/
def Half.startPorts (h : Half) (t : Nat) : Half :=
  let h0 : Half := { h with starter := { h.starter with step7From := t } }
  let h1 := h0.forBelow 24 (Half.configurePort t)
  let h2 := [0, 1].foldl (fun (h : Half) r => if (h.ring r).plan.isSome then h.set (F.RNG_BYPASS_LIMIT r) (runLimit (h.ringRate r)) else h) h1
  h2.forBelow h2.sources.length fun h i => h.sourceEnable t i true

/-- Step 7: every lane named by the port plan is up, mapped out, or has tried for 20 ms; an SDI port never holds it up (R116). -/
def Half.lanesDone (h : Half) (t : Nat) : Bool :=
  decide (h.starter.step7From + 20 * msNs ≤ t) || (List.range 24).all fun p =>
    let s := h.laneState p
    (h.portRec p).role == 0 || (h.portRec p).role == 2 || s == lsUp || s == lsMappedOut || s == lsPattern || s == lsSdiLock

/-- Step 8 begins for a ring role: the rings are to be joined (R294). -/
def Half.startRings (h : Half) (t strap : Nat) : Half :=
  let h0 : Half := { h with starter := { h.starter with step8From := t } }
  let h1 := if 2 ≤ strapRole strap then h0.joinEnable 0 true else h0
  if strapRole strap = 3 then h1.joinEnable 1 true else h1

/-- Step 8: joined, isolated after 1,000 ms, or without a ring. -/
def Half.ringsDone (h : Half) (strap : Nat) : Bool := decide (strapRole strap < 2) || h.ringDone || h.starter.ready.contains 8

/-- Step 9 begins: a grandmaster domain starts from the other domain where that is tracked (R318). -/
def Half.startTime (h : Half) (t : Nat) : Half :=
  let h0 : Half := { h with starter := { h.starter with step9From := t } }
  (h0.gmBegin t .a).gmBegin t .b

/-- Step 9: both domains tracked, or 1,000 ms passed. -/
def Half.timeDone (h : Half) : Bool :=
  (h.time.a.st == .tracked && h.time.b.st == .tracked) || h.starter.ready.contains 9

/-- Step 10 begins: the panel block runs and its panel is initialised (R258). -/
def Half.startPanel (h : Half) (t : Nat) : Half := h.pnlRun t true

/-- Step 10: READY and KAECHO have arrived on the half's own sub-link, whose link is up: a live sub-link whose link is down holds the
step. -/
def Half.panelDone (h : Half) : Bool := h.panelUp && h.starter.gotReady && h.starter.gotKaecho

/-- A step of a half that is marked as done by an event. -/
def Half.markReady (h : Half) (n : Nat) : Half :=
  if h.starter.ready.contains n then h else { h with starter := { h.starter with ready := n :: h.starter.ready } }

/-! ## The module start (R60) -/

/-- The halves that a module start takes through its steps. -/
def Module.starters (m : Module) : List HalfId :=
  [HalfId.h0, HalfId.h1].filter fun h => !(m.half h).inReset && (m.half h).mode == modeStart

/-- Changes each half of a list. -/
def Module.each (m : Module) (hs : List HalfId) (f : Half → Half) : Module := hs.foldl (fun (m : Module) h => m.onHalf h f) m

/-- The module is RUNNING: every half that has started declares it and seals its RWS fields (R7, R60). -/
def Module.declareRunning (m : Module) (t : Nat) (hs : List HalfId) : Module :=
  let m1 := m.each hs fun h => (h.set F.RST_STATE_MODE modeRunning).endStep t 12
  m1.onLamp fun (l : Lamp) => Lamp.enter { l with runningAt := t } t .running

/-- Halves without 7 channels: alone it is held in reset with cause 16; both of them stop the start at step 5 (R170). -/
def Module.holdShort (m : Module) (t : Nat) (hs : List HalfId) : Module :=
  let bad := hs.filter fun h => (m.half h).get F.FST_CHMAP_N == 0
  match bad with
  | [h] => if hs.length = 2 then m.applyHalfReset t h [16] .frameStore else m
  | _ => m

/-- Whether step `k` of a module start can be completed by the halves `hs`. "Both stewards report" at step 6 is taken as the first
ENG_BEAT of the steward of each half, and the first flip of step 11 as a flipped BLANKING on each half's own sub-link (log
entry 113). -/
def Module.stepDone (m : Module) (t : Nat) (hs : List HalfId) (k : Nat) : Bool :=
  let all (p : Half → Bool) : Bool := hs.all fun h => p (m.half h)
  match k with
  | 2 => all Half.islandsDone
  | 3 => m.half0.load.isSome || m.half1.load.isSome || all fun h => h.image.isSome
  | 4 => all Half.placedDone
  | 5 => all fun h => h.starter.trained.isSome
  | 6 => all fun h => (h.engine 0).beaten
  | 7 => all fun h => h.lanesDone t
  | 8 => all fun h => h.ringsDone m.lamp.strap
  | 9 => all Half.timeDone
  | 10 => all Half.panelDone
  | 11 => all fun h => h.starter.ready.contains 11
  | _ => false

/-- The actions at the end of step `k`, with those that begin the step after it. -/
def Module.afterStep (m : Module) (t : Nat) (hs : List HalfId) (k : Nat) : Module :=
  match k with
  | 2 => m.ldr [(F.LDR_STATUS_STATE, ldsSfdp)]
  | 3 => m.onLamp fun (l : Lamp) => { l with step3At := some t }
  | 4 => (m.each hs fun (h : Half) => { h with starter := { h.starter with step4At := t } }).onLamp
      fun (l : Lamp) => { l with step4At := some t }
  | 5 =>
    let m1 := (m.each hs fun h => h.mapChannels t).holdShort t hs
    let rest := m1.starters
    if rest.all fun h => (m1.half h).get F.FST_CHMAP_N == 0 then m1 else m1.each rest fun h => h.startEngines t
  | 6 =>
    let m1 := m.each hs fun h => h.armDog t
    (hs.foldl (fun (m : Module) h => m.flushRecs t h) m1).each hs fun h => h.startPorts t
  | 7 => m.each hs fun h => (h.startRings t m.lamp.strap).scanAfterStart
  | 8 => m.each hs fun h => h.startTime t
  | 9 => m.each hs fun h => h.startPanel t
  | 11 => m.declareRunning t hs
  | _ => m

/-- One further step of a module start, if it is done. -/
def Module.startStep (m : Module) (t : Nat) : Module :=
  let hs := m.starters
  match hs with
  | [] => m
  | h :: _ =>
    let k := (m.half h).step + 1
    let stuck := decide (6 ≤ k) && hs.all fun x => (m.half x).get F.FST_CHMAP_N == 0
    if m.lamp.phase = .starting ∧ stuck = false ∧ m.stepDone t hs k then
      (m.each hs fun x => x.endStep t k).afterStep t hs k
    else m

/-! ## The half start (R61) -/

/-- Whether step `k` of a half start can be completed. -/
def Half.halfStepDone (h : Half) (t k : Nat) : Bool := match k with
  | 2 => h.islandsDone
  | 4 => h.placedDone
  | 5 => h.starter.trained.isSome
  | 6 => (h.engine 0).beaten
  | 7 => h.lanesDone t
  | _ => false

/-- The actions after step `k` of a half start. -/
def Module.afterHalfStep (m : Module) (t : Nat) (h : HalfId) (k : Nat) : Module := match k with
  | 2 => (m.onHalf h fun (x : Half) => { x with starter := { x.starter with step4From := t } }).ldr [(F.LDR_STATUS_STATE, ldsSfdp)]
  | 4 => m.onHalf h fun (x : Half) => { x with starter := { x.starter with step4At := t } }
  | 5 =>
    let m1 := m.onHalf h fun x => x.mapChannels t
    if (m1.half h).get F.FST_CHMAP_N = 0 then m1.requestHalfReset t h [16] .frameStore
    else m1.onHalf h fun x => x.startEngines t
  | 6 => ((m.onHalf h fun x => x.armDog t).flushRecs t h).onHalf h fun x => x.startPorts t
  | 7 => m.onHalf h fun x => (((x.startRings t m.lamp.strap).scanAfterStart).startTime t).startPanel t
  | _ => m

/-- The step after `k` in a half start, which runs steps 2, 4, 5, 6 and 7. -/
def nextHalfStep (k : Nat) : Nat := if k = 2 then 4 else if k < 2 then 2 else k + 1

/-- One further step of the start of half `h`, if it is done. -/
def Module.halfStep (m : Module) (t : Nat) (h : HalfId) : Module :=
  let x := m.half h
  let k := nextHalfStep x.step
  if !x.inReset && x.mode == modeHalfStart && x.halfStepDone t k then (m.onHalf h fun x => x.endStep t k).afterHalfStep t h k else m

/-! ## Lane test (R58) -/

/-- Step 7 of lane test: PRBS31 with checkers on every port, and every west ring port asks for its pair to open. -/
def Half.laneTestPorts (h : Half) : Half := (h.forBelow 24 Half.laneTestPort).askOpen true

/-- The halves that lane test takes through steps 2 and 7. -/
def Module.laneTesters (m : Module) : List HalfId :=
  [HalfId.h0, HalfId.h1].filter fun h => !(m.half h).inReset && (m.half h).mode == modeLaneTest && decide ((m.half h).step < 2)

/-- One further step of lane test. -/
def Module.laneTestStep (m : Module) (t : Nat) : Module :=
  let hs := m.laneTesters
  if m.lamp.phase = .laneTest ∧ hs.all (fun h => (m.half h).islandsDone) then
    m.each hs fun h => ((h.endStep t 2).laneTestPorts).endStep t 7
  else m

/-! ## Progress -/

/-- The steps that are done at time `t` are completed, in every start in progress. -/
def Module.advance (m : Module) (t : Nat) : Module :=
  let m1 := (List.range 11).foldl (fun (m : Module) _ => m.startStep t) (m.laneTestStep t)
  let m2 := (List.range 5).foldl (fun (m : Module) _ => m.halfStep t .h0) m1
  (List.range 5).foldl (fun (m : Module) _ => m.halfStep t .h1) m2

/-- A half is marked and the start goes on. -/
def Module.markStep (m : Module) (t : Nat) (h : HalfId) (n : Nat) : Module := (m.onLive h fun x => x.markReady n).advance t

/-- Every half of the module start is marked, and the start goes on. -/
def Module.stepTimeout (m : Module) (t n : Nat) : Module :=
  let hs := m.starters.filter fun h => (m.half h).step + 1 == n
  (m.each hs fun x => x.markReady n).advance t

/-! ## Limits (R60, R61, R63, R64) -/

/-- The limit of steps 1 to 3. -/
def Module.steps13Limit (m : Module) (t : Nat) : Module :=
  if m.lamp.phase.inStart ∧ m.half0.step < 3 then m.loadFalseStart t 12 else m

/-- The start limit, 4 s from the end of step 4. -/
def Module.startLimit (m : Module) (t : Nat) : Module :=
  if m.lamp.phase = .starting ∧ m.lamp.step4At.isSome then m.loadFalseStart t 12 else m

/-- The half start limit: a half that has not reached baton exchange makes a half false start. -/
def Module.halfStartLimit (m : Module) (t : Nat) (h : HalfId) : Module :=
  let x := m.half h
  if !x.inReset && x.mode == modeHalfStart && decide (4 ≤ x.step) && !(x.link.exchanged && (m.half h.peer).link.exchanged) then
    m.halfFalseStart t h
  else m

/-- The half false-start count of a half clears after 60 s of baton exchange. -/
def Module.halfFsClear (m : Module) (t : Nat) (h : HalfId) : Module :=
  let x := m.half h
  if !x.inReset && x.link.exchanged && (m.half h.peer).link.exchanged && decide (x.link.exchangedAt + 60 * secNs ≤ t) then
    m.onLamp fun l => l.onHalf h fun (y : LampHalf) => { y with falseStarts := 0 }
  else m

/-- Training of the frame store has ended in half `h` (R170). -/
def Module.trainingDone (m : Module) (t : Nat) (h : HalfId) (passed : Nat) : Module :=
  let x := m.half h
  if x.inReset || x.starter.trained.isSome || !x.islandsDone then m
  else (m.onHalf h fun (x : Half) => { x with starter := { x.starter with trained := some (passed % 256) } }).advance t

end Sys2Proof.Machine
end

