-- ==== Sys2Proof/Machine/Deliver.lean ====
section
/-!
DEFINITION. Where arriving cells go, on a panel sub-link (R249), a ring (R281) and a native link (R150), and what a blanking
report and a lap boundary mean for the whole module.
-/
namespace Sys2Proof.Machine

/-! ## Halves and requesters -/

/-- A half changed by an operation that also ends changes of requesters. -/
def Module.finishing (m : Module) (h : HalfId) (w : Half × List Finish) : Module := (m.setHalf h w.1).finishAll w.2

/-! ## Blanking reports at the module -/

/-- Step 11 of a start is done at the first flip (R60): for each starting half a flipped BLANKING on its own sub-link (log entry
113). -/
def Module.firstFlip (m : Module) (t : Nat) (h : HalfId) (flipped : Bool) : Module :=
  let x := m.half h
  if flipped && x.mode == modeStart && x.step == 10 && x.lapBegun then m.markStep t h 11 else m

/-- The half takes its peer's reports over the half link (R272, R275): its own sub-link is down, or is back with KEPT set and without its
READY. -/
def Half.borrows (h : Half) : Bool := h.lapBegun && (!h.panelUp || (h.panel.waiting && h.panel.rejoin == some true))

/-- A half that borrows reports takes this one of its peer. -/
def Module.lendReport (m : Module) (t : Nat) (h : HalfId) (f : PanelFlags) (c : BlankingCell) (tb : Int) : Module :=
  let p := m.half h.peer
  if linkOk (m.half h) p && p.borrows then
    (m.finishing h.peer (p.takeReport t f c tb)).mirrorStatus t h.peer
  else m

/-- What a report that half `h` has taken means beyond the half: GRANT (R368), touch status (R406), the peer (R275) and step 11. -/
def Module.afterReport (m : Module) (t : Nat) (h : HalfId) (f : PanelFlags) (c : BlankingCell) (stamp : Nat) : Module :=
  let tb := (m.half h).blankTime stamp
  let m1 := (m.clearGrant h c).mirrorStatus t h
  (m1.lendReport t h f c tb).firstFlip t h c.flipped

/-- A BLANKING cell of the panel sub-link of half `h` (R268). -/
def Module.blanking (m : Module) (t : Nat) (h : HalfId) (f : PanelFlags) (c : BlankingCell) (stamp : Nat) : Module :=
  let x := m.half h
  if x.inReset then m
  else
    let m1 := m.finishing h (x.blankingArrives t f c stamp)
    if x.panel.echoed then m1.afterReport t h f c stamp else m1

/-- A KAECHO cell (R252): reports held until now count. -/
def Module.kaecho (m : Module) (t : Nat) (h : HalfId) (f : PanelFlags) (token stamp : Nat) : Module :=
  let x := m.half h
  if x.inReset then m
  else
    let m1 := m.finishing h (x.kaechoArrives t f token stamp)
    let held := if (m1.half h).panel.held = [] then x.panel.held.filter fun y => !y.1 else []
    (held.foldl (fun (m : Module) y => m.afterReport t h y.2.2.1 y.2.1 y.2.2.2) m1).advance t

/-! ## Laps at the module -/

/-- Where the time island of half `h` places its next boundary, local base (R253): A(L) or one period on; lap 0 at the blanking of READY, the
later one where both sub-links have sent it; the first boundary of a half start at the coming whole period from the last blanking. -/
def Module.placed (m : Module) (t : Nat) (h : HalfId) : Option Int :=
  let x := m.half h
  if x.lapBegun then some (x.boundaryAhead 1)
  else if x.mode = modeHalfStart then x.lap.blank.map fun b =>
    let p := max 1 (x.get F.AGE_PERIOD_NS)
    b.1 + ((p * max 1 (ceilDiv ((x.lb t : Int) - b.1).toNat p) : Nat) : Int)
  else ([HalfId.h0, HalfId.h1].filterMap fun k =>
    if (m.half k).inReset then none else (m.half k).panel.readyTb).foldl
      (fun (a : Option Int) b => some ((a.map fun x => max x b).getD b)) none

/-- That boundary as a stamp; the present time where nothing places one. -/
def Module.boundaryStamp (m : Module) (t : Nat) (h : HalfId) : Nat := ((m.placed t h).map Int.toNat).getD ((m.half h).lb t)

/-- A lap boundary of half `h` (R174, R383): the events of the lap before are sent. -/
def Module.lapTick (m : Module) (t : Nat) (h : HalfId) (stamp : Nat) : Module :=
  let x := m.half h
  if x.inReset then m
  else
    let w := m.lapBoundary t h stamp
    let m1 := w.1.finishAll w.2
    if (m1.half h).get F.RBK_LAP_LAP = x.get F.RBK_LAP_LAP ∧ (m1.half h).lapBegun = x.lapBegun then m1
    else m1.flushEvents t h

/-- MODE_CHANGE_TIMEOUT at half `h` (R274): when the former mode is not reported either, both halves stop their keepalives. -/
def Module.modeTimeout (m : Module) (t : Nat) (h : HalfId) : Module :=
  let second := ((m.half h).panel.change.map fun c => c.back).getD false
  let m1 := m.finishing h ((m.half h).modeTimeout t)
  if second then m1.onLive h.peer Half.fallSilent else m1

/-! ## Panel status cells (R249) -/

/-- The flags of a panel status cell. -/
def panelFlags (c : Cell) : PanelFlags :=
  { reqAll := c.field 20 1 == 1, shutter := c.field 21 1 == 1, pfault := c.field 22 1 == 1, mode := c.field 24 8 }

/-- An IDENT's payload. -/
def identOf (b : List Byte) : PanelIdent :=
  { pversion := beAt b 0 2, width := beAt b 2 2, height := beAt b 4 2, modes := byteAt b 6, sublinks := byteAt b 7
    kept := bitAt (byteAt b 24) 0 }

/-- A mode record (R250). -/
def modeRecOf (b : List Byte) : ModeRecord :=
  { mode := byteAt b 0, cutLines := byteAt b 1, refresh := beAt b 2 2, period := beAt b 4 4, scanOut := beAt b 8 4
    vTotal := beAt b 12 2, vActive := beAt b 14 2, flipErr := beAt b 16 2, flipPpm := beAt b 18 2, rptLat := beAt b 20 4
    turn := beAt b 24 2, reserved := beAt b 26 6 }

/-- A BLANKING or READY cell. -/
def blankingOf (c : Cell) : BlankingCell :=
  let b := byteAt c.payload 0
  { flipCount := c.field 32 32, lapCommit := c.field 64 32, flipped := bitAt b 0, late := bitAt b 1, newMode := bitAt b 2
    missing := beAt c.payload 4 2 }

/-- A cell arrives on the panel sub-link: a status cell by its KIND; reserved KINDs are ignored (R249). -/
def Module.panelCell (m : Module) (t : Nat) (h : HalfId) (c : Cell) (stamp : Nat) : Module :=
  let f := panelFlags c
  if c.type ≠ 12 then m
  else match c.field 16 4 with
    | 0 => m.onLive h fun x => x.identArrives t f (identOf c.payload)
    | 1 => m.onLive h fun x => x.modeArrives t f (modeRecOf c.payload)
    | 2 => (m.onLive h fun x => x.readyArrives t f (blankingOf c) stamp).advance t
    | 3 => m.blanking t h f (blankingOf c) stamp
    | 4 => (m.onLive h fun x => x.echoArrives t f (c.field 32 32) (c.field 64 32) (byteAt c.payload 0)).advance t
    | 5 => m.kaecho t h f (c.field 32 16) stamp
    | 6 => m.onLive h fun x => x.panelFault t f (c.field 32 8)
    | _ => m

/-! ## Time cells between neighbours (R313) -/

/-- A PDREQ or PDRESP that arrives across a segment, or on a bridge link `r - 2`. -/
def Module.delayCell (m : Module) (h : HalfId) (r : Nat) (side : Side) (c : Cell) (stamp : Nat) : Module :=
  match c.field 16 4 with
  | 2 => m.onLive h fun x => x.pdreqArrives r side (c.field 36 16) stamp
  | 3 => m.onLive h fun x => x.pdrespArrives r side (c.field 36 16) (beAt c.payload 0 8) (beAt c.payload 8 8) stamp
  | _ => m

/-! ## Ring cells -/

/-- A cell that a station takes out of its ring or copies. -/
def Module.takenCell (m : Module) (t : Nat) (h : HalfId) (r : Nat) (side : Side) (stamp : Nat) (c : Cell) : Module :=
  match c.type with
  | 1 => (m.tileCell t h (.ring r) (tileOfCell c) stamp).onLive h fun x => x.forwardCell r c
  | 2 => (m.tileCell t h (.ring r) (tileOfCell c) stamp).onLive h fun x => x.forwardCell r c
  | 3 => m.delayCell h r side c stamp
  | 14 => match c.field 16 4 with
    | 1 => m.onLive h fun x => x.joinArrives r (joinOf c)
    | 2 => m.onLive h fun x => x.joinAckArrives t r (c.field 34 14) (c.field 64 8)
    | 3 => m.onLive h fun x => x.leaveArrives r (c.field 20 14)
    | _ => m
  | 4 => m.mgmtCell t h r true c
  | 5 => m.mgmtCell t h r true c
  | 6 => m.mgmtCell t h r true c
  | _ => m

/-- A cell arrives on a ring link. -/
def Module.ringLinkCell (m : Module) (t : Nat) (h : HalfId) (r : Nat) (side : Side) (pos : Nat) (c : Cell) (stamp : Nat) : Module :=
  let w := m.ringCell t h r side pos c stamp
  (w.2.foldl (fun (m : Module) c => m.takenCell t h r side stamp c) w.1).advance t

/-! ## Native links -/

/-- The native links of a half: tile cells, and the time cells of a camera bridge. -/
def Module.nativeCell (m : Module) (t : Nat) (h : HalfId) (l : Nat) (c : Cell) (stamp : Nat) : Module :=
  let first := if l < 16 then ((m.half h).linkRec l).first else l - 16
  match c.type with
  | 1 => m.tileCell t h (.native first) (tileOfCell c) stamp
  | 2 => m.tileCell t h (.native first) (tileOfCell c) stamp
  | 3 => if l < 16 ∧ ((m.half h).linkRec l).kind = 6 then m.delayCell h (l + 2) .west c stamp else m
  | _ => m

/-! ## Any link -/

/-- A time cell of a reserved KIND, or of a DOMAIN that its link does not carry, or a ring control cell of a reserved OP (R282,
R310). -/
def Cell.reserved (c : Cell) (ring : Bool) : Bool :=
  (c.type == 3 && (decide (3 < c.field 16 4) || decide (2 - bit ring < c.field 20 2)))
    || (c.type == 14 && decide (3 < c.field 16 4))

/-- The block of a link is isolated for a block reset, so that its stream crossing refuses every unit whole (R137). The manual names no
tally of such units (log entry 126). -/
def Half.refusesUnit (h : Half) (l : Nat) : Bool :=
  h.isolates (if l < 16 ∧ (h.linkRec l).kind = 1 then F.PNL_CTRL_word.off
    else if (h.ringSide l).isSome then (F.RNG_CTRL_word 0).off else (F.INK_SCTRL_word 0).off)

/-- A cell of a whole row goes to the block of its link. A reserved one is discarded and counted as a CRC error, and one of type 15,
which its lane has counted (R103), is discarded: its slot on a ring goes on empty. -/
def Module.linkCell (m : Module) (t : Nat) (h : HalfId) (l pos : Nat) (c : Cell) (stamp : Nat) : Module :=
  let count (m : Module) : Module := m.onHalf h fun x =>
    x.laneCount (if l < 16 then (x.linkRec l).first + pos else l - 16) 0 1
  if (m.half h).inReset || (m.half h).refusesUnit l then m
  else if l < 16 ∧ ((m.half h).linkRec l).kind = 1 then m.panelCell t h c stamp
  else match (m.half h).ringSide l with
    | some (r, side) => if c.reserved true then (count m).ringLinkCell t h r side pos emptySlot stamp
        else if c.type = 15 then m.ringLinkCell t h r side pos emptySlot stamp
        else m.ringLinkCell t h r side pos c stamp
    | none => if c.reserved false then count m else if c.type = 15 then m else m.nativeCell t h l c stamp

/-- A cell of a ring link passes the RING point (R333): SEL west and east link of the first ring, then of a second; FILTER the source of
tile cells. One that the crossing refuses is cut short (R335). -/
def Module.ringPoint (m : Module) (h : HalfId) (l lseq : Nat) (c : Cell) : Module := m.onLive h fun x => match x.ringSide l with
  | none => x
  | some (r, side) =>
    let takes (s f : Nat) : Bool := s == segIndex r side && identTaken (if c.isTile then some (c.field 16 12) else none) f
    if c = lostCell then x
    else if x.refusesUnit l then x.cvuAbort 3 takes
    else x.cvuTake 3 takes (some ((c.bytes lseq).take 252)) 0

/-- What the ports report. -/
def Module.laneEvent (m : Module) (t : Nat) (h : HalfId) : LaneEvent → Module
  | .cell l pos lseq c stamp => (m.ringPoint h l lseq c).linkCell t h l pos c stamp
  | .linkDown l => m.onLive h fun x => x.linkGoesDown t l
  | .linkUp l => m.onLive h fun x => x.linkComesUp t l
  | .dropped p => m.onLive h fun x => x.laneDropped p

/-- An operation on the ports of half `h` with its reports, after which a start may go on (R60 step 7). -/
def Module.ports (m : Module) (t : Nat) (h : HalfId) (f : Half → Half × List LaneEvent) : Module :=
  if (m.half h).inReset then m
  else
    let w := f (m.half h)
    (w.2.foldl (fun (m : Module) e => m.laneEvent t h e) (m.setHalf h w.1)).advance t

/-- ADDR of the idle cells of a link (R104): the station address on the link's ring, on the first ring otherwise. -/
def Half.linkAddr (h : Half) (l : Nat) : Nat := match h.ringSide l with
  | some (r, _) => h.ringAddr r
  | none => h.ringAddr 0

/-- A closed bypass pair holds the transmitters of a link (R121). -/
def Half.linkClosed (h : Half) (l : Nat) : Bool := (h.linkRec l).portList.any h.pairClosed

/-- What the transmit mark of a cell at time `t` means (R309): time cells, and the send time of a KEEPALIVE (R252). -/
def Half.markCell (h : Half) (t l : Nat) (c : Cell) : Half × Cell :=
  let lb := h.lb t
  if l < 16 ∧ (h.linkRec l).kind = 1 then (if c.type = 11 ∧ c.field 16 4 = 0 then h.keepaliveSent (c.field 20 16) lb else h, c)
  else if c.type ≠ 3 then (h, c)
  else match h.ringSide l with
    | some (r, side) => h.markTime r side lb c
    | none => (h, h.markBridge lb c)

/-- One cell time of a link (R108): a ring link first takes its next row, unless its pairs are closed (R121). -/
def Half.cellTime (h : Half) (t l : Nat) : Half :=
  let h1 := if l < 16 ∧ !h.linkClosed l then h.feedRing t l else h
  h1.txRow l (h1.linkAddr l) fun h c => h.markCell t l c

end Sys2Proof.Machine
end

