-- ==== Sys2Proof/Machine/Rv.lean ====
section
/-!
DEFINITION. The instruction set of the engines (R352): RV32I with the M and C extensions and the machine-mode control
registers, decoded from 32-bit and 16-bit words, with the arithmetic of each. The encodings are those of the RISC-V manuals
that R352 names.
-/
namespace Sys2Proof.Machine

/-- Integer operations of RV32I. -/
inductive Alu where
  | add | sub | sll | slt | sltu | xor | srl | sra | or | and
  deriving DecidableEq, Repr

/-- Operations of the M extension. -/
inductive MulOp where
  | mul | mulh | mulhsu | mulhu | div | divu | rem | remu
  deriving DecidableEq, Repr

/-- Branch conditions. -/
inductive Cond where
  | eq | ne | lt | ge | ltu | geu
  deriving DecidableEq, Repr

/-- Control-register operations. -/
inductive CsrOp where
  | rw | rs | rc
  deriving DecidableEq, Repr

/-- A decoded instruction: register numbers and sign-extended immediates. -/
inductive Rv where
  | lui (rd : Nat) (imm : Word)
  | auipc (rd : Nat) (imm : Word)
  | jal (rd : Nat) (off : Word)
  | jalr (rd rs1 : Nat) (off : Word)
  | branch (c : Cond) (rs1 rs2 : Nat) (off : Word)
  /-- bytes 1, 2 or 4; sign extended or not -/
  | load (bytes : Nat) (sign : Bool) (rd rs1 : Nat) (off : Word)
  | store (bytes : Nat) (rs1 rs2 : Nat) (off : Word)
  | opImm (op : Alu) (rd rs1 : Nat) (imm : Word)
  | op (op : Alu) (rd rs1 rs2 : Nat)
  | mulDiv (op : MulOp) (rd rs1 rs2 : Nat)
  | fence
  | ecall
  | ebreak
  | mret
  | wfi
  /-- source register number, or the 5-bit immediate -/
  | csr (op : CsrOp) (imm : Bool) (rd src num : Nat)
  | illegal
  deriving DecidableEq, Repr

/-- A two's complement immediate of `w` bits as a word. -/
def simm (w v : Nat) : Word := BitVec.ofInt 32 (signed w v)

/-- Immediate of the I format. -/
def immI (x : Nat) : Word := simm 12 (bitsAt x 20 12)

/-- Immediate of the S format. -/
def immS (x : Nat) : Word := simm 12 (bitsAt x 25 7 * 32 + bitsAt x 7 5)

/-- Immediate of the B format. -/
def immB (x : Nat) : Word :=
  simm 13 (bitsAt x 31 1 * 4096 + bitsAt x 7 1 * 2048 + bitsAt x 25 6 * 32 + bitsAt x 8 4 * 2)

/-- Immediate of the U format. -/
def immU (x : Nat) : Word := BitVec.ofNat 32 (bitsAt x 12 20 * 4096)

/-- Immediate of the J format. -/
def immJ (x : Nat) : Word :=
  simm 21 (bitsAt x 31 1 * 2 ^ 20 + bitsAt x 12 8 * 4096 + bitsAt x 20 1 * 2048 + bitsAt x 21 10 * 2)

/-- Branch condition of funct3. -/
def condOf : Nat → Option Cond
  | 0 => some .eq
  | 1 => some .ne
  | 4 => some .lt
  | 5 => some .ge
  | 6 => some .ltu
  | 7 => some .geu
  | _ => none

/-- Register and immediate operation of funct3 and of the alternate bit (funct7 0x20). -/
def aluOf (f3 : Nat) (alt : Bool) : Alu := match f3 with
  | 0 => if alt then .sub else .add
  | 1 => .sll
  | 2 => .slt
  | 3 => .sltu
  | 4 => .xor
  | 5 => if alt then .sra else .srl
  | 6 => .or
  | _ => .and

/-- Operation of the M extension of funct3. -/
def mulOf : Nat → MulOp
  | 0 => .mul
  | 1 => .mulh
  | 2 => .mulhsu
  | 3 => .mulhu
  | 4 => .div
  | 5 => .divu
  | 6 => .rem
  | _ => .remu

/-- Loads of funct3. -/
def decodeLoad (x rd rs1 : Nat) : Rv := match bitsAt x 12 3 with
  | 0 => .load 1 true rd rs1 (immI x)
  | 1 => .load 2 true rd rs1 (immI x)
  | 2 => .load 4 true rd rs1 (immI x)
  | 4 => .load 1 false rd rs1 (immI x)
  | 5 => .load 2 false rd rs1 (immI x)
  | _ => .illegal

/-- Stores of funct3. -/
def decodeStore (x rs1 rs2 : Nat) : Rv := match bitsAt x 12 3 with
  | 0 => .store 1 rs1 rs2 (immS x)
  | 1 => .store 2 rs1 rs2 (immS x)
  | 2 => .store 4 rs1 rs2 (immS x)
  | _ => .illegal

/-- Register-immediate operations. -/
def decodeOpImm (x rd rs1 : Nat) : Rv :=
  let f3 := bitsAt x 12 3
  let f7 := bitsAt x 25 7
  if f3 = 1 then (if f7 = 0 then .opImm .sll rd rs1 (BitVec.ofNat 32 (bitsAt x 20 5)) else .illegal)
  else if f3 = 5 then
    (if f7 = 0 then .opImm .srl rd rs1 (BitVec.ofNat 32 (bitsAt x 20 5))
     else if f7 = 0x20 then .opImm .sra rd rs1 (BitVec.ofNat 32 (bitsAt x 20 5)) else .illegal)
  else .opImm (aluOf f3 false) rd rs1 (immI x)

/-- Register-register operations. -/
def decodeOp (x rd rs1 rs2 : Nat) : Rv :=
  let f3 := bitsAt x 12 3
  let f7 := bitsAt x 25 7
  if f7 = 0 then .op (aluOf f3 false) rd rs1 rs2
  else if f7 = 1 then .mulDiv (mulOf f3) rd rs1 rs2
  else if f7 = 0x20 ∧ (f3 = 0 ∨ f3 = 5) then .op (aluOf f3 true) rd rs1 rs2
  else .illegal

/-- System instructions: environment call, breakpoint, return, wait and control-register access. -/
def decodeSystem (x rd rs1 : Nat) : Rv :=
  match bitsAt x 12 3 with
  | 0 =>
    if x = 0x00000073 then .ecall
    else if x = 0x00100073 then .ebreak
    else if x = 0x30200073 then .mret
    else if x = 0x10500073 then .wfi
    else .illegal
  | 1 => .csr .rw false rd rs1 (bitsAt x 20 12)
  | 2 => .csr .rs false rd rs1 (bitsAt x 20 12)
  | 3 => .csr .rc false rd rs1 (bitsAt x 20 12)
  | 5 => .csr .rw true rd rs1 (bitsAt x 20 12)
  | 6 => .csr .rs true rd rs1 (bitsAt x 20 12)
  | 7 => .csr .rc true rd rs1 (bitsAt x 20 12)
  | _ => .illegal

/-- A 32-bit instruction word. -/
def decode32 (x : Nat) : Rv :=
  let rd := bitsAt x 7 5
  let rs1 := bitsAt x 15 5
  let rs2 := bitsAt x 20 5
  match bitsAt x 0 7 with
  | 0x37 => .lui rd (immU x)
  | 0x17 => .auipc rd (immU x)
  | 0x6F => .jal rd (immJ x)
  | 0x67 => if bitsAt x 12 3 = 0 then .jalr rd rs1 (immI x) else .illegal
  | 0x63 => match condOf (bitsAt x 12 3) with
    | some c => .branch c rs1 rs2 (immB x)
    | none => .illegal
  | 0x03 => decodeLoad x rd rs1
  | 0x23 => decodeStore x rs1 rs2
  | 0x13 => decodeOpImm x rd rs1
  | 0x33 => decodeOp x rd rs1 rs2
  | 0x0F => if bitsAt x 12 3 = 0 then .fence else .illegal
  | 0x73 => decodeSystem x rd rs1
  | _ => .illegal

/-- Quadrant 0 of the C extension. -/
def decodeC0 (x : Nat) : Rv :=
  let rd' := 8 + bitsAt x 2 3
  let rs' := 8 + bitsAt x 7 3
  let off := BitVec.ofNat 32 (bitsAt x 5 1 * 64 + bitsAt x 10 3 * 8 + bitsAt x 6 1 * 4)
  match bitsAt x 13 3 with
  | 0 =>
    let imm := bitsAt x 7 4 * 64 + bitsAt x 11 2 * 16 + bitsAt x 5 1 * 8 + bitsAt x 6 1 * 4
    if imm = 0 then .illegal else .opImm .add rd' 2 (BitVec.ofNat 32 imm)
  | 2 => .load 4 true rd' rs' off
  | 6 => .store 4 rs' rd' off
  | _ => .illegal

/-- The jump offset of C.J and C.JAL. -/
def immCJ (x : Nat) : Word :=
  simm 12 (bitsAt x 12 1 * 2048 + bitsAt x 8 1 * 1024 + bitsAt x 9 2 * 256 + bitsAt x 6 1 * 128 + bitsAt x 7 1 * 64
    + bitsAt x 2 1 * 32 + bitsAt x 11 1 * 16 + bitsAt x 3 3 * 2)

/-- The branch offset of C.BEQZ and C.BNEZ. -/
def immCB (x : Nat) : Word :=
  simm 9 (bitsAt x 12 1 * 256 + bitsAt x 5 2 * 64 + bitsAt x 2 1 * 32 + bitsAt x 10 2 * 8 + bitsAt x 3 2 * 2)

/-- The arithmetic row of quadrant 1. -/
def decodeC1Alu (x : Nat) : Rv :=
  let r := 8 + bitsAt x 7 3
  let s := 8 + bitsAt x 2 3
  let sh := BitVec.ofNat 32 (bitsAt x 2 5)
  match bitsAt x 10 2 with
  | 0 => if bitsAt x 12 1 = 0 then .opImm .srl r r sh else .illegal
  | 1 => if bitsAt x 12 1 = 0 then .opImm .sra r r sh else .illegal
  | 2 => .opImm .and r r (simm 6 (bitsAt x 12 1 * 32 + bitsAt x 2 5))
  | _ =>
    if bitsAt x 12 1 = 0 then
      match bitsAt x 5 2 with
      | 0 => .op .sub r r s
      | 1 => .op .xor r r s
      | 2 => .op .or r r s
      | _ => .op .and r r s
    else .illegal

/-- Quadrant 1 of the C extension. -/
def decodeC1 (x : Nat) : Rv :=
  let rd := bitsAt x 7 5
  let imm := simm 6 (bitsAt x 12 1 * 32 + bitsAt x 2 5)
  match bitsAt x 13 3 with
  | 0 => .opImm .add rd rd imm
  | 1 => .jal 1 (immCJ x)
  | 2 => .opImm .add rd 0 imm
  | 3 =>
    if rd = 2 then
      let v := bitsAt x 12 1 * 512 + bitsAt x 3 2 * 128 + bitsAt x 5 1 * 64 + bitsAt x 2 1 * 32 + bitsAt x 6 1 * 16
      if v = 0 then .illegal else .opImm .add 2 2 (simm 10 v)
    else if imm = 0 then .illegal else .lui rd (imm <<< 12)
  | 4 => decodeC1Alu x
  | 5 => .jal 0 (immCJ x)
  | 6 => .branch .eq (8 + bitsAt x 7 3) 0 (immCB x)
  | _ => .branch .ne (8 + bitsAt x 7 3) 0 (immCB x)

/-- Quadrant 2 of the C extension. -/
def decodeC2 (x : Nat) : Rv :=
  let rd := bitsAt x 7 5
  let rs2 := bitsAt x 2 5
  match bitsAt x 13 3 with
  | 0 => if bitsAt x 12 1 = 0 then .opImm .sll rd rd (BitVec.ofNat 32 rs2) else .illegal
  | 2 =>
    if rd = 0 then .illegal
    else .load 4 true rd 2 (BitVec.ofNat 32 (bitsAt x 2 2 * 64 + bitsAt x 12 1 * 32 + bitsAt x 4 3 * 4))
  | 4 =>
    if bitsAt x 12 1 = 0 then
      if rs2 = 0 then (if rd = 0 then .illegal else .jalr 0 rd 0) else .op .add rd 0 rs2
    else
      if rs2 = 0 then (if rd = 0 then .ebreak else .jalr 1 rd 0) else .op .add rd rd rs2
  | 6 => .store 4 2 rs2 (BitVec.ofNat 32 (bitsAt x 7 2 * 64 + bitsAt x 9 4 * 4))
  | _ => .illegal

/-- A word is 16 bits long when its two low bits are not both 1. -/
def isShort (x : Nat) : Bool := bitsAt x 0 2 ≠ 3

/-- The instruction of a word whose low half, or whole, encodes it. -/
def decodeRv (x : Nat) : Rv := match bitsAt x 0 2 with
  | 0 => decodeC0 (bitsAt x 0 16)
  | 1 => decodeC1 (bitsAt x 0 16)
  | 2 => decodeC2 (bitsAt x 0 16)
  | _ => decode32 x

/-- The integer operations. -/
def Alu.eval (op : Alu) (a b : Word) : Word := match op with
  | .add => a + b
  | .sub => a - b
  | .sll => a <<< (b.toNat % 32)
  | .slt => if a.toInt < b.toInt then 1 else 0
  | .sltu => if a.toNat < b.toNat then 1 else 0
  | .xor => a ^^^ b
  | .srl => a >>> (b.toNat % 32)
  | .sra => BitVec.ofInt 32 (a.toInt / (2 ^ (b.toNat % 32) : Nat))
  | .or => a ||| b
  | .and => a &&& b

/-- The M extension. Division by zero gives all ones and the dividend as remainder; the most negative value divided by −1
gives itself and remainder 0. -/
def MulOp.eval (op : MulOp) (a b : Word) : Word := match op with
  | .mul => a * b
  | .mulh => BitVec.ofInt 32 (a.toInt * b.toInt / (2 ^ 32 : Nat))
  | .mulhsu => BitVec.ofInt 32 (a.toInt * (b.toNat : Int) / (2 ^ 32 : Nat))
  | .mulhu => BitVec.ofNat 32 (a.toNat * b.toNat / 2 ^ 32)
  | .div => if b = 0 then BitVec.ofNat 32 (2 ^ 32 - 1) else BitVec.ofInt 32 (a.toInt.tdiv b.toInt)
  | .divu => if b = 0 then BitVec.ofNat 32 (2 ^ 32 - 1) else BitVec.ofNat 32 (a.toNat / b.toNat)
  | .rem => if b = 0 then a else BitVec.ofInt 32 (a.toInt.tmod b.toInt)
  | .remu => if b = 0 then a else BitVec.ofNat 32 (a.toNat % b.toNat)

/-- Branch conditions. -/
def Cond.holds (c : Cond) (a b : Word) : Bool := match c with
  | .eq => a == b
  | .ne => a != b
  | .lt => decide (a.toInt < b.toInt)
  | .ge => decide (b.toInt ≤ a.toInt)
  | .ltu => decide (a.toNat < b.toNat)
  | .geu => decide (b.toNat ≤ a.toNat)

/-- The new value of a control register. -/
def CsrOp.eval (op : CsrOp) (old v : Word) : Word := match op with
  | .rw => v
  | .rs => old ||| v
  | .rc => old &&& ~~~v

/-- A loaded value of `n` bytes as a register value. -/
def loadExtend (n : Nat) (sign : Bool) (v : Nat) : Word :=
  if sign then BitVec.ofInt 32 (signed (8 * n) v) else BitVec.ofNat 32 (v % 2 ^ (8 * n))

end Sys2Proof.Machine
end

