-- ==== Sys2Proof/Machine/Engine.lean ====
section
/-!
DEFINITION. The engines at work (R352 to R357): fetch, loads and stores in the engine view, traps, control registers and one
instruction. Traps, control registers and instruction meanings that R352 takes from the RISC-V manuals are PRESUMED from them.
-/
namespace Sys2Proof.Machine

/-! ## Registers of an engine -/

/-- Register `r` of an engine; x0 reads 0. -/
def Engine.rd (e : Engine) (r : Nat) : Word := if r = 0 then 0 else e.x.getD r 0

/-- An engine with register `r` written; x0 discards the write. -/
def Engine.wr (e : Engine) (r : Nat) (v : Word) : Engine := if r = 0 then e else { e with x := e.x.set r v }

/-- The instruction at the pc retires and the next one stands `len` bytes on. -/
def Engine.retire (e : Engine) (next : Word) : Engine :=
  let c : Csrs := { e.csr with mcycle := (e.csr.mcycle + 1) % 2 ^ 64, minstret := (e.csr.minstret + 1) % 2 ^ 64 }
  { e with pc := next, csr := c }

/-! ## Interrupts and traps -/

/-- Interrupts pending at engine `n`: bit 3 software, bit 7 timer, bit 11 external (R356, R357). -/
def Half.irqBits (h : Half) (t n : Nat) : Nat :=
  bit (h.flag (F.ENG_SWI_MSIP n)) * 8 + bit (decide ((h.engine n).timecmp ≤ h.lb t)) * 128 + bit (h.claimable n).isSome * 2048

/-- Interrupts pending and enabled. -/
def Half.irqOn (h : Half) (t n : Nat) : Nat := h.irqBits t n &&& (h.engine n).csr.mieBits.toNat

/-- The number of the interrupt that is taken first: external, software, timer. -/
def firstIrq (bits : Nat) : Nat := if bitAt bits 11 then 11 else if bitAt bits 3 then 3 else 7

/-- Engine `n` enters its trap handler: the pc and cause are saved, interrupts are disabled and the local base is latched
(R357). -/
def Half.enterTrap (h : Half) (t n : Nat) (cause mtval : Word) (exception : Bool) : Half :=
  let lb := h.lb t
  let h1 := h.onEngine n fun (e : Engine) =>
    let c : Csrs := { e.csr with mepc := e.pc, mcause := cause, mtval := mtval, mpie := e.csr.mie, mie := false }
    { e with pc := e.csr.mtvec, csr := c, handling := e.handling || exception }
  (h1.set (F.ENG_IRQTSLO_word n) lb).set (F.ENG_IRQTSHI_word n) (lb / 2 ^ 32)

/-- An exception of engine `n`; one that comes while another is being handled fails the engine (R359). -/
def Half.exception (h : Half) (t n cause : Nat) (mtval : Word) : Half :=
  if (h.engine n).handling then h.engineFails t n 2
  else h.enterTrap t n (BitVec.ofNat 32 cause) mtval true

/-- A waiting engine with an interrupt pending and enabled goes on, and an engine that runs with interrupts on takes it. -/
def Half.takeIrq (h : Half) (t n : Nat) : Half :=
  let on := h.irqOn t n
  let h1 := if h.engState n = esWaiting ∧ on ≠ 0 then h.set (F.ENG_STATE_STATE n) esRunning else h
  if h1.engState n = esRunning ∧ on ≠ 0 ∧ (h1.engine n).csr.mie then
    h1.enterTrap t n (BitVec.ofNat 32 (2 ^ 31 + firstIrq on)) 0 false
  else h1

/-- The engine takes an interrupt in place of its next instruction. -/
def Half.irqTaken (h : Half) (t n : Nat) : Bool :=
  (h.engState n == esRunning || h.engState n == esWaiting) && h.irqOn t n != 0 && (h.engine n).csr.mie

/-! ## Accesses of an engine -/

/-- An access of an engine: its value with the module after it, or the exception with the module after its record. -/
inductive EngAccess where
  | ok (v : Nat) (m : Module)
  /-- misaligned in local SRAM -/
  | misaligned (m : Module)
  /-- refused: ORIGIN and ACRCAUSE of ENG_FAULT -/
  | denied (origin cause : Nat) (m : Module)

/-- ORIGIN codes of ENG_FAULT. -/
def originAcr : Nat := 0
def originEcc : Nat := 1
def originAbsent : Nat := 2

/-- The check of an access at an engine address (R339, R341, R353, R431): the device address that it may reach, or the
exception. -/
def Module.engCheck (m : Module) (t : Nat) (h : HalfId) (n a bytes : Nat) (kind : AccessKind) : EngAccess :=
  let x := m.half h
  match x.engineView n a with
  | .outside => .denied originAbsent 0 m
  | .sram off => if off % bytes = 0 then .ok off m else .misaligned m
  | .device d =>
    let master := 4 * h.num + n
    match m.checkAccess h d (.single bytes) master kind with
    | some r => .denied originAcr r.cause (m.onHalf h fun x => x.refuse t d r master kind)
    | none =>
      if (decodeAddr d).half? = some h.peer ∧ linkOk x (m.half h.peer) = false then .denied originAbsent 0 m
      else match m.memError d bytes (kind == .write) with
        | some e => .denied originEcc 0 (m.meetsError t e)
        | none => .ok d m

/-- A load or fetch of `bytes` bytes. -/
def Module.engRead (m : Module) (t : Nat) (h : HalfId) (n a bytes : Nat) (kind : AccessKind) : EngAccess :=
  match m.engCheck t h n a bytes kind with
  | .ok d m1 => match (m.half h).engineView n a with
    | .sram off => .ok (leVal (memRead ((m.half h).engine n).sram off bytes)) m1
    | _ =>
      let r := m1.readAt t d bytes
      .ok r.1 r.2
  | other => other

/-- The 16 bits at an even pc: from local SRAM, or half of an aligned word elsewhere. -/
def Module.engParcel (m : Module) (t : Nat) (h : HalfId) (n pc : Nat) : EngAccess :=
  if pc < 0x20000 then m.engRead t h n pc 2 .fetch
  else match m.engRead t h n (pc - pc % 4) 4 .fetch with
    | .ok v m1 => .ok (v / 2 ^ (8 * (pc % 4)) % 65536) m1
    | other => other

/-- The record of an access fault (R355). -/
def Half.noteAccess (h : Half) (n cause origin acr a : Nat) : Half := h.sets
  [(F.ENG_FAULT_MCAUSE n, cause), (F.ENG_FAULT_ACRCAUSE n, acr), (F.ENG_FAULT_ORIGIN n, origin), (F.ENG_FAULTADDR_ADDR n, a)]

/-- The exception of an access that did not take effect. `cause` is that of a refused one, `cause` − 1 that of a misaligned one. -/
def Module.engFault (_m : Module) (t : Nat) (h : HalfId) (n cause a : Nat) : EngAccess → Module
  | .ok _ m1 => m1
  | .misaligned m1 => m1.onHalf h fun x => x.exception t n (cause - 1) (BitVec.ofNat 32 a)
  | .denied origin acr m1 =>
    m1.onHalf h fun x => (x.noteAccess n cause origin acr a).exception t n cause (BitVec.ofNat 32 a)

/-! ## Control registers -/

/-- The event counters and selectors that an engine does not use: they read 0 and discard writes. -/
def unusedCounter (num : Nat) : Bool :=
  num == 0x320 || (decide (0xB03 ≤ num) && decide (num ≤ 0xB1F)) || (decide (0xB83 ≤ num) && decide (num ≤ 0xB9F))
    || (decide (0x323 ≤ num) && decide (num ≤ 0x33F))

/-- The value of a control register; none where the engine has none of this number. -/
def Half.csrRead (h : Half) (t n num : Nat) : Option Word :=
  let c := (h.engine n).csr
  match num with
  | 0x300 => some (BitVec.ofNat 32 (0x1800 + bit c.mie * 8 + bit c.mpie * 128))
  | 0x301 => some 0x40001104
  | 0x304 => some c.mieBits
  | 0x305 => some c.mtvec
  | 0x310 => some 0
  | 0x340 => some c.mscratch
  | 0x341 => some c.mepc
  | 0x342 => some c.mcause
  | 0x343 => some c.mtval
  | 0x344 => some (BitVec.ofNat 32 (h.irqBits t n))
  | 0xB00 => some (BitVec.ofNat 32 c.mcycle)
  | 0xB02 => some (BitVec.ofNat 32 c.minstret)
  | 0xB80 => some (BitVec.ofNat 32 (c.mcycle / 2 ^ 32))
  | 0xB82 => some (BitVec.ofNat 32 (c.minstret / 2 ^ 32))
  | 0xF11 => some 0
  | 0xF12 => some 0
  | 0xF13 => some 0
  | 0xF14 => some (BitVec.ofNat 32 (4 * h.id.num + n))
  | 0xF15 => some 0
  | _ => if unusedCounter num then some 0 else none

/-- The control registers after a write. -/
def Csrs.write (c : Csrs) (num : Nat) (v : Word) : Csrs :=
  let w := v.toNat
  let hi := 2 ^ 32
  match num with
  | 0x300 => { c with mie := bitAt w 3, mpie := bitAt w 7 }
  | 0x304 => { c with mieBits := v &&& 0x888 }
  | 0x305 => { c with mtvec := v &&& 0xFFFFFFFC }
  | 0x340 => { c with mscratch := v }
  | 0x341 => { c with mepc := v &&& 0xFFFFFFFE }
  | 0x342 => { c with mcause := v }
  | 0x343 => { c with mtval := v }
  | 0xB00 => { c with mcycle := c.mcycle / hi * hi + w }
  | 0xB02 => { c with minstret := c.minstret / hi * hi + w }
  | 0xB80 => { c with mcycle := w * hi + c.mcycle % hi }
  | 0xB82 => { c with minstret := w * hi + c.minstret % hi }
  | _ => c

/-! ## One instruction -/

/-- An exception whose mtval the manual leaves open: it holds `v` or 0. -/
def Half.openException (h : Half) (t n cause : Nat) (v : Word) : Half :=
  let f := h.takeFree
  f.2.exception t n cause (if f.1 % 2 = 0 then 0 else v)

/-- A control-register instruction: none where it is illegal. -/
def Half.execCsr (h : Half) (t n : Nat) (next : Word) (op : CsrOp) (imm : Bool) (rd src num : Nat) : Option Half :=
  let e := h.engine n
  let v : Word := if imm then BitVec.ofNat 32 src else e.rd src
  let writes := op == .rw || src != 0
  match h.csrRead t n num with
  | none => none
  | some old =>
    if writes && num / 0x400 == 3 then none
    else
      let step (e : Engine) : Engine :=
        let e1 := e.retire next
        let e2 : Engine := if writes then { e1 with csr := e1.csr.write num (op.eval old v) } else e1
        e2.wr rd old
      some (h.onEngine n step)

/-- A load. -/
def Module.execLoadRv (m : Module) (t : Nat) (h : HalfId) (n : Nat) (next : Word) (bytes : Nat) (sign : Bool) (rd a : Nat) : Module :=
  match m.engRead t h n a bytes .read with
  | .ok v m1 => m1.onHalf h fun x => x.onEngine n fun (e : Engine) => (e.retire next).wr rd (loadExtend bytes sign v)
  | r => m.engFault t h n 5 a r

/-- A store: the instruction retires before its write takes effect, so that a write that resets the half finds it done. -/
def Module.execStoreRv (m : Module) (t : Nat) (h : HalfId) (n : Nat) (next : Word) (bytes a v : Nat) : Module :=
  match m.engCheck t h n a bytes .write with
  | .ok d m1 =>
    let m2 := m1.onHalf h fun x => x.onEngine n fun (e : Engine) => e.retire next
    (match (m.half h).engineView n a with
      | .sram off => m2.onHalf h fun x => x.onEngine n fun (e : Engine) => { e with sram := memWrite e.sram off (leBytes bytes v) }
      | _ => m2.writeAt t h (4 * h.num + n) d bytes v)
  | r => m.engFault t h n 7 a r

/-- WFI: the engine waits unless an enabled interrupt is pending. -/
def Half.execWfi (h : Half) (t n : Nat) (next : Word) : Half :=
  let h1 := h.onEngine n fun (e : Engine) => e.retire next
  if h1.irqOn t n = 0 then h1.set (F.ENG_STATE_STATE n) esWaiting else h1

/-- MRET: back to mepc with interrupts as before; the exception is handled (R359). -/
def Half.execMret (h : Half) (n : Nat) : Half := h.onEngine n fun (e : Engine) =>
  let c : Csrs := { e.csr with mie := e.csr.mpie, mpie := true }
  Engine.retire { e with csr := c, handling := false } e.csr.mepc

/-- Registers alone: results, jumps and branches. -/
def Engine.run (e : Engine) (len : Nat) (i : Rv) : Option Engine :=
  let next := e.pc + BitVec.ofNat 32 len
  match i with
  | .lui rd v => some ((e.retire next).wr rd v)
  | .auipc rd v => some ((e.retire next).wr rd (e.pc + v))
  | .jal rd off => some ((e.retire (e.pc + off)).wr rd next)
  | .jalr rd rs1 off => some ((e.retire ((e.rd rs1 + off) &&& 0xFFFFFFFE)).wr rd next)
  | .branch c rs1 rs2 off => some (e.retire (if c.holds (e.rd rs1) (e.rd rs2) then e.pc + off else next))
  | .opImm op rd rs1 v => some ((e.retire next).wr rd (op.eval (e.rd rs1) v))
  | .op op rd rs1 rs2 => some ((e.retire next).wr rd (op.eval (e.rd rs1) (e.rd rs2)))
  | .mulDiv op rd rs1 rs2 => some ((e.retire next).wr rd (op.eval (e.rd rs1) (e.rd rs2)))
  | .fence => some (e.retire next)
  | _ => none

/-- The instruction `i` of `len` bytes, whose word is `raw`, at the pc of engine `n` of half `h`. -/
def Module.engExec (m : Module) (t : Nat) (h : HalfId) (n len raw : Nat) (i : Rv) : Module :=
  let e := (m.half h).engine n
  let next := e.pc + BitVec.ofNat 32 len
  let bad : Module := m.onHalf h fun x => x.openException t n 2 (BitVec.ofNat 32 raw)
  match e.run len i with
  | some e1 => m.onHalf h fun x => x.onEngine n fun _ => e1
  | none => match i with
    | .load bytes sign rd rs1 off => m.execLoadRv t h n next bytes sign rd (e.rd rs1 + off).toNat
    | .store bytes rs1 rs2 off => m.execStoreRv t h n next bytes (e.rd rs1 + off).toNat (e.rd rs2).toNat
    | .ecall => m.onHalf h fun x => x.exception t n 11 0
    | .ebreak => m.onHalf h fun x => x.openException t n 3 e.pc
    | .mret => m.onHalf h fun x => x.execMret n
    | .wfi => m.onHalf h fun x => x.execWfi t n next
    | .csr op imm rd src num => match (m.half h).execCsr t n next op imm rd src num with
      | some x => m.setHalf h x
      | none => bad
    | _ => bad

/-- Fetch, decode and run one instruction of engine `n`. -/
def Module.engFetch (m : Module) (t : Nat) (h : HalfId) (n : Nat) : Module :=
  let pc := ((m.half h).engine n).pc.toNat
  match m.engParcel t h n pc with
  | .ok lo m1 =>
    if isShort lo then m1.engExec t h n 2 lo (decodeRv lo)
    else match m1.engParcel t h n ((pc + 2) % 2 ^ 32) with
      | .ok hi m2 => m2.engExec t h n 4 (lo + 65536 * hi) (decodeRv (lo + 65536 * hi))
      | r => m1.engFault t h n 1 ((pc + 2) % 2 ^ 32) r
  | r => m.engFault t h n 1 pc r

/-- The next instruction of engine `n` of half `h`: none unless it runs; an interrupt is taken in its place. -/
def Module.engStep (m : Module) (t : Nat) (h : HalfId) (n : Nat) : Module :=
  let x := m.half h
  if x.inReset then m
  else if x.irqTaken t n then m.onHalf h fun x => x.takeIrq t n
  else
    let m1 := m.onHalf h fun x => x.takeIrq t n
    if (m1.half h).engState n = esRunning then m1.engFetch t h n else m1

/-- The timer interrupt of engine `n` (R357): taken where the local base has reached ENG_TIMECMP. -/
def Module.engTimer (m : Module) (t : Nat) (h : HalfId) (n : Nat) : Module :=
  let x := m.half h
  if x.inReset || !bitAt (x.irqOn t n) 7 then m else m.onHalf h fun x => x.takeIrq t n

end Sys2Proof.Machine
end

