-- ==== Sys2Proof/Machine/Service.lean ====
section
/-!
DEFINITION. The service port (R384 to R387) with its frames, the flash pass-through and the fuse of recovery mode, and the I²C
telemetry target (R388).
-/
namespace Sys2Proof.Machine

/-! ## Frames -/

/-- A frame of the service port: SYNC, four header bytes, the payload and the CRC-32C, most significant byte first (R384). -/
def frameOf (sync kind b2 b3 : Nat) (payload : List Byte) : List Byte :=
  let body := [BitVec.ofNat 8 sync, BitVec.ofNat 8 kind, BitVec.ofNat 8 b2, BitVec.ofNat 8 b3] ++ beBytes 2 payload.length ++ payload
  body ++ beBytes 4 (crcOf body)

/-- What is wrong with a host frame: nothing, its form, or its CRC. -/
inductive FrameCheck where
  | good | bad | crc
  deriving DecidableEq, Repr

/-- The check of a host frame (R384). -/
def checkFrame (bs : List Byte) : FrameCheck :=
  let len := beAt bs 4 2
  if byteAt bs 0 ≠ 0x5C ∨ 3 < byteAt bs 1 ∨ 250 < len ∨ bs.length < 10 + len then .bad
  else if beAt bs (6 + len) 4 ≠ crcOf (bs.take (6 + len)) then .crc
  else .good

/-! ## The module's frame (R385, R386) -/

/-- Frames sent and awaiting acknowledgement. -/
def HostSt.unacked (x : HostSt) : List SvcOut := x.queue.filter fun f => f.oseq.isSome

/-- The queue with its oldest unsent frame given an OSEQ. -/
def markSent (n : Nat) : List SvcOut → List SvcOut
  | [] => []
  | f :: rest => if f.oseq.isNone then { f with oseq := some n } :: rest else f :: markSent n rest

/-- A frame of the queue as it is sent: QUEUE counts the frames that wait to be sent after it. -/
def HostSt.frame (x : HostSt) (f : SvcOut) (oseq : Nat) : List Byte :=
  frameOf 0xC5 f.kind oseq (min 255 (x.queue.filter fun g => g.oseq.isNone).length) f.body

/-- The module chooses its frame at the start of an exchange. -/
def Half.chooseFrame (h : Half) : Half :=
  let x := h.host
  let waiting := x.unacked
  let n := h.get F.HST_SVCSTAT_OSEQ
  let oldest (h : Half) : Half := match waiting with
    | f :: _ => h.onHost fun (s : HostSt) => { s with resend := false, miso := x.frame f (f.oseq.getD 0) }
    | [] => h
  if x.resend && !waiting.isEmpty then oldest h
  else match x.queue.find? fun f => f.oseq.isNone with
    | some f =>
      if waiting.length < 8 then
        let q := markSent n x.queue
        (h.onHost fun (s : HostSt) => { s with queue := q, resend := false, miso := { x with queue := q }.frame f n }).set
          F.HST_SVCSTAT_OSEQ (n + 1)
      else oldest h
    | none =>
      if waiting.isEmpty then
        let f := h.takeFree
        f.2.onHost fun (s : HostSt) => { s with resend := false, miso := frameOf 0xC5 0 (f.1 % 256) 0 [] }
      else oldest h

/-- A valid host frame acknowledges every frame up to and including RACK, and may ask for a resend. -/
def Half.hostFrame (h : Half) (rack : Nat) (resend : Bool) : Half :=
  let acked (f : SvcOut) : Bool := match f.oseq with
    | some o => o == rack || newer 8 rack o
    | none => false
  let h1 := (h.onHost fun (s : HostSt) => { s with queue := s.queue.filter (fun f => !acked f), resend := resend }).set
    F.HST_SVCSTAT_RACK rack
  if resend then h1.tally F.HST_SVCTALLY_RESENDS 1 else h1

/-- The half that holds the service port, changed while it is out of reset. -/
def Module.onHolder (m : Module) (f : Half → Half) : Module := m.onLive m.holder f

/-- One exchange with a valid host frame, before its payload is acted on. -/
def Module.exchange (m : Module) (rack : Nat) (resend : Bool) : Module :=
  m.onHolder fun h => h.chooseFrame.hostFrame (rack % 256) resend

/-- IRQ_N is driven low (R386). -/
def Module.irqLow (m : Module) : Bool :=
  let h := m.half m.holder
  !h.inReset && h.flag F.HST_CTRL_IRQEN && !h.host.queue.isEmpty

/-! ## Recovery mode (R387) -/

/-- RESULT codes of a REPLY. -/
def repOk : Nat := 0
def repTimeout : Nat := 1
def repNotRecovery : Nat := 2
def repFormat : Nat := 3
def repAlready : Nat := 4
def repNoSfdp : Nat := 5
def repNoClock : Nat := 6

/-- A REPLY frame. -/
def Module.reply (m : Module) (kind result : Nat) (data : List Byte) : Module :=
  m.toService 3 ([BitVec.ofNat 8 kind, BitVec.ofNat 8 result] ++ List.replicate 6 0 ++ data)

/-- The lamplighter's record of a pass-through session changed. -/
def Module.onPass (m : Module) (f : PassSt → PassSt) : Module := m.onLamp fun (l : Lamp) => { l with pass := f l.pass }

/-- Flash bytes after a program: a program clears bits. -/
def flashProgram (f : Flash) (a : Nat) (data : List Byte) : Flash :=
  let old := f.read a data.length
  let new := (old.zip data).map fun x => x.1 &&& x.2
  { f with bytes := ((List.range new.length).foldl (fun b i => sparsePut (fun _ => 0xFF) b (a + i) (new.getD i 0xFF)) f.bytes) }

/-- Flash bytes after the erase of the block of `n` bytes that holds address `a`. -/
def flashErase (f : Flash) (a n : Nat) : Flash :=
  let b := a - a % n
  { f with bytes := sparseClear (fun k => decide (b ≤ k ∧ k < b + n)) f.bytes }

/-- The address that a pass-through command sends (R72, R387): 4 bytes when the density taken is above 16 MiB, else its low 3 bytes
(log entry 120). -/
def PassSt.addr (x : PassSt) (a : Nat) : Nat := if 2 ^ 24 < x.learned.getD 0 then a else a % 2 ^ 24

/-- Bytes that a pass-through READ returns: with 3-byte addresses the flash goes on at 0 after 16 MiB (log entry 120). -/
def Module.passRead (m : Module) (a n : Nat) : List Byte := (List.range n).flatMap fun i => m.flash.read (m.lamp.pass.addr (a + i)) 1

/-- A pass-through frame carried out: READ, PROGRAM, ERASE 4 KiB, ERASE 64 KiB, READ STATUS. `status` is the flash's status byte; where
none is given it is a free value, for the manual gives the flash no status of its own. -/
def Module.passRun (m : Module) (t : Nat) (p : List Byte) (status : Option Byte) : Module :=
  let op := byteAt p 0
  let a := m.lamp.pass.addr (beAt p 1 4)
  let n := beAt p 5 2
  let started (m : Module) (f : Flash) : Module := Module.onPass { m with flash := f } fun (x : PassSt) => { x with
    busy := some t
    pollAt := t + 100000 }
  let m1 := m.ldr [(F.LDR_STATUS_STATE, 8)]
  if 4 < op ∨ 224 < n ∨ (op = 1 ∧ (p.length < 8 + n ∨ 256 < a % 256 + n)) then m1.reply 2 repFormat []
  else match op with
    | 0 => m1.reply 2 repOk (m.passRead a n)
    | 1 => started m1 (flashProgram m.flash a ((p.drop 8).take n))
    | 2 => started m1 (flashErase m.flash a 4096)
    | 3 => started m1 (flashErase m.flash a 65536)
    | _ => match status with
      | some b => m1.reply 2 repOk [b]
      | none =>
        let f := m1.lamp.takeFree
        Module.reply { m1 with lamp := f.2 } 2 repOk [BitVec.ofNat 8 f.1]

/-- The loader reads SFDP at the first pass-through frame of a session, then carries the frame out. -/
def Module.passLearn (m : Module) (t : Nat) (p : List Byte) (status : Option Byte) : Module :=
  match m.lamp.pass.learned with
  | some _ => m.passRun t p status
  | none => match m.flash.sfdp with
    | none => m.reply 2 repNoSfdp []
    | some s =>
      Module.passRun ((m.ldr (sfdpFields s)).onPass fun (x : PassSt) => { x with learned := some (sfdpTaken s) }) t p status

/-- The time island and the QSPI island of half 0 have qualified. -/
def Module.passClock (m : Module) : Bool := m.half0.flag F.RST_QUAL_TIME && m.half0.flag F.RST_QUAL_QSPI

/-- A PASSTHRU frame: accepted in recovery mode alone, one at a time. The first of a session waits for the islands. -/
def Module.passFrame (m : Module) (t : Nat) (p : List Byte) (status : Option Byte) : Module :=
  let x := m.lamp.pass
  if m.lamp.phase ≠ .recovery then m.reply 2 repNotRecovery []
  else if x.waiting.isSome ∨ x.busy.isSome then m
  else if m.passClock then m.passLearn t p status
  else m.onPass fun (x : PassSt) => { x with
    waiting := some p
    status := status
    askedAt := t }

/-- The islands have qualified: the frame that waited is carried out. -/
def Module.passReady (m : Module) (t : Nat) : Module := match m.lamp.pass.waiting with
  | some p => if m.passClock then Module.passLearn (m.onPass fun (x : PassSt) => { x with waiting := none }) t p m.lamp.pass.status else m
  | none => m

/-- REFCLK has not qualified within 100 ms: the frame is answered NO_CLOCK. -/
def Module.passNoClock (m : Module) : Module :=
  if m.lamp.pass.waiting.isSome ∧ m.passClock = false then
    Module.reply (m.onPass fun (x : PassSt) => { x with waiting := none }) 2 repNoClock []
  else m

/-- A poll of the flash's status during a program or erase: done when the write-in-progress bit is clear, TIMEOUT after 5 s. -/
def Module.flashPoll (m : Module) (t : Nat) (status : Byte) : Module := match m.lamp.pass.busy with
  | none => m
  | some since =>
    let ended (m : Module) : Module := m.onPass fun (x : PassSt) => { x with busy := none }
    if !bitAt status.toNat 0 then (ended m).reply 2 repOk []
    else if since + 5 * secNs ≤ t then (ended m).reply 2 repTimeout []
    else m.onPass fun (x : PassSt) => { x with pollAt := t + 100000 }

/-- A FUSE frame, one at a time with the pass-through frames: programs the key digest when the fuse is blank. A digest of zeros
leaves it blank (R80). -/
def Module.fuseFrame (m : Module) (digest magic : List Byte) : Module :=
  let x := m.lamp.pass
  if m.lamp.phase ≠ .recovery then m.reply 3 repNotRecovery []
  else if x.waiting.isSome ∨ x.busy.isSome then m
  else if digest.length ≠ 32 ∨ magic ≠ [0x46, 0x55, 0x53, 0x45] then m.reply 3 repFormat []
  else if m.fuse.isSome then m.reply 3 repAlready []
  else Module.reply { m with fuse := if digest = List.replicate 32 0 then none else some digest } 3 repOk []

/-! ## Exchanges -/

/-- The request of a REQUEST frame's payload; a header's LEN beyond the frame makes its OPCODE invalid. -/
def frameRequest (p : List Byte) : MgmtReq :=
  let c : Cell := { type := 4, hdr := beAt p 0 10, payload := p.drop 10 }
  let r := reqOfCell c
  if p.length < 10 + r.len then { r with opcode := 15 } else r

/-- An exchange on the service port with the bytes that the host sends (R384 to R387). -/
def Module.svcFrame (m : Module) (t : Nat) (bs : List Byte) : Module :=
  let p := (bs.drop 6).take (beAt bs 4 2)
  match checkFrame bs with
  | .bad => m.onHolder fun h => h.chooseFrame.tally F.HST_SVCTALLY_BADFRAME 1
  | .crc => m.onHolder fun h => h.chooseFrame.tally F.HST_SVCTALLY_CRCERR 1
  | .good =>
    let m1 := m.exchange (byteAt bs 2) (bitAt (byteAt bs 3) 0)
    if (m.half m.holder).inReset then m
    else match byteAt bs 1 with
      | 1 => m1.serviceReq t (frameRequest p)
      | 2 => m1.passFrame t p none
      | 3 => m1.fuseFrame (p.take 32) ((p.drop 32).take 4)
      | _ => m1

/-- A pass-through command given by its parts, with the flash's SFDP table as it would be read. -/
def Module.passCmd (m : Module) (t op addr n : Nat) (data : List Byte) (status : Option Byte) (sfdp : Option Sfdp) : Module :=
  let m1 : Module := { m with flash := { m.flash with sfdp := sfdp } }
  if (m.half m.holder).inReset then m
  else m1.passFrame t ([BitVec.ofNat 8 op] ++ beBytes 4 addr ++ beBytes 2 n ++ [0] ++ data) status

/-! ## I²C telemetry (R388) -/

/-- A voltage or other value of two bytes, most significant first. -/
def be2 (v : Nat) : List Byte := beBytes 2 v

/-- The 64 bytes of telemetry at the start of a read. -/
def Module.telemetry (m : Module) : List Byte :=
  let l := m.lamp
  let frozen := l.phase == .rest || l.phase == .restEntry
  let core := if m.half0.inReset && m.half1.inReset then padTo 14 l.mirror else m.coreBytes
  let cs (i n : Nat) : List Byte := sliceBytes core i n
  let live := (l.reg F.LMP_LIVE_word.off).toNat % 128
  [0x48, 0x16, 0x01, 0x00, BitVec.ofNat 8 l.phase.code, BitVec.ofNat 8 (live + 128 * bit frozen), BitVec.ofNat 8 l.fsCount,
   BitVec.ofNat 8 l.strap] ++ cs 0 8 ++ ((List.range 10).flatMap fun i => be2 (l.mv.getD i 0))
    ++ ((List.range 4).map fun i => BitVec.ofInt 8 (l.temps.getD i 0)) ++ cs 8 4 ++ cs 12 2 ++ be2 l.liveFalls ++ List.replicate 16 0

/-- A write to the I²C target: its first byte sets the pointer, every other is not acknowledged. -/
def Lamp.i2cWrite (l : Lamp) : List Byte → Lamp
  | [] => l
  | b :: _ => { l with i2cPtr := b.toNat }

/-- A read of `n` bytes from the I²C target. -/
def Module.i2cRead (m : Module) (n : Nat) : Module :=
  let out := sliceBytes m.telemetry m.lamp.i2cPtr n
  m.onLamp fun (l : Lamp) => { l with i2cOut := out, i2cPtr := (l.i2cPtr + n) % 256, free := l.free + 1 }

end Sys2Proof.Machine
end

