-- ==== Sys2Proof/Machine/Act.lean ====
section
/-!
DEFINITION. What the meanings of the commands share: a command's effect on the module at the present time, at the end of an
interval or at a stamp, and the forms of a register write that has a row of its own.

Conventions (log entries 3, 4 and 6): a meaning never touches the queue; a command that marks the end of an interval, or that
carries a stamp, moves the simulated clock forward to that instant if it is not yet there; a command that names a port, window,
engine, ring, pipe or unit that the half has not changes nothing.
-/
namespace Sys2Proof.Machine

/-- What a command answers. -/
abbrev Answer := Host.Outcome State Fault Refusal

/-- A command's effect on the module at the present time. -/
def State.act (s : State) (f : Nat → Module → Module) : Answer := .next { s with mod := f s.now s.mod }

/-- A command's effect at the instant `u`, or now if that is past. -/
def State.actAt (s : State) (u : Nat) (f : Nat → Module → Module) : Answer :=
  State.act { s with now := max s.now u } f

/-- The instant `d` after the lamplighter entered its phase, while that is `p`; else no instant to wait for. -/
def State.phaseEnd (s : State) (p : LampPhase) (d : Nat) : Nat := if s.mod.lamp.phase = p then s.mod.lamp.phaseAt + d else 0

/-- An effect on a module that the command's operands allow. -/
def Module.given (m : Module) (ok : Bool) (f : Module → Module) : Module := if ok then f m else m

/-- The instant of a local-base stamp of half `h` (R307). -/
def State.stampAt (s : State) (h : HalfId) (stamp : Nat) : Nat := ((s.mod.half h).epoch.getD 0) + stamp

/-! ## Register writes with rows of their own -/

/-- The fields of a register that a write of other fields leaves as they are: those of RW and RWS access. -/
def Half.heldWord (h : Half) (off : Nat) : Word := match regSpec off with
  | none => 0
  | some r => h.reg off &&& (r.rw ||| r.rws)

/-- A write of a word to a register of half `h` by master `master`, under the check of R339; a master of a half in reset makes no
access. -/
def Module.regWrite (m : Module) (t : Nat) (h : HalfId) (master off : Nat) (v : Word) : Module :=
  m.given (!(m.half (m.issuer master h)).inReset) fun m => m.checkedReg t h off master fun m => m.putReg t h master off v

/-- A write that gives one field a value and leaves the others. -/
def Module.fieldWrite (m : Module) (t : Nat) (h : HalfId) (master : Nat) (f : Field) (v : Nat) : Module :=
  m.regWrite t h master f.off (putBits ((m.half h).heldWord f.off) f.lo f.width v)

/-- A write whose word holds `v` in one field and 0 elsewhere. -/
def Module.fieldOnly (m : Module) (t : Nat) (h : HalfId) (master : Nat) (f : Field) (v : Nat) : Module :=
  m.regWrite t h master f.off (putBits 0 f.lo f.width v)

/-- The half in which an access of a master to the lamplighter range is issued. -/
def Module.lampIssuer (m : Module) (master : Nat) : HalfId := m.issuer master m.holder

/-- First address of the lamplighter range (R428). -/
def lampBase : Nat := 0x102000000

/-- A checked single access of 4 bytes at a device address. -/
def Module.wordAccess (m : Module) (t : Nat) (issuer : HalfId) (master a : Nat) (kind : AccessKind) (f : Module → Module) : Module :=
  m.given (!(m.half issuer).inReset) fun m => m.checked t issuer a (.single 4) master kind fun m =>
    match m.memError a 4 (kind == .write) with
    | some e => m.meetsError t e
    | none => f m

/-- A read of a word at a device address: what the read does besides answering. -/
def Module.wordRead (m : Module) (t : Nat) (issuer : HalfId) (master a : Nat) : Module :=
  m.wordAccess t issuer master a .read fun m => (m.readAt t a 4).2

/-- A write of a word at a device address. -/
def Module.wordWrite (m : Module) (t : Nat) (issuer : HalfId) (master a : Nat) (v : Word) : Module :=
  m.wordAccess t issuer master a .write fun m => m.writeAt t issuer master a 4 v.toNat

end Sys2Proof.Machine
end

