-- ==== Sys2Proof/Machine/CvuCmds.lean ====
section
/-!
DEFINITION. Check-value units (chapter 14): the meanings of their commands.
-/
namespace Sys2Proof.Machine

/-- A write to a register of unit `n`. -/
def State.onUnit (s : State) (n : Nat) (f : Nat → Module → Module) : Answer := s.act fun t m => m.given (decide (n < 16)) (f t)

/-- CVU_ENABLE (R335). -/
def execCvuEnable (h : HalfId) (n master : Nat) (on : Bool) (s : State) : Answer :=
  s.onUnit n fun t m => m.fieldWrite t h master (F.CVU_CTRL_ENABLE n) (bit on)

/-- CVU_RESULT (R336). -/
def execCvuResult (h : HalfId) (n : Nat) (data : List Byte) (stamp : Nat) (s : State) : Answer :=
  s.actAt (s.stampAt h stamp) fun _ m => m.given (decide (n < 16)) fun m => m.onLive h fun x => x.cvuResult n data

/-- FEED4 (R338). -/
def execFeed4 (h : HalfId) (n master : Nat) (v : Word) (s : State) : Answer :=
  s.onUnit n fun t m => m.regWrite t h master (F.CVU_FEED4_word n).off v

/-- FEED1 (R338). -/
def execFeed1 (h : HalfId) (n master : Nat) (v : Byte) (s : State) : Answer :=
  s.onUnit n fun t m => m.regWrite t h master (F.CVU_FEED1_word n).off (v.setWidth 32)

/-- FEEDEND (R338). -/
def execFeedend (h : HalfId) (n master : Nat) (s : State) : Answer :=
  s.onUnit n fun t m => m.fieldOnly t h master (F.CVU_FEEDEND_END n) 1

end Sys2Proof.Machine
end

