-- ==== Sys2Proof/Machine/EngineCmds.lean ====
section
/-!
DEFINITION. Registers, access rules and engines (chapters 01, 15, 16 and 19): the meanings of the commands that read and write
registers, switch the access rules, run the engines and add to the ledger.
-/
namespace Sys2Proof.Machine

/-! ## Registers (R6, R445) and access rules (R347) -/

/-- LATCH_READ (R445). -/
def execLatchRead (h : HalfId) (master off : Nat) (s : State) : Answer :=
  s.act fun t m => m.wordRead t (m.issuer master h) master (regAddr h off)

/-- REGISTER_WRITE (R6), after which a start may go on. -/
def execRegisterWrite (h : HalfId) (master addr : Nat) (v : Word) (s : State) : Answer :=
  s.act fun t m => (m.wordWrite t h master addr v).advance t

/-- ACR_SWITCH (R347). -/
def execAcrSwitch (h : HalfId) (master : Nat) (s : State) : Answer := s.act fun t m => m.fieldOnly t h master F.ACR_SWITCH_GO 1

/-- SWITCH_RETIRED (R347), after which a start may go on. -/
def execSwitchRetired (h : HalfId) (s : State) : Answer := s.act fun t m => (m.onLive h Half.acrRetired).advance t

/-! ## Engines (R352 to R361) -/

/-- The half and the number within it of engine E0 to E7. -/
def engineOf (e : Nat) : HalfId × Nat := (if e < 4 then .h0 else .h1, e % 4)

/-- A command of engine window `n`, 0 to 3. -/
def State.onWindow (s : State) (n : Nat) (f : Nat → Module → Module) : Answer := s.act fun t m => m.given (decide (n < 4)) (f t)

/-- ENGINE_INSTRUCTION (R352): one instruction, or the entry into an interrupt in its place. -/
def execEngineInstruction (e : Nat) (s : State) : Answer := s.act fun t m =>
  m.given (decide (e < 8)) fun m => (m.engStep t (engineOf e).1 (engineOf e).2).advance t

/-- HALT (R358). -/
def execHalt (h : HalfId) (n master : Nat) (s : State) : Answer :=
  s.onWindow n fun t m => m.fieldOnly t h master (F.ENG_CTRL_HALT n) 1

/-- RESUME (R358). -/
def execResume (h : HalfId) (n master : Nat) (s : State) : Answer :=
  s.onWindow n fun t m => m.fieldOnly t h master (F.ENG_CTRL_RESUME n) 1

/-- BEAT (R359), after which a start may go on (R60 step 6). -/
def execBeat (h : HalfId) (n master : Nat) (s : State) : Answer :=
  s.onWindow n fun t m => (m.fieldOnly t h master (F.ENG_BEAT_BEAT n) 1).advance t

/-- The instant BEATLIMIT after the last beat of an engine; none with a limit of 0. -/
def State.beatEnd (s : State) (h : HalfId) (n : Nat) : Nat :=
  ((s.mod.half h).engine n).beatAt + (s.mod.half h).get (F.ENG_STATE_BEATLIMIT n) * msNs

/-- BEATLIMIT_EXPIRE (R359). -/
def execBeatlimitExpire (h : HalfId) (n : Nat) (s : State) : Answer :=
  s.actAt (s.beatEnd h n) fun t m => m.onLive h fun x => x.beatLimit t n

/-- IRQCLAIM (R357). -/
def execIrqclaim (h : HalfId) (n master : Nat) (s : State) : Answer :=
  s.onWindow n fun t m => m.wordRead t (m.issuer master h) master (regAddr h (F.ENG_IRQCLAIM_word n).off)

/-- TIMECMPHI (R357). -/
def execTimecmphi (h : HalfId) (n master : Nat) (v : Word) (s : State) : Answer :=
  s.onWindow n fun t m => m.regWrite t h master (F.ENG_TIMECMPHI_word n).off v

/-- TIMER_INTERRUPT (R357): the local base has reached the compare value. -/
def execTimerInterrupt (e : Nat) (s : State) : Answer :=
  s.actAt (if e < 8 then s.stampAt (engineOf e).1 (((s.mod.half (engineOf e).1).engine (engineOf e).2).timecmp) else 0) fun t m =>
    m.given (decide (e < 8)) fun m => m.engTimer t (engineOf e).1 (engineOf e).2

/-! ## Ledger (R421) -/

/-- SWADD (R421). -/
def execSwadd (h : HalfId) (master : Nat) (s : State) : Answer := s.act fun t m => m.fieldOnly t h master F.FLT_SWADD_GO 1

end Sys2Proof.Machine
end

