-- ==== Sys2Proof/Machine/HostCmds.lean ====
section
/-!
DEFINITION. Host access (chapter 17): the meanings of the commands of the service port, of the management requests and cells, of
the engines' windows and of the I²C target.
-/
namespace Sys2Proof.Machine

/-! ## Service port (R384 to R387) -/

/-- SVC_FRAME (R384). -/
def execSvcFrame (bytes : List Byte) (s : State) : Answer := s.act fun t m => (m.svcFrame t bytes).advance t

/-- The service port works: the half that holds it is out of reset. -/
def Module.served (m : Module) (f : Module → Module) : Module := m.given (!(m.half m.holder).inReset) f

/-- POLL (R385). -/
def execPoll (rack : Nat) (resend : Bool) (s : State) : Answer := s.act fun _ m => m.served fun m => m.exchange rack resend

/-- REQUEST (R384). -/
def execRequest (rack : Nat) (resend : Bool) (r : MgmtReq) (s : State) : Answer :=
  s.act fun t m => m.served fun m => ((m.exchange rack resend).serviceReq t r).advance t

/-- PASSTHRU_READ (R387). -/
def execPassthruRead (addr len : Nat) (sfdp : Option Sfdp) (s : State) : Answer := s.act fun t m => m.passCmd t 0 addr len [] none sfdp

/-- PASSTHRU_PROGRAM (R387). -/
def execPassthruProgram (addr : Nat) (data : List Byte) (sfdp : Option Sfdp) (s : State) : Answer :=
  s.act fun t m => m.passCmd t 1 addr data.length data none sfdp

/-- PASSTHRU_ERASE_4K (R387). -/
def execPassthruErase4k (addr : Nat) (sfdp : Option Sfdp) (s : State) : Answer := s.act fun t m => m.passCmd t 2 addr 0 [] none sfdp

/-- PASSTHRU_ERASE_64K (R387). -/
def execPassthruErase64k (addr : Nat) (sfdp : Option Sfdp) (s : State) : Answer := s.act fun t m => m.passCmd t 3 addr 0 [] none sfdp

/-- PASSTHRU_READ_STATUS (R387). -/
def execPassthruReadStatus (status : Byte) (sfdp : Option Sfdp) (s : State) : Answer :=
  s.act fun t m => m.passCmd t 4 0 0 [] (some status) sfdp

/-- FUSE (R387). -/
def execFuse (digest magic : List Byte) (s : State) : Answer := s.act fun _ m => m.served fun m => m.fuseFrame digest magic

/-- FLASH_STATUS_POLL (R387): every 100 µs. -/
def execFlashStatusPoll (status : Byte) (s : State) : Answer :=
  s.actAt (if s.mod.lamp.pass.busy.isSome then s.mod.lamp.pass.pollAt else 0) fun t m => m.flashPoll t status

/-- PASSTHRU_QUALIFY_TIMEOUT (R387): 100 ms after the frame. -/
def execPassthruQualifyTimeout (s : State) : Answer :=
  s.actAt (if s.mod.lamp.pass.waiting.isSome then s.mod.lamp.pass.askedAt + 100 * msNs else 0) fun _ m => m.passNoClock

/-! ## Requests (R375) -/

/-- A request given by its parts, after which a start may go on. -/
def State.ask (s : State) (h : HalfId) (q : Requester) (tag opcode : Nat) (payload : List Byte) : Answer :=
  s.act fun t m => (m.requestBy t h q (reqOf q tag opcode payload)).advance t

/-- READ (R375). -/
def execRead (h : HalfId) (q : Requester) (tag addr count : Nat) (s : State) : Answer :=
  s.ask h q tag 0 (beBytes 5 addr ++ [0] ++ beBytes 2 count)

/-- WRITE (R375). -/
def execWrite (h : HalfId) (q : Requester) (tag addr : Nat) (v : Word) (s : State) : Answer :=
  s.ask h q tag 1 (beBytes 5 addr ++ List.replicate 3 0 ++ beBytes 4 v.toNat)

/-- WRITE_MASKED (R375). -/
def execWriteMasked (h : HalfId) (q : Requester) (tag addr : Nat) (v mask : Word) (s : State) : Answer :=
  s.ask h q tag 2 (beBytes 5 addr ++ List.replicate 3 0 ++ beBytes 4 v.toNat ++ beBytes 4 mask.toNat)

/-- BLOCK_WRITE (R379). -/
def execBlockWrite (h : HalfId) (q : Requester) (tag addr : Nat) (data : List Byte) (s : State) : Answer :=
  s.ask h q tag 3 (beBytes 5 addr ++ [0] ++ beBytes 2 data.length ++ List.replicate 8 0 ++ data)

/-- SCENE_SELECT (R188). -/
def execSceneSelect (h : HalfId) (q : Requester) (tag scene : Nat) (s : State) : Answer := s.ask h q tag 4 (beBytes 1 scene)

/-- The four payload bytes of a graphic change (R375). -/
def graphicBytes (layer : Nat) (setState setAlpha : Bool) (state alpha : Nat) : List Byte :=
  beBytes 1 layer ++ beBytes 1 (bit setState + 2 * bit setAlpha) ++ beBytes 1 state ++ beBytes 1 alpha

/-- GRAPHIC_STATE (R213). -/
def execGraphicState (h : HalfId) (q : Requester) (tag layer : Nat) (setState setAlpha : Bool) (state alpha : Nat) (s : State) : Answer :=
  s.ask h q tag 5 (graphicBytes layer setState setAlpha state alpha)

/-- SCHEDULE (R326): with WHAT 1 the four values are LAYER, the flags, STATE and ALPHA. -/
def execSchedule (h : HalfId) (q : Requester) (tag what a b c d tSec tFrac eSec eFrac : Nat) (s : State) : Answer :=
  s.ask h q tag 6 (beBytes 1 a ++ beBytes 1 b ++ beBytes 1 c ++ beBytes 1 d ++ beBytes 1 what ++ List.replicate 3 0 ++ beBytes 8 tSec
    ++ beBytes 4 tFrac ++ beBytes 8 eSec ++ beBytes 4 eFrac)

/-- EVENT_SUBSCRIBE (R383). -/
def execEventSubscribe (h : HalfId) (q : Requester) (tag mask : Nat) (s : State) : Answer := s.ask h q tag 7 (beBytes 2 mask)

/-! ## Management cells and windows (R372, R374, R382) -/

/-- The cell that a relay sees: a request, or a completion or event. -/
def relayCell (request : Bool) (c : MgmtRsp) : Cell :=
  if request then reqCell {
    dest := c.dest, src := c.src, tag := c.tag, origin := c.origin, opcode := c.opcode, hops := c.hops, len := c.len, payload := c.payload }
  else rspCell c

/-- MGMT_RELAY (R382). -/
def execMgmtRelay (h : HalfId) (r : Nat) (crcOk request : Bool) (c : MgmtRsp) (s : State) : Answer := s.act fun t m =>
  m.given (decide (r < 2)) fun m => (m.mgmtCell t h r crcOk (relayCell request c)).advance t

/-- MGMT_COMPLETION (R374). -/
def execMgmtCompletion (h : HalfId) (c : MgmtRsp) (s : State) : Answer := s.act fun _ m => m.cellRsp h c

/-- ESEND (R372). -/
def execEsend (h : HalfId) (n master : Nat) (s : State) : Answer :=
  s.act fun t m => m.given (decide (n < 4)) fun m => m.fieldOnly t h master (F.HST_ESEND_GO n) 1

/-- EPOP (R372). -/
def execEpop (h : HalfId) (n master : Nat) (s : State) : Answer :=
  s.act fun t m => m.given (decide (n < 4)) fun m => m.fieldOnly t h master (F.HST_EPOP_POP n) 1

/-! ## I²C telemetry (R388) -/

/-- The lamplighter answers on the I²C target while VAON is up and it has not stopped. -/
def Module.answersI2c (m : Module) : Bool := m.lamp.alive

/-- I2C_POINTER_WRITE (R388). -/
def execI2cPointerWrite (bytes : List Byte) (s : State) : Answer :=
  s.act fun _ m => m.given m.answersI2c fun m => m.onLamp fun l => l.i2cWrite bytes

/-- I2C_READ (R388). -/
def execI2cRead (n : Nat) (s : State) : Answer := s.act fun _ m => m.given m.answersI2c fun m => m.i2cRead n

end Sys2Proof.Machine
end

