-- ==== Sys2Proof/Machine/IntakeCmds.lean ====
section
/-!
DEFINITION. Intake, publishing and the frame store (chapter 07): the meanings of the commands of sources.
-/
namespace Sys2Proof.Machine

/-- Window `i` belongs to a source of the half. -/
def Module.hasWindow (m : Module) (h : HalfId) (i : Nat) : Bool := !(m.half h).inReset && decide (i < (m.half h).sources.length)

/-- SDI_FRAME_START (R148). -/
def execSdiFrameStart (h : HalfId) (i stamp : Nat) (pid : Option Word) (lines samples : Nat) (s : State) : Answer :=
  s.actAt (s.stampAt h stamp) fun t m => m.given (m.hasWindow h i) fun m => m.onHalf h fun x => x.sdiStart t i stamp pid lines samples

/-- SDI_FRAME_COMPLETE (R149), with the line CRC errors and bad timing references of the frame (R116). -/
def execSdiFrameComplete (h : HalfId) (i : Nat) (picture : SdiPicture) (s : State) : Answer :=
  s.act fun t m => m.given (m.hasWindow h i) fun m =>
    (m.onHalf h fun x => x.sdiFrameErrors i picture.lineCrc picture.trs).sdiComplete t h i picture.lines

/-- TILE_CELL_ARRIVAL (R152). -/
def execTileCellArrival (h : HalfId) (src : CellFrom) (c : TileCell) (stamp : Nat) (s : State) : Answer :=
  s.actAt (s.stampAt h stamp) fun t m => m.given (!(m.half h).inReset) fun m => m.tileCell t h src c stamp

/-- NOSIG_TIMEOUT (R160): the end of NOSIGN frame periods. -/
def execNosigTimeout (h : HalfId) (i : Nat) (s : State) : Answer :=
  s.actAt ((s.mod.half h).nosigEnd i) fun t m => m.given (m.hasWindow h i) fun m => m.onHalf h fun x => x.nosigTimeout t i

/-- SOURCE_ENABLE (R167). -/
def execSourceEnable (h : HalfId) (i master : Nat) (on : Bool) (s : State) : Answer :=
  s.act fun t m => m.given (m.hasWindow h i) fun m => m.fieldWrite t h master (F.INK_SCTRL_ENABLE i) (bit on)

/-- PUBLISH_ROW (R164). -/
def execPublishRow (h : HalfId) (i : Nat) (row : WrittenRow) (s : State) : Answer :=
  s.act fun t m => m.given (m.hasWindow h i) fun m => m.publishRow t h i row.row row.lines

/-- SCRUB_PASS (R169): 100 s after the last. -/
def execScrubPass (h : HalfId) (corrected uncorrectable : List Nat) (s : State) : Answer :=
  s.actAt ((s.mod.half h).store.scrubAt + 100 * secNs) fun t m => m.onLive h fun x => x.scrub t corrected uncorrectable

end Sys2Proof.Machine
end

