-- ==== Sys2Proof/Machine/LaneCmds.lean ====
section
/-!
DEFINITION. Serial ports (chapter 05) and the island counters (R136): the meanings of the commands of lanes, links, patterns and
SDI receivers.
-/
namespace Sys2Proof.Machine

/-- An operation on a lane of a live half, with its reports. -/
def State.onPort (s : State) (h : HalfId) (p : Nat) (f : Nat → Half → Half × List LaneEvent) : Answer :=
  s.act fun t m => m.given (decide (p < 24)) fun m => m.ports t h fun x => f t x

/-- An operation on a lane at the end of `n` ns in its present state. -/
def State.afterLane (s : State) (h : HalfId) (p n : Nat) (f : Nat → Half → Half × List LaneEvent) : Answer :=
  s.actAt (((s.mod.half h).lane p).since + n) fun t m => m.given (decide (p < 24)) fun m => m.ports t h fun x => f t x

/-- A field of a lane's register is written, after which a start may go on. -/
def State.laneField (s : State) (h : HalfId) (p master : Nat) (f : Nat → Field) (v : Nat) : Answer :=
  s.act fun t m => m.given (decide (p < 24)) fun m => (m.fieldWrite t h master (f p) v).advance t

/-! ## Bring-up, map-out and rows (R105 to R112) -/

/-- CDR_LOCK (R105). -/
def execCdrLock (h : HalfId) (p : Nat) (s : State) : Answer := s.onPort h p fun _ x => (x.cdrLock p, [])

/-- CDR_LOSS_OF_LOCK (R110). -/
def execCdrLossOfLock (h : HalfId) (p : Nat) (s : State) : Answer := s.onPort h p fun t x => x.cdrLoss t p

/-- CELL_RECEIVE (R105): the clock stands no earlier than the mark of the cell. What a closed bypass pair passes on, it passes
whether the half is out of reset or not (R35). -/
def execCellReceive (h : HalfId) (p : Nat) (bits : List Bool) (stamp : Nat) (s : State) : Answer :=
  s.actAt (s.stampAt h stamp) fun t m => m.given (decide (p < 24)) fun m =>
    (m.onHalf h fun x => x.passBits p bits).ports t h fun x => x.receiveBits t p stamp bits

/-- BRINGUP_TIMEOUT (R105): 20 ms of bring-up. -/
def execBringupTimeout (h : HalfId) (p : Nat) (s : State) : Answer :=
  s.afterLane h p (20 * msNs) fun t x => (x.bringupTimeout t p, [])

/-- QUALIFY_DONE (R111): 1 s in QUALIFY. -/
def execQualifyDone (h : HalfId) (p : Nat) (s : State) : Answer := s.afterLane h p secNs fun t x => x.qualifyDone t p

/-- MAPOUT_RETRY_EXPIRE (R111): 10 s in MAPPED_OUT. -/
def execMapoutRetryExpire (h : HalfId) (p : Nat) (s : State) : Answer :=
  s.afterLane h p (10 * secNs) fun t x => (x.retryLane t p, [])

/-- TX_CELL_ROW (R108). -/
def execTxCellRow (h : HalfId) (l : Nat) (s : State) : Answer :=
  s.act fun t m => m.given (decide (l < 40)) fun m => m.onLive h fun x => x.cellTime t l

/-! ## Register writes (R34, R105, R111, R117 to R120) -/

/-- ENABLE_LANE (R105). -/
def execEnableLane (h : HalfId) (p master : Nat) (on : Bool) (s : State) : Answer :=
  s.laneField h p master F.LANE_CTRL_ENABLE (bit on)

/-- OPEN (R120). -/
def execOpenPair (h : HalfId) (p master : Nat) (on : Bool) (s : State) : Answer :=
  s.laneField h p master F.LANE_CTRL_OPEN (bit on)

/-- MAPOUT (R111). -/
def execMapout (h : HalfId) (p master : Nat) (on : Bool) (s : State) : Answer :=
  s.laneField h p master F.LANE_CTRL_MAPOUT (bit on)

/-- RETRY (R111). -/
def execRetry (h : HalfId) (p master : Nat) (s : State) : Answer := s.laneField h p master F.LANE_CTRL_RETRY 1

/-- TXIDLE (R34). -/
def execTxidle (h : HalfId) (p master : Nat) (on : Bool) (s : State) : Answer :=
  s.laneField h p master F.LANE_CTRL_TXIDLE (bit on)

/-- GENEN (R117). -/
def execGenen (h : HalfId) (p master : Nat) (on : Bool) (s : State) : Answer :=
  s.laneField h p master F.LANE_PATTERN_GENEN (bit on)

/-- CHKEN (R118). -/
def execChken (h : HalfId) (p master : Nat) (on : Bool) (s : State) : Answer :=
  s.laneField h p master F.LANE_PATTERN_CHKEN (bit on)

/-- FIRE (R119). -/
def execFire (h : HalfId) (p master : Nat) (s : State) : Answer := s.laneField h p master F.LANE_INJECT_FIRE 1

/-- PATTERN_BITS_RECEIVE (R118). -/
def execPatternBitsReceive (h : HalfId) (p : Nat) (bits : List Bool) (s : State) : Answer := s.onPort h p fun _ x =>
  (if x.flag (F.LANE_PATTERN_CHKEN p) then x.checkBits p bits else x, [])

/-! ## SDI receivers (R115, R116) and island counters (R136) -/

/-- SDI_LOCK (R115). -/
def execSdiLock (h : HalfId) (p rate : Nat) (levelB : Bool) (s : State) : Answer :=
  s.onPort h p fun t x => ((x.sdiLock p rate levelB).followAllNosig t, [])

/-- SDI_RATE_HUNT_TIMEOUT (R115): 5 ms on a rate. -/
def execSdiRateHuntTimeout (h : HalfId) (p : Nat) (s : State) : Answer := s.afterLane h p (5 * msNs) fun t x => (x.sdiNextRate t p, [])

/-- SDI_LOCK_LOSS (R116). -/
def execSdiLockLoss (h : HalfId) (p : Nat) (s : State) : Answer := s.onPort h p fun t x =>
  (if x.laneState p = lsSdiLock then (x.sdiUnlock t p).sdiLost t p else x, [])

/-- COUNTER_DRAIN (R136). -/
def execCounterDrain (h : HalfId) (p : Nat) (s : State) : Answer := s.onPort h p fun _ x => (x.drain p, [])

end Sys2Proof.Machine
end

