-- ==== Sys2Proof/Machine/LapCmds.lean ====
section
/-!
DEFINITION. Laps, composition and selections (chapters 06, 08 and 09): the meanings of the commands of the lap, of the pipes and
of the select registers.
-/
namespace Sys2Proof.Machine

/-- LAP_BOUNDARY (R174): at the instant where the time island places it (R253), whatever instant of the local base the command brings;
one that is met later than its own instant keeps A(L) as its stamp. -/
def execLapBoundary (h : HalfId) (stamp : Nat) (s : State) : Answer :=
  let at_ := s.mod.boundaryStamp (max s.now (s.stampAt h stamp)) h
  s.actAt (s.stampAt h (max stamp at_)) fun t m => m.lapTick t h at_

/-- LATCH_RECORD_RECEIVE (R236). -/
def execLatchRecordReceive (h : HalfId) (r : LatchRecord) (s : State) : Answer := s.act fun t m =>
  m.given (linkOk (m.half h) (m.half h.peer)) fun m =>
    ((m.inbound h .status).consumes h fun y => y == .latch r).afterLatch t h fun x => x.latchArrives r

/-- LATCH_RECORD_TIMEOUT (R236): 20 µs after the boundary. -/
def execLatchRecordTimeout (h : HalfId) (layer : Nat) (s : State) : Answer :=
  s.actAt (s.stampAt h (((s.mod.half h).lap.bounds.head?.map fun b => b.2 + 20000).getD 0)) fun t m => m.given (!(m.half h).inReset) fun m => m.afterLatch t h fun x => x.latchTimeout layer

/-- PIPE_FREE (R141). -/
def execPipeFree (h : HalfId) (pipe : Nat) (s : State) : Answer :=
  s.act fun _ m => m.given (decide (pipe < 4)) fun m => m.onLive h fun x => x.pipeFree pipe

/-- FETCH_COMPLETE (R140). -/
def execFetchComplete (h : HalfId) (tag : Nat) (e : AccessErrors) (s : State) : Answer :=
  s.act fun t m => m.given (!(m.half h).inReset) fun m => m.fetchComplete t h tag e.corrected e.uncorrectable

/-- TILE_READY (R222). -/
def execTileReady (h : HalfId) (tx ty : Nat) (s : State) : Answer := s.act fun t m => m.onLive h fun x => x.tileReady t tx ty

/-- LAP_DEADLINE (R142): PNL_CUT before the coming boundary (R253). -/
def execLapDeadline (h : HalfId) (s : State) : Answer :=
  let x := s.mod.half h
  s.actAt (s.stampAt h (if x.lapBegun then x.deadlineAt.toNat else 0)) fun t m => m.onLive h fun x => x.lapDeadline t

/-- SCENESEL (R188). -/
def execScenesel (h : HalfId) (master scene : Nat) (s : State) : Answer := s.act fun t m =>
  m.regWrite t h master F.RBK_SCENESEL_word.off (putBits (BitVec.ofNat 32 (scene % 256)) 8 1 1)

/-- The word of CMP_GSEL that submits a graphic change (R213). -/
def gselWord (layer : Nat) (setState setAlpha : Bool) (state alpha : Nat) : Word :=
  [(0, 6, state), (8, 8, alpha), (16, 3, layer), (23, 1, bit setState), (24, 1, bit setAlpha), (25, 1, 1)].foldl
    (fun (w : Word) f => putBits w f.1 f.2.1 f.2.2) 0

/-- GSEL (R213). -/
def execGsel (h : HalfId) (master layer : Nat) (setState setAlpha : Bool) (state alpha : Nat) (s : State) : Answer :=
  s.act fun t m => m.regWrite t h master F.CMP_GSEL_word.off (gselWord layer setState setAlpha state alpha)

/-- FORCE (R235). -/
def execForce (h : HalfId) (master : Nat) (on : Bool) (s : State) : Answer :=
  s.act fun t m => m.fieldWrite t h master F.AGE_CTRL_FORCE (bit on)

end Sys2Proof.Machine
end

