-- ==== Sys2Proof/Machine/PaceCmds.lean ====
section
/-!
DEFINITION. Pace meters and the core supply (R122 to R132, R389): the meanings of the commands of the pace block.
-/
namespace Sys2Proof.Machine

/-- PACE_GATE (R123): 1 µs after the last. -/
def execPaceGate (h : HalfId) (counts : List Nat) (s : State) : Answer :=
  s.actAt ((s.mod.half h).pace.gateAt + 1000) fun t m => m.onLive h fun x => x.paceGate t counts

/-- PACE_EVALUATION (R125): 1 ms after the last. -/
def execPaceEvaluation (h : HalfId) (s : State) : Answer :=
  s.actAt ((s.mod.half h).pace.evalAt + msNs) fun t m => m.onLive h fun x => x.paceEvaluate t

/-- REGULATOR_READBACK (R127): 500 µs after the command. -/
def execRegulatorReadback (h : HalfId) (ack : Bool) (mv status : Nat) (s : State) : Answer :=
  let p := (s.mod.half h).pace
  s.actAt (if p.reading then p.askedAt + msNs / 2 else 0) fun t m => m.onLive h fun x => x.readback t ack mv status

/-- PMB_ALERT (R389). -/
def execPmbAlert (h : HalfId) (ack : Bool) (status : Nat) (s : State) : Answer :=
  s.act fun t m => m.onLive h fun x => x.pmbAlert t ack status

end Sys2Proof.Machine
end

