-- ==== Sys2Proof/Machine/PanelCmds.lean ====
section
/-!
DEFINITION. The panel port (chapter 11): the meanings of the commands of the panel sub-links.
-/
namespace Sys2Proof.Machine

/-- IDENT (R258). -/
def execIdent (h : HalfId) (f : PanelFlags) (i : PanelIdent) (s : State) : Answer :=
  s.act fun t m => m.onLive h fun x => x.identArrives t f i

/-- MODEDECL (R250). -/
def execModedecl (h : HalfId) (f : PanelFlags) (r : ModeRecord) (s : State) : Answer :=
  s.act fun t m => m.onLive h fun x => x.modeArrives t f r

/-- READY (R258). -/
def execReady (h : HalfId) (f : PanelFlags) (c : BlankingCell) (stamp : Nat) (s : State) : Answer :=
  s.actAt (s.stampAt h stamp) fun t m => (m.onLive h fun x => x.readyArrives t f c stamp).advance t

/-- BLANKING_REPORT (R268). -/
def execBlankingReport (h : HalfId) (f : PanelFlags) (c : BlankingCell) (stamp : Nat) (s : State) : Answer :=
  s.actAt (s.stampAt h stamp) fun t m => m.blanking t h f c stamp

/-- ECHO (R256). -/
def execEcho (h : HalfId) (f : PanelFlags) (pseq hallmark result : Nat) (s : State) : Answer :=
  s.act fun t m => (m.onLive h fun x => x.echoArrives t f pseq hallmark result).advance t

/-- KAECHO (R252). -/
def execKaecho (h : HalfId) (f : PanelFlags) (token stamp : Nat) (s : State) : Answer :=
  s.actAt (s.stampAt h stamp) fun t m => m.kaecho t h f token stamp

/-- PANEL_FAULT (R249). -/
def execPanelFault (h : HalfId) (f : PanelFlags) (code : Nat) (s : State) : Answer :=
  s.act fun t m => m.onLive h fun x => x.panelFault t f code

/-- KEEPALIVE_SEND (R269): KAPERIOD after the last one. -/
def execKeepaliveSend (h : HalfId) (s : State) : Answer :=
  let x := s.mod.half h
  s.actAt (x.panel.keepAt + ((x.image.map fun i => i.panel.kaperiod).getD 5) * msNs) fun t m => m.onLive h fun x => x.keepaliveSend t

/-- How long after the boundary of its lap a half waits for the report (R261). -/
def Half.reportWait (h : Half) : Nat := h.rptLat + h.get F.AGE_FLIPDECL_FLIPERR + h.panel.linkDly + 50000

/-- BLANKING_REPORT_WAIT_EXPIRE (R261). -/
def execBlankingReportWaitExpire (h : HalfId) (s : State) : Answer :=
  let x := s.mod.half h
  s.actAt (((x.lap.bounds.head?.map fun b => x.epoch.getD 0 + b.2).getD 0) + x.reportWait) fun _ m => m.onLive h Half.noReport

/-- PANEL_INIT_RETRY (R259): 1 s after the failure. -/
def execPanelInitRetry (h : HalfId) (s : State) : Answer :=
  s.actAt (((s.mod.half h).panel.failedAt.map fun a => a + secNs).getD 0) fun t m => m.onLive h fun x => x.panelRetry t

/-- REINIT (R258). -/
def execReinit (h : HalfId) (master : Nat) (s : State) : Answer := s.act fun t m => m.fieldWrite t h master F.PNL_CTRL_REINIT 1

/-- PNL_RUN (R269). -/
def execPnlRun (h : HalfId) (master : Nat) (on : Bool) (s : State) : Answer :=
  s.act fun t m => m.fieldWrite t h master F.PNL_CTRL_RUN (bit on)

/-- MODESEL (R273). -/
def execModesel (h : HalfId) (master mode : Nat) (s : State) : Answer := s.act fun t m =>
  m.regWrite t h master F.PNL_MODESEL_word.off (putBits (BitVec.ofNat 32 (mode % 256)) 8 1 1)

/-- MODE_CHANGE_TIMEOUT (R274): 500 ms without a NEWMODE report. -/
def execModeChangeTimeout (h : HalfId) (s : State) : Answer :=
  s.actAt ((s.mod.half h).modeDue.getD 0) fun t m => m.given (!(m.half h).inReset) fun m => m.modeTimeout t h

/-- SUBLINK_DOWN_EXPIRE (R276): 100 ms after the sub-link went down. -/
def execSublinkDownExpire (h : HalfId) (s : State) : Answer :=
  s.actAt (((s.mod.half h).panel.downFrom.map fun a => a + 100 * msNs).getD 0) fun t m => m.onLive h fun x => x.sublinkDown t

end Sys2Proof.Machine
end

