-- ==== Sys2Proof/Machine/PowerCmds.lean ====
section
/-!
DEFINITION. Power, resets, supervision and rest: the meanings of the commands of the lamplighter and of the watchdogs (chapters
02, 03 and 16).
-/
namespace Sys2Proof.Machine

/-! ## Power (R38 to R45) -/

/-- VAON_RISE (R49). -/
def execVaonRise (s : State) : Answer := s.act fun t m => m.vaonRise t

/-- VAON_LOW (R42). -/
def execVaonLow (s : State) : Answer := s.act fun t m => m.vaonLow t

/-- PWR_EN_RAISE (R38): 10 ms after lamplighter power-on. -/
def execPwrEnRaise (s : State) : Answer := s.actAt (s.phaseEnd .off (10 * msNs)) fun t m => m.pwrEnRaise t

/-- PWR_GOOD_RISE (R38). -/
def execPwrGoodRise (s : State) : Answer := s.act fun t m => m.pwrGoodRise t

/-- PWR_GOOD_TIMEOUT (R41): 100 ms after PWR_EN rose. -/
def execPwrGoodTimeout (s : State) : Answer := s.actAt (s.phaseEnd .waitGood (100 * msNs)) fun t m => m.pwrGoodTimeout t

/-- PWR_RETRY (R41): 1 s after the timeout. -/
def execPwrRetry (s : State) : Answer := s.actAt (s.phaseEnd .off secNs) fun t m => m.pwrRetry t

/-- SUPPLY_SAMPLE (R42): each millisecond. -/
def execSupplySample (mv : List Nat) (pwrGood : Bool) (temps : List Int) (s : State) : Answer :=
  s.actAt s.mod.lamp.due.supply fun t m => m.supplySample t mv pwrGood temps

/-- VCORE_HALF_RELEASE (R42): 100 ms after the supply came back into its window. -/
def execVcoreHalfRelease (h : HalfId) (s : State) : Answer :=
  s.actAt (((s.mod.lamp.half h).vcoreOk.map fun a => a + 100 * msNs).getD 0) fun t m => m.vcoreRelease t h

/-- THERMAL_TRIP (R45). -/
def execThermalTrip (temps : List Int) (s : State) : Answer := s.act fun t m => m.thermalTrip t temps

/-- TRIP_RELEASE (R45). -/
def execTripRelease (temps : List Int) (s : State) : Answer := s.act fun t m => m.tripRelease t temps

/-- RESET_N_ASSERT (R52). -/
def execResetNAssert (s : State) : Answer := s.act fun t m => m.resetNAssert t

/-- RESET_N_RELEASE (R52). -/
def execResetNRelease (s : State) : Answer := s.act fun t m => m.resetNRelease t

/-! ## RST_CMD and watchdogs (R53, R54, R61, R67) -/

/-- A write of RST_CMD with its key byte and one command bit. -/
def Module.rstWrite (m : Module) (t : Nat) (h : HalfId) (master : Nat) (key : Byte) (bitNo : Nat) : Module :=
  m.regWrite t h master F.RST_CMD_word.off (BitVec.ofNat 32 (key.toNat * 2 ^ 24 + 2 ^ bitNo))

/-- RESTART (R54). -/
def execRestart (h : HalfId) (master : Nat) (key : Byte) (s : State) : Answer := s.act fun t m => m.rstWrite t h master key 0

/-- RESET_HALF (R54). -/
def execResetHalf (h : HalfId) (master : Nat) (key : Byte) (s : State) : Answer := s.act fun t m => m.rstWrite t h master key 1

/-- CLEAR_FS (R54). -/
def execClearFs (h : HalfId) (master : Nat) (key : Byte) (s : State) : Answer := s.act fun t m => m.rstWrite t h master key 2

/-- CLEAR_HALFFS (R61). -/
def execClearHalffs (h : HalfId) (master : Nat) (key : Byte) (s : State) : Answer := s.act fun t m => m.rstWrite t h master key 3

/-- KICK (R53). -/
def execKick (h : HalfId) (master : Nat) (s : State) : Answer := s.act fun t m => m.fieldOnly t h master F.RST_WDOG_KICK 1

/-- STEWARD_WATCHDOG_EXPIRE (R53): 20 ms after the last kick. -/
def execStewardWatchdogExpire (h : HalfId) (s : State) : Answer :=
  s.actAt ((s.mod.half h).starter.wdogAt + 20 * msNs) fun t m => m.stewardWatchdog t h

/-- BLKRST (R67). -/
def execBlkrst (h : HalfId) (master blocks : Nat) (s : State) : Answer :=
  s.act fun t m => m.fieldOnly t h master F.RST_BLKRST_word blocks

/-- BLOCK_RESET_COMPLETE (R67). -/
def execBlockResetComplete (h : HalfId) (s : State) : Answer := s.act fun t m => m.given (!(m.half h).inReset) fun m => m.blocksDone t h

/-! ## Lamplighter (R364 to R370) -/

/-- PEER_RESET_GRANT (R16): half 0's request at once, half 1's after it has stood 2 ms. -/
def execPeerResetGrant (h : HalfId) (s : State) : Answer :=
  s.actAt (match h, (s.mod.lamp.half h).request with
    | .h1, some a => a + 2 * msNs
    | _, _ => 0) fun t m => m.grant t h

/-- When the kick line of a half last changed; a half that the watchdog does not watch counts for nothing. -/
def Module.watchedKick (m : Module) (h : HalfId) : Nat :=
  if (m.half h).dogWatched then (m.lamp.half h).kickAt.getD (m.half h).starter.releasedAt else 0

/-- LAMPLIGHTER_WATCHDOG_EXPIRE (R364): 50 ms after the last change of a kick line of the halves watched. -/
def execLamplighterWatchdogExpire (s : State) : Answer :=
  s.actAt (max (s.mod.watchedKick .h0) (s.mod.watchedKick .h1) + 50 * msNs) fun t m => m.lampWatchdog t

/-- LAMPLIGHTER_SAMPLE (R366): every 30.5 µs. -/
def execLamplighterSample (s : State) : Answer := s.actAt s.mod.lamp.due.sample fun t m => m.lampSample t

/-- HEALTH_TOGGLE (R368): 1 ms after the last. -/
def execHealthToggle (h : HalfId) (s : State) : Answer :=
  s.actAt (((s.mod.lamp.half h).healthAt.map fun a => a + msNs).getD 0) fun t m => m.healthToggle t h

/-- LIVE_OK_HOLDOFF_END (R368): 100 ms after every condition began to hold. -/
def execLiveOkHoldoffEnd (s : State) : Answer :=
  s.actAt ((s.mod.lamp.liveFrom.map fun a => a + 100 * msNs).getD 0) fun _ m => m.onLamp Lamp.holdoffEnd

/-- LIVE_OK_TOGGLE_EXPIRE (R368): the toggle has not been retriggered for 10 ms. -/
def execLiveOkToggleExpire (s : State) : Answer := s.actAt (s.mod.lamp.liveTrig + 10 * msNs) fun t m => m.onLamp fun l => l.toggleExpire t

/-- BYPASS_CLOSE (R120): 250 µs after the last toggle of the hold. -/
def execBypassClose (h : HalfId) (k : Nat) (s : State) : Answer :=
  s.actAt (((s.mod.lamp.half h).holdAt.map fun a => a + 250000).getD 0) fun _ m => m.bypassClose h k

/-- LMP_HEART_STOP (R370): 4 ms without a change of HEART. -/
def execLmpHeartStop (h : HalfId) (s : State) : Answer := s.actAt (s.mod.lamp.heartAt + 4 * msNs) fun t m => m.heartStop t h

/-- REST (R369). -/
def execRest (master : Nat) (key : Byte) (s : State) : Answer := s.act fun t m =>
  m.wordWrite t (m.lampIssuer master) master (lampBase + F.LMP_REST_word.off) (BitVec.ofNat 32 (key.toNat * 2 ^ 24 + 1))

/-- REST_POWER_OFF (R369): after 1 ms with every core in reset. -/
def execRestPowerOff (s : State) : Answer := s.actAt (s.phaseEnd .restEntry msNs) fun t m => m.restPowerOff t

/-- WAKE_TIMER_EXPIRE (R369): LMP_WAKE.TIMER seconds of rest; 0 is no timer. -/
def execWakeTimerExpire (s : State) : Answer :=
  let timer := s.mod.lamp.get F.LMP_WAKE_TIMER
  s.actAt (if timer = 0 then 0 else s.phaseEnd .rest (timer * secNs)) fun t m => m.wakeTimer t

end Sys2Proof.Machine
end

