-- ==== Sys2Proof/Machine/RingCmds.lean ====
section
/-!
DEFINITION. Rings (chapter 12): the meanings of the commands of ring laps, of ring control cells and of the join.
-/
namespace Sys2Proof.Machine

/-- An operation on ring `r`, 0 or 1, of a live half, after which a start may go on (R60 step 8). -/
def State.onRingOf (s : State) (h : HalfId) (r : Nat) (f : Nat → Half → Half) : Answer :=
  s.act fun t m => m.given (decide (r < 2)) fun m => (m.onLive h fun x => f t x).advance t

/-- An operation on ring `r` of a live half at the end of an interval. -/
def State.onRingAt (s : State) (u : Nat) (h : HalfId) (r : Nat) (f : Nat → Half → Half) : Answer :=
  s.actAt u fun t m => m.given (decide (r < 2)) fun m => (m.onLive h fun x => f t x).advance t

/-- RING_LAP_START (R279): one lap period after the previous row 0. -/
def execRingLapStart (h : HalfId) (r : Nat) (s : State) : Answer :=
  s.actAt ((((s.mod.half h).ring r).lapAt.map fun a => a + (s.mod.half h).lapNs r).getD 0) fun t m =>
    m.given (decide (r < 2)) fun m => m.ringLapStart t h r

/-- LAPSTART (R283). -/
def execLapstart (h : HalfId) (r : Nat) (side : Side) (c : LapStart) (s : State) : Answer :=
  s.act fun t m => m.given (decide (r < 2)) fun m => (m.lapstart t h r side c).advance t

/-- LAPSTART_TIMEOUT (R297): 4 lap periods without a valid LAPSTART across a segment. -/
def execLapstartTimeout (h : HalfId) (r : Nat) (side : Side) (s : State) : Answer :=
  s.onRingAt ((s.mod.half h).lapstartDue r side) h r fun t x => x.lapstartTimeout t r side

/-- SEGMENT_HEALED (R298): 16 lap periods of a whole segment. -/
def execSegmentHealed (h : HalfId) (r : Nat) (side : Side) (s : State) : Answer :=
  s.onRingAt ((s.mod.half h).healDue r side) h r fun _ x => x.segmentHealed r side

/-- JOIN (R294). -/
def execJoin (h : HalfId) (r : Nat) (c : JoinCell) (s : State) : Answer := s.onRingOf h r fun _ x => x.joinArrives r c

/-- JOINACK (R294). -/
def execJoinack (h : HalfId) (r dest result : Nat) (s : State) : Answer :=
  s.onRingOf h r fun t x => x.joinAckArrives t r dest result

/-- LEAVE (R296). -/
def execLeave (h : HalfId) (r addr : Nat) (s : State) : Answer := s.onRingOf h r fun _ x => x.leaveArrives r addr

/-- JOINEN (R296). -/
def execJoinen (h : HalfId) (r master : Nat) (on : Bool) (s : State) : Answer := s.act fun t m =>
  m.given (decide (r < 2)) fun m => (m.fieldWrite t h master (F.RNG_CTRL_JOINEN r) (bit on)).advance t

/-- MASTER_CANDIDATE_TIMEOUT (R295): 200 ms of step 8 without a LAPSTART. -/
def execMasterCandidateTimeout (h : HalfId) (r : Nat) (s : State) : Answer :=
  s.onRingAt ((s.mod.half h).starter.step8From + 200 * msNs) h r fun t x => x.candidateAlone t r

end Sys2Proof.Machine
end

