-- ==== Sys2Proof/Machine/StartCmds.lean ====
section
/-!
DEFINITION. Starting: the meanings of the commands of a start and of the loader (chapters 03 and 04) and of the halves' link
(chapters 01 and 16).
-/
namespace Sys2Proof.Machine

/-! ## Starts (R55 to R66) -/

/-- START (R60). -/
def execStart (codes : List (List Nat)) (s : State) : Answer := s.act fun t m => (m.start t codes).advance t

/-- ISLAND_QUALIFIED (R59): the island is released, and a pass-through that waits for it goes on (R387). -/
def execIslandQualified (h : HalfId) (i : Island) (s : State) : Answer := s.act fun t m =>
  m.given (m.qualifies h i) fun m => ((m.onHalf h fun x => x.qualify t (m.half h.peer).epoch i).passReady t).advance t

/-- LOSS_OF_CLOCK (R59). -/
def execLossOfClock (h : HalfId) (i : Island) (s : State) : Answer := s.act fun t m => m.clockLost t h i

/-- STEPS_1_3_LIMIT_EXPIRE (R60): 1 s from the start. -/
def execSteps13LimitExpire (s : State) : Answer := s.actAt (s.mod.lamp.startAt + secNs) fun t m => m.steps13Limit t

/-- IMAGE_HEADERS_READ (R81). -/
def execImageHeadersRead (sfdp : Option Sfdp) (s : State) : Answer := s.act fun t m => (m.headersRead t sfdp).advance t

/-- SECTION_ARRIVAL (R86). -/
def execSectionArrival (s : State) : Answer := s.act fun t m => (m.sectionArrival t).advance t

/-- LOAD_LIMIT_EXPIRE (R83): the load limit after the beginning of step 4. -/
def execLoadLimitExpire (s : State) : Answer := s.actAt s.mod.loadLimitAt fun t m => m.loadLimitExpire t

/-- TRAINING_DONE (R170). -/
def execTrainingDone (h : HalfId) (passed : Nat) (s : State) : Answer := s.act fun t m => m.trainingDone t h passed

/-- START_LIMIT_EXPIRE (R60): 4 s from the end of step 4. -/
def execStartLimitExpire (s : State) : Answer := s.actAt ((s.mod.lamp.step4At.map fun a => a + 4 * secNs).getD 0) fun t m => m.startLimit t

/-- FALSE_START_HOLD_END (R64): after 1 s. -/
def execFalseStartHoldEnd (s : State) : Answer := s.actAt (s.phaseEnd .heldFalse secNs) fun t m => m.falseHoldEnd t

/-- The latest instant of the halves that a start step waits for. -/
def State.latest (s : State) (f : StarterSt → Nat) : Nat := max (f s.mod.half0.starter) (f s.mod.half1.starter)

/-- STEP8_TIMEOUT (R60): 1,000 ms of step 8. -/
def execStep8Timeout (s : State) : Answer := s.actAt (s.latest (fun x => x.step8From) + secNs) fun t m => m.stepTimeout t 8

/-- STEP9_TIMEOUT (R327): 1,000 ms of step 9. -/
def execStep9Timeout (s : State) : Answer := s.actAt (s.latest (fun x => x.step9From) + secNs) fun t m => m.stepTimeout t 9

/-- FS_COUNT_CLEAR_60S (R65): 60 s of continuous RUNNING. -/
def execFsCountClear60s (s : State) : Answer := s.actAt (s.mod.lamp.runningAt + 60 * secNs) fun _ m => m.clearCount

/-- HALF_RESET_RELEASE (R61): 1 ms after the half reset. -/
def execHalfResetRelease (h : HalfId) (s : State) : Answer :=
  s.actAt (if (s.mod.lamp.half h).hold = .brief then (s.mod.lamp.half h).resetAt + msNs else 0) fun t m => m.halfResetRelease t h

/-- HALF_START_LIMIT_EXPIRE (R61): 4 s from the end of step 4 of the half start. -/
def execHalfStartLimitExpire (h : HalfId) (s : State) : Answer :=
  s.actAt ((s.mod.half h).starter.step4At + 4 * secNs) fun t m => m.halfStartLimit t h

/-- HALFFS_CLEAR_60S (R61): 60 s of baton exchange. -/
def execHalffsClear60s (h : HalfId) (s : State) : Answer :=
  s.actAt ((s.mod.half h).link.exchangedAt + 60 * secNs) fun t m => m.halfFsClear t h

/-! ## Half link and batons (R15, R16, R362) -/

/-- FLIT_RECEIVE (R15). -/
def execFlitReceive (h : HalfId) (f : Flit) (s : State) : Answer := s.act fun t m => m.flitReceive t h f

/-- When the next baton flit of a half is due (R362): at once where a field differs from the last flit, else 1 ms after it. -/
def Half.batonDue (h : Half) : Nat := match h.link.sent with
  | none => 0
  | some (a, b) => if { h.baton with bseq := b.bseq } = b then a + msNs else 0

/-- BATON_SEND (R362): every 1 ms, or on a change of a field. -/
def execBatonSend (h : HalfId) (s : State) : Answer := s.actAt (s.mod.half h).batonDue fun t m => m.batonSend t h

/-- BATON_RECEIVE (R362). -/
def execBatonReceive (h : HalfId) (b : Baton) (s : State) : Answer := s.act fun t m => (m.inbound h .baton).batonReceive t h b

/-- BATON_SILENCE_2MS (R356). -/
def execBatonSilence2ms (h : HalfId) (s : State) : Answer :=
  s.actAt ((s.mod.half h).link.silentFrom + 2 * msNs) fun _ m => m.onHalf h Half.silence2ms

/-- BATON_SILENCE (R16): 5 ms of silence. -/
def execBatonSilence (h : HalfId) (s : State) : Answer :=
  s.actAt ((s.mod.half h).link.silentFrom + 5 * msNs) fun t m => m.batonSilence t h

/-- LEDGER_MIRROR_RECEIVE (R420). -/
def execLedgerMirrorReceive (h : HalfId) (entry : List Byte) (s : State) : Answer := s.act fun _ m => (m.inbound h .status).mirrorReceive h entry

end Sys2Proof.Machine
end

