-- ==== Sys2Proof/Machine/TimeCmds.lean ====
section
/-!
DEFINITION. Time bases and the two time domains (chapter 13): the meanings of the commands of time cells, domains, wall time and
grandmasters.
-/
namespace Sys2Proof.Machine

/-- The next PDREQ across a segment: 16 ring laps after the last one (R313). -/
def Half.pdreqDue (h : Half) (r : Nat) (side : Side) : Nat :=
  ((h.time.seg.getD (segIndex r side) SegDelay.reset).askedAt.map fun a => a + 16 * ringLapNs (h.ringRate r)).getD 0

/-- PDREQ_SEND (R313). -/
def execPdreqSend (h : HalfId) (r : Nat) (side : Side) (t1 : Nat) (s : State) : Answer :=
  s.actAt (max ((s.mod.half h).pdreqDue r side) (s.stampAt h t1)) fun t m => m.given (decide (r < 2)) fun m => m.onLive h fun x => x.pdreqSend t r side

/-- PDREQ (R313): on ring 0 or 1, or on the bridge link `r - 2`. -/
def execPdreq (h : HalfId) (r : Nat) (side : Side) (seq t2 t3 : Nat) (s : State) : Answer :=
  s.actAt (s.stampAt h (max t2 t3)) fun _ m => m.given (decide (r < 18)) fun m => m.onLive h fun x => x.pdreqArrives r side seq t2

/-- PDRESP (R313). -/
def execPdresp (h : HalfId) (r : Nat) (side : Side) (seq t2 t3 t4 : Nat) (s : State) : Answer :=
  s.actAt (s.stampAt h t4) fun _ m => m.given (decide (r < 2)) fun m => m.onLive h fun x => x.pdrespArrives r side seq t2 t3 t4

/-- SYNC (R314): taken at the receive mark, and forwarded no earlier than `tx`. -/
def execSync (h : HalfId) (r : Nat) (side : Side) (c : SyncCell) (rx tx : Nat) (s : State) : Answer :=
  let at_ := max s.now (s.stampAt h rx)
  s.actAt (s.stampAt h (max rx tx)) fun t m =>
    m.given (decide (r < 2)) fun m => (m.onLive h fun x => x.syncArrives at_ r side c rx).advance t

/-- The instant TIMEOUT after the last accepted SYNC of a domain (R314). -/
def State.domainEnd (s : State) (h : HalfId) (d : Domain) : Nat :=
  let x := s.mod.half h
  s.stampAt h ((x.time.dom d).lastAt + x.tconf.timeout * msNs)

/-- DOMAIN_TIMEOUT (R314). -/
def execDomainTimeout (h : HalfId) (d : Domain) (s : State) : Answer :=
  s.actAt (s.domainEnd h d) fun t m => (m.onLive h fun x => x.domainTimeout (m.half h.peer) t d).advance t

/-- 10 s of the preferred domain TRACKED without interruption (R321). -/
def State.revertEnd (s : State) (h : HalfId) : Nat :=
  let x := s.mod.half h
  s.stampAt h ((x.time.dom x.tconf.prefer).since + 10 * secNs)

/-- REVERT_EXPIRE (R321). -/
def execRevertExpire (h : HalfId) (s : State) : Answer := s.actAt (s.revertEnd h) fun t m => m.onLive h fun x => x.revert t

/-- The instant at which O reaches 0 at 50 µs/s (R320). -/
def State.slewEnd (s : State) (h : HalfId) : Nat :=
  let x := (s.mod.half h).time
  s.stampAt h (x.offAt + ceilDiv (x.off.natAbs * 1000000) (50 * 2 ^ 32))

/-- SLEW_DONE (R320). -/
def execSlewDone (h : HalfId) (s : State) : Answer := s.actAt (s.slewEnd h) fun t m => m.onLive h fun x => x.slewDone t

/-- 1 ms after the last SYNC of a camera link was due (R323). -/
def Half.bridgeDue (h : Half) (l : Nat) : Nat := ((h.time.bridge.find? fun b => b.1 == l).map fun b => b.2.2 + msNs).getD 0

/-- BRIDGE_SYNC_SEND (R323). -/
def execBridgeSyncSend (h : HalfId) (l : Nat) (s : State) : Answer :=
  s.actAt ((s.mod.half h).bridgeDue l) fun t m => m.given (decide (l < 16)) fun m => m.onLive h fun x => x.bridgeSync t l

/-- A write of TIM_GMCMD with GO for a domain (R318). -/
def Module.gmWrite (m : Module) (t : Nat) (h : HalfId) (master : Nat) (d : Domain) (step : Bool) : Module :=
  m.regWrite t h master F.TIM_GMCMD_word.off (BitVec.ofNat 32 (1 + 2 * d.code + 4 * bit step))

/-- GMCMD_SLEW (R318). -/
def execGmcmdSlew (h : HalfId) (master : Nat) (d : Domain) (s : State) : Answer := s.act fun t m => m.gmWrite t h master d false

/-- GMCMD_STEP (R318). -/
def execGmcmdStep (h : HalfId) (master : Nat) (d : Domain) (s : State) : Answer := s.act fun t m => m.gmWrite t h master d true

/-- GRANDMASTER_START_WAIT_EXPIRE (R318): 500 ms of step 9. -/
def execGrandmasterStartWaitExpire (h : HalfId) (d : Domain) (s : State) : Answer :=
  s.actAt ((s.mod.half h).starter.step9From + 500 * msNs) fun t m => (m.onLive h fun x => x.gmStartWait t d).advance t

end Sys2Proof.Machine
end

