-- ==== Sys2Proof/Machine/TouchCmds.lean ====
section
/-!
DEFINITION. Touch and operator inputs (chapter 18): the meanings of their commands.
-/
namespace Sys2Proof.Machine

/-- SCAN (R399). -/
def execScan (master : Nat) (on : Bool) (s : State) : Answer :=
  s.act fun t m => m.fieldWrite t .h0 master F.TCH_CTRL_SCAN (bit on)

/-- TOUCH_FRAME (R400): the clock stands no earlier than the end of the measurement. -/
def execTouchFrame (samples : List (List (List Int))) (selfRaw rowSelf colSelf : List Int) (stamp : Nat) (s : State) : Answer :=
  s.actAt (s.stampAt .h0 stamp) fun t m => m.touchFrame t samples selfRaw rowSelf colSelf stamp

/-- When the wait of the held touch frame runs out; 0 where none is held. -/
def State.touchWait (s : State) : Nat := match s.mod.half0.touch.held with
  | none => 0
  | some f => max (s.mod.half0.touchWaitEnd s.now f.start f.stop) (s.mod.half1.touchWaitEnd s.now f.start f.stop)

/-- TOUCH_STATUS_WAIT_EXPIRE (R407): 500 µs after the predicted blanking. -/
def execTouchStatusWaitExpire (s : State) : Answer :=
  s.actAt s.touchWait fun t m => m.given (!m.half0.inReset) fun m => m.finishFrame t true

/-- RING_ROOM_RESYNC (R403). -/
def execRingRoomResync (s : State) : Answer := s.act fun t m => m.given (!m.half0.inReset) fun m => m.resyncRing t

/-- REST_SCAN (R408): every PERIOD of KEY_GANGCTRL. -/
def execRestScan (codes : List Nat) (s : State) : Answer :=
  s.actAt (if s.mod.lamp.phase = .rest then s.mod.lamp.due.scan else 0) fun t m => m.restScan t codes

/-- KEY_SAMPLE (R409): every millisecond. -/
def execKeySample (levels : Nat) (s : State) : Answer := s.actAt s.mod.lamp.due.key fun t m => m.keySample t levels

/-- KEY_STUCK (R411): LIMIT seconds after the key was accepted active. -/
def execKeyStuck (k : Nat) (s : State) : Answer :=
  s.actAt (if (s.mod.lamp.key k).active then (s.mod.lamp.key k).since + s.mod.lamp.get (F.KEY_CFG_LIMIT k) * secNs else 0) fun t m => m.keyStuck t k

/-- KEY_EVENT_READ (R412). -/
def execKeyEventRead (master : Nat) (s : State) : Answer :=
  s.act fun t m => m.wordRead t (m.lampIssuer master) master (lampBase + F.KEY_EVENT_word.off)

end Sys2Proof.Machine
end

