-- ==== Sys2Proof/Machine/Dispatch.lean ====
section
/-!
DEFINITION. The dispatch of a command to its meaning: one arm per constructor of `Instr`, each one direct call.
-/
namespace Sys2Proof.Machine

def exec (i : Instr) (s : State) : Host.Outcome State Fault Refusal :=
  match i with
  | .vaonRise => Sys2Proof.Machine.execVaonRise s
  | .vaonLow => Sys2Proof.Machine.execVaonLow s
  | .pwrEnRaise => Sys2Proof.Machine.execPwrEnRaise s
  | .pwrGoodRise => Sys2Proof.Machine.execPwrGoodRise s
  | .pwrGoodTimeout => Sys2Proof.Machine.execPwrGoodTimeout s
  | .pwrRetry => Sys2Proof.Machine.execPwrRetry s
  | .supplySample mv pwrGood temps => Sys2Proof.Machine.execSupplySample mv pwrGood temps s
  | .vcoreHalfRelease h => Sys2Proof.Machine.execVcoreHalfRelease h s
  | .thermalTrip temps => Sys2Proof.Machine.execThermalTrip temps s
  | .tripRelease temps => Sys2Proof.Machine.execTripRelease temps s
  | .resetNAssert => Sys2Proof.Machine.execResetNAssert s
  | .resetNRelease => Sys2Proof.Machine.execResetNRelease s
  | .start codes => Sys2Proof.Machine.execStart codes s
  | .islandQualified h w => Sys2Proof.Machine.execIslandQualified h w s
  | .lossOfClock h w => Sys2Proof.Machine.execLossOfClock h w s
  | .steps13LimitExpire => Sys2Proof.Machine.execSteps13LimitExpire s
  | .imageHeadersRead sfdp => Sys2Proof.Machine.execImageHeadersRead sfdp s
  | .sectionArrival => Sys2Proof.Machine.execSectionArrival s
  | .loadLimitExpire => Sys2Proof.Machine.execLoadLimitExpire s
  | .trainingDone h passed => Sys2Proof.Machine.execTrainingDone h passed s
  | .startLimitExpire => Sys2Proof.Machine.execStartLimitExpire s
  | .falseStartHoldEnd => Sys2Proof.Machine.execFalseStartHoldEnd s
  | .step8Timeout => Sys2Proof.Machine.execStep8Timeout s
  | .step9Timeout => Sys2Proof.Machine.execStep9Timeout s
  | .fsCountClear60s => Sys2Proof.Machine.execFsCountClear60s s
  | .halfResetRelease h => Sys2Proof.Machine.execHalfResetRelease h s
  | .halfStartLimitExpire h => Sys2Proof.Machine.execHalfStartLimitExpire h s
  | .halffsClear60s h => Sys2Proof.Machine.execHalffsClear60s h s
  | .restart h m key => Sys2Proof.Machine.execRestart h m key s
  | .resetHalf h m key => Sys2Proof.Machine.execResetHalf h m key s
  | .clearFs h m key => Sys2Proof.Machine.execClearFs h m key s
  | .clearHalffs h m key => Sys2Proof.Machine.execClearHalffs h m key s
  | .kick h m => Sys2Proof.Machine.execKick h m s
  | .stewardWatchdogExpire h => Sys2Proof.Machine.execStewardWatchdogExpire h s
  | .blkrst h m blocks => Sys2Proof.Machine.execBlkrst h m blocks s
  | .blockResetComplete h => Sys2Proof.Machine.execBlockResetComplete h s
  | .flitReceive h f => Sys2Proof.Machine.execFlitReceive h f s
  | .batonSend h => Sys2Proof.Machine.execBatonSend h s
  | .batonReceive h b => Sys2Proof.Machine.execBatonReceive h b s
  | .batonSilence2ms h => Sys2Proof.Machine.execBatonSilence2ms h s
  | .batonSilence h => Sys2Proof.Machine.execBatonSilence h s
  | .peerResetGrant h => Sys2Proof.Machine.execPeerResetGrant h s
  | .lamplighterWatchdogExpire => Sys2Proof.Machine.execLamplighterWatchdogExpire s
  | .lamplighterSample => Sys2Proof.Machine.execLamplighterSample s
  | .healthToggle h => Sys2Proof.Machine.execHealthToggle h s
  | .liveOkHoldoffEnd => Sys2Proof.Machine.execLiveOkHoldoffEnd s
  | .bypassClose h k => Sys2Proof.Machine.execBypassClose h k s
  | .lmpHeartStop h => Sys2Proof.Machine.execLmpHeartStop h s
  | .rest m key => Sys2Proof.Machine.execRest m key s
  | .restPowerOff => Sys2Proof.Machine.execRestPowerOff s
  | .wakeTimerExpire => Sys2Proof.Machine.execWakeTimerExpire s
  | .cdrLock h p => Sys2Proof.Machine.execCdrLock h p s
  | .cdrLossOfLock h p => Sys2Proof.Machine.execCdrLossOfLock h p s
  | .cellReceive h p bits stamp => Sys2Proof.Machine.execCellReceive h p bits stamp s
  | .bringupTimeout h p => Sys2Proof.Machine.execBringupTimeout h p s
  | .qualifyDone h p => Sys2Proof.Machine.execQualifyDone h p s
  | .mapoutRetryExpire h p => Sys2Proof.Machine.execMapoutRetryExpire h p s
  | .txCellRow h l => Sys2Proof.Machine.execTxCellRow h l s
  | .enableLane h p m on => Sys2Proof.Machine.execEnableLane h p m on s
  | .openPair h p m on => Sys2Proof.Machine.execOpenPair h p m on s
  | .mapout h p m on => Sys2Proof.Machine.execMapout h p m on s
  | .retry h p m => Sys2Proof.Machine.execRetry h p m s
  | .txidle h p m on => Sys2Proof.Machine.execTxidle h p m on s
  | .genen h p m on => Sys2Proof.Machine.execGenen h p m on s
  | .chken h p m on => Sys2Proof.Machine.execChken h p m on s
  | .fire h p m => Sys2Proof.Machine.execFire h p m s
  | .sdiLock h p rate levelB => Sys2Proof.Machine.execSdiLock h p rate levelB s
  | .sdiRateHuntTimeout h p => Sys2Proof.Machine.execSdiRateHuntTimeout h p s
  | .sdiLockLoss h p => Sys2Proof.Machine.execSdiLockLoss h p s
  | .paceGate h counts => Sys2Proof.Machine.execPaceGate h counts s
  | .paceEvaluation h => Sys2Proof.Machine.execPaceEvaluation h s
  | .regulatorReadback h ack mv status => Sys2Proof.Machine.execRegulatorReadback h ack mv status s
  | .pmbAlert h ack status => Sys2Proof.Machine.execPmbAlert h ack status s
  | .counterDrain h p => Sys2Proof.Machine.execCounterDrain h p s
  | .sdiFrameStart h w stamp pid lines samples => Sys2Proof.Machine.execSdiFrameStart h w stamp pid lines samples s
  | .sdiFrameComplete h w picture => Sys2Proof.Machine.execSdiFrameComplete h w picture s
  | .tileCellArrival h src c stamp => Sys2Proof.Machine.execTileCellArrival h src c stamp s
  | .nosigTimeout h w => Sys2Proof.Machine.execNosigTimeout h w s
  | .sourceEnable h w m on => Sys2Proof.Machine.execSourceEnable h w m on s
  | .publishRow h w row => Sys2Proof.Machine.execPublishRow h w row s
  | .scrubPass h corrected uncorrectable => Sys2Proof.Machine.execScrubPass h corrected uncorrectable s
  | .lapBoundary h stamp => Sys2Proof.Machine.execLapBoundary h stamp s
  | .latchRecordReceive h r => Sys2Proof.Machine.execLatchRecordReceive h r s
  | .latchRecordTimeout h layer => Sys2Proof.Machine.execLatchRecordTimeout h layer s
  | .pipeFree h pipe => Sys2Proof.Machine.execPipeFree h pipe s
  | .fetchComplete h tag errors => Sys2Proof.Machine.execFetchComplete h tag errors s
  | .tileReady h tx ty => Sys2Proof.Machine.execTileReady h tx ty s
  | .lapDeadline h => Sys2Proof.Machine.execLapDeadline h s
  | .scenesel h m scene => Sys2Proof.Machine.execScenesel h m scene s
  | .gsel h m layer setState setAlpha state alpha => Sys2Proof.Machine.execGsel h m layer setState setAlpha state alpha s
  | .force h m on => Sys2Proof.Machine.execForce h m on s
  | .ident h f w => Sys2Proof.Machine.execIdent h f w s
  | .modedecl h f r => Sys2Proof.Machine.execModedecl h f r s
  | .ready h f c stamp => Sys2Proof.Machine.execReady h f c stamp s
  | .blankingReport h f c stamp => Sys2Proof.Machine.execBlankingReport h f c stamp s
  | .echo h f pseq hallmark result => Sys2Proof.Machine.execEcho h f pseq hallmark result s
  | .kaecho h f token stamp => Sys2Proof.Machine.execKaecho h f token stamp s
  | .panelFault h f code => Sys2Proof.Machine.execPanelFault h f code s
  | .keepaliveSend h => Sys2Proof.Machine.execKeepaliveSend h s
  | .blankingReportWaitExpire h => Sys2Proof.Machine.execBlankingReportWaitExpire h s
  | .panelInitRetry h => Sys2Proof.Machine.execPanelInitRetry h s
  | .reinit h m => Sys2Proof.Machine.execReinit h m s
  | .pnlRun h m on => Sys2Proof.Machine.execPnlRun h m on s
  | .modesel h m mode => Sys2Proof.Machine.execModesel h m mode s
  | .modeChangeTimeout h => Sys2Proof.Machine.execModeChangeTimeout h s
  | .sublinkDownExpire h => Sys2Proof.Machine.execSublinkDownExpire h s
  | .ringLapStart h r => Sys2Proof.Machine.execRingLapStart h r s
  | .lapstart h r side c => Sys2Proof.Machine.execLapstart h r side c s
  | .lapstartTimeout h r side => Sys2Proof.Machine.execLapstartTimeout h r side s
  | .segmentHealed h r side => Sys2Proof.Machine.execSegmentHealed h r side s
  | .join h r c => Sys2Proof.Machine.execJoin h r c s
  | .joinack h r dest result => Sys2Proof.Machine.execJoinack h r dest result s
  | .leave h r addr => Sys2Proof.Machine.execLeave h r addr s
  | .joinen h r m on => Sys2Proof.Machine.execJoinen h r m on s
  | .masterCandidateTimeout h r => Sys2Proof.Machine.execMasterCandidateTimeout h r s
  | .pdreqSend h r side t1 => Sys2Proof.Machine.execPdreqSend h r side t1 s
  | .pdreq h r side seq t2 t3 => Sys2Proof.Machine.execPdreq h r side seq t2 t3 s
  | .pdresp h r side seq t2 t3 t4 => Sys2Proof.Machine.execPdresp h r side seq t2 t3 t4 s
  | .sync h r side c rx tx => Sys2Proof.Machine.execSync h r side c rx tx s
  | .domainTimeout h d => Sys2Proof.Machine.execDomainTimeout h d s
  | .revertExpire h => Sys2Proof.Machine.execRevertExpire h s
  | .slewDone h => Sys2Proof.Machine.execSlewDone h s
  | .bridgeSyncSend h l => Sys2Proof.Machine.execBridgeSyncSend h l s
  | .gmcmdSlew h m d => Sys2Proof.Machine.execGmcmdSlew h m d s
  | .gmcmdStep h m d => Sys2Proof.Machine.execGmcmdStep h m d s
  | .cvuEnable h n m on => Sys2Proof.Machine.execCvuEnable h n m on s
  | .cvuResult h n data stamp => Sys2Proof.Machine.execCvuResult h n data stamp s
  | .feed4 h n m v => Sys2Proof.Machine.execFeed4 h n m v s
  | .feed1 h n m v => Sys2Proof.Machine.execFeed1 h n m v s
  | .feedend h n m => Sys2Proof.Machine.execFeedend h n m s
  | .latchRead h m off => Sys2Proof.Machine.execLatchRead h m off s
  | .acrSwitch h m => Sys2Proof.Machine.execAcrSwitch h m s
  | .switchRetired h => Sys2Proof.Machine.execSwitchRetired h s
  | .engineInstruction e => Sys2Proof.Machine.execEngineInstruction e s
  | .halt h n m => Sys2Proof.Machine.execHalt h n m s
  | .resume h n m => Sys2Proof.Machine.execResume h n m s
  | .beat h n m => Sys2Proof.Machine.execBeat h n m s
  | .beatlimitExpire h n => Sys2Proof.Machine.execBeatlimitExpire h n s
  | .irqclaim h n m => Sys2Proof.Machine.execIrqclaim h n m s
  | .timecmphi h n m v => Sys2Proof.Machine.execTimecmphi h n m v s
  | .timerInterrupt e => Sys2Proof.Machine.execTimerInterrupt e s
  | .svcFrame bytes => Sys2Proof.Machine.execSvcFrame bytes s
  | .poll rack resend => Sys2Proof.Machine.execPoll rack resend s
  | .request rack resend r => Sys2Proof.Machine.execRequest rack resend r s
  | .passthruRead addr len sfdp => Sys2Proof.Machine.execPassthruRead addr len sfdp s
  | .passthruProgram addr data sfdp => Sys2Proof.Machine.execPassthruProgram addr data sfdp s
  | .passthruErase4k addr sfdp => Sys2Proof.Machine.execPassthruErase4k addr sfdp s
  | .passthruErase64k addr sfdp => Sys2Proof.Machine.execPassthruErase64k addr sfdp s
  | .passthruReadStatus status sfdp => Sys2Proof.Machine.execPassthruReadStatus status sfdp s
  | .fuse digest magic => Sys2Proof.Machine.execFuse digest magic s
  | .read h q tag addr count => Sys2Proof.Machine.execRead h q tag addr count s
  | .write h q tag addr v => Sys2Proof.Machine.execWrite h q tag addr v s
  | .writeMasked h q tag addr v mask => Sys2Proof.Machine.execWriteMasked h q tag addr v mask s
  | .blockWrite h q tag addr data => Sys2Proof.Machine.execBlockWrite h q tag addr data s
  | .sceneSelect h q tag scene => Sys2Proof.Machine.execSceneSelect h q tag scene s
  | .graphicState h q tag layer setState setAlpha state alpha => Sys2Proof.Machine.execGraphicState h q tag layer setState setAlpha state alpha s
  | .schedule h q tag what a b c d tSec tFrac eSec eFrac => Sys2Proof.Machine.execSchedule h q tag what a b c d tSec tFrac eSec eFrac s
  | .eventSubscribe h q tag mask => Sys2Proof.Machine.execEventSubscribe h q tag mask s
  | .mgmtRelay h r crcOk request c => Sys2Proof.Machine.execMgmtRelay h r crcOk request c s
  | .mgmtCompletion h c => Sys2Proof.Machine.execMgmtCompletion h c s
  | .esend h n m => Sys2Proof.Machine.execEsend h n m s
  | .epop h n m => Sys2Proof.Machine.execEpop h n m s
  | .i2cPointerWrite bytes => Sys2Proof.Machine.execI2cPointerWrite bytes s
  | .i2cRead n => Sys2Proof.Machine.execI2cRead n s
  | .scan m on => Sys2Proof.Machine.execScan m on s
  | .touchFrame samples selfRaw rowSelf colSelf stamp => Sys2Proof.Machine.execTouchFrame samples selfRaw rowSelf colSelf stamp s
  | .touchStatusWaitExpire => Sys2Proof.Machine.execTouchStatusWaitExpire s
  | .ringRoomResync => Sys2Proof.Machine.execRingRoomResync s
  | .restScan codes => Sys2Proof.Machine.execRestScan codes s
  | .keySample levels => Sys2Proof.Machine.execKeySample levels s
  | .keyStuck k => Sys2Proof.Machine.execKeyStuck k s
  | .keyEventRead m => Sys2Proof.Machine.execKeyEventRead m s
  | .swadd h m => Sys2Proof.Machine.execSwadd h m s
  | .ledgerMirrorReceive h entry => Sys2Proof.Machine.execLedgerMirrorReceive h entry s
  | .registerWrite h m addr v => Sys2Proof.Machine.execRegisterWrite h m addr v s
  | .liveOkToggleExpire => Sys2Proof.Machine.execLiveOkToggleExpire s
  | .grandmasterStartWaitExpire h d => Sys2Proof.Machine.execGrandmasterStartWaitExpire h d s
  | .patternBitsReceive h p bits => Sys2Proof.Machine.execPatternBitsReceive h p bits s
  | .flashStatusPoll status => Sys2Proof.Machine.execFlashStatusPoll status s
  | .passthruQualifyTimeout => Sys2Proof.Machine.execPassthruQualifyTimeout s

end Sys2Proof.Machine
end

