-- ==== Sys2Proof/Machine/Step.lean ====
section
/-!
DEFINITION. One step of the block: the command at the front of the queue, or one REFCLK period without a command.
-/
namespace Sys2Proof.Machine

/-- One step. With no command waiting the block idles for one REFCLK period of 40 ns (R307; log entry 3). -/
def step (s : State) : Host.Outcome State Fault Refusal := match s.pending with
  | [] => .next { s with now := s.now + Config.idleTick }
  | c :: rest => exec c { s with pending := rest }

/-- The state with the command that a word spells at the front of its queue; unchanged where the word spells none. -/
def State.withFetchWord (s : State) (nbits w : Nat) : State := match decodeTableWord nbits w with
  | some c => { s with pending := c :: s.pending }
  | none => s

end Sys2Proof.Machine
end

