-- ==== Sys2Proof/Safety.lean ====
section
/-!
DEFINITION. What a claim about a run may ask of it: the canonical form of the memories, the key fuse as R387 leaves it, and a
run that never stops.
-/
namespace Sys2Proof.Machine

/-- The memories and register files of a half are in canonical form. -/
def Half.wf (h : Half) : Prop :=
  sparseWf (fun _ => (0 : Byte)) h.fst ∧ sparseWf (fun _ => (0 : Byte)) h.sram ∧ sparseWf (resetWord h.id) h.regs

/-- Every memory of the module is in canonical form. -/
def Module.wf (m : Module) : Prop :=
  m.half0.wf ∧ m.half1.wf ∧ sparseWf lampResetWord m.lamp.regs ∧ sparseWf (fun _ => (0xFF : Byte)) m.flash.bytes

/-- The key fuse is blank or holds a digest of 32 bytes that are not all zero (R80, R387). -/
def Module.fuseOk (m : Module) : Prop := ∀ d, m.fuse = some d → d.length = 32 ∧ d ≠ List.replicate 32 0

/-! ## Terms in which claims are put -/

/-- No start is in progress: after a command nothing further goes on by itself. -/
abbrev Module.settled (m : Module) : Prop :=
  m.lamp.phase = .running ∧ m.half0.mode ≠ modeHalfStart ∧ m.half1.mode ≠ modeHalfStart

/-- No reset has been asked for in the sample period of time `u` (R49). -/
abbrev Module.unasked (m : Module) (u : Nat) : Prop := m.lamp.askedAt u = ResetAsk.fresh u

/-- Nothing holds a released module in reset: no thermal trip stands and RESET_N is high (R45, R52). -/
abbrev Module.freeToGo (m : Module) : Prop := m.lamp.tripped = false ∧ m.lamp.resetNLow = false

/-- Command `c` moves the clock of `s` to instant `u`, if it is not yet there, and changes nothing else. -/
abbrev State.idlesTo (s : State) (c : Instr) (u : Nat) : Prop := exec c s = .next { s with now := max s.now u }

/-- Command `c` leaves everything but the clock as it is. -/
abbrev State.idles (s : State) (c : Instr) : Prop := ∃ t, exec c s = .next t ∧ t.mod = s.mod ∧ t.pending = s.pending

/-- A write of register `off` of half `h` by this master is allowed to take effect at once: the half in which it is issued is out of
reset, the check of R341 grants it, and no block reset isolates the register. -/
abbrev Module.grants (m : Module) (h : HalfId) (master off : Nat) : Prop :=
  (m.half (m.issuer master h)).inReset = false ∧
  m.checkAccess (m.issuer master h) (regAddr h off) (.single 4) master .write = none ∧
  (m.half h).isolates off = false

/-- A block reset isolates the register at a device address (R68). -/
def Module.isolated (m : Module) (a : Nat) : Bool := match decodeAddr a with
  | .reg k off => (m.half k).isolates off
  | _ => false

/-- A read of a word at a device address by this master, issued in half `i`, is granted (R341) and answered at once: it meets no
memory error, and no block reset isolates the register. -/
abbrev Module.readable (m : Module) (i : HalfId) (master a : Nat) : Prop :=
  (m.half i).inReset = false ∧ m.checkAccess i a (.single 4) master .read = none ∧ m.memError a 4 false = none ∧ m.isolated a = false

/-- A write of a word at a device address by this master, issued in half `i`, is granted (R341) and meets no memory error. -/
abbrev Module.writable (m : Module) (i : HalfId) (master a : Nat) : Prop :=
  (m.half i).inReset = false ∧ m.checkAccess i a (.single 4) master .write = none ∧ m.memError a 4 true = none

/-- Between two halves only the registers at offsets that satisfy `p` differ. -/
def Half.onlyRegs (h h' : Half) (p : Nat → Prop) : Prop :=
  { h' with regs := h.regs } = h ∧ ∀ o, ¬ p o → h'.reg o = h.reg o

/-- Between two modules only half `h` differs. -/
abbrev Module.onlyHalf (m m' : Module) (h : HalfId) : Prop :=
  m'.half h.peer = m.half h.peer ∧ m'.lamp = m.lamp ∧ m'.flash = m.flash ∧ m'.fuse = m.fuse

/-- Between two modules only the lamplighter differs. -/
abbrev Module.onlyLamp (m m' : Module) : Prop :=
  m'.half0 = m.half0 ∧ m'.half1 = m.half1 ∧ m'.flash = m.flash ∧ m'.fuse = m.fuse

/-- The state in which the bring-up of lane `p` begins (R105, R115, R117). -/
def Half.firstState (h : Half) (p : Nat) : Nat :=
  if h.flag (F.LANE_PATTERN_GENEN p) then lsPattern else if (h.portRec p).role = 2 then lsSdiHunt else lsCdr

/-- The other port of the bypass pair of a port of the first ring (R120). -/
def pairOther (p : Nat) : Nat := if p < 20 then p + 4 else p - 4

/-- Unit `n` has written result `r` (R336): value, VALID, COUNT, comparison and one shot; its configuration, the registers of other
units and of other blocks but for the interrupt controllers stay. -/
def Half.cvuGot (h k : Half) (n r : Nat) : Prop :=
  let expect := (h.get (F.CVU_EXPLO_word n) + h.get (F.CVU_EXPHI_word n) * 2 ^ 32) % 2 ^ (h.cvuParams n).width
  let miss := h.flag (F.CVU_CTRL_COMPARE n) = true ∧ r ≠ expect
  k.get (F.CVU_RESLO_word n) = r % 2 ^ 32 ∧ k.get (F.CVU_RESHI_word n) = r / 2 ^ 32 % 2 ^ 32 ∧
  k.get (F.CVU_STATUS_VALID n) = 1 ∧ k.get (F.CVU_STATUS_COUNT n) = satAdd 16 (h.get (F.CVU_STATUS_COUNT n)) 1 ∧
  (miss → k.get (F.CVU_STATUS_MISMATCH n) = 1 ∧ k.get (F.CVU_TALLY_MISMATCH n) = satAdd 16 (h.get (F.CVU_TALLY_MISMATCH n)) 1) ∧
  (¬ miss → k.get (F.CVU_STATUS_MISMATCH n) = h.get (F.CVU_STATUS_MISMATCH n) ∧
    k.get (F.CVU_TALLY_MISMATCH n) = h.get (F.CVU_TALLY_MISMATCH n)) ∧
  k.get (F.CVU_CTRL_ENABLE n) = (if h.flag (F.CVU_CTRL_ONESHOT n) then 0 else h.get (F.CVU_CTRL_ENABLE n)) ∧
  k.cvuParams n = h.cvuParams n ∧ k.get (F.CVU_STATUS_ABORTS n) = h.get (F.CVU_STATUS_ABORTS n) ∧
  (∀ e < 4, k.getBit (F.ENG_IRQPEND_PEND e) irqCvu = true) ∧
  ∀ o, o / 0x10000 ≠ 0xE → o ≠ (F.CVU_CTRL_word n).off → o ≠ (F.CVU_RESLO_word n).off → o ≠ (F.CVU_RESHI_word n).off →
    o ≠ (F.CVU_STATUS_word n).off → o ≠ (F.CVU_TALLY_word n).off → k.reg o = h.reg o

/-- The engine's next instruction lies whole in its local SRAM: `len` bytes, their value `raw`, 2 bytes for a short one (R352). -/
abbrev Engine.fetches (e : Engine) (len raw : Nat) : Prop :=
  let pc := e.pc.toNat
  let lo := leVal (memRead e.sram pc 2)
  pc % 2 = 0 ∧ pc + len ≤ 0x20000 ∧ ((len = 2 ∧ isShort lo = true ∧ raw = lo) ∨
    (len = 4 ∧ isShort lo = false ∧ raw = lo + 65536 * leVal (memRead e.sram (pc + 2) 2)))

/-- Engine `n` of half `h` goes on with its next instruction: the half is out of reset, the engine runs and no interrupt that it
enables is pending. -/
abbrev State.engineReady (s : State) (h : HalfId) (n : Nat) : Prop :=
  s.mod.settled ∧ n < 4 ∧ n < (s.mod.half h).engines.length ∧ (s.mod.half h).inReset = false ∧
  (s.mod.half h).engState n = esRunning ∧ (s.mod.half h).irqOn s.now n = 0

/-- Between two halves only engine `n` differs. -/
def Half.onlyEngine (h k : Half) (n : Nat) : Prop :=
  { k with engines := h.engines } = h ∧ k.engines.length = h.engines.length ∧ ∀ j, j ≠ n → k.engine j = h.engine j

/-- The half that receives a request: that of the service port's holder, or the one whose plane its cell came by. -/
def Module.receiver (m : Module) (h : HalfId) (q : Requester) : HalfId := if q.service then m.holder else h

/-- A request is taken (R372, R377, R381, R387): its half is out of reset and not in recovery mode, management cells are enabled and a
ring joined if it came in one, the executing half can be reached, its tag is free, no kept completion answers it, its ORIGIN is none
of the reserved ones and no limit is passed. -/
abbrev Module.accepts (m : Module) (h : HalfId) (q : Requester) (r : MgmtReq) : Prop :=
  let x := m.half (m.receiver h q)
  let y := m.half (m.executor (m.receiver h q) r)
  x.inReset = false ∧ x.mode ≠ modeRecovery ∧
  (q.service = true ∨ (x.flag F.HST_CTRL_MGTEN = true ∧ (x.ringJoined 0 = true ∨ x.ringJoined 1 = true))) ∧
  (m.executor (m.receiver h q) r = m.receiver h q ∨ linkOk x y = true) ∧
  m.tagBusy (m.executor (m.receiver h q) r) q r.tag = false ∧ y.keptFor q r = none ∧
  r.origin ≤ 8 ∧ m.overLimit (m.executor (m.receiver h q) r) q = false

/-- The output queue of the service port in `t` is that in `m` with one COMPLETION frame more (R385, R386). -/
def Module.replied (m t : Module) (c : MgmtRsp) : Prop :=
  (t.half m.holder).host.queue = (m.half m.holder).host.queue ++ [⟨1, rspBody c, none⟩]

/-- The output queue of the service port in `t` is that in `m` with one REPLY frame more (R387). -/
def Module.passReplied (m t : Module) (kind result : Nat) (data : List Byte) : Prop :=
  (t.half m.holder).host.queue = (m.half m.holder).host.queue ++
    [⟨3, [BitVec.ofNat 8 kind, BitVec.ofNat 8 result, 0, 0, 0, 0, 0, 0] ++ data, none⟩]

/-- A state from which every command answers a next state. -/
def State.safe (s : State) : Prop := ∃ t, step s = .next t

end Sys2Proof.Machine
end

