-- ==== Sys2Proof/Certificates/Slice0/Obligations.lean ====
section
/-!
DEFINITION. The statements for the provers. In each, `s` is any state and `t` the state that a command answers; a clause names the
command, the conditions on the state and operands under which it has its effect, what it leaves and what it leaves alone.
-/
open Sys2Proof Sys2Proof.Machine

/-! ## Power -/

/-- VAON and PWR_EN. At any state VAON_RISE and VAON_LOW put every register of both halves to its reset value (RST_CAUSE then holding
cause 1), clear the false-start count and lower PWR_EN; VAON_RISE leaves the lamplighter waiting to raise PWR_EN, VAON_LOW without
VAON; flash and key fuse stay. With the lamplighter waiting after a power-on reset PWR_EN_RAISE raises PWR_EN and waits for PWR_GOOD;
so does PWR_RETRY after one or two failed attempts. Both change the lamplighter alone.
PWR_EN rises 10 ms after power-on, and again 1 s after a failed attempt.
PWR_GOOD. While the lamplighter waits for PWR_GOOD, PWR_GOOD_RISE releases both halves from reset in mode START, unless a thermal trip
stands or RESET_N is low, when they stay as they are and the lamplighter holds them; the failed attempts are forgotten. PWR_GOOD_TIMEOUT,
100 ms after PWR_EN rose, lowers it, counts one more failed attempt and one more false start (to at most 15), puts both halves into reset
and waits to try again, or after the third failed attempt for a wake event. -/
def Obligations.PowerUp : Prop :=
  (∀ s : State,
  (∃ t, exec .vaonRise s = .next t ∧ t.mod.half0 = Half.poweredOn .h0 ∧ t.mod.half1 = Half.poweredOn .h1 ∧
    t.mod.lamp.phase = .off ∧ t.mod.lamp.fsCount = 0 ∧ t.mod.lamp.pwrEn = false ∧ t.mod.flash = s.mod.flash ∧
    t.mod.fuse = s.mod.fuse) ∧
  (∃ t, exec .vaonLow s = .next t ∧ t.mod.half0 = Half.poweredOn .h0 ∧ t.mod.half1 = Half.poweredOn .h1 ∧
    t.mod.lamp.phase = .noVaon ∧ t.mod.lamp.fsCount = 0 ∧ t.mod.lamp.pwrEn = false ∧ t.mod.flash = s.mod.flash ∧
    t.mod.fuse = s.mod.fuse) ∧
  (s.mod.lamp.phase = .off → s.mod.lamp.attempts = 0 →
    ∃ t, exec .pwrEnRaise s = .next t ∧ t.now = max s.now (s.mod.lamp.phaseAt + 10000000) ∧ t.mod.lamp.phase = .waitGood ∧ t.mod.lamp.pwrEn = true ∧ s.mod.onlyLamp t.mod) ∧
  (s.mod.lamp.phase = .off → 1 ≤ s.mod.lamp.attempts → s.mod.lamp.attempts < 3 →
    ∃ t, exec .pwrRetry s = .next t ∧ t.now = max s.now (s.mod.lamp.phaseAt + 1000000000) ∧ t.mod.lamp.phase = .waitGood ∧ t.mod.lamp.pwrEn = true ∧
      t.mod.lamp.attempts = s.mod.lamp.attempts ∧ s.mod.onlyLamp t.mod)) ∧
  (∀ s : State, s.mod.lamp.phase = .waitGood →
  (s.mod.freeToGo →
    ∃ t, exec .pwrGoodRise s = .next t ∧ t.mod.half0.inReset = false ∧ t.mod.half1.inReset = false ∧
      t.mod.half0.mode = modeStart ∧ t.mod.half1.mode = modeStart ∧ t.mod.lamp.phase = .released ∧
      t.mod.lamp.attempts = 0 ∧ t.mod.flash = s.mod.flash ∧ t.mod.fuse = s.mod.fuse) ∧
  (s.mod.lamp.tripped = true →
    ∃ t, exec .pwrGoodRise s = .next t ∧ t.mod.lamp.phase = .heldTrip ∧ t.mod.lamp.attempts = 0 ∧ s.mod.onlyLamp t.mod) ∧
  (s.mod.lamp.tripped = false → s.mod.lamp.resetNLow = true →
    ∃ t, exec .pwrGoodRise s = .next t ∧ t.mod.lamp.phase = .heldResetN ∧ t.mod.lamp.attempts = 0 ∧ s.mod.onlyLamp t.mod) ∧
  (∃ t, exec .pwrGoodTimeout s = .next t ∧ t.now = max s.now (s.mod.lamp.phaseAt + 100000000) ∧ t.mod.lamp.pwrEn = false ∧ t.mod.lamp.attempts = s.mod.lamp.attempts + 1 ∧
    t.mod.lamp.fsCount = min (s.mod.lamp.fsCount + 1) 15 ∧ t.mod.half0.inReset = true ∧ t.mod.half1.inReset = true ∧
    t.mod.lamp.phase = (if 3 ≤ s.mod.lamp.attempts + 1 then .waitWake else .off) ∧ t.mod.flash = s.mod.flash ∧
    t.mod.fuse = s.mod.fuse))

/-- Supply samples (R42). With PWR_GOOD high and every supply in its window SUPPLY_SAMPLE only notes the voltages and temperatures.
In a running module, with both halves out of reset and no reset asked in the present sample period, a second sample running with VCORE0 alone outside its window puts half 0 into
reset until VCORE0 has recovered, while half 1 stays out of reset and sees its peer in reset. Once that supply has been back since the
instant `a`, VCORE_HALF_RELEASE moves the clock to 100 ms after it, if it is not yet there, and the half leaves reset in mode
HALFSTART; its peer no longer sees it in reset. -/
def Obligations.SupplySamples : Prop :=
  (∀ (s : State) (mv : List Nat) (temps : List Int), (∀ i < 9, supplyOut mv i = false) →
    ∃ t, exec (.supplySample mv true temps) s = .next t ∧ t.mod.lamp.mv = mv ∧ t.mod.lamp.temps = temps ∧ s.mod.onlyLamp t.mod) ∧
  (∀ (s : State) (mv : List Nat) (temps : List Int), s.mod.lamp.phase = .running → s.mod.lamp.stopped = false →
    s.mod.unasked (max s.now s.mod.lamp.due.supply) → s.mod.half0.inReset = false → s.mod.half1.inReset = false → supplyOut mv 0 = true →
    (∀ i < 9, i ≠ 0 → supplyOut mv i = false) → bitAt s.mod.lamp.outLast 0 = true → bitAt s.mod.lamp.outActed 0 = false →
    ∃ t, exec (.supplySample mv true temps) s = .next t ∧ t.mod.half0.inReset = true ∧ t.mod.lamp.h0.hold = .vcore ∧
      t.mod.half1.inReset = false ∧ t.mod.half1.get F.LNK_STATUS_PEER_RESET = 1) ∧
  (∀ (s : State) (h : HalfId) (a : Nat), s.mod.lamp.phase = .running → s.mod.lamp.stopped = false → (s.mod.half h).inReset = true →
    (s.mod.lamp.half h).hold = .vcore → (s.mod.lamp.half h).vcoreOk = some a →
    ∃ t, exec (.vcoreHalfRelease h) s = .next t ∧ t.now = max s.now (a + 100000000) ∧ (t.mod.half h).inReset = false ∧
      (t.mod.half h).mode = modeHalfStart ∧ (t.mod.lamp.half h).hold = .none ∧
      (t.mod.half h.peer).get F.LNK_STATUS_PEER_RESET = 0)

/-- Thermal trip and RESET_N. In a running module, with no reset asked in the present sample period, a sensor at 112 °C or above puts both
halves into reset and holds them; while that trip stands TRIP_RELEASE with every sensor at 95 °C or below lets them go in mode START,
unless RESET_N is low, and above 95 °C changes nothing. RESET_N_ASSERT puts both halves into reset and holds them while RESET_N is low;
in the rest state it raises PWR_EN instead, with wake code 3. RESET_N_RELEASE lets the halves that RESET_N holds go in mode START, unless
a trip stands. -/
def Obligations.TripAndResetPin : Prop := ∀ s : State, s.mod.lamp.stopped = false →
  (∀ temps : List Int, s.mod.lamp.phase = .running → s.mod.unasked s.now → (∃ x ∈ temps, 112 ≤ x) →
    ∃ t, exec (.thermalTrip temps) s = .next t ∧ t.mod.half0.inReset = true ∧ t.mod.half1.inReset = true ∧
      t.mod.lamp.phase = .heldTrip ∧ t.mod.lamp.tripped = true ∧ t.mod.lamp.temps = temps ∧ t.mod.flash = s.mod.flash ∧ t.mod.fuse = s.mod.fuse) ∧
  (∀ temps : List Int, (∃ x ∈ temps, 95 < x) → exec (.tripRelease temps) s = .next s) ∧
  (∀ temps : List Int, s.mod.lamp.phase = .heldTrip → s.mod.lamp.tripped = true → (∀ x ∈ temps, x ≤ 95) → s.mod.lamp.resetNLow = false →
    ∃ t, exec (.tripRelease temps) s = .next t ∧ t.mod.half0.inReset = false ∧ t.mod.half1.inReset = false ∧
      t.mod.half0.mode = modeStart ∧ t.mod.half1.mode = modeStart ∧ t.mod.lamp.phase = .released ∧ t.mod.lamp.tripped = false) ∧
  (∀ temps : List Int, s.mod.lamp.phase = .heldTrip → s.mod.lamp.tripped = true → (∀ x ∈ temps, x ≤ 95) → s.mod.lamp.resetNLow = true →
    ∃ t, exec (.tripRelease temps) s = .next t ∧ t.mod.lamp.phase = .heldResetN ∧ s.mod.onlyLamp t.mod) ∧
  (s.mod.lamp.phase = .running → s.mod.unasked s.now →
    ∃ t, exec .resetNAssert s = .next t ∧ t.mod.half0.inReset = true ∧ t.mod.half1.inReset = true ∧
      t.mod.lamp.phase = .heldResetN ∧ t.mod.lamp.resetNLow = true ∧ t.mod.flash = s.mod.flash ∧ t.mod.fuse = s.mod.fuse) ∧
  (s.mod.lamp.phase = .rest →
    ∃ t, exec .resetNAssert s = .next t ∧ t.mod.lamp.phase = .waitGood ∧ t.mod.lamp.pwrEn = true ∧
      t.mod.lamp.get F.LMP_WAKE_CAUSE = 3 ∧ t.mod.lamp.scope = .cold ∧ t.mod.lamp.cause = 5) ∧
  (s.mod.lamp.phase = .heldResetN → s.mod.lamp.tripped = false →
    ∃ t, exec .resetNRelease s = .next t ∧ t.mod.half0.inReset = false ∧ t.mod.half1.inReset = false ∧
      t.mod.half0.mode = modeStart ∧ t.mod.half1.mode = modeStart ∧ t.mod.lamp.phase = .released ∧ t.mod.lamp.resetNLow = false)

/-! ## Resets and watchdogs -/

/-- RST_CMD in a running module (R54), by a master whose write is granted, with key 0x5A and no reset asked in the present sample period. RESTART puts both halves through reset: they
come out in mode START, with cause 11 in RST_CAUSE.LAST for the service port and 10 for any other master. RESET_HALF puts the half
into reset with the same cause, and its peer, out of reset, sees it there. Without the key neither changes whether a half is in reset:
the half's ledger gains one entry.
CLEAR_FS and CLEAR_HALFFS with key 0x5A (R54, R61, R65). Written through the service port CLEAR_FS clears the false-start count
and nothing else; CLEAR_HALFFS clears the half false-start counts, and where no half is held for them it changes nothing else.
Written by any other master, where its write is granted, neither changes anything. -/
def Obligations.ResetCommands : Prop :=
  (∀ (s : State) (h : HalfId) (master : Nat) (key : Byte),
  s.mod.grants h master F.RST_CMD_word.off → s.mod.lamp.phase = .running → s.mod.lamp.stopped = false →
  s.mod.unasked s.now →
  (key = 0x5A → s.mod.freeToGo →
    ∃ t, exec (.restart h master key) s = .next t ∧ t.mod.half0.inReset = false ∧ t.mod.half1.inReset = false ∧
      t.mod.half0.mode = modeStart ∧ t.mod.half1.mode = modeStart ∧ t.mod.lamp.phase = .released ∧
      (t.mod.half h).get F.RST_CAUSE_LAST = (if master = mService then 11 else 10) ∧ t.mod.flash = s.mod.flash ∧
      t.mod.fuse = s.mod.fuse) ∧
  (key = 0x5A → (s.mod.half h).inReset = false → (s.mod.half h.peer).inReset = false →
    ∃ t, exec (.resetHalf h master key) s = .next t ∧ (t.mod.half h).inReset = true ∧ (t.mod.lamp.half h).hold = .brief ∧
      (t.mod.half h).get F.RST_CAUSE_LAST = (if master = mService then 11 else 10) ∧ (t.mod.half h.peer).inReset = false ∧
      (t.mod.half h.peer).get F.LNK_STATUS_PEER_RESET = 1 ∧ t.mod.lamp.phase = .running) ∧
  (key ≠ 0x5A →
    (∃ t, exec (.restart h master key) s = .next t ∧ (t.mod.half h).inReset = (s.mod.half h).inReset ∧
      (t.mod.half h).get F.FLT_HEAD_SEQ = ((s.mod.half h).get F.FLT_HEAD_SEQ + 1) % 2 ^ 32 ∧ s.mod.onlyHalf t.mod h) ∧
    (∃ t, exec (.resetHalf h master key) s = .next t ∧ (t.mod.half h).inReset = (s.mod.half h).inReset ∧
      (t.mod.half h).get F.FLT_HEAD_SEQ = ((s.mod.half h).get F.FLT_HEAD_SEQ + 1) % 2 ^ 32 ∧ s.mod.onlyHalf t.mod h))) ∧
  (∀ (s : State) (h : HalfId) (master : Nat),
  s.mod.grants h master F.RST_CMD_word.off → s.mod.lamp.stopped = false →
  (master = mService →
    (exec (.clearFs h master 0x5A) s = .next { s with mod := { s.mod with lamp := { s.mod.lamp with fsCount := 0 } } }) ∧
    (s.mod.lamp.h0.hold ≠ .falseStarts → s.mod.lamp.h1.hold ≠ .falseStarts →
      exec (.clearHalffs h master 0x5A) s = .next { s with mod := { s.mod with lamp := { s.mod.lamp with
        h0 := { s.mod.lamp.h0 with falseStarts := 0 }, h1 := { s.mod.lamp.h1 with falseStarts := 0 } } } })) ∧
  (master ≠ mService → exec (.clearFs h master 0x5A) s = .next s ∧ exec (.clearHalffs h master 0x5A) s = .next s))

/-- The steward watchdog (R53, R365). A kick by the half's own steward, once the watchdog is armed, restarts the 20 ms and changes
nothing else; a granted kick by any other master changes nothing. When the watchdog of a half out of reset runs out in a running
module, the lamplighter beating, no request pending, no reset asked in the sample period and the peer out of reset: 20 ms after the last kick the half enters reset with cause
7 in RST_CAUSE.LAST, its peer stays out of reset and sees it in reset; a half that runs alone makes a warm reset of the module
instead.
Resets that the lamplighter grants in a running module with both halves out of reset. PEER_RESET_GRANT for a half that has asked
(half 1 only while half 0 does not ask) puts its peer into reset with cause 8, forgets both requests, and the half sees its peer in
reset; half 1's request is granted no sooner than 2 ms after it was made. LAMPLIGHTER_WATCHDOG_EXPIRE, once a half has passed start step
6, takes both halves through a warm reset with cause 6, 50 ms after the last change of the kick lines that it watches. -/
def Obligations.Watchdogs : Prop :=
  (∀ (s : State) (h : HalfId),
  (∀ master, s.mod.grants h master F.RST_WDOG_word.off → master = stewardOf (s.mod.half h).id →
    (s.mod.half h).flag F.RST_WDOG_ARMED = true →
    exec (.kick h master) s = .next { s with mod := (s.mod.setHalf h
      { s.mod.half h with starter := { (s.mod.half h).starter with wdogAt := s.now } }) }) ∧
  (∀ master, s.mod.grants h master F.RST_WDOG_word.off → master ≠ stewardOf (s.mod.half h).id →
    exec (.kick h master) s = .next s) ∧
  ((s.mod.half h).inReset = false → (s.mod.half h).flag F.RST_WDOG_ARMED = true → (s.mod.half h).flag F.ENG_SUPV_LMPSTOP = false →
    s.mod.lamp.phase = .running → s.mod.lamp.stopped = false → (s.mod.half h.peer).inReset = false →
    s.mod.unasked (max s.now ((s.mod.half h).starter.wdogAt + 20000000)) →
    ((s.mod.half h).flag F.SYS_HALF_ALONE = false → (s.mod.lamp.half h).request = none →
      ∃ t, exec (.stewardWatchdogExpire h) s = .next t ∧ t.now = max s.now ((s.mod.half h).starter.wdogAt + 20000000) ∧
        (t.mod.half h).inReset = true ∧ (t.mod.half h).get F.RST_CAUSE_LAST = 7 ∧ (t.mod.half h.peer).inReset = false ∧
        (t.mod.half h.peer).get F.LNK_STATUS_PEER_RESET = 1) ∧
    ((s.mod.half h).flag F.SYS_HALF_ALONE = true → s.mod.freeToGo →
      ∃ t, exec (.stewardWatchdogExpire h) s = .next t ∧ t.mod.half0.inReset = false ∧ t.mod.half1.inReset = false ∧
        t.mod.half0.mode = modeStart ∧ t.mod.half1.mode = modeStart ∧ t.mod.lamp.phase = .released))) ∧
  (∀ s : State, s.mod.lamp.phase = .running → s.mod.lamp.stopped = false →
  s.mod.half0.inReset = false → s.mod.half1.inReset = false →
  (∀ (h : HalfId) (a : Nat), (s.mod.lamp.half h).request = some a → (h = .h1 → s.mod.lamp.h0.request = none) →
    s.mod.unasked (if h = .h1 then max s.now (a + 2000000) else s.now) →
    ∃ t, exec (.peerResetGrant h) s = .next t ∧ (t.mod.half h.peer).inReset = true ∧
      (t.mod.half h.peer).get F.RST_CAUSE_LAST = 8 ∧ (t.mod.half h).inReset = false ∧
      (t.mod.half h).get F.LNK_STATUS_PEER_RESET = 1 ∧ t.mod.lamp.h0.request = none ∧ t.mod.lamp.h1.request = none ∧
      t.now = (if h = .h1 then max s.now (a + 2000000) else s.now)) ∧
  (∀ u, 6 ≤ s.mod.half0.step ∨ 6 ≤ s.mod.half1.step → s.mod.freeToGo → s.mod.unasked u →
    u = max s.now (max (s.mod.watchedKick .h0) (s.mod.watchedKick .h1) + 50000000) →
    ∃ t, exec .lamplighterWatchdogExpire s = .next t ∧ t.now = u ∧ t.mod.half0.inReset = false ∧ t.mod.half1.inReset = false ∧
      t.mod.half0.mode = modeStart ∧ t.mod.half1.mode = modeStart ∧ t.mod.lamp.phase = .released ∧
      t.mod.half0.get F.RST_CAUSE_LAST = 6 ∧ t.mod.half1.get F.RST_CAUSE_LAST = 6))

/-- Block resets (R67, R69). A granted RST_BLKRST write while a block reset runs answers BUSY; one that names a block that is not idle
answers NOT_IDLE with those blocks, and nothing is reset; one that names only idle blocks isolates them.
BLOCK_RESET_COMPLETE ends the isolation with result DONE and keeps the half's memories. -/
def Obligations.BlockResets : Prop := ∀ (s : State) (h : HalfId) (master blocks : Nat),
  (s.mod.grants h master F.RST_BLKRST_word.off →
    ((s.mod.half h).starter.isolated ≠ 0 →
      exec (.blkrst h master blocks) s = .next { s with mod := s.mod.setHalf h ((s.mod.half h).set F.RST_BLKSTAT_RESULT blkBusy) }) ∧
    ((s.mod.half h).starter.isolated = 0 → blocks % 1024 ≠ 0 → blocks % 1024 - (blocks % 1024 &&& (s.mod.half h).idleMask) ≠ 0 →
      exec (.blkrst h master blocks) s = .next { s with mod := (s.mod.setHalf h
        (((s.mod.half h).set F.RST_BLKSTAT_NOTIDLE (blocks % 1024 - (blocks % 1024 &&& (s.mod.half h).idleMask))).set
          F.RST_BLKSTAT_RESULT blkNotIdle)) }) ∧
    ((s.mod.half h).starter.isolated = 0 → blocks % 1024 ≠ 0 → blocks % 1024 &&& (s.mod.half h).idleMask = blocks % 1024 →
      ∃ t, exec (.blkrst h master blocks) s = .next t ∧ (t.mod.half h).starter.isolated = blocks % 1024 ∧
        (t.mod.half h).get F.RST_BLKRST_BLOCKS = blocks % 1024 ∧
        (s.mod.half h).fst = (t.mod.half h).fst ∧ s.mod.onlyHalf t.mod h)) ∧
  ((s.mod.half h).inReset = false → (s.mod.half h).starter.isolated ≠ 0 → (s.mod.half h).starter.waiting = [] →
    ∃ t, exec (.blockResetComplete h) s = .next t ∧ (t.mod.half h).starter.isolated = 0 ∧
      (t.mod.half h).get F.RST_BLKSTAT_RESULT = blkDone ∧ (t.mod.half h).get F.RST_BLKRST_BLOCKS = 0 ∧
      (t.mod.half h).fst = (s.mod.half h).fst ∧ (t.mod.half h).sram = (s.mod.half h).sram ∧ s.mod.onlyHalf t.mod h)

/-! ## The lamplighter -/

/-- Health lines and LIVE_OK (R368). HEALTH_TOGGLE, 1 ms after the last, of a half out of reset and RUNNING, healthy, without an overstay and
with its kick line alive toggles its health line and notes the time, and changes the lamplighter alone; a half that is not RUNNING changes
nothing but the clock.
LIVE_OK_HOLDOFF_END, while the lamplighter is alive and every condition holds, raises LIVE_OK 100 ms after the instant `a` from which
they have held. LIVE_OK_TOGGLE_EXPIRE drops LIVE_OK 10 ms after the last trigger. A LAMPLIGHTER_SAMPLE, 30.5 µs after the last, at which every
condition of LIVE_OK holds shows LIVE, begins the 100 ms or lets them go on, and triggers the toggle; one outside RUNNING keeps LIVE_OK
low and shows NOTRUNNING.
Holds of the bypasses and the lamplighter's heart (R120, R370). Without a hold BYPASS_CLOSE clears BYPASS of pair `k`, 0 to 3, of
the half and no other register; while the hold toggles it changes nothing. LMP_HEART_STOP of a half out of reset sets its LMPSTOP, drops
LIVE_OK, clears both hold bits and adds one ledger entry. -/
def Obligations.HoldsAndLiveOk : Prop :=
  (∀ s : State,
  (∀ (h : HalfId) (u : Nat), u = max s.now (((s.mod.lamp.half h).healthAt.map fun a => a + 1000000).getD 0) →
    (s.mod.half h).inReset = false → (s.mod.half h).mode = modeRunning → (s.mod.half h).unhealthy u = false →
    (s.mod.half h).overstays = false → (s.mod.lamp.half h).kicked u = true →
    ∃ t, exec (.healthToggle h) s = .next t ∧ t.now = u ∧ (t.mod.lamp.half h).healthLine = !(s.mod.lamp.half h).healthLine ∧
      (t.mod.lamp.half h).healthAt = some u ∧ s.mod.onlyLamp t.mod) ∧
  (∀ h : HalfId, (s.mod.half h).mode ≠ modeRunning → s.idles (.healthToggle h)) ∧
  (∀ a, s.mod.lamp.alive = true → s.mod.lamp.flag F.LMP_LIVE_LIVE = true → s.mod.lamp.liveFrom = some a →
    ∃ t, exec .liveOkHoldoffEnd s = .next t ∧ t.now = max s.now (a + 100000000) ∧ t.mod.lamp.get F.LMP_STATUS_LIVEOK = 1 ∧
      t.mod.lamp.get F.LMP_LIVE_HOLDOFF = 0 ∧ s.mod.onlyLamp t.mod) ∧
  (∃ t, exec .liveOkToggleExpire s = .next t ∧ t.now = max s.now (s.mod.lamp.liveTrig + 10000000) ∧
    t.mod.lamp.get F.LMP_STATUS_LIVEOK = 0 ∧ t.mod.lamp.get F.LMP_LIVE_HOLDOFF = 1 ∧ s.mod.onlyLamp t.mod) ∧
  (∀ u, u = max s.now s.mod.lamp.due.sample → s.mod.lamp.alive = true → s.mod.lamp.phase = .running → s.mod.fuse ≠ none →
    s.mod.lamp.get F.LMP_LIVE_GRANT = 0 → (∀ h, s.mod.healthBad u h = false) →
    ∃ t, exec .lamplighterSample s = .next t ∧ t.now = u ∧ t.mod.lamp.get F.LMP_LIVE_LIVE = 1 ∧
      t.mod.lamp.get F.LMP_STATUS_LIVEOK = s.mod.lamp.get F.LMP_STATUS_LIVEOK ∧
      t.mod.lamp.liveFrom = some (s.mod.lamp.liveFrom.getD u) ∧ t.mod.lamp.liveTrig = u ∧ t.mod.lamp.due.sample = u + 30500 ∧
      (∀ h, (t.mod.half h).inReset = (s.mod.half h).inReset) ∧ t.mod.flash = s.mod.flash ∧ t.mod.fuse = s.mod.fuse) ∧
  (s.mod.lamp.alive = true → s.mod.lamp.phase ≠ .running →
    ∃ t, exec .lamplighterSample s = .next t ∧ t.mod.lamp.get F.LMP_STATUS_LIVEOK = 0 ∧ t.mod.lamp.get F.LMP_LIVE_NOTRUNNING = 1 ∧
      t.mod.flash = s.mod.flash ∧ t.mod.fuse = s.mod.fuse)) ∧
  (∀ (s : State) (h : HalfId),
  (∀ k < 4, s.mod.lamp.flag (holdField h) = false →
    ∃ t, exec (.bypassClose h k) s = .next t ∧ (t.mod.half h).get (F.LANE_STATUS_BYPASS (16 + k)) = 0 ∧
      (s.mod.half h).onlyRegs (t.mod.half h) (fun o => o = (F.LANE_STATUS_BYPASS (16 + k)).off) ∧ s.mod.onlyHalf t.mod h) ∧
  (∀ k < 4, s.mod.lamp.flag (holdField h) = true →
    ∃ t, exec (.bypassClose h k) s = .next t ∧ t.mod = s.mod) ∧
  ((s.mod.half h).inReset = false →
    ∃ t, exec (.lmpHeartStop h) s = .next t ∧ (t.mod.half h).get F.ENG_SUPV_LMPSTOP = 1 ∧
      (t.mod.half h).get F.FLT_HEAD_SEQ = ((s.mod.half h).get F.FLT_HEAD_SEQ + 1) % 2 ^ 32 ∧
      t.mod.lamp.get F.LMP_STATUS_LIVEOK = 0 ∧ t.mod.lamp.get F.LMP_STATUS_HOLD0 = 0 ∧ t.mod.lamp.get F.LMP_STATUS_HOLD1 = 0 ∧
      t.mod.flash = s.mod.flash ∧ t.mod.fuse = s.mod.fuse))

/-- The rest state (R369). REST with key 0xA5, granted in a running module, puts both halves into reset and drops LIVE_OK; with
another key it changes nothing. REST_POWER_OFF, 1 ms later, lowers PWR_EN; a wake event held meanwhile raises it at once. In the rest state
WAKE_TIMER_EXPIRE raises PWR_EN with wake code 4 after LMP_WAKE.TIMER seconds, and changes nothing where TIMER is 0. -/
def Obligations.RestState : Prop := ∀ s : State,
  (∀ master (key : Byte), s.mod.writable (s.mod.lampIssuer master) master (lampBase + F.LMP_REST_word.off) →
    s.mod.lamp.phase = .running → s.mod.lamp.stopped = false →
    (key = 0xA5 → ∃ t, exec (.rest master key) s = .next t ∧ t.mod.half0.inReset = true ∧ t.mod.half1.inReset = true ∧
      t.mod.lamp.phase = .restEntry ∧ t.mod.lamp.get F.LMP_STATUS_LIVEOK = 0 ∧ t.mod.flash = s.mod.flash ∧ t.mod.fuse = s.mod.fuse) ∧
    (key ≠ 0xA5 → exec (.rest master key) s = .next s)) ∧
  (s.mod.lamp.phase = .restEntry → s.mod.lamp.wakeHeld = none →
    ∃ t, exec .restPowerOff s = .next t ∧ t.now = max s.now (s.mod.lamp.phaseAt + 1000000) ∧ t.mod.lamp.phase = .rest ∧ t.mod.lamp.pwrEn = false ∧ s.mod.onlyLamp t.mod) ∧
  (∀ c < 8, s.mod.lamp.phase = .restEntry → s.mod.lamp.wakeHeld = some c →
    ∃ t, exec .restPowerOff s = .next t ∧ t.mod.lamp.phase = .waitGood ∧ t.mod.lamp.pwrEn = true ∧
      t.mod.lamp.get F.LMP_WAKE_CAUSE = c) ∧
  (s.mod.lamp.phase = .rest → s.mod.lamp.get F.LMP_WAKE_TIMER ≠ 0 →
    ∃ t, exec .wakeTimerExpire s = .next t ∧
      t.now = max s.now (s.mod.lamp.phaseAt + s.mod.lamp.get F.LMP_WAKE_TIMER * 1000000000) ∧ t.mod.lamp.phase = .waitGood ∧ t.mod.lamp.pwrEn = true ∧
      t.mod.lamp.get F.LMP_WAKE_CAUSE = 4 ∧ t.mod.flash = s.mod.flash ∧ t.mod.fuse = s.mod.fuse) ∧
  (s.mod.lamp.get F.LMP_WAKE_TIMER = 0 → exec .wakeTimerExpire s = .next s)

/-! ## Starts -/

/-- Step 1 of a start (R55 to R58, R64, R66), in a module just released with half 0 in START and no clock qualified in it. With a false-start
count of 3 or more START enters recovery mode. Otherwise one measurement whose codes spread over 16 codes at most chooses the index
of the averaged code (13 and 14 acting as 0): index 0 enters recovery mode, any other but 12 goes on with the start. Each half then
shows step 1 done, its mode and the index. -/
def Obligations.StepOneOfAStart : Prop := ∀ (s : State) (codes : List Nat), s.mod.lamp.phase = .released →
  s.mod.half0.inReset = false → s.mod.half1.inReset = false → s.mod.half0.flag F.RST_QUAL_TIME = false →
  codeSpread codes ≤ 16 →
  (3 ≤ s.mod.lamp.fsCount ∨ strapTaken (strapIndex (codeMean codes)) = 0 →
    ∃ t, exec (.start [codes]) s = .next t ∧ t.mod.lamp.phase = .recovery ∧
      (∀ h, (t.mod.half h).mode = modeRecovery ∧ (t.mod.half h).step = 1 ∧ (t.mod.half h).get F.RST_STRAP_TRIES = 1)) ∧
  (s.mod.lamp.fsCount < 3 → strapTaken (strapIndex (codeMean codes)) ≠ 0 → strapTaken (strapIndex (codeMean codes)) ≠ 12 →
    ∃ t, exec (.start [codes]) s = .next t ∧ t.mod.lamp.phase = .starting ∧
      t.mod.lamp.strap = strapTaken (strapIndex (codeMean codes)) ∧
      (∀ h, (t.mod.half h).mode = modeStart ∧ (t.mod.half h).step = 1 ∧
        (t.mod.half h).get F.RST_STRAP_INDEX = strapTaken (strapIndex (codeMean codes)) % 16))

/-- Islands of a half out of reset and past step 1, with no start in progress and no pass-through frame waiting (R59, R307).
ISLAND_QUALIFIED sets the island's bit of RST_QUAL: the time island's at once, every other island's where the time island has
qualified; the local base counts from the first release of a time island. A port clock that qualifies begins the lanes of its four ports that
wait for it and those mapped out that MAPOUT does not hold, and no others. LOSS_OF_CLOCK of a qualified port clock clears its bit, sets its
bit of RST_QUALFAIL and maps out every lane of the four ports that is not OFF; of the QSPI island it does so with its bits and changes no
other register; of the time island, with no reset asked for in the sample period and none held, it takes both halves through a warm reset with
cause 14. -/
def Obligations.Islands : Prop := ∀ (s : State) (h : HalfId), s.mod.settled → s.mod.lamp.pass.waiting = none →
  (s.mod.half h).inReset = false → (s.mod.half h).step ≠ 0 →
  (∃ t, exec (.islandQualified h .time) s = .next t ∧ (t.mod.half h).get F.RST_QUAL_TIME = 1 ∧
    (t.mod.half h).epoch = some ((s.mod.half h).epoch.getD ((s.mod.half h.peer).epoch.getD s.now)) ∧ s.mod.onlyHalf t.mod h) ∧
  ((s.mod.half h).flag F.RST_QUAL_TIME = true →
    (∃ t, exec (.islandQualified h .qspi) s = .next t ∧ (t.mod.half h).get F.RST_QUAL_QSPI = 1 ∧
      (s.mod.half h).onlyRegs (t.mod.half h) (fun o => o = F.RST_QUAL_word.off) ∧ s.mod.onlyHalf t.mod h) ∧
    (∀ g < 6, ∃ t, exec (.islandQualified h (.portPll g)) s = .next t ∧ (t.mod.half h).getBit F.RST_QUAL_PORTPLL g = true ∧
      (∀ p < 24, (t.mod.half h).laneState p =
        if p / 4 = g ∧ (((s.mod.half h).flag (F.LANE_CTRL_ENABLE p) = true ∧ (s.mod.half h).laneState p = lsOff) ∨
          ((s.mod.half h).flag (F.LANE_CTRL_MAPOUT p) = false ∧ (s.mod.half h).laneState p = lsMappedOut))
        then (s.mod.half h).firstState p else (s.mod.half h).laneState p) ∧
      (∀ o, o ≠ F.RST_QUAL_word.off → o / 0x10000 ≠ 3 → (t.mod.half h).reg o = (s.mod.half h).reg o) ∧ s.mod.onlyHalf t.mod h) ∧
    (∀ g < 6, (s.mod.half h).getBit F.RST_QUAL_PORTPLL g = true →
      ∃ t, exec (.lossOfClock h (.portPll g)) s = .next t ∧ (t.mod.half h).getBit F.RST_QUAL_PORTPLL g = false ∧
        (t.mod.half h).getBit F.RST_QUALFAIL_PORTPLL g = true ∧
        (∀ p < 24, (t.mod.half h).laneState p =
          if p / 4 = g ∧ (s.mod.half h).laneState p ≠ lsOff then lsMappedOut else (s.mod.half h).laneState p) ∧
        s.mod.onlyHalf t.mod h) ∧
    (∀ c < 8, ∃ t, exec (.islandQualified h (.phy c)) s = .next t ∧ (t.mod.half h).getBit F.RST_QUAL_PHY c = true ∧
      (s.mod.half h).onlyRegs (t.mod.half h) (fun o => o = F.RST_QUAL_word.off) ∧ s.mod.onlyHalf t.mod h) ∧
    (s.mod.lamp.stopped = false → s.mod.freeToGo → s.mod.unasked s.now →
      ∃ t, exec (.lossOfClock h .time) s = .next t ∧ t.mod.half0.inReset = false ∧ t.mod.half1.inReset = false ∧
        t.mod.half0.mode = modeStart ∧ t.mod.half1.mode = modeStart ∧ t.mod.lamp.phase = .released ∧
        (t.mod.half h).get F.RST_CAUSE_LAST = 14)) ∧
  ((s.mod.half h).flag F.RST_QUAL_QSPI = true →
    ∃ t, exec (.lossOfClock h .qspi) s = .next t ∧ (t.mod.half h).get F.RST_QUAL_QSPI = 0 ∧
      (t.mod.half h).get F.RST_QUALFAIL_QSPI = 1 ∧
      (s.mod.half h).onlyRegs (t.mod.half h) (fun o => o = F.RST_QUAL_word.off ∨ o = F.RST_QUALFAIL_word.off) ∧
      s.mod.onlyHalf t.mod h)

/-- Limits of a module start (R60, R62 to R65). Before the end of step 3 STEPS_1_3_LIMIT_EXPIRE, once step 4 has ended
START_LIMIT_EXPIRE (4 s after that end), and in step 4 LOAD_LIMIT_EXPIRE end a start as a false start: the count steps, to at most 15, both
halves are in reset with cause 12 in RST_CAUSE.LAST, and the lamplighter holds them. FALSE_START_HOLD_END lets them go in mode START.
FS_COUNT_CLEAR_60S clears the count of a running module and changes nothing else; in no other phase does it change anything but the
clock. -/
def Obligations.StartLimits : Prop := ∀ s : State,
  (s.mod.lamp.phase = .starting → s.mod.half0.step < 3 →
    ∃ t, exec .steps13LimitExpire s = .next t ∧ t.now = max s.now (s.mod.lamp.startAt + 1000000000) ∧ t.mod.lamp.phase = .heldFalse ∧
      t.mod.lamp.fsCount = min (s.mod.lamp.fsCount + 1) 15 ∧ (∀ h, (t.mod.half h).inReset = true ∧
        (t.mod.half h).get F.RST_CAUSE_LAST = 12) ∧ t.mod.flash = s.mod.flash ∧ t.mod.fuse = s.mod.fuse) ∧
  (∀ a, s.mod.lamp.phase = .starting → s.mod.lamp.step4At = some a →
    ∃ t, exec .startLimitExpire s = .next t ∧ t.now = max s.now (a + 4000000000) ∧ t.mod.lamp.phase = .heldFalse ∧
      t.mod.lamp.fsCount = min (s.mod.lamp.fsCount + 1) 15 ∧ (∀ h, (t.mod.half h).inReset = true ∧
        (t.mod.half h).get F.RST_CAUSE_LAST = 12) ∧ t.mod.flash = s.mod.flash ∧ t.mod.fuse = s.mod.fuse) ∧
  (s.mod.lamp.phase = .starting → s.mod.half0.step = 3 →
    ∃ t, exec .loadLimitExpire s = .next t ∧ t.now = max s.now s.mod.loadLimitAt ∧ t.mod.lamp.phase = .heldFalse ∧
      t.mod.lamp.fsCount = min (s.mod.lamp.fsCount + 1) 15 ∧ (∀ h, (t.mod.half h).inReset = true ∧
        (t.mod.half h).get F.RST_CAUSE_LAST = 12) ∧ t.mod.flash = s.mod.flash ∧ t.mod.fuse = s.mod.fuse) ∧
  (s.mod.lamp.phase = .heldFalse → s.mod.freeToGo →
    ∃ t, exec .falseStartHoldEnd s = .next t ∧ t.now = max s.now (s.mod.lamp.phaseAt + 1000000000) ∧ t.mod.lamp.phase = .released ∧
      (∀ h, (t.mod.half h).inReset = false ∧ (t.mod.half h).mode = modeStart)) ∧
  (s.mod.lamp.phase = .running → exec .fsCountClear60s s = .next { s with
    now := max s.now (s.mod.lamp.runningAt + 60000000000), mod := { s.mod with lamp := { s.mod.lamp with fsCount := 0 } } }) ∧
  (s.mod.lamp.phase ≠ .running → exec .fsCountClear60s s = .next { s with
    now := max s.now (s.mod.lamp.runningAt + 60000000000) })

/-- The loader (R70, R81, R82, R86). In step 3 of a start IMAGE_HEADERS_READ of a flash without SFDP ends the start as a false start with
cause 13 and NO_SFDP for both slots. With SFDP, a slot that the strap permits and that passes step 3 is chosen, of two the one with the
higher serial and of equal ones slot A, and its sections begin to load in half 0; where none passes, the start ends as a false start with
cause 13. A SECTION_ARRIVAL that can reach its halves, passes checks 1 to 3 and is placed, with a further section to come, leaves what its
placing gives and moves on to the next section; one that holds scenes gives the image those scenes, a touch configuration is kept for half
0, and one of an optional type is passed over, each changing nothing outside the half that loads and in it no register. -/
def Obligations.LoaderSteps : Prop := ∀ s : State, s.mod.lamp.phase = .starting → s.mod.half0.inReset = false →
  s.mod.half1.inReset = false → s.mod.half0.mode = modeStart → s.mod.half1.mode = modeStart →
  s.mod.half0.image = none →
  (s.mod.half0.step = 2 → s.mod.half0.load = none →
    (∃ t, exec (.imageHeadersRead none) s = .next t ∧ t.mod.lamp.phase = .heldFalse ∧
      t.mod.lamp.fsCount = min (s.mod.lamp.fsCount + 1) 15 ∧
      (∀ h, (t.mod.half h).inReset = true ∧ (t.mod.half h).get F.RST_CAUSE_LAST = 13)) ∧
    (∀ z : Sfdp,
      let flash : Flash := { s.mod.flash with sfdp := some z }
      let size := sfdpSlotSize z
      let strap := s.mod.lamp.strap
      let passes (k : Nat) : Bool := (strapSlots strap).contains k &&
        (flash.slotFail s.mod.fuse (slotBase size k) size strap (s.mod.half0.get F.SYS_ID_MAJOR)).isNone
      let serial (k : Nat) : Nat := leAt (flash.read (slotBase size k) 64) 8 4
      let chosen : Nat := if passes 1 && passes 2 then (if serial 1 < serial 2 then 2 else 1) else if passes 1 then 1 else 2
      (passes 1 = true ∨ passes 2 = true →
        ∃ t l, exec (.imageHeadersRead (some z)) s = .next t ∧ t.mod.half0.load = some l ∧ l.slot = chosen ∧
          l.base = slotBase size chosen ∧ t.mod.half0.get F.LDR_STATUS_SLOT = chosen ∧
          t.mod.half0.get F.LDR_STATUS_STATE = ldsSections ∧ t.mod.half0.step = 3 ∧
          t.mod.flash.bytes = s.mod.flash.bytes ∧ t.mod.fuse = s.mod.fuse) ∧
      (passes 1 = false → passes 2 = false →
        ∃ t, exec (.imageHeadersRead (some z)) s = .next t ∧ t.mod.lamp.phase = .heldFalse ∧
          t.mod.lamp.fsCount = min (s.mod.lamp.fsCount + 1) 15 ∧
          (∀ h, (t.mod.half h).inReset = true ∧ (t.mod.half h).get F.RST_CAUSE_LAST = 13)))) ∧
  (∀ (l : LoadSt) (k : Nat) (e : ManEntry), s.mod.half0.step = 3 → s.mod.half0.load = some l →
    s.mod.nextEntry l .h0 (s.mod.loadEntries l) l.next = some (k, e) → s.mod.forwards l .h0 e = true →
    let x := s.mod.flash.sect l.base e.ofs e.len
    let passed := s.mod.loaderPoint x.type (s.mod.flash.read (l.base + e.ofs) 28 ++ x.payload)
    let gives (l1 : LoadSt) : Prop := ∃ t, exec .sectionArrival s = .next t ∧
      { t.mod.half0 with cvu := s.mod.half0.cvu } = { s.mod.half0 with load := some { l1 with next := k + 1 } } ∧
      s.mod.onlyHalf t.mod .h0 ∧ t.now = s.now
    sectionFail x e l.img.man.roles l.placed = none → (s.mod.nextEntry l .h0 (s.mod.loadEntries l) (k + 1)).isSome = true →
    (∀ m1 l1, passed.placeSection s.now l .h0 x = some (m1, l1) →
      (m1.nextEntry { l1 with next := k + 1 } .h0 (s.mod.loadEntries l) (k + 1)).isSome = true →
      m1.lamp.phase = .starting → m1.half0.step = 3 → m1.half0.inReset = false → m1.half0.mode = modeStart → m1.half0.image = none →
      m1.half1.mode = modeStart → exec .sectionArrival s = .next { s with mod := (m1.setHalf .h0 { m1.half0 with load := some { l1 with next := k + 1 } }) }) ∧
    (∀ p, x.type = 0x30 → scenesOf x = some p → gives { l with img := { l.img with scenes := p.1, default := p.2 } }) ∧
    (∀ c, x.type = 0xA0 → touchConfOf x = some c → gives { l with touch := some c }) ∧
    (bitAt x.type 15 = true → gives l))

/-- Steps of a start that a command completes (R60, R170). TRAINING_DONE of a half out of reset whose islands have qualified and whose
training is still to end notes which channels passed, after which the start goes on; with no start in progress it does nothing else, and in
step 5 of a module start, every channel of both halves passing, it completes the step with all 8 channels in service. STEP8_TIMEOUT and
STEP9_TIMEOUT mark their step as done in every half of the module start that waits in it, no sooner than 1,000 ms after the step began, after
which the start goes on: the step is done, and with step 9 the panel port runs. -/
def Obligations.StartStepsEnd : Prop := ∀ s : State,
  (∀ (h : HalfId) (passed : Nat), (s.mod.half h).inReset = false → (s.mod.half h).starter.trained = none →
    (s.mod.half h).islandsDone = true →
    let m := s.mod.setHalf h { s.mod.half h with starter := { (s.mod.half h).starter with trained := some (passed % 256) } }
    exec (.trainingDone h passed) s = .next { s with mod := m.advance s.now } ∧
    (s.mod.settled → exec (.trainingDone h passed) s = .next { s with mod := m }) ∧
    (s.mod.lamp.phase = .starting → s.mod.starters = [.h0, .h1] → (∀ k, (s.mod.half k).step = 4 ∧ (s.mod.half k).store.out = 0) →
      passed = 255 → (s.mod.half h.peer).starter.trained = some 255 →
      ∃ t, exec (.trainingDone h passed) s = .next t ∧ t.now = s.now ∧ t.mod.flash = s.mod.flash ∧ t.mod.fuse = s.mod.fuse ∧
        ∀ k, (t.mod.half k).step = 5 ∧ (t.mod.half k).get F.FST_CHMAP_N = 8 ∧ (t.mod.half k).get F.FST_CHMAP_INSERVICE = 255 ∧
          (t.mod.half k).get F.FST_CHMAP_FAILED = 0)) ∧
  (s.mod.starters = [.h0, .h1] → (∀ h, (s.mod.half h).step = 7) →
    let u := max s.now (max s.mod.half0.starter.step8From s.mod.half1.starter.step8From + 1000000000)
    exec .step8Timeout s = .next { s with
      now := u
      mod := (Module.advance { s.mod with half0 := s.mod.half0.markReady 8, half1 := s.mod.half1.markReady 8 } u) } ∧
    (s.mod.lamp.phase = .starting → (∀ h, (s.mod.half h).get F.FST_CHMAP_N ≠ 0) →
      ∃ t, exec .step8Timeout s = .next t ∧ t.now = u ∧ (∀ h, 8 ≤ (t.mod.half h).step) ∧ t.mod.flash = s.mod.flash ∧
        t.mod.fuse = s.mod.fuse)) ∧
  (s.mod.starters = [.h0, .h1] → (∀ h, (s.mod.half h).step = 8) →
    let u := max s.now (max s.mod.half0.starter.step9From s.mod.half1.starter.step9From + 1000000000)
    exec .step9Timeout s = .next { s with
      now := u
      mod := (Module.advance { s.mod with half0 := s.mod.half0.markReady 9, half1 := s.mod.half1.markReady 9 } u) } ∧
    (s.mod.lamp.phase = .starting → (∀ h, (s.mod.half h).get F.FST_CHMAP_N ≠ 0) →
      ∃ t, exec .step9Timeout s = .next t ∧ t.now = u ∧ (∀ h, 9 ≤ (t.mod.half h).step ∧ (t.mod.half h).flag F.PNL_CTRL_RUN = true) ∧
        t.mod.flash = s.mod.flash ∧ t.mod.fuse = s.mod.fuse))

/-- Half starts in a running module (R61). HALF_RESET_RELEASE lets a half go from its brief reset, 1 ms after it began, in mode HALFSTART,
and its peer no longer sees it in reset. HALF_START_LIMIT_EXPIRE of a half start past step 4 whose half and peer exchange no batons is a half false
start: the count steps, the half is in reset with cause 15 in RST_CAUSE.LAST, and from the third on it is held and its peer shows
PEERHELD. HALFFS_CLEAR_60S clears the count of a half that has exchanged batons with its peer for 60 s. -/
def Obligations.HalfStarts : Prop := ∀ (s : State) (h : HalfId), s.mod.lamp.phase = .running → s.mod.lamp.stopped = false →
  ((s.mod.half h).inReset = true → (s.mod.lamp.half h).hold = .brief →
    ∃ t, exec (.halfResetRelease h) s = .next t ∧ t.now = max s.now ((s.mod.lamp.half h).resetAt + 1000000) ∧ (t.mod.half h).inReset = false ∧ (t.mod.half h).mode = modeHalfStart ∧
      (t.mod.lamp.half h).hold = .none ∧ (t.mod.half h.peer).get F.LNK_STATUS_PEER_RESET = 0) ∧
  ((s.mod.half h).inReset = false → (s.mod.half h).mode = modeHalfStart → 4 ≤ (s.mod.half h).step →
    (s.mod.half h).link.exchanged = false → (s.mod.half h.peer).inReset = false →
    s.mod.unasked (max s.now ((s.mod.half h).starter.step4At + 4000000000)) →
    ∃ t, exec (.halfStartLimitExpire h) s = .next t ∧ t.now = max s.now ((s.mod.half h).starter.step4At + 4000000000) ∧ (t.mod.half h).inReset = true ∧
      (t.mod.half h).get F.RST_CAUSE_LAST = 15 ∧ (t.mod.lamp.half h).falseStarts = min 3 ((s.mod.lamp.half h).falseStarts + 1) ∧
      (t.mod.lamp.half h).hold = (if 3 ≤ (s.mod.lamp.half h).falseStarts + 1 then .falseStarts else .brief) ∧
      (3 ≤ (s.mod.lamp.half h).falseStarts + 1 → (t.mod.half h.peer).get F.RST_STATE_PEERHELD = 1)) ∧
  ((s.mod.half h).inReset = false → (s.mod.half h).link.exchanged = true → (s.mod.half h.peer).link.exchanged = true →
    ∃ t, exec (.halffsClear60s h) s = .next t ∧ t.now = max s.now ((s.mod.half h).link.exchangedAt + 60000000000) ∧
      (t.mod.lamp.half h).falseStarts = 0 ∧ (t.mod.lamp.half h.peer).falseStarts = (s.mod.lamp.half h.peer).falseStarts ∧
      s.mod.onlyLamp t.mod)

/-! ## The half link -/

/-- Flits (R13, R15) at a half out of reset. A flit whose CRC fails, the first within 1 ms, is counted and asked for again, and nothing
but the resend tally, the two ends of the half link and the check-value units at them changes. A good flit of another class than baton
changes nothing but the messages that the peer holds for the link, of which its arbiter has granted what went before, and those units: what it
carries arrives by its own command. A good baton flit means what BATON_RECEIVE of the baton it carries means.
Batons (R362). BATON_SEND of a half that may send, 1 ms after the last flit or at once on a change of a field, steps BSEQ and, with the
peer out of reset, gives the half link the baton of the present; in a half that may not send the clock alone moves. A baton that the half
takes leaves its BSEQ as the last one taken, at this instant, PEER_UP set and the peer's exchange begun, and raises source 1; one that
it does not take leaves all but the check-value units of the half as they were. -/
def Obligations.FlitsAndBatons : Prop :=
  (∀ (s : State) (h : HalfId) (f : Flit), (s.mod.half h).inReset = false →
  (flitCrcOk f = false → (s.mod.half h).link.resendAt = [] → (s.mod.half h.peer).inReset = false →
    (s.mod.half h.peer).flag F.LNK_STATUS_PEER_RESET = false →
    ∃ t, exec (.flitReceive h f) s = .next t ∧
      (t.mod.half h).get F.LNK_TALLY_RESENDS = satAdd F.LNK_TALLY_RESENDS.width ((s.mod.half h).get F.LNK_TALLY_RESENDS) 1 ∧
      (t.mod.half h).link = { (s.mod.half h).link with resendAt := [s.now] } ∧
      (t.mod.half h.peer).link = { (s.mod.half h.peer).link with out := (s.mod.half h.peer).link.out ++ [.resend f.cls] } ∧
      (∀ o, o ≠ F.LNK_TALLY_word.off → (t.mod.half h).reg o = (s.mod.half h).reg o) ∧
      (t.mod.half h.peer).regs = (s.mod.half h.peer).regs ∧ t.mod.lamp = s.mod.lamp) ∧
  (flitCrcOk f = true → f.cls ≠ .baton →
    ∃ t, exec (.flitReceive h f) s = .next t ∧ { t.mod.half h with cvu := (s.mod.half h).cvu } = s.mod.half h ∧
      { t.mod.half h.peer with cvu := (s.mod.half h.peer).cvu } = { s.mod.half h.peer with
        link := (s.mod.half h.peer).link.deliver fun y => y == .resend f.cls } ∧
      t.mod.lamp = s.mod.lamp ∧ t.mod.flash = s.mod.flash ∧ t.mod.fuse = s.mod.fuse)) ∧
  (∀ (s : State) (h : HalfId) (u : Nat), u = max s.now (s.mod.half h).batonDue →
  ((s.mod.half h).mayBaton u = true →
    ∃ t, exec (.batonSend h) s = .next t ∧ t.now = u ∧ (t.mod.half h).link.bseq = ((s.mod.half h).link.bseq + 1) % 2 ^ 32 ∧
      (t.mod.half h).link.sent = some (u, (s.mod.half h).baton) ∧
      (t.mod.half h).link.out = (if (s.mod.half h).flag F.LNK_STATUS_PEER_RESET then (s.mod.half h).link.out
        else (s.mod.half h).link.out ++ [.baton (s.mod.half h).baton]) ∧
      (t.mod.half h).regs = (s.mod.half h).regs ∧ s.mod.onlyHalf t.mod h) ∧
  ((s.mod.half h).mayBaton u = false → s.idlesTo (.batonSend h) u)) ∧
  (∀ (s : State) (h : HalfId) (b : Baton) (c : Instr), c = .batonReceive h b ∨ (∃ f : Flit, c = .flitReceive h f ∧
      flitCrcOk f = true ∧ f.cls = .baton ∧ Baton.parse (f.bytes.drop 6) = b) →
  ((s.mod.half h).takesBaton b = true →
    ∃ t, exec c s = .next t ∧ (t.mod.half h).link.lastBseq = some b.bseq ∧
      (t.mod.half h).link.lastAt = some s.now ∧ (t.mod.half h).get F.SYS_HALF_PEER_UP = 1 ∧
      (∀ n < 4, (t.mod.half h).getBit (F.ENG_IRQPEND_PEND n) irqBaton = true) ∧
      (t.mod.half h.peer).link.exchanged = true ∧ (t.mod.half h.peer).regs = (s.mod.half h.peer).regs ∧ t.mod.lamp = s.mod.lamp ∧
      t.mod.flash = s.mod.flash ∧ t.mod.fuse = s.mod.fuse) ∧
  ((s.mod.half h).takesBaton b = false →
    ∃ t, exec c s = .next t ∧ { t.mod.half h with cvu := (s.mod.half h).cvu } = s.mod.half h ∧ t.mod.lamp = s.mod.lamp))

/-- Silence and the mirror (R16, R356, R420). At a half out of reset that has taken a baton BATON_SILENCE_2MS makes source 2 pending at
all four engines; BATON_SILENCE, no sooner than 5 ms after the last baton, clears PEER_UP and, while the lamplighter beats, leaves a
request to reset the peer. Over a working half link LEDGER_MIRROR_RECEIVE keeps the entry, its MIRROR flag set, as the newest of at most
64, and shows their number. -/
def Obligations.SilenceAndMirror : Prop := ∀ (s : State) (h : HalfId),
  ((s.mod.half h).inReset = false → (s.mod.half h).link.lastBseq ≠ none →
    (∃ t, exec (.batonSilence2ms h) s = .next t ∧ t.now = max s.now ((s.mod.half h).link.silentFrom + 2000000) ∧
      (∀ n < 4, (t.mod.half h).getBit (F.ENG_IRQPEND_PEND n) irqNoBaton = true) ∧ s.mod.onlyHalf t.mod h) ∧
    (s.mod.lamp.stopped = false →
      ∃ t, exec (.batonSilence h) s = .next t ∧ t.now = max s.now ((s.mod.half h).link.silentFrom + 5000000) ∧
        (t.mod.half h).get F.SYS_HALF_PEER_UP = 0 ∧
        (t.mod.lamp.half h).request = some ((s.mod.lamp.half h).request.getD t.now) ∧
        (s.mod.half h).onlyRegs (t.mod.half h) (fun o => o = F.SYS_HALF_word.off) ∧
        t.mod.half h.peer = s.mod.half h.peer)) ∧
  (∀ entry : List Byte, linkOk (s.mod.half h) (s.mod.half h.peer) = true →
    ∃ t, exec (.ledgerMirrorReceive h entry) s = .next t ∧
      (t.mod.half h).flt.mirror = lastN 64 ((s.mod.half h).flt.mirror ++
        [(padTo 48 entry).set 6 ((padTo 48 entry).getD 6 0 ||| 0x10)]) ∧
      (t.mod.half h).get F.FLT_STATUS_MIRROR = (t.mod.half h).flt.mirror.length ∧
      (t.mod.half h).flt.entries = (s.mod.half h).flt.entries ∧ t.mod.lamp = s.mod.lamp)

/-! ## Serial ports -/

/-- Bring-up of a lane (R105, R110, R111) in a running module, at a half out of reset. CDR_LOCK in CDR leads to DESCRAMBLE at the
plan's rate. CDR_LOSS_OF_LOCK sends a lane in bring-up back to CDR, and a lane in UP or QUALIFY too, unless it is the fourth
departure within 10 s, which maps it out. BRINGUP_TIMEOUT from CDR to CHECK, 20 ms after the lane entered its state, maps it out and adds
a ledger entry. QUALIFY_DONE after 1 s in QUALIFY leads to UP. MAPOUT_RETRY_EXPIRE after 10 s in MAPPED_OUT, MAPOUT clear and the port clock
qualified, leads to CDR, on an SDI port to rate hunting and under the generator to PATTERN; with MAPOUT set only the clock moves, as with
each of the others in another state. -/
def Obligations.LaneBringUp : Prop := ∀ (s : State) (h : HalfId) (p : Nat), s.mod.settled → (s.mod.half h).inReset = false → p < 24 →
  ((s.mod.half h).laneState p = lsCdr →
    ∃ t, exec (.cdrLock h p) s = .next t ∧ (t.mod.half h).laneState p = lsDescramble ∧
      (t.mod.half h).get (F.LANE_STATUS_RATE p) = ((s.mod.half h).portRec p).rate % 16 ∧
      (∀ o, o ≠ (F.LANE_STATUS_word p).off → o ≠ (F.LANE_DFE_word p).off → (t.mod.half h).reg o = (s.mod.half h).reg o) ∧
      s.mod.onlyHalf t.mod h) ∧
  ((s.mod.half h).laneState p ≠ lsCdr → exec (.cdrLock h p) s = .next s) ∧
  (lsDescramble ≤ (s.mod.half h).laneState p → (s.mod.half h).laneState p ≤ lsDeskew →
    ∃ t, exec (.cdrLossOfLock h p) s = .next t ∧ (t.mod.half h).laneState p = lsCdr ∧ ((t.mod.half h).lane p).rx.fill = 0 ∧
      (∀ o, o ≠ (F.LANE_STATUS_word p).off → o ≠ F.SYS_XDISC_word.off → (t.mod.half h).reg o = (s.mod.half h).reg o) ∧
      s.mod.onlyHalf t.mod h) ∧
  ((s.mod.half h).laneState p = lsUp ∨ (s.mod.half h).laneState p = lsQualify →
    ∃ t, exec (.cdrLossOfLock h p) s = .next t ∧ s.mod.onlyHalf t.mod h ∧ (t.mod.half h).laneState p =
      (if 3 ≤ (((s.mod.half h).lane p).rx.drops.filter fun a => decide (s.now < a + 10000000000)).length then lsMappedOut else lsCdr)) ∧
  (lsCdr ≤ (s.mod.half h).laneState p → (s.mod.half h).laneState p ≤ lsCheck →
    ∃ t, exec (.bringupTimeout h p) s = .next t ∧ t.now = max s.now (((s.mod.half h).lane p).since + 20000000) ∧ (t.mod.half h).laneState p = lsMappedOut ∧
      (t.mod.half h).get F.FLT_HEAD_SEQ = ((s.mod.half h).get F.FLT_HEAD_SEQ + 1) % 2 ^ 32 ∧
      (∀ q, q < 24 → q ≠ p → (t.mod.half h).laneState q = (s.mod.half h).laneState q) ∧ s.mod.onlyHalf t.mod h) ∧
  (lsCheck < (s.mod.half h).laneState p → s.idles (.bringupTimeout h p)) ∧
  ((s.mod.half h).laneState p = lsQualify →
    ∃ t, exec (.qualifyDone h p) s = .next t ∧ t.now = max s.now (((s.mod.half h).lane p).since + 1000000000) ∧ (t.mod.half h).laneState p = lsUp ∧ s.mod.onlyHalf t.mod h) ∧
  ((s.mod.half h).laneState p ≠ lsQualify → s.idles (.qualifyDone h p)) ∧
  ((s.mod.half h).laneState p = lsMappedOut → (s.mod.half h).get (F.LANE_CTRL_MAPOUT p) = 0 →
    (s.mod.half h).getBit F.RST_QUAL_PORTPLL (p / 4) = true →
    ∃ t, exec (.mapoutRetryExpire h p) s = .next t ∧ t.now = max s.now (((s.mod.half h).lane p).since + 10000000000) ∧
      (t.mod.half h).laneState p = (s.mod.half h).firstState p ∧
      (∀ o, o ≠ (F.LANE_STATUS_word p).off → (t.mod.half h).reg o = (s.mod.half h).reg o) ∧ s.mod.onlyHalf t.mod h) ∧
  ((s.mod.half h).get (F.LANE_CTRL_MAPOUT p) = 1 → s.idles (.mapoutRetryExpire h p))

/-- What passes through a port (R101, R105, R108, R117, R118, R136), in a running module, at a half out of reset. Line bits at a lane in
DESCRAMBLE whose descrambler they fill without a stuff error, with no cell of its link waiting, lead to HUNT; at a lane UP they wait in its
receiver until they fill a cell, and a whole alignment idle cell gives LANE_PEER what it says of the peer; at a lane that is not receiving,
CELL_RECEIVE moves the clock and, where the port's bypass pair is closed, passes the bits to the paired port. TX_CELL_ROW of a one-lane
native link that is up, with no error injection, no change of the RXUP mask and a cell waiting, sends that cell with the next LSEQ, a time
cell as its transmit mark makes it, and changes no register; with no cell waiting on a link outside the rings each sending lane sends the idle
cell of its port. PATTERN_BITS_RECEIVE of one bit at a locked PRBS checker counts an error where the bit
is not the expected one, and of several bits it takes them in turn. COUNTER_DRAIN adds each count that a lane holds to its tally. -/
def Obligations.LaneTraffic : Prop := ∀ (s : State) (h : HalfId) (p : Nat), s.mod.settled → (s.mod.half h).inReset = false → p < 24 →
  p < (s.mod.half h).port.lanes.length →
  (∀ (bits : List Bool) (stamp : Nat), (s.mod.half h).laneState p = lsDescramble →
    (((s.mod.half h).lane p).rx.bits bits).2 = 0 → 58 ≤ (((s.mod.half h).lane p).rx.bits bits).1.fill →
    (((s.mod.half h).lane p).rx.bits bits).1.buf.length < 2048 →
    (∀ l, (s.mod.half h).linkOf p = some l → ((s.mod.half h).run l).up = (s.mod.half h).linkUp l ∧
      ∀ q ∈ (s.mod.half h).upLanes l, ((s.mod.half h).lane q).rx.fifo = []) →
    ∃ t, exec (.cellReceive h p bits stamp) s = .next t ∧ t.now = max s.now (s.stampAt h stamp) ∧
      (t.mod.half h).laneState p = lsHunt ∧ ((t.mod.half h).lane p).rx.taps = (((s.mod.half h).lane p).rx.bits bits).1.taps ∧
      (∀ o, o ≠ (F.LANE_STATUS_word p).off → (t.mod.half h).reg o = (s.mod.half h).reg o) ∧ s.mod.onlyHalf t.mod h) ∧
  (∀ (bits : List Bool) (stamp : Nat), (s.mod.half h).laneState p = lsUp → (((s.mod.half h).lane p).rx.bits bits).2 = 0 →
    (∀ l, (s.mod.half h).linkOf p = some l → ((s.mod.half h).run l).up = (s.mod.half h).linkUp l ∧
      ∀ q ∈ (s.mod.half h).upLanes l, ((s.mod.half h).lane q).rx.fifo = []) →
    let r := (((s.mod.half h).lane p).rx.bits bits).1
    let bs := frameBytes r.inv r.buf
    (r.buf.length < 2048 →
      ∃ t, exec (.cellReceive h p bits stamp) s = .next t ∧ ((t.mod.half h).lane p).rx = r ∧ (t.mod.half h).regs = (s.mod.half h).regs ∧
        s.mod.onlyHalf t.mod h) ∧
    (r.buf.length = 2048 → byteAt bs 0 = 0xD5 → cellCrcOk bs = true → cleanCell r.buf = true →
      let c := (Cell.parse bs).2
      c.type = 0 → c.field 36 1 = 1 →
      ∃ t, exec (.cellReceive h p bits stamp) s = .next t ∧ (t.mod.half h).laneState p = lsUp ∧ ((t.mod.half h).lane p).rx.buf = [] ∧
        (t.mod.half h).get (F.LANE_PEER_ADDR p) = c.field 16 14 ∧ (t.mod.half h).get (F.LANE_PEER_SPORT p) = c.field 30 6 ∧
        (t.mod.half h).get (F.LANE_PEER_RXUP p) = c.field 40 4 ∧ (t.mod.half h).get (F.LANE_PEER_LANES p) = c.field 44 3 ∧
        (t.mod.half h).get (F.LANE_PEER_VALID p) = 1 ∧ s.mod.onlyHalf t.mod h)) ∧
  (∀ (bits : List Bool) (stamp : Nat), rxActive ((s.mod.half h).laneState p) = false →
    exec (.cellReceive h p bits stamp) s = .next { s with
      now := max s.now (s.stampAt h stamp), mod := s.mod.setHalf h ((s.mod.half h).passBits p bits) } ∧
    (pairOther p < (s.mod.half h).port.lanes.length → (s.mod.half h).pairClosed p = true →
      (((s.mod.half h).passBits p bits).lane (pairOther p)).pass = bits) ∧
    ((s.mod.half h).pairClosed p = false → (s.mod.half h).passBits p bits = s.mod.half h)) ∧
  (∀ (c : Cell) (rest : List Cell), (s.mod.half h).txCells p = true → (s.mod.half h).linkUp (16 + p) = true →
    ((s.mod.half h).portRec p).role ≠ 3 → (s.mod.half h).carries p = true →
    16 + p < (s.mod.half h).port.runs.length → ((s.mod.half h).run (16 + p)).queue = c :: rest → c.type ≠ 0 →
    bitAt ((s.mod.half h).run (16 + p)).peerUp (p % 4) = true → ((s.mod.half h).run (16 + p)).mask = (s.mod.half h).rxUp (16 + p) →
    (s.mod.half h).injectEvery p = 0 → ((s.mod.half h).lane p).tx.burst = 0 →
    ∃ t, exec (.txCellRow h (16 + p)) s = .next t ∧
      { ((t.mod.half h).lane p).tx with sent := 0 } = { ((s.mod.half h).lane p).tx.cell
        (if c.type = 3 then (s.mod.half h).markBridge ((s.mod.half h).lb s.now) c else c) ((s.mod.half h).run (16 + p)).lseq with sent := 0 } ∧
      ((t.mod.half h).run (16 + p)).lseq = (((s.mod.half h).run (16 + p)).lseq + 1) % 16 ∧
      ((t.mod.half h).run (16 + p)).queue = rest ∧ (t.mod.half h).regs = (s.mod.half h).regs ∧ s.mod.onlyHalf t.mod h) ∧
  (∀ l < 40, l < (s.mod.half h).port.runs.length → (s.mod.half h).ringSide l = none → ((s.mod.half h).run l).queue = [] →
    let lanes := ((s.mod.half h).rowPorts l).filter (s.mod.half h).txCells
    (∀ q ∈ (s.mod.half h).rowPorts l, (s.mod.half h).flag (F.LANE_PATTERN_GENEN q) = false) →
    ((s.mod.half h).run l).sending = lanes → (∀ q ∈ lanes, ∀ j ∈ lanes, ((s.mod.half h).lane q).tx.sent < ((s.mod.half h).lane j).tx.sent + 2048) →
    (∀ q ∈ lanes, q < (s.mod.half h).port.lanes.length ∧ ((s.mod.half h).portRec q).role ≠ 4 ∧ (s.mod.half h).injectEvery q = 0 ∧
      ((s.mod.half h).lane q).tx.burst = 0) →
    ∃ t, exec (.txCellRow h l) s = .next t ∧ ((t.mod.half h).run l).lseq = (((s.mod.half h).run l).lseq + 1) % 16 ∧
      ((t.mod.half h).run l).queue = [] ∧ (∀ q ∈ lanes, ((t.mod.half h).lane q).tx = ((s.mod.half h).lane q).tx.cell
        (idleCell ((s.mod.half h).linkAddr l) (devicePort h q) ((s.mod.half h).rxUp l) ((s.mod.half h).linkRec l).lanes false)
        ((s.mod.half h).run l).lseq) ∧ s.mod.onlyHalf t.mod h) ∧
  (∀ y : Bool, (s.mod.half h).flag (F.LANE_PATTERN_CHKEN p) = true → (s.mod.half h).flag (F.LANE_PATTERN_CHKLOCK p) = true →
    (s.mod.half h).get (F.LANE_PATTERN_CHKSEL p) < 4 →
    ∃ t, exec (.patternBitsReceive h p [y]) s = .next t ∧
      (t.mod.half h).get (F.LANE_CHKERR_ERRORS p) = satAdd 32 ((s.mod.half h).get (F.LANE_CHKERR_ERRORS p))
        (if y = prbsNext ((s.mod.half h).get (F.LANE_PATTERN_CHKSEL p)) ((s.mod.half h).lane p).chk.reg then 0 else 1) ∧
      (∀ o, o ≠ (F.LANE_PATTERN_word p).off → o ≠ (F.LANE_CHKERR_word p).off → o ≠ (F.LANE_CHKBITS_word p).off →
        (t.mod.half h).reg o = (s.mod.half h).reg o) ∧ s.mod.onlyHalf t.mod h) ∧
  (∀ (y : Bool) (ys : List Bool),
    ∃ u t, exec (.patternBitsReceive h p [y]) s = .next u ∧ exec (.patternBitsReceive h p ys) u = .next t ∧
      exec (.patternBitsReceive h p (y :: ys)) s = .next t) ∧
  ((((s.mod.half h).lane p).isle.map fun c => c.1).Nodup → (∀ c ∈ ((s.mod.half h).lane p).isle, c.1 < 8) →
    ∃ t, exec (.counterDrain h p) s = .next t ∧ ((t.mod.half h).lane p).isle = [] ∧
      (∀ c ∈ ((s.mod.half h).lane p).isle, (t.mod.half h).get (laneTally p c.1) =
        satAdd (laneTally p c.1).width ((s.mod.half h).get (laneTally p c.1)) c.2) ∧
      (∀ code < 8, code ∉ ((s.mod.half h).lane p).isle.map (fun c => c.1) →
        (t.mod.half h).get (laneTally p code) = (s.mod.half h).get (laneTally p code)) ∧
      (∀ o, (∀ code < 8, o ≠ (laneTally p code).off) → (t.mod.half h).reg o = (s.mod.half h).reg o) ∧ s.mod.onlyHalf t.mod h)

/-- Writes of lane registers (R34, R105, R111, R117 to R120) by a master whose write is granted, in a running module, where the lane's
link has reported how it stands. While MAPOUT is set, clearing it changes no lane's state. While it is clear: ENABLE raised with the port clock qualified starts bring-up, at CDR, at rate hunting on
an SDI port or in PATTERN under the generator, and without it waits; ENABLE lowered leads to OFF; MAPOUT maps out an enabled lane in
bring-up or UP; RETRY starts the bring-up of a mapped-out lane with a qualified clock. OPEN of a west port and
TXIDLE hold what was written; OPEN cleared closes the pair. -/
def Obligations.LaneControl : Prop := ∀ (s : State) (h : HalfId) (p master : Nat), s.mod.settled → p < 24 →
  s.mod.grants h master (F.LANE_CTRL_word p).off → (s.mod.half h).inReset = false →
  (∀ l, (s.mod.half h).linkOf p = some l → ((s.mod.half h).run l).up = (s.mod.half h).linkUp l) →
  ((s.mod.half h).get (F.LANE_CTRL_MAPOUT p) = 1 →
    ∃ t, exec (.mapout h p master false) s = .next t ∧ (t.mod.half h).get (F.LANE_CTRL_MAPOUT p) = 0 ∧
      (t.mod.half h).laneState p = (s.mod.half h).laneState p ∧
      (s.mod.half h).onlyRegs (t.mod.half h) (fun o => o = (F.LANE_CTRL_word p).off ∨ o = (F.LANE_STATUS_word p).off) ∧
      s.mod.onlyHalf t.mod h) ∧
  ((s.mod.half h).get (F.LANE_CTRL_MAPOUT p) = 0 →
  ((s.mod.half h).get (F.LANE_CTRL_ENABLE p) = 0 →
    ∃ t, exec (.enableLane h p master true) s = .next t ∧ (t.mod.half h).get (F.LANE_CTRL_ENABLE p) = 1 ∧
      (t.mod.half h).laneState p = (if (s.mod.half h).clocked p then (s.mod.half h).firstState p else (s.mod.half h).laneState p) ∧
      s.mod.onlyHalf t.mod h) ∧
  ((s.mod.half h).get (F.LANE_CTRL_ENABLE p) = 1 →
    ∃ t, exec (.enableLane h p master false) s = .next t ∧ (t.mod.half h).get (F.LANE_CTRL_ENABLE p) = 0 ∧
      (t.mod.half h).laneState p = lsOff ∧ s.mod.onlyHalf t.mod h) ∧
  ((s.mod.half h).get (F.LANE_CTRL_ENABLE p) = 1 → (s.mod.half h).laneState p ≤ lsQualify →
    ∃ t, exec (.mapout h p master true) s = .next t ∧ (t.mod.half h).get (F.LANE_CTRL_MAPOUT p) = 1 ∧
      (t.mod.half h).laneState p = lsMappedOut ∧ s.mod.onlyHalf t.mod h) ∧
  ((s.mod.half h).laneState p = lsMappedOut → (s.mod.half h).getBit F.RST_QUAL_PORTPLL (p / 4) = true →
    ∃ t, exec (.retry h p master) s = .next t ∧ (t.mod.half h).laneState p = (s.mod.half h).firstState p ∧ s.mod.onlyHalf t.mod h) ∧
  (∀ on : Bool, 16 ≤ p → p < 20 →
    ∃ t, exec (.openPair h p master on) s = .next t ∧ (t.mod.half h).get (F.LANE_CTRL_OPEN p) = bit on ∧
      (on = false → (t.mod.half h).get (F.LANE_STATUS_BYPASS p) = 0) ∧
      (t.mod.half h).laneState p = (s.mod.half h).laneState p ∧
      (s.mod.half h).onlyRegs (t.mod.half h) (fun o => o = (F.LANE_CTRL_word p).off ∨ o = (F.LANE_STATUS_word p).off) ∧
      s.mod.onlyHalf t.mod h) ∧
  (∀ on : Bool,
    ∃ t, exec (.txidle h p master on) s = .next t ∧ (t.mod.half h).get (F.LANE_CTRL_TXIDLE p) = bit on ∧
      (s.mod.half h).onlyRegs (t.mod.half h) (fun o => o = (F.LANE_CTRL_word p).off ∨ o = (F.LANE_STATUS_word p).off) ∧
      s.mod.onlyHalf t.mod h))

/-- Patterns and injection (R117 to R119) by a master whose write is granted, in a running module. GENEN raised takes the lane out of its
link to PATTERN; GENEN lowered starts bring-up on an enabled lane and rate hunting on an SDI port, or, where MAPOUT is set or the port clock is not qualified, maps the
lane out; another lane goes OFF. CHKEN raised clears the checker's counts and lock; CHKEN lowered
clears the lock and leaves the counts. FIRE adds one burst of BURST bits, at least 1 and at most 64, to those still to be sent. -/
def Obligations.Patterns : Prop := ∀ (s : State) (h : HalfId) (p master : Nat), s.mod.settled → p < 24 → (s.mod.half h).inReset = false →
  (s.mod.grants h master (F.LANE_PATTERN_word p).off →
    ((s.mod.half h).get (F.LANE_PATTERN_GENEN p) = 0 →
      ∃ t, exec (.genen h p master true) s = .next t ∧ (t.mod.half h).get (F.LANE_PATTERN_GENEN p) = 1 ∧
        (t.mod.half h).laneState p = lsPattern ∧ s.mod.onlyHalf t.mod h) ∧
    ((s.mod.half h).get (F.LANE_PATTERN_GENEN p) = 1 →
      ∃ t, exec (.genen h p master false) s = .next t ∧ (t.mod.half h).get (F.LANE_PATTERN_GENEN p) = 0 ∧
        (t.mod.half h).laneState p = (if ((s.mod.half h).portRec p).role ≠ 2 ∧ (s.mod.half h).get (F.LANE_CTRL_ENABLE p) = 0 then lsOff
          else if (s.mod.half h).flag (F.LANE_CTRL_MAPOUT p) || !(s.mod.half h).clocked p then lsMappedOut
          else if ((s.mod.half h).portRec p).role = 2 then lsSdiHunt else lsCdr) ∧
        s.mod.onlyHalf t.mod h) ∧
    ((s.mod.half h).get (F.LANE_PATTERN_CHKEN p) = 0 →
      ∃ t, exec (.chken h p master true) s = .next t ∧ (t.mod.half h).get (F.LANE_PATTERN_CHKEN p) = 1 ∧
        (t.mod.half h).get (F.LANE_PATTERN_CHKLOCK p) = 0 ∧ (t.mod.half h).get (F.LANE_CHKERR_ERRORS p) = 0 ∧
        (t.mod.half h).get (F.LANE_CHKBITS_UNITS p) = 0 ∧
        (∀ o, o ≠ (F.LANE_PATTERN_word p).off → o ≠ (F.LANE_CHKERR_word p).off → o ≠ (F.LANE_CHKBITS_word p).off →
          (t.mod.half h).reg o = (s.mod.half h).reg o) ∧ s.mod.onlyHalf t.mod h) ∧
    ((s.mod.half h).get (F.LANE_PATTERN_CHKEN p) = 1 →
      ∃ t, exec (.chken h p master false) s = .next t ∧ (t.mod.half h).get (F.LANE_PATTERN_CHKEN p) = 0 ∧
        (t.mod.half h).get (F.LANE_PATTERN_CHKLOCK p) = 0 ∧
        (∀ o, o ≠ (F.LANE_PATTERN_word p).off → (t.mod.half h).reg o = (s.mod.half h).reg o) ∧ s.mod.onlyHalf t.mod h)) ∧
  (s.mod.grants h master (F.LANE_INJECT_word p).off → p < (s.mod.half h).port.lanes.length →
    ∃ t, exec (.fire h p master) s = .next t ∧
      ((t.mod.half h).lane p).tx.burst = ((s.mod.half h).lane p).tx.burst + max 1 (min 64 ((s.mod.half h).get (F.LANE_INJECT_BURST p))) ∧
      ((t.mod.half h).lane p).rx = ((s.mod.half h).lane p).rx ∧
      (∀ o, o ≠ (F.LANE_INJECT_word p).off → (t.mod.half h).reg o = (s.mod.half h).reg o) ∧ s.mod.onlyHalf t.mod h)

/-- SDI receivers (R115, R116) in a running module, at a half out of reset. SDI_LOCK at the hunted rate of the port's mask locks the
receiver and shows the rate. SDI_RATE_HUNT_TIMEOUT while hunting, 5 ms after the rate was taken, moves on to the next rate and changes no
register; in another state it moves the clock alone. SDI_LOCK_LOSS of a locked receiver ends the lock, and it hunts again; without a lock nothing changes. -/
def Obligations.SdiPorts : Prop := ∀ (s : State) (h : HalfId) (p : Nat), s.mod.settled → (s.mod.half h).inReset = false → p < 24 →
  (∀ (rate : Nat) (levelB : Bool), (s.mod.half h).laneState p = lsSdiHunt → 8 ≤ rate → rate ≤ 15 →
    (rate - 8) / 2 = ((s.mod.half h).lane p).rx.fill → bitAt ((s.mod.half h).portRec p).rate ((rate - 8) / 2) = true →
    ∃ t, exec (.sdiLock h p rate levelB) s = .next t ∧ (t.mod.half h).laneState p = lsSdiLock ∧
      (t.mod.half h).get (F.LANE_STATUS_RATE p) = rate ∧ (t.mod.half h).get (F.LANE_SDI_LOCK p) = 1 ∧ s.mod.onlyHalf t.mod h) ∧
  ((s.mod.half h).laneState p = lsSdiHunt → p < (s.mod.half h).port.lanes.length →
    ∃ t, exec (.sdiRateHuntTimeout h p) s = .next t ∧ t.now = max s.now (((s.mod.half h).lane p).since + 5000000) ∧
      ((t.mod.half h).lane p).rx.fill = nextRate ((s.mod.half h).portRec p).rate ((s.mod.half h).lane p).rx.fill ∧
      (t.mod.half h).regs = (s.mod.half h).regs ∧ s.mod.onlyHalf t.mod h) ∧
  ((s.mod.half h).laneState p ≠ lsSdiHunt → s.idles (.sdiRateHuntTimeout h p)) ∧
  ((s.mod.half h).laneState p = lsSdiLock →
    ∃ t, exec (.sdiLockLoss h p) s = .next t ∧ (t.mod.half h).laneState p = lsSdiHunt ∧
      (t.mod.half h).get (F.LANE_STATUS_RATE p) = 0 ∧ (t.mod.half h).get (F.LANE_SDI_LOCK p) = 0 ∧
      (t.mod.half h).get (F.LANE_SDI_LEVELB p) = 0 ∧ (t.mod.half h).get (F.LANE_SDI_PIDVALID p) = 0 ∧ s.mod.onlyHalf t.mod h) ∧
  ((s.mod.half h).laneState p ≠ lsSdiLock → exec (.sdiLockLoss h p) s = .next s)

/-! ## Pace and core supply -/

/-- Pace meters and VCORE steps (R123 to R129) at a half out of reset. PACE_GATE sets each PACE_NOW to the mean, rounded down, of the
meter's last 256 gates. A half that is not past step 6 of a start or RUNNING changes nothing but the clock at PACE_EVALUATION; one that is
shows the margin in MARGIN, 1 ms after the last evaluation. While REGFAIL is 0 a margin below 1,050 at a setting below 90, with no step in the last 1 ms, steps the setting up and starts a readback; after 1,000
evaluations at or above DOWNTH, with none of the setting's other bars, it steps down. A margin below 950 of a half not yet shedding for
its pace sheds, as an emergency.
The core supply regulator (R127, R389) at a half out of reset. REGULATOR_READBACK when none is awaited changes nothing; an awaited one, 500 µs
after the command, that acknowledges, shows no fault bit and lies within 2 % of the setting shows its voltage and changes no other
register; any other sets REGFAIL and, where that was 0, adds a ledger entry; without an acknowledgement the setting is again what it was
before the command. PMB_ALERT with a clean STATUS_WORD, or once REGFAIL is set, changes nothing; with
a fault bit or no acknowledgement it sets REGFAIL and adds an entry. -/
def Obligations.PaceAndRegulator : Prop :=
  (∀ (s : State) (h : HalfId), (s.mod.half h).inReset = false →
  (∀ counts : List Nat, ∃ t, exec (.paceGate h counts) s = .next t ∧ t.now = max s.now ((s.mod.half h).pace.gateAt + 1000) ∧ (∀ n < 4, (t.mod.half h).get (paceNow n) =
    meanOf ((counts.getD n 0 :: (s.mod.half h).pace.gates.getD n []).take 256) % 2 ^ 16) ∧ s.mod.onlyHalf t.mod h) ∧
  ((s.mod.half h).evaluates = false → s.idlesTo (.paceEvaluation h) ((s.mod.half h).pace.evalAt + 1000000)) ∧
  (∀ u, u = max s.now ((s.mod.half h).pace.evalAt + 1000000) → 6 ≤ (s.mod.half h).step →
    (s.mod.half h).mode = modeStart ∨ (s.mod.half h).mode = modeHalfStart ∨ (s.mod.half h).mode = modeRunning →
    (∃ t, exec (.paceEvaluation h) s = .next t ∧ t.now = u ∧ (t.mod.half h).pace.evalAt = u ∧ (t.mod.half h).get F.PACE_HALF_MARGIN = (s.mod.half h).margin ∧
      s.mod.onlyHalf t.mod h) ∧
    ((s.mod.half h).margin < 1050 → (s.mod.half h).get F.PACE_REG_SETTING < 90 → (s.mod.half h).pace.mayStep u = true →
      (s.mod.half h).get F.PACE_REG_REGFAIL = 0 →
      ∃ t, exec (.paceEvaluation h) s = .next t ∧
        (t.mod.half h).get F.PACE_REG_SETTING = (s.mod.half h).get F.PACE_REG_SETTING + 1 ∧
        (t.mod.half h).pace.reading = true ∧ (t.mod.half h).pace.stepAt = some u ∧
        (t.mod.half h).get F.PACE_TALLY_UP = satAdd 8 ((s.mod.half h).get F.PACE_TALLY_UP) 1) ∧
    (1050 ≤ (s.mod.half h).margin → (s.mod.half h).downTh ≤ (s.mod.half h).margin → 999 ≤ (s.mod.half h).pace.downRun →
      (s.mod.half h).floor < (s.mod.half h).get F.PACE_REG_SETTING → (s.mod.half h).flag F.PACE_SHED_OWNPACE = false →
      (s.mod.half h).pace.mayStep u = true → (s.mod.half h).get F.PACE_REG_REGFAIL = 0 →
      ∃ t, exec (.paceEvaluation h) s = .next t ∧
        (t.mod.half h).get F.PACE_REG_SETTING = (s.mod.half h).get F.PACE_REG_SETTING - 1 ∧
        (t.mod.half h).pace.reading = true ∧ (t.mod.half h).pace.downRun = 0) ∧
    ((s.mod.half h).margin < 950 → (s.mod.half h).flag F.PACE_SHED_OWNPACE = false →
      ∃ t, exec (.paceEvaluation h) s = .next t ∧ (t.mod.half h).flag F.PACE_SHED_OWNPACE = true ∧
        (t.mod.half h).flag F.PACE_SHED_EMERG = true))) ∧
  (∀ (s : State) (h : HalfId) (ack : Bool) (mv status : Nat), (s.mod.half h).inReset = false →
  ((s.mod.half h).pace.reading = false → exec (.regulatorReadback h ack mv status) s = .next s) ∧
  ((s.mod.half h).pace.reading = true → ack = true → statusFault status = false →
    voutOff ((s.mod.half h).get F.PACE_REG_SETTING) mv = false →
    ∃ t, exec (.regulatorReadback h ack mv status) s = .next t ∧ t.now = max s.now ((s.mod.half h).pace.askedAt + 500000) ∧ (t.mod.half h).get F.PACE_REG_VOUT = mv % 1024 ∧
      (t.mod.half h).get F.PACE_REG_REGFAIL = (s.mod.half h).get F.PACE_REG_REGFAIL ∧ (t.mod.half h).pace.reading = false ∧
      (∀ o, o ≠ F.PACE_REG_word.off → (t.mod.half h).reg o = (s.mod.half h).reg o) ∧ s.mod.onlyHalf t.mod h) ∧
  ((s.mod.half h).pace.reading = true → (s.mod.half h).get F.PACE_REG_REGFAIL = 0 →
    ack = false ∨ statusFault status = true ∨ voutOff ((s.mod.half h).get F.PACE_REG_SETTING) mv = true →
    ∃ t, exec (.regulatorReadback h ack mv status) s = .next t ∧ (t.mod.half h).get F.PACE_REG_REGFAIL = 1 ∧
      (t.mod.half h).get F.PACE_REG_SETTING = (if ack then (s.mod.half h).get F.PACE_REG_SETTING else (s.mod.half h).pace.before % 128) ∧
      (t.mod.half h).get F.FLT_HEAD_SEQ = ((s.mod.half h).get F.FLT_HEAD_SEQ + 1) % 2 ^ 32 ∧ s.mod.onlyHalf t.mod h) ∧
  (ack = true → statusFault status = false → exec (.pmbAlert h ack status) s = .next s) ∧
  ((s.mod.half h).get F.PACE_REG_REGFAIL = 1 → exec (.pmbAlert h ack status) s = .next s) ∧
  ((s.mod.half h).get F.PACE_REG_REGFAIL = 0 → ack = false ∨ statusFault status = true →
    ∃ t, exec (.pmbAlert h ack status) s = .next t ∧ (t.mod.half h).get F.PACE_REG_REGFAIL = 1 ∧
      (t.mod.half h).get F.FLT_HEAD_SEQ = ((s.mod.half h).get F.FLT_HEAD_SEQ + 1) % 2 ^ 32 ∧ s.mod.onlyHalf t.mod h))

/-! ## Intake and frame store -/

/-- SDI frames (R147 to R149, R154, R162) of a source window of a half out of reset, one of the 48. SDI_FRAME_START of a source that takes
SDI frames, whose identifier names the record's format, begins a frame at its stamp in a slot then WRITING, with the source's next
sequence number; so does the first frame without an identifier of a source seen in its format, and from the second on one whose lines,
samples and line rate are the record's, which sets NOPID; with an identifier of another format no frame begins; of a source that takes none it moves the clock alone but for the identifier that a locked port shows. SDI_FRAME_COMPLETE
of the frame being written, with a picture of the record's size and every tile's write granted, makes its slot COMPLETE and steps the
sequence number; a picture of another size discards the frame. -/
def Obligations.SdiFrames : Prop := ∀ (s : State) (h : HalfId) (i : Nat) (src : SourceSt), (s.mod.half h).inReset = false → i < 48 →
  (s.mod.half h).source i = some src →
  (∀ (stamp lines samples : Nat) (w : Word), (s.mod.half h).takesSdi i src = true → pidMatches src.rcd w.toNat = true →
    ∃ t src' fr, exec (.sdiFrameStart h i stamp (some w) lines samples) s = .next t ∧ t.now = max s.now (s.stampAt h stamp) ∧
      (t.mod.half h).source i = some src' ∧ src'.writing = some fr ∧ fr.fseq = src.nextSeq ∧ fr.arr = stamp ∧
      (t.mod.half h).slotState i fr.slot = slotWriting ∧ s.mod.onlyHalf t.mod h) ∧
  (∀ (stamp lines samples : Nat), (s.mod.half h).takesSdi i src = true →
    (src.noPid = 0 ∧ src.seen = true ∧ src.badFormat = false) ∨
      (0 < src.noPid ∧ lines = src.rcd.height ∧ samples = src.rcd.width ∧ (s.mod.half h).lineRateFits src.rcd = true) →
    ∃ t src' fr, exec (.sdiFrameStart h i stamp none lines samples) s = .next t ∧ t.now = max s.now (s.stampAt h stamp) ∧
      (t.mod.half h).source i = some src' ∧ src'.writing = some fr ∧ fr.fseq = src.nextSeq ∧ fr.arr = stamp ∧ src'.noPid = src.noPid + 1 ∧
      (t.mod.half h).get (F.INK_SSTAT_NOPID i) = (if src.noPid = 0 then 0 else 1) ∧
      (t.mod.half h).slotState i fr.slot = slotWriting ∧ s.mod.onlyHalf t.mod h) ∧
  (∀ (stamp lines samples : Nat) (w : Word), (s.mod.half h).takesSdi i src = true → pidMatches src.rcd w.toNat = false →
    ∃ t src', exec (.sdiFrameStart h i stamp (some w) lines samples) s = .next t ∧ t.now = max s.now (s.stampAt h stamp) ∧
      (t.mod.half h).source i = some src' ∧ src'.writing = none ∧ src'.badFormat = true ∧ src'.noPid = 0 ∧
      (t.mod.half h).get (F.INK_SSTAT_STATUS i) = 2 ∧ s.mod.onlyHalf t.mod h) ∧
  (∀ (stamp lines samples : Nat) (pid : Option Word), (s.mod.half h).takesSdi i src = false →
    let port := src.rcd.localPort
    (src.rcd.kind ≠ 1 ∨ (s.mod.half h).flag (F.LANE_SDI_LOCK port) = false →
      s.idlesTo (.sdiFrameStart h i stamp pid lines samples) (s.stampAt h stamp)) ∧
    (src.rcd.kind = 1 → (s.mod.half h).flag (F.LANE_SDI_LOCK port) = true →
      ∃ t, exec (.sdiFrameStart h i stamp pid lines samples) s = .next t ∧ t.now = max s.now (s.stampAt h stamp) ∧
        (t.mod.half h).get (F.LANE_SDI_PIDVALID port) = bit pid.isSome ∧
        (t.mod.half h).get (F.LANE_SDIPID_PID port) = ((pid.map fun w => w.toNat).getD ((s.mod.half h).get (F.LANE_SDIPID_PID port))) ∧
        (s.mod.half h).onlyRegs (t.mod.half h) (fun o => o = (F.LANE_SDI_word port).off ∨ o = (F.LANE_SDIPID_word port).off) ∧
        s.mod.onlyHalf t.mod h)) ∧
  (∀ (picture : SdiPicture) (fr : Writing), (s.mod.half h).takesSdi i src = true → src.writing = some fr → fr.slot < 3 →
    (picture.lines.length = src.rcd.height → (∀ l ∈ picture.lines, l.length = 2 * src.rcd.width) →
      (src.rcd.held = true → ∀ k < src.rcd.tiles,
        s.mod.checkAccess h (storeAddr h (src.rcd.granule fr.slot k)) .tile mIntake .write = none) →
      ∃ t src', exec (.sdiFrameComplete h i picture) s = .next t ∧ (t.mod.half h).source i = some src' ∧ src'.writing = none ∧
        src'.seen = true ∧ src'.nextSeq = (src.nextSeq + 1) % 65536 ∧ (t.mod.half h).slotState i fr.slot = slotComplete ∧
        s.mod.onlyHalf t.mod h) ∧
    (picture.lines.length ≠ src.rcd.height →
      ∃ t src', exec (.sdiFrameComplete h i picture) s = .next t ∧ (t.mod.half h).source i = some src' ∧ src'.writing = none ∧
        (t.mod.half h).slotState i fr.slot = slotEmpty ∧
        (t.mod.half h).get (F.INK_STALLY0_INCOMPLETE i) = satAdd 8 ((s.mod.half h).get (F.INK_STALLY0_INCOMPLETE i)) 1 ∧
        (s.mod.half h).fst = (t.mod.half h).fst ∧ s.mod.onlyHalf t.mod h))

/-- A source's signal, enable and publishing (R160, R164, R167), at a window of a half out of reset, one of the 48. NOSIG_TIMEOUT of an enabled
source, NOSIGN frame periods after its last frame, makes it NOSIG and, where it was not, adds a ledger entry; of a disabled one it moves
the clock alone. SOURCE_ENABLE, granted, makes the
source NOSIG: raised, until a frame completes; lowered, with reason 1 and no frame in progress. PUBLISH_ROW of row 0, or of the row that follows in the frame being sent, of an enabled published
source with a frame to send and no row waiting gives the ring the row's cells; with a row waiting it cuts the frame and counts; of a source
not published it changes nothing. -/
def Obligations.SourceState : Prop := ∀ (s : State) (h : HalfId) (i : Nat) (src : SourceSt), (s.mod.half h).inReset = false → i < 48 →
  (s.mod.half h).source i = some src →
  ((s.mod.half h).flag (F.INK_SCTRL_ENABLE i) = true →
    ∃ t, exec (.nosigTimeout h i) s = .next t ∧ t.now = max s.now ((s.mod.half h).nosigEnd i) ∧ (t.mod.half h).get (F.INK_SSTAT_STATUS i) = 2 ∧
      (t.mod.half h).get F.FLT_HEAD_SEQ = (if (s.mod.half h).get (F.INK_SSTAT_STATUS i) = 2 then (s.mod.half h).get F.FLT_HEAD_SEQ
        else ((s.mod.half h).get F.FLT_HEAD_SEQ + 1) % 2 ^ 32) ∧ (t.mod.half h).fst = (s.mod.half h).fst ∧ s.mod.onlyHalf t.mod h) ∧
  ((s.mod.half h).flag (F.INK_SCTRL_ENABLE i) = false → s.idlesTo (.nosigTimeout h i) ((s.mod.half h).nosigEnd i)) ∧
  (∀ master, s.mod.grants h master (F.INK_SCTRL_word i).off →
    ((s.mod.half h).get (F.INK_SCTRL_ENABLE i) = 0 →
      ∃ t, exec (.sourceEnable h i master true) s = .next t ∧ (t.mod.half h).get (F.INK_SCTRL_ENABLE i) = 1 ∧
        (t.mod.half h).get (F.INK_SSTAT_STATUS i) = 2 ∧ s.mod.onlyHalf t.mod h) ∧
    ((s.mod.half h).get (F.INK_SCTRL_ENABLE i) = 1 →
      ∃ t src', exec (.sourceEnable h i master false) s = .next t ∧ (t.mod.half h).get (F.INK_SCTRL_ENABLE i) = 0 ∧
        (t.mod.half h).get (F.INK_SSTAT_STATUS i) = 2 ∧ (t.mod.half h).get (F.INK_SSTAT_REASON i) = 1 ∧
        (t.mod.half h).source i = some src' ∧ src'.writing = none ∧ src'.pub = PubSt.reset ∧ s.mod.onlyHalf t.mod h)) ∧
  (∀ row slot fseq csec cfrac, src.rcd.publish = true → (s.mod.half h).flag (F.INK_SCTRL_ENABLE i) = true → row < src.rcd.rows →
    src.rcd.kind ≠ 4 →
    (s.mod.half h).pubFrame src i row (fun q => decide (row ≠ 0) && row == src.pub.row && q == src.pub.fseq) = some (slot, fseq, csec, cfrac) →
    (row = 0 ∨ (row = src.pub.row ∧ fseq = src.pub.fseq ∧ src.pub.cut = false)) →
    (src.pub.waiting = [] →
      ∃ t src', exec (.publishRow h i ⟨row, []⟩) s = .next t ∧ (t.mod.half h).source i = some src' ∧
        src'.pub.waiting = (s.mod.half h).rowCells src src slot fseq csec cfrac row ∧ src'.pub.row = row + 1 ∧ src'.pub.fseq = fseq ∧
        (t.mod.half h).regs = (s.mod.half h).regs ∧ s.mod.onlyHalf t.mod h) ∧
    (src.pub.waiting ≠ [] →
      ∃ t src', exec (.publishRow h i ⟨row, []⟩) s = .next t ∧ (t.mod.half h).source i = some src' ∧ src'.pub.cut = true ∧
        (t.mod.half h).get (F.INK_STALLY1_PUBOVR i) = satAdd 8 ((s.mod.half h).get (F.INK_STALLY1_PUBOVR i)) 1 ∧
        (∀ o, o ≠ (F.INK_STALLY1_word i).off → (t.mod.half h).reg o = (s.mod.half h).reg o) ∧ s.mod.onlyHalf t.mod h)) ∧
  (∀ row, src.rcd.publish = false → exec (.publishRow h i ⟨row, []⟩) s = .next s)

/-- Tile cells and the scrubber (R150 to R152, R169) at a half out of reset. A tile cell of no source counts as UNKNOWN on a native link
and changes nothing on a ring. A cell with no place in its source's frame counts as a bad cell, and one older than the frame being written
as a refused sequence; a good first cell of a tile of several, not the frame's last, begins a frame with its sequence, stamp and capture
fields. SCRUB_PASS with the scrubber enabled, 100 s after the last, counts the corrected granules outside frames being written and one
pass; an uncorrectable error that it meets is counted, shown in FST_ECCADDR and stays in its word; with the scrubber off only the clock
moves. -/
def Obligations.TileCellsAndScrub : Prop := ∀ (s : State) (h : HalfId), (s.mod.half h).inReset = false →
  (∀ (src : CellFrom) (c : TileCell) (stamp : Nat), (s.mod.half h).cellWindow src c.source = none →
    (∀ p, src = .native p → ∃ t, exec (.tileCellArrival h src c stamp) s = .next t ∧
      (t.mod.half h).get F.INK_GTALLY_UNKNOWN = satAdd 16 ((s.mod.half h).get F.INK_GTALLY_UNKNOWN) 1 ∧
      (s.mod.half h).onlyRegs (t.mod.half h) (fun o => o = F.INK_GTALLY_word.off) ∧ s.mod.onlyHalf t.mod h) ∧
    (∀ r, src = .ring r → exec (.tileCellArrival h src c stamp) s = .next { s with now := max s.now (s.stampAt h stamp) })) ∧
  (∀ (src : CellFrom) (c : TileCell) (stamp i : Nat) (x : SourceSt), (s.mod.half h).cellWindow src c.source = some i → i < 48 →
    (s.mod.half h).source i = some x → (s.mod.half h).flag (F.INK_SCTRL_ENABLE i) = true → (s.mod.half h).noMemory x.rcd = false →
    x.refused ≠ some c.fseq →
    (x.rcd.badCell c = true →
      ∃ t, exec (.tileCellArrival h src c stamp) s = .next t ∧
        (t.mod.half h).get (F.INK_STALLY1_BADCELL i) = satAdd 8 ((s.mod.half h).get (F.INK_STALLY1_BADCELL i)) 1 ∧
        (s.mod.half h).onlyRegs (t.mod.half h) (fun o => o = (F.INK_STALLY1_word i).off) ∧ s.mod.onlyHalf t.mod h) ∧
    (x.rcd.badCell c = false → x.fit c.fseq = .old →
      ∃ t, exec (.tileCellArrival h src c stamp) s = .next t ∧
        (t.mod.half h).get (F.INK_STALLY0_SEQREJ i) = satAdd 8 ((s.mod.half h).get (F.INK_STALLY0_SEQREJ i)) 1 ∧
        (s.mod.half h).onlyRegs (t.mod.half h) (fun o => o = (F.INK_STALLY0_word i).off) ∧ s.mod.onlyHalf t.mod h) ∧
    (x.rcd.badCell c = false → x.writing = none → c.cell + 1 ≠ x.rcd.tileCells →
      ∃ t x' fr, exec (.tileCellArrival h src c stamp) s = .next t ∧ (t.mod.half h).source i = some x' ∧ x'.writing = some fr ∧
        fr.fseq = c.fseq ∧ fr.arr = stamp ∧ fr.csec = c.csec ∧ fr.cfrac = c.cfrac ∧
        fr.parts = [⟨c.ty * x.rcd.cols + c.tx, [(c.cell, c.data)]⟩] ∧ (t.mod.half h).fst = (s.mod.half h).fst ∧
        s.mod.onlyHalf t.mod h)) ∧
  (∀ corrected : List Nat, (s.mod.half h).flag F.FST_SCRUB_ENABLE = true → (s.mod.half h).store.bad = [] →
    ∃ t, exec (.scrubPass h corrected []) s = .next t ∧ t.now = max s.now ((s.mod.half h).store.scrubAt + 100000000000) ∧
      (t.mod.half h).get F.FST_ECC_CORR = satAdd 16 ((s.mod.half h).get F.FST_ECC_CORR)
        (corrected.filter fun a => decide (a < 2 ^ 31) && !(s.mod.half h).inWriting a).length ∧
      (t.mod.half h).get F.FST_SCRUB_PASSES = ((s.mod.half h).get F.FST_SCRUB_PASSES + 1) % 65536 ∧
      (s.mod.half h).onlyRegs { (t.mod.half h) with store := (s.mod.half h).store }
        (fun o => o = F.FST_ECC_word.off ∨ o = F.FST_SCRUB_word.off) ∧ s.mod.onlyHalf t.mod h) ∧
  (∀ a < 2 ^ 31, (s.mod.half h).flag F.FST_SCRUB_ENABLE = true → (s.mod.half h).store.bad = [] → (s.mod.half h).inWriting a = false →
    ∃ t, exec (.scrubPass h [] [a]) s = .next t ∧ (t.mod.half h).store.bad = [a / 8 * 8] ∧
      (t.mod.half h).get F.FST_ECC_UNCORR = satAdd 16 ((s.mod.half h).get F.FST_ECC_UNCORR) 1 ∧
      (t.mod.half h).get F.FST_ECCADDR_VALID = 1 ∧ (t.mod.half h).get F.FST_ECCADDR_ADDR = a / 8 * 8 ∧
      (t.mod.half h).fst = (s.mod.half h).fst ∧ s.mod.onlyHalf t.mod h) ∧
  (∀ (corrected bad : List Nat), (s.mod.half h).flag F.FST_SCRUB_ENABLE = false →
    s.idlesTo (.scrubPass h corrected bad) ((s.mod.half h).store.scrubAt + 100000000000))

/-! ## Laps and composition -/

/-- LAP_BOUNDARY (R134, R135, R173, R253) at a half out of reset with at most 48 source windows. The boundary comes at the stamp `b` where
the time island places it, or where that is past at once, and keeps that stamp. One no sooner than the crossing's round trip after the
last steps the lap number; the first, in mode START with step 10 done, begins lap 0; one for which no lap can begin moves the clock alone. A
boundary that comes too soon begins no lap: it sets SYS_XOVR.TIME and adds a ledger entry. -/
def Obligations.LapBoundaries : Prop := ∀ (s : State) (h : HalfId) (stamp b u : Nat), (s.mod.half h).inReset = false →
  (s.mod.half h).sources.length ≤ 48 → b = s.mod.boundaryStamp (max s.now (s.stampAt h stamp)) h →
  u = max s.now (s.stampAt h (max stamp b)) →
  ((s.mod.half h).overruns b = false →
    ((s.mod.half h).lapBegun = true →
      ∃ t, exec (.lapBoundary h stamp) s = .next t ∧ t.now = u ∧ (t.mod.half h).lapBegun = true ∧
        (t.mod.half h).get F.RBK_LAP_LAP = ((s.mod.half h).get F.RBK_LAP_LAP + 1) % 2 ^ 32 ∧
        (t.mod.half h).lap.bounds.head? = some ((t.mod.half h).get F.RBK_LAP_LAP, b) ∧ t.mod.flash = s.mod.flash ∧
        t.mod.fuse = s.mod.fuse) ∧
    ((s.mod.half h).lapBegun = false → (s.mod.half h).mode = modeStart → 10 ≤ (s.mod.half h).step →
      ∃ t, exec (.lapBoundary h stamp) s = .next t ∧ t.now = u ∧ (t.mod.half h).lapBegun = true ∧ (t.mod.half h).get F.RBK_LAP_LAP = 0 ∧
        (t.mod.half h).lap.bounds.head? = some (0, b)) ∧
    ((s.mod.half h).lapNumber b = none → s.idlesTo (.lapBoundary h stamp) u)) ∧
  ((s.mod.half h).overruns b = true →
    ∃ t, exec (.lapBoundary h stamp) s = .next t ∧ t.now = u ∧ (t.mod.half h).get F.SYS_XOVR_TIME = 1 ∧
      (t.mod.half h).get F.RBK_LAP_LAP = (s.mod.half h).get F.RBK_LAP_LAP ∧
      (t.mod.half h).get F.FLT_HEAD_SEQ = ((s.mod.half h).get F.FLT_HEAD_SEQ + 1) % 2 ^ 32 ∧
      (t.mod.half h).lap = (s.mod.half h).lap ∧ s.mod.onlyHalf t.mod h)

/-- Latch records and the lap deadline (R142, R236). Over a working half link a record of a later lap is kept for it, and one of the present
lap decides a layer that waits for it; without a working half link nothing changes. LATCH_RECORD_TIMEOUT decides a layer that waits and
counts it, and moves the clock alone where the layer does not wait. LAP_DEADLINE of a lap drops its runs and what the pipes hold, returns
every tag and closes the lap to further pushing, PNL_CUT before the coming boundary; a second one, once its crossing is free, moves the
clock alone. -/
def Obligations.LatchAndDeadline : Prop := ∀ (s : State) (h : HalfId), (s.mod.half h).inReset = false →
  (∀ r : LatchRecord, linkOk (s.mod.half h) (s.mod.half h.peer) = true → (s.mod.half h).lapBegun = true →
    (newer 32 r.lap ((s.mod.half h).get F.RBK_LAP_LAP) = true →
      ∃ t, exec (.latchRecordReceive h r) s = .next t ∧ (t.mod.half h).lap.early =
          (s.mod.half h).lap.early.filter (fun y => !(y.lap == r.lap && y.layer == r.layer)) ++ [r] ∧
        (t.mod.half h).regs = (s.mod.half h).regs ∧ (t.mod.half h.peer).regs = (s.mod.half h.peer).regs ∧
        t.mod.lamp = s.mod.lamp) ∧
    (r.lap = (s.mod.half h).get F.RBK_LAP_LAP → (s.mod.half h).lap.awaiting.contains r.layer = true →
      ∃ t, exec (.latchRecordReceive h r) s = .next t ∧
        (t.mod.half h).lap.awaiting = (s.mod.half h).lap.awaiting.filter (fun n => n != r.layer) ∧
        t.mod.flash = s.mod.flash ∧ t.mod.fuse = s.mod.fuse)) ∧
  (∀ r : LatchRecord, linkOk (s.mod.half h) (s.mod.half h.peer) = false → exec (.latchRecordReceive h r) s = .next s) ∧
  (∀ layer : Nat, (s.mod.half h).lap.awaiting.contains layer = true →
    ∃ t, exec (.latchRecordTimeout h layer) s = .next t ∧
      (t.mod.half h).lap.awaiting = (s.mod.half h).lap.awaiting.filter (fun n => n != layer) ∧
      (t.mod.half h).get F.AGE_TALLY_NOLATCH = satAdd F.AGE_TALLY_NOLATCH.width ((s.mod.half h).get F.AGE_TALLY_NOLATCH) 1) ∧
  (∀ layer : Nat, (s.mod.half h).lap.awaiting.contains layer = false → s.idles (.latchRecordTimeout h layer)) ∧
  ((s.mod.half h).lapBegun = true → (s.mod.half h).lap.late = false →
    ∃ t, exec (.lapDeadline h) s = .next t ∧ t.now = max s.now (s.stampAt h (s.mod.half h).deadlineAt.toNat) ∧
      (t.mod.half h).lap.late = true ∧ (t.mod.half h).lap.runs = [] ∧
      (t.mod.half h).lap.pipes = List.replicate 4 PipeSt.reset ∧ (t.mod.half h).lap.push.cur = none ∧
      (t.mod.half h).get F.RBK_TAGS_INUSE = 0 ∧ s.mod.onlyHalf t.mod h) ∧
  (∀ u, (s.mod.half h).lapBegun = true → (s.mod.half h).lap.late = true → u = max s.now (s.stampAt h (s.mod.half h).deadlineAt.toNat) →
    busyCrossing (s.mod.half h).lap.cutAt u = false → s.idlesTo (.lapDeadline h) u)

/-- Pipes (R140, R141, R169, R187, R222) of a half out of reset. PIPE_FREE of an idle pipe takes the next run; after the lap deadline it changes
nothing. FETCH_COMPLETE of a tag in flight counts one tile, and one not ready where its place cannot be reached or it meets an uncorrectable
error; of a tag not in flight it changes nothing. TILE_READY of an output tile of a run, unless the tile is still being composed, composes
it once for the push stream, which goes on with it where the half may push; of a tile that no run covers, or that is still being composed,
it changes nothing. -/
def Obligations.Pipes : Prop := ∀ (s : State) (h : HalfId), (s.mod.half h).inReset = false →
  let x := s.mod.half h
  (∀ (pipe : Nat) (r : RunWork) (rest : List RunWork), pipe < 4 → pipe < x.lap.pipes.length →
    (x.pipe pipe).run = none → x.lap.late = false → x.lap.runs = r :: rest →
    ∃ t, exec (.pipeFree h pipe) s = .next t ∧ ((t.mod.half h).pipe pipe).run = some r ∧ (t.mod.half h).lap.runs = rest ∧
      x.onlyRegs { (t.mod.half h) with lap := x.lap } (fun o => o = F.RBK_TAGS_word.off) ∧ s.mod.onlyHalf t.mod h) ∧
  (∀ pipe : Nat, x.lap.late = true → exec (.pipeFree h pipe) s = .next s) ∧
  (∀ (tag k corr : Nat) (bad : Option Nat) (f : FetchSt),
    ((List.range 4).find? fun k => (x.pipe k).issued.any fun f => f.tag == tag && f.got.isNone) = some k →
    ((x.pipe k).issued.find? fun f => f.tag == tag) = some f → f.plan.src.owner h = h →
    (s.mod.fetchPlace h f = none →
      ∃ t, exec (.fetchComplete h tag ⟨corr, bad⟩) s = .next t ∧ (t.mod.half h).lap.fetchLoc = x.lap.fetchLoc + 1 ∧
        (t.mod.half h).get F.RBK_NOTREADY_COUNT = satAdd F.RBK_NOTREADY_COUNT.width (x.get F.RBK_NOTREADY_COUNT) 1 ∧
        s.mod.onlyHalf t.mod h) ∧
    (∀ a z, s.mod.fetchPlace h f = some (a, z) → s.mod.checkAccess h a z mFetch .read = none → (∀ g, f.plan.src ≠ .pattern g) →
      (s.mod.memError a f.plan.len false = none →
        ∃ t, exec (.fetchComplete h tag ⟨corr, none⟩) s = .next t ∧ (t.mod.half h).lap.fetchLoc = x.lap.fetchLoc + 1 ∧
          (t.mod.half h).get F.RBK_NOTREADY_COUNT = x.get F.RBK_NOTREADY_COUNT ∧
          (t.mod.half h).get F.FST_ECC_CORR = satAdd 16 (x.get F.FST_ECC_CORR) corr ∧ s.mod.onlyHalf t.mod h) ∧
      (∀ b, bad = some b →
        ∃ t, exec (.fetchComplete h tag ⟨corr, bad⟩) s = .next t ∧ (t.mod.half h).lap.fetchLoc = x.lap.fetchLoc + 1 ∧
          (t.mod.half h).get F.RBK_NOTREADY_COUNT = satAdd F.RBK_NOTREADY_COUNT.width (x.get F.RBK_NOTREADY_COUNT) 1 ∧
          (t.mod.half h).get F.FST_ECC_UNCORR = satAdd 16 (x.get F.FST_ECC_UNCORR) 1 ∧ s.mod.onlyHalf t.mod h))) ∧
  (∀ (tag : Nat) (e : AccessErrors),
    ((List.range 4).find? fun k => (x.pipe k).issued.any fun f => f.tag == tag && f.got.isNone) = none →
    exec (.fetchComplete h tag e) s = .next s) ∧
  (∀ (tx ty k : Nat) (r : RunWork) (sc : Scene),
    ((List.range 4).find? fun k => ((x.pipe k).run.map fun r => r.covers tx ty).getD false) = some k → (x.pipe k).run = some r →
    x.scene = some sc → (x.lap.push.tiles.any fun o => o.tx == tx && o.ty == ty) = false →
    (x.composing sc (x.pipe k) r tx ty = false →
      let tiles := x.lap.push.tiles ++ [⟨tx, ty, x.composeTile sc (x.pipe k).got r tx ty⟩]
      let y := (x.onPush fun (p : PushSt) => { p with tiles := tiles }).pipeLeaves k
      exec (.tileReady h tx ty) s = .next { s with mod := s.mod.setHalf h (y.pushAdvance s.now) } ∧ y.lap.push.tiles = tiles ∧
      y.regs = x.regs ∧ (x.mayPush = false → y.pushAdvance s.now = y)) ∧
    (x.composing sc (x.pipe k) r tx ty = true → exec (.tileReady h tx ty) s = .next s)) ∧
  (∀ tx ty : Nat, ((List.range 4).find? fun k => ((x.pipe k).run.map fun r => r.covers tx ty).getD false) = none →
    exec (.tileReady h tx ty) s = .next s)

/-- Select registers (R188, R213, R235), by a master whose write is granted. At the commit owner, where no other change is named for the
switch lap, SCENESEL of a valid scene names the scene for that lap and shows it pending, and GSEL of a graphic change that fits the scene
of that lap names the change; SCENESEL of a scene that is not valid names nothing and shows result 4, and so does GSEL of a change that does
not fit. FORCE sets AGE_CTRL.FORCE and changes no other register but SYS_SEALTALLY. -/
def Obligations.Selections : Prop := ∀ (s : State) (h : HalfId) (master : Nat), (s.mod.half h).inReset = false →
  (s.mod.grants h master F.RBK_SCENESEL_word.off → (s.mod.half h).owner = true → ∀ scene < 256,
    ((s.mod.half h).validScene scene = true → (∀ a ∈ (s.mod.half h).acts.acts, a.lap ≠ some (s.mod.half h).switchLap) →
      ∃ t, exec (.scenesel h master scene) s = .next t ∧ ((s.mod.half h).switchLap, scene) ∈ (t.mod.half h).acts.scenes ∧
        (t.mod.half h).get F.RBK_SELSTAT_SCENE = scene ∧ (t.mod.half h).get F.RBK_SELSTAT_RESULT = 1 ∧
        (t.mod.half h).get F.RBK_SCENE_PENDING = 1 ∧ (t.mod.half h).get F.RBK_SCENE_CURRENT = (s.mod.half h).get F.RBK_SCENE_CURRENT ∧
        s.mod.onlyHalf t.mod h) ∧
    ((s.mod.half h).validScene scene = false →
      ∃ t, exec (.scenesel h master scene) s = .next t ∧ (t.mod.half h).acts.scenes = (s.mod.half h).acts.scenes ∧
        (t.mod.half h).get F.RBK_SELSTAT_SCENE = scene ∧ (t.mod.half h).get F.RBK_SELSTAT_RESULT = 4 ∧ s.mod.onlyHalf t.mod h)) ∧
  (s.mod.grants h master F.CMP_GSEL_word.off → (s.mod.half h).owner = true → ∀ (layer state alpha : Nat) (setState setAlpha : Bool),
    layer < 8 → state < 64 → alpha < 256 →
    ((s.mod.half h).graphicFits ((s.mod.half h).sceneAtLap (s.mod.half h).switchLap) layer setState state = true →
      (∀ a ∈ (s.mod.half h).acts.acts, a.lap ≠ some (s.mod.half h).switchLap) →
      ∃ t, exec (.gsel h master layer setState setAlpha state alpha) s = .next t ∧
        ⟨(s.mod.half h).switchLap, ⟨layer, state, alpha, true, setState, setAlpha, false⟩⟩ ∈ (t.mod.half h).acts.named ∧
        (t.mod.half h).get F.CMP_GSELSTAT_LAYER = layer ∧ (t.mod.half h).get F.CMP_GSELSTAT_RESULT = 1 ∧ s.mod.onlyHalf t.mod h) ∧
    ((s.mod.half h).graphicFits ((s.mod.half h).sceneAtLap (s.mod.half h).switchLap) layer setState state = false →
      ∃ t, exec (.gsel h master layer setState setAlpha state alpha) s = .next t ∧
        (t.mod.half h).acts.named = (s.mod.half h).acts.named ∧ (t.mod.half h).get F.CMP_GSELSTAT_RESULT = 4 ∧
        s.mod.onlyHalf t.mod h)) ∧
  (∀ on : Bool, s.mod.grants h master F.AGE_CTRL_word.off →
    ∃ t, exec (.force h master on) s = .next t ∧ (t.mod.half h).get F.AGE_CTRL_FORCE = bit on ∧
      (t.mod.half h).get F.AGE_CTRL_MAXERR = (s.mod.half h).get F.AGE_CTRL_MAXERR ∧
      (s.mod.half h).onlyRegs (t.mod.half h) (fun o => o = F.AGE_CTRL_word.off ∨ o = F.SYS_SEALTALLY_word.off) ∧
      s.mod.onlyHalf t.mod h)

/-! ## The panel port -/

/-- Status cells that describe the panel (R249, R250, R258, R252) at a half out of reset, in a running module. IDENT is held, shows its size
and state IDENT, ends a SETUP, and one that ends it without KEPT adds a ledger entry. MODEDECL counts as declared; a valid record of a
number not yet declared is held as the mode of that number, and any other is counted and not held. READY after SETUP and a KAECHO makes the sub-link ready, in state READY or RUNNING; before
a KAECHO it is kept until one comes. FAULT is counted and adds a ledger entry. -/
def Obligations.PanelDescribes : Prop := ∀ (s : State) (h : HalfId) (f : PanelFlags), s.mod.settled → (s.mod.half h).inReset = false →
  (∀ i : PanelIdent, ∃ t, exec (.ident h f i) s = .next t ∧ (t.mod.half h).panel.ident = some i ∧
    (t.mod.half h).panel.setup = false ∧ (t.mod.half h).panel.ready = false ∧ (t.mod.half h).panel.declared = [] ∧
    (t.mod.half h).get F.PNL_IDENT_WIDTH = i.width % 512 ∧ (t.mod.half h).get F.PNL_IDENT_HEIGHT = i.height % 512 ∧
    (t.mod.half h).get F.PNL_STATUS_STATE = 1 ∧ (t.mod.half h).get F.FLT_HEAD_SEQ =
      (if (s.mod.half h).panel.setup = true ∧ i.kept = false then ((s.mod.half h).get F.FLT_HEAD_SEQ + 1) % 2 ^ 32
        else (s.mod.half h).get F.FLT_HEAD_SEQ) ∧ s.mod.onlyHalf t.mod h) ∧
  (∀ r : ModeRecord, ∃ t, exec (.modedecl h f r) s = .next t ∧
    (t.mod.half h).panel.declared = (s.mod.half h).panel.declared ++ [r.mode] ∧ s.mod.onlyHalf t.mod h ∧
    (if modeValid r (((s.mod.half h).panel.ident.map fun i => i.height).getD 0) = true ∧ r.mode ∉ (s.mod.half h).panel.declared then
        r ∈ (t.mod.half h).panel.modes ∧ (∀ m ∈ (t.mod.half h).panel.modes, m = r ∨ (m.mode ≠ r.mode ∧ m ∈ (s.mod.half h).panel.modes)) ∧
        (t.mod.half h).get F.PNL_TALLY1_BADMODE = (s.mod.half h).get F.PNL_TALLY1_BADMODE
      else (∀ m ∈ (t.mod.half h).panel.modes, m ∈ (s.mod.half h).panel.modes) ∧
        (t.mod.half h).get F.PNL_TALLY1_BADMODE = satAdd 8 ((s.mod.half h).get F.PNL_TALLY1_BADMODE) 1)) ∧
  (∀ (c : BlankingCell) (stamp : Nat), (s.mod.half h).panel.setup = true →
    ((s.mod.half h).panel.echoed = true →
      ∃ t, exec (.ready h f c stamp) s = .next t ∧ t.now = max s.now (s.stampAt h stamp) ∧ (t.mod.half h).panel.ready = true ∧
        (t.mod.half h).panel.waiting = false ∧ (t.mod.half h).panel.reportAt = some ((s.mod.half h).lb t.now) ∧
        (t.mod.half h).get F.PNL_STATUS_STATE = (if (s.mod.half h).lapBegun = true then 5 else 4) ∧ s.mod.onlyHalf t.mod h) ∧
    ((s.mod.half h).panel.echoed = false →
      ∃ t, exec (.ready h f c stamp) s = .next t ∧
        (t.mod.half h).panel.held = (s.mod.half h).panel.held ++ [(true, c, f, stamp)] ∧
        (t.mod.half h).panel.ready = (s.mod.half h).panel.ready ∧ s.mod.onlyHalf t.mod h)) ∧
  (∀ code : Nat, ∃ t, exec (.panelFault h f code) s = .next t ∧
    (t.mod.half h).get F.PNL_TALLY1_PANELFAULTS = satAdd 8 ((s.mod.half h).get F.PNL_TALLY1_PANELFAULTS) 1 ∧
    (t.mod.half h).get F.FLT_HEAD_SEQ = ((s.mod.half h).get F.FLT_HEAD_SEQ + 1) % 2 ^ 32 ∧ s.mod.onlyHalf t.mod h)

/-- Reports and echoes of the panel (R252, R256, R268), at a half out of reset with at most 1,024 regions, in a running module. BLANKING before any
KAECHO is kept; after one it is taken: PNL_LASTLAP shows LAPCOMMIT and, when FLIPPED, PNL_LAPCOUNT shows FLIPCOUNT. ECHO shows its
hallmark; a MATCH ends the shutter push that it echoes, or the failures of the region whose push it echoes. KAECHO of a token sent, with no
cell kept, sets RTT and LINKDLY from its stamp. -/
def Obligations.PanelReports : Prop := ∀ (s : State) (h : HalfId) (f : PanelFlags), s.mod.settled → (s.mod.half h).inReset = false →
  (s.mod.half h).lap.regions.length ≤ 1024 →
  (∀ (c : BlankingCell) (stamp : Nat),
    ((s.mod.half h).panel.echoed = false →
      ∃ t, exec (.blankingReport h f c stamp) s = .next t ∧ t.now = max s.now (s.stampAt h stamp) ∧
        (t.mod.half h).panel.held = (s.mod.half h).panel.held ++ [(false, c, f, stamp)] ∧ s.mod.onlyHalf t.mod h) ∧
    ((s.mod.half h).panel.echoed = true →
      ∃ t, exec (.blankingReport h f c stamp) s = .next t ∧ t.now = max s.now (s.stampAt h stamp) ∧
        (t.mod.half h).get F.PNL_LASTLAP_LAP = c.lapCommit % 2 ^ 32 ∧
        (c.flipped = true → (t.mod.half h).get F.PNL_LAPCOUNT_FLIPS = c.flipCount % 2 ^ 32) ∧
        (t.mod.half h).panel.reportAt = some ((s.mod.half h).lb t.now) ∧ t.mod.flash = s.mod.flash ∧ t.mod.fuse = s.mod.fuse)) ∧
  (∀ pseq hallmark result : Nat,
    (∃ t, exec (.echo h f pseq hallmark result) s = .next t ∧ s.mod.onlyHalf t.mod h) ∧
    ((s.mod.half h).panel.shutter = some pseq →
      ∃ t, exec (.echo h f pseq hallmark 0) s = .next t ∧ (t.mod.half h).get F.PNL_HMECHO_HALLMARK = hallmark % 2 ^ 32 ∧
        (t.mod.half h).panel.shutter = none ∧ (t.mod.half h).panel.shutterFails = 0 ∧ s.mod.onlyHalf t.mod h) ∧
    (∀ (r : RegionSt) (p : Pushed), (s.mod.half h).panel.shutter ≠ some pseq → (s.mod.half h).lap.regions = [r] →
      r.pushed = some p → p.pseq = pseq → p.echo = none →
      ∃ t, exec (.echo h f pseq hallmark 0) s = .next t ∧ (t.mod.half h).get F.PNL_HMECHO_HALLMARK = hallmark % 2 ^ 32 ∧
        (t.mod.half h).lap.regions = [{ r with pushed := (some { p with echo := some 0 }), fails := 0 }] ∧ s.mod.onlyHalf t.mod h)) ∧
  (∀ (token stamp sent : Nat), (s.mod.half h).panel.tokens.find? (fun x => x.1 == token) = some (token, some sent) →
    (s.mod.half h).panel.held = [] →
    ∃ t, exec (.kaecho h f token stamp) s = .next t ∧ t.now = max s.now (s.stampAt h stamp) ∧ (t.mod.half h).panel.echoed = true ∧
      (t.mod.half h).get F.PNL_LINK_RTT = min 65535 (stamp - sent) ∧
      (t.mod.half h).get F.PNL_LINK_LINKDLY = min 65535 (ceilDiv (stamp - sent - (s.mod.half h).turn) 2) ∧ s.mod.onlyHalf t.mod h)

/-- Intervals of the panel port (R259, R261, R269, R274, R276) at a half out of reset. KEEPALIVE_SEND, KAPERIOD after the last KEEPALIVE,
of a set-up sub-link that may talk sends one with a token that is not in use and keeps the token; before SETUP nothing is sent.
BLANKING_REPORT_WAIT_EXPIRE bars and counts a lap of a composing half that may neither push nor is barred. PANEL_INIT_RETRY 1 s after a
failure with JOIN clear sends SETUP for the preferred mode and pushes the shutter; with no failure it changes nothing. MODE_CHANGE_TIMEOUT,
500 ms after MODE was sent, or after the switch lap's boundary where it was not, turns from the new mode to the former one and adds a
ledger entry, and with the former one makes both halves silent. SUBLINK_DOWN_EXPIRE with the sub-link down and the peer's up stops the batons and adds an entry. -/
def Obligations.PanelIntervals : Prop := ∀ (s : State) (h : HalfId), (s.mod.half h).inReset = false →
  (∀ u, u = max s.now ((s.mod.half h).panel.keepAt + (((s.mod.half h).image.map fun i => i.panel.kaperiod).getD 5) * 1000000) →
    ((s.mod.half h).panel.setup = true → (s.mod.half h).panelUp = true → (s.mod.half h).mayTalk u = true →
      (s.mod.half h).panel.tokens.length ≤ 64 →
      ∃ t token, exec (.keepaliveSend h) s = .next t ∧ t.now = u ∧ (t.mod.half h).panel.keepAt = u ∧
        token < 65536 ∧ (s.mod.half h).panel.lastTok ≠ some token ∧ (∀ x ∈ (s.mod.half h).panel.tokens, x.1 ≠ token) ∧
        (t.mod.half h).panel.lastTok = some token ∧
        (t.mod.half h).panel.tokens = (token, none) :: (s.mod.half h).panel.tokens.take 63 ∧
        (t.mod.half h).regs = (s.mod.half h).regs ∧ s.mod.onlyHalf t.mod h) ∧
    ((s.mod.half h).panel.setup = false → s.idlesTo (.keepaliveSend h) u)) ∧
  ((s.mod.half h).lapBegun = true → (s.mod.half h).mode ≠ modeHalfStart → (s.mod.half h).lap.push.allowed = false → (s.mod.half h).lap.push.barred = false →
    ∃ t, exec (.blankingReportWaitExpire h) s = .next t ∧ (t.mod.half h).lap.push.barred = true ∧
      (t.mod.half h).get F.PNL_TALLY0_NOREPORT = satAdd 8 ((s.mod.half h).get F.PNL_TALLY0_NOREPORT) 1 ∧
      (∀ o, o ≠ F.PNL_TALLY0_word.off → (t.mod.half h).reg o = (s.mod.half h).reg o) ∧ s.mod.onlyHalf t.mod h) ∧
  ((s.mod.half h).lap.push.allowed = true → s.idles (.blankingReportWaitExpire h)) ∧
  (∀ (m : ModeRecord) (a : Nat), (s.mod.half h).panel.failedAt = some a → (s.mod.half h).panelActive = true →
    (s.mod.half h).panel.ident.isSome = true → (s.mod.half h).panel.ready = false → (s.mod.half h).joins = false →
    (s.mod.half h).chosenMode false = some m → (s.mod.half h).identFits = true → m.mode < 256 →
    ∃ t, exec (.panelInitRetry h) s = .next t ∧ t.now = max s.now (a + 1000000000) ∧ (t.mod.half h).panel.setup = true ∧
      (t.mod.half h).panel.failedAt = none ∧
      (t.mod.half h).panel.shutter = some 0 ∧ (t.mod.half h).get F.PNL_PSEQ_NEXT = 1 ∧
      (t.mod.half h).get F.PNL_MODE_MODE = m.mode ∧ (t.mod.half h).get F.PNL_STATUS_STATE = 3 ∧ s.mod.onlyHalf t.mod h) ∧
  ((s.mod.half h).panel.failedAt = none → exec (.panelInitRetry h) s = .next s) ∧
  (∀ (x : ModeChange) (a : Nat), (s.mod.half h).panel.change = some x →
    a = x.sentAt.getD ((s.mod.half h).epoch.getD 0 + x.began) →
    (x.back = false →
      ∃ t, exec (.modeChangeTimeout h) s = .next t ∧ t.now = max s.now (a + 500000000) ∧
        (t.mod.half h).panel.change = some { x with back := true, sentAt := some t.now } ∧
        (t.mod.half h).get F.FLT_HEAD_SEQ = ((s.mod.half h).get F.FLT_HEAD_SEQ + 1) % 2 ^ 32) ∧
    (x.back = true →
      ∃ t, exec (.modeChangeTimeout h) s = .next t ∧ t.now = max s.now (a + 500000000) ∧ (t.mod.half h).panel.silent = true ∧
        ((s.mod.half h.peer).inReset = false → (t.mod.half h.peer).panel.silent = true) ∧
        (∀ k, (t.mod.half k).regs = (s.mod.half k).regs) ∧ t.mod.lamp = s.mod.lamp ∧ t.mod.flash = s.mod.flash ∧
        t.mod.fuse = s.mod.fuse)) ∧
  ((s.mod.half h).panel.change = none → exec (.modeChangeTimeout h) s = .next s) ∧
  (∀ a b, (s.mod.half h).panel.downFrom = some a → (s.mod.half h).panelUp = false → (s.mod.half h).link.peer = some b →
    b.linkUp = true → (s.mod.half h).link.stopped = false →
    ∃ t, exec (.sublinkDownExpire h) s = .next t ∧ t.now = max s.now (a + 100000000) ∧ (t.mod.half h).link.stopped = true ∧
      (t.mod.half h).get F.FLT_HEAD_SEQ = ((s.mod.half h).get F.FLT_HEAD_SEQ + 1) % 2 ^ 32 ∧ s.mod.onlyHalf t.mod h)

/-- Writes of the panel port (R258, R269, R273, R274) by a master whose write is granted. REINIT with no IDENT held ends every change of mode and
leaves the sub-link not ready, in state IDENT; with one that fits it sends SETUP for the preferred mode and pushes the shutter. PNL_RUN
sets RUN, and cleared it changes no other register. MODESEL at the commit owner of an allowed mode, with nothing else named for the
switch lap, names the mode for that lap and shows it pending; of any other mode it shows REFUSED. -/
def Obligations.PanelControl : Prop := ∀ (s : State) (h : HalfId) (master : Nat), (s.mod.half h).inReset = false →
  (s.mod.grants h master F.PNL_CTRL_word.off →
    ((s.mod.half h).panel.ident = none →
      ∃ t, exec (.reinit h master) s = .next t ∧ (t.mod.half h).panel.change = none ∧ (t.mod.half h).panel.ready = false ∧
        (t.mod.half h).panel.setup = false ∧ (t.mod.half h).get F.PNL_STATUS_STATE = 1 ∧ s.mod.onlyHalf t.mod h) ∧
    (∀ (i : PanelIdent) (m : ModeRecord), (s.mod.half h).panel.ident = some i → (s.mod.half h).panelActive = true →
      (s.mod.half h).chosenMode false = some m → (s.mod.half h).identFits = true → m.mode < 256 →
      ∃ t, exec (.reinit h master) s = .next t ∧ (t.mod.half h).panel.change = none ∧ (t.mod.half h).panel.setup = true ∧
        (t.mod.half h).panel.shutter = some 0 ∧ (t.mod.half h).get F.PNL_MODE_MODE = m.mode ∧
        (t.mod.half h).get F.PNL_STATUS_STATE = 3 ∧ s.mod.onlyHalf t.mod h) ∧
    (∃ t, exec (.pnlRun h master true) s = .next t ∧ (t.mod.half h).get F.PNL_CTRL_RUN = 1 ∧ s.mod.onlyHalf t.mod h) ∧
    (∃ t, exec (.pnlRun h master false) s = .next t ∧ (t.mod.half h).get F.PNL_CTRL_RUN = 0 ∧
      (∀ o, o ≠ F.PNL_CTRL_word.off → o ≠ F.SYS_SEALTALLY_word.off → (t.mod.half h).reg o = (s.mod.half h).reg o) ∧
      s.mod.onlyHalf t.mod h)) ∧
  (s.mod.grants h master F.PNL_MODESEL_word.off → (s.mod.half h).owner = true → ∀ mode < 256,
    ((s.mod.half h).modeAllowed mode = true → (∀ a ∈ (s.mod.half h).acts.acts, a.lap ≠ some (s.mod.half h).switchLap) →
      ∃ t, exec (.modesel h master mode) s = .next t ∧ ((s.mod.half h).switchLap, mode) ∈ (t.mod.half h).panel.dueModes ∧
        (t.mod.half h).get F.PNL_MODESTAT_MODE = mode ∧ (t.mod.half h).get F.PNL_MODESTAT_RESULT = 1 ∧
        (t.mod.half h.peer).regs = (s.mod.half h.peer).regs ∧ t.mod.lamp = s.mod.lamp) ∧
    ((s.mod.half h).modeAllowed mode = false →
      ∃ t, exec (.modesel h master mode) s = .next t ∧ (t.mod.half h).panel.dueModes = (s.mod.half h).panel.dueModes ∧
        (t.mod.half h).get F.PNL_MODESTAT_MODE = mode ∧ (t.mod.half h).get F.PNL_MODESTAT_RESULT = 3 ∧
        (t.mod.half h.peer).regs = (s.mod.half h.peer).regs ∧ t.mod.lamp = s.mod.lamp))

/-! ## Rings -/

/-- Laps of a ring (R279, R281, R283, R294, R297, R298) at a half out of reset with at most 48 source windows, in a running module.
RING_LAP_START, one lap period after the previous one, of a station that then heads a rotation begins a lap of it and steps the rotation's lap
number, or, while firm rows of the lap before are still to go, notes that row 0 is due; a station that has not joined starts no lap. LAPSTART of another ring, at a
station that is OFF or across a broken segment changes nothing; a joined station takes its MASTER; a listening one whose plan differs from
MPLAN is REFUSED with result 1. LAPSTART_TIMEOUT, 4 lap periods after the last LAPSTART of the rotation, breaks the segment of a joined
station and counts 4 laps. SEGMENT_HEALED, 16 lap periods after the segment became fit, mends a broken segment whose link is up and whose own
run of bypassed stations is within the limit, and changes no register. -/
def Obligations.RingLaps : Prop := ∀ (s : State) (h : HalfId) (r : Nat), s.mod.settled → (s.mod.half h).inReset = false → r < 2 →
  r < (s.mod.half h).rings.length → (s.mod.half h).sources.length ≤ 48 →
  (∀ (a u : Nat) (side : Side), ((s.mod.half h).ring r).lapAt = some a → u = max s.now (a + (s.mod.half h).lapNs r) →
    (s.mod.half h).ringState r = rsJoined → ((s.mod.half h).applyTopo u r).headsTo r side = true →
    let x := ((s.mod.half h).ring r).rot side
    (x.next = none →
      ∃ t, exec (.ringLapStart h r) s = .next t ∧ t.now = u ∧ ((t.mod.half h).ring r).lapAt = some u ∧
        (((t.mod.half h).ring r).rot side).num = (x.num + 1) % 2 ^ 16 ∧ (((t.mod.half h).ring r).rot side).next = some 0 ∧
        s.mod.onlyHalf t.mod h) ∧
    (∀ n, x.next = some n → 0 < n → n < 3932 → ((s.mod.half h).applyTopo u r).sendsRows r side = true →
      ∃ t, exec (.ringLapStart h r) s = .next t ∧ t.now = u ∧ (((t.mod.half h).ring r).rot side).num = x.num ∧
        (((t.mod.half h).ring r).rot side).due = true ∧ s.mod.onlyHalf t.mod h)) ∧
  ((s.mod.half h).ringState r ≠ rsJoined → (s.mod.half h).ringState r ≠ rsLeaving → s.idles (.ringLapStart h r)) ∧
  (∀ (side : Side) (c : LapStart) (p : RingPlan), ((s.mod.half h).ring r).plan = some p →
    (c.ring ≠ p.ring ∨ (s.mod.half h).ringState r = rsOff ∨ ((s.mod.half h).ring r).broken side = true →
      exec (.lapstart h r side c) s = .next s) ∧
    (c.ring = p.ring → ((s.mod.half h).ring r).broken side = false → (s.mod.half h).ringState r = rsJoined →
      ∃ t, exec (.lapstart h r side c) s = .next t ∧ ((t.mod.half h).ring r).heard = some c.master ∧
        (((t.mod.half h).ring r).rot side.other).heardAt = s.now ∧
        (t.mod.half h).ringState r = rsJoined ∧ s.mod.onlyHalf t.mod h) ∧
    (c.ring = p.ring → ((s.mod.half h).ring r).broken side = false → (s.mod.half h).ringState r = rsListen → c.master ≠ 0x3FFF →
      c.mplan ≠ (s.mod.half h).get (F.RNG_PLANCRC_CRC r) →
      ∃ t, exec (.lapstart h r side c) s = .next t ∧ (t.mod.half h).ringState r = rsRefused ∧
        (t.mod.half h).get (F.RNG_STATE_JOINRES r) = 1 ∧
        (t.mod.half h).get (F.RNG_TALLY1_REFUSED r) = satAdd 8 ((s.mod.half h).get (F.RNG_TALLY1_REFUSED r)) 1 ∧
        s.mod.onlyHalf t.mod h)) ∧
  (∀ side : Side, (s.mod.half h).ringState r = rsJoined → ((s.mod.half h).ring r).broken side = false →
    ∃ t, exec (.lapstartTimeout h r side) s = .next t ∧ t.now = max s.now ((s.mod.half h).lapstartDue r side) ∧ ((t.mod.half h).ring r).broken side = true ∧
      (t.mod.half h).get (F.RNG_TALLY1_NOLAP r) = satAdd 8 ((s.mod.half h).get (F.RNG_TALLY1_NOLAP r)) 4 ∧ s.mod.onlyHalf t.mod h) ∧
  (∀ side : Side, (s.mod.half h).ringState r = rsOff → s.idles (.lapstartTimeout h r side)) ∧
  (∀ (side : Side) (l : Nat) (p : RingPlan), (s.mod.half h).ringLink r side = some l → (s.mod.half h).linkUp l = true →
    ((s.mod.half h).ring r).plan = some p → (s.mod.half h).runOver r ((s.mod.half h).ring r).newSeen side = false →
    ((s.mod.half h).ring r).broken side = true →
    ∃ t, exec (.segmentHealed h r side) s = .next t ∧ t.now = max s.now ((s.mod.half h).healDue r side) ∧ ((t.mod.half h).ring r).broken side = false ∧
      (t.mod.half h).regs = (s.mod.half h).regs ∧ s.mod.onlyHalf t.mod h) ∧
  (∀ side : Side, ((s.mod.half h).ring r).broken side = false → s.idles (.segmentHealed h r side))

/-- Joining and leaving a ring (R294 to R296) at a half out of reset, in a running module. JOIN reaches the ring master, which answers with
JOINACK and changes no register; no other station acts on it. JOINACK with result 0 makes the joining station JOINED, with any other
result REFUSED. LEAVE at a joined station takes the leaving station out of what its heads collect. JOINEN raised at a station that is OFF with
a plan makes it LISTEN; lowered at a joined one, LEAVING, its lap boundary still to come. MASTER_CANDIDATE_TIMEOUT, 200 ms after step 8 began,
makes a listening candidate that has heard no LAPSTART JOINED as master; once one has been heard it moves the clock alone. -/
def Obligations.RingMembers : Prop := ∀ (s : State) (h : HalfId) (r : Nat), s.mod.settled → (s.mod.half h).inReset = false → r < 2 →
  r < (s.mod.half h).rings.length →
  (∀ (c : JoinCell) (p : RingPlan), ((s.mod.half h).ring r).plan = some p → (s.mod.half h).isMaster r = true →
    ∃ t result, exec (.join h r c) s = .next t ∧
      (((t.mod.half h).ring r).rot ((s.mod.half h).sideTo r (c.addr % 128))).wait =
        (((s.mod.half h).ring r).rot ((s.mod.half h).sideTo r (c.addr % 128))).wait ++
          [joinAckCell ((s.mod.half h).ringAddr r) c.addr result] ∧
      (c.crc ≠ p.crc → result = 1) ∧ (c.crc = p.crc → bitAt ((s.mod.half h).ring r).seen (c.addr % 128) = true → result = 2) ∧
      (t.mod.half h).regs = (s.mod.half h).regs ∧ s.mod.onlyHalf t.mod h) ∧
  (∀ c : JoinCell, (s.mod.half h).isMaster r = false → exec (.join h r c) s = .next s) ∧
  (∀ result : Nat, (s.mod.half h).ringState r = rsJoining →
    (result = 0 →
      ∃ t, exec (.joinack h r ((s.mod.half h).ringAddr r) result) s = .next t ∧ (t.mod.half h).ringState r = rsJoined ∧
        (t.mod.half h).get (F.RNG_STATE_JOINRES r) = 0 ∧ ((t.mod.half h).ring r).broken .west = false ∧
        ((t.mod.half h).ring r).broken .east = false ∧ s.mod.onlyHalf t.mod h) ∧
    (result ≠ 0 →
      ∃ t, exec (.joinack h r ((s.mod.half h).ringAddr r) result) s = .next t ∧ (t.mod.half h).ringState r = rsRefused ∧
        (t.mod.half h).get (F.RNG_STATE_JOINRES r) = result % 4 ∧ s.mod.onlyHalf t.mod h)) ∧
  (∀ dest result, (s.mod.half h).ringState r ≠ rsJoining → exec (.joinack h r dest result) s = .next s) ∧
  (∀ (addr a b c : Nat) (p : RingPlan), (s.mod.half h).ringState r = rsJoined → ((s.mod.half h).ring r).plan = some p →
    p.ring = ringOf addr → ((s.mod.half h).ring r).east.ended = some (a, b, c) →
    ∃ t, exec (.leave h r addr) s = .next t ∧ ((t.mod.half h).ring r).east.ended =
        some (setBitNat a (addr % 128) false, setBitNat b (addr % 128) false, c) ∧
      (t.mod.half h).regs = (s.mod.half h).regs ∧ s.mod.onlyHalf t.mod h) ∧
  (∀ master : Nat, s.mod.grants h master (F.RNG_CTRL_word r).off →
    ((s.mod.half h).ringState r = rsOff → ((s.mod.half h).ring r).plan ≠ none →
      ∃ t, exec (.joinen h r master true) s = .next t ∧ (t.mod.half h).ringState r = rsListen ∧
        (t.mod.half h).get (F.RNG_STATE_JOINRES r) = 15 ∧ (t.mod.half h).get (F.RNG_CTRL_JOINEN r) = 1 ∧ s.mod.onlyHalf t.mod h) ∧
    ((s.mod.half h).ringState r = rsJoined →
      ∃ t, exec (.joinen h r master false) s = .next t ∧ (t.mod.half h).ringState r = rsLeaving ∧
        (t.mod.half h).get (F.RNG_CTRL_JOINEN r) = 0 ∧ ((t.mod.half h).ring r).leaveOn = none ∧ s.mod.onlyHalf t.mod h)) ∧
  (∀ im : ImageSt, (s.mod.half h).image = some im → bitAt im.man.roles 2 = true → 4 ≤ (s.mod.half h).get F.RST_STRAP_INDEX →
    (s.mod.half h).get F.RST_STRAP_INDEX ≤ 6 → (s.mod.half h).ringState r = rsListen → ((s.mod.half h).ring r).heard = none →
    ((s.mod.half h).ring r).plan ≠ none →
    ∃ t, exec (.masterCandidateTimeout h r) s = .next t ∧ t.now = max s.now ((s.mod.half h).starter.step8From + 200000000) ∧ (t.mod.half h).ringState r = rsJoined ∧
      (t.mod.half h).isMaster r = true ∧ (t.mod.half h).get (F.RNG_MASTER_ADDR r) = (s.mod.half h).ringAddr r ∧
      s.mod.onlyHalf t.mod h) ∧
  (((s.mod.half h).ring r).heard ≠ none → s.idles (.masterCandidateTimeout h r))

/-! ## Time -/

/-- Segment delays (R313) at a half out of reset. PDREQ_SEND, 16 ring laps after the last at the earliest, steps the half's sequence, gives
the segment a PDREQ and waits for its transmit mark; PDREQ is answered across its segment, or on its camera link, with T2, and T3 is
written at its transmit mark; neither changes a register. PDRESP of the standing PDREQ adds the measured delay to the last eight and changes
no register but TIM_SEGDLY; of any other it changes nothing. -/
def Obligations.SegmentDelays : Prop := ∀ (s : State) (h : HalfId) (side : Side), (s.mod.half h).inReset = false →
  (∀ r t1, r < 2 → r < (s.mod.half h).rings.length → segIndex r side < (s.mod.half h).time.seg.length →
    ∃ t, exec (.pdreqSend h r side t1) s = .next t ∧
      t.now = max s.now (max ((s.mod.half h).pdreqDue r side) (s.stampAt h t1)) ∧
      (t.mod.half h).time.pdSeq = ((s.mod.half h).time.pdSeq + 1) % 2 ^ 16 ∧
      (t.mod.half h).time.seg.getD (segIndex r side) SegDelay.reset =
        { (s.mod.half h).time.seg.getD (segIndex r side) SegDelay.reset with
          asked := some ((s.mod.half h).time.pdSeq, none), askedAt := some t.now } ∧
      (((t.mod.half h).ring r).rot side).wait = (((s.mod.half h).ring r).rot side).wait ++
        [pdreqCell ((s.mod.half h).stationAddr r % 2 ^ 14) (s.mod.half h).time.pdSeq] ∧
      (t.mod.half h).regs = (s.mod.half h).regs ∧ s.mod.onlyHalf t.mod h) ∧
  (∀ r seq t2 t3, r < 2 → r < (s.mod.half h).rings.length →
    ∃ t, exec (.pdreq h r side seq t2 t3) s = .next t ∧ t.now = max s.now (s.stampAt h (max t2 t3)) ∧
      (((t.mod.half h).ring r).rot side).wait = (((s.mod.half h).ring r).rot side).wait ++
        [pdrespCell ((s.mod.half h).stationAddr r % 2 ^ 14) seq t2 0] ∧
      (t.mod.half h).regs = (s.mod.half h).regs ∧ s.mod.onlyHalf t.mod h) ∧
  (∀ l seq t2 t3, l < 16 → l < (s.mod.half h).port.runs.length →
    ∃ t, exec (.pdreq h (l + 2) side seq t2 t3) s = .next t ∧
      ((t.mod.half h).run l).queue = ((s.mod.half h).run l).queue ++ [pdrespCell 0x3FFF seq t2 0] ∧
      (t.mod.half h).regs = (s.mod.half h).regs ∧ s.mod.onlyHalf t.mod h) ∧
  (∀ r seq t1 t2 t3 t4, r < 2 → segIndex r side < (s.mod.half h).time.seg.length →
    ((s.mod.half h).time.seg.getD (segIndex r side) SegDelay.reset).asked = some (seq, some t1) →
    (∃ t, exec (.pdresp h r side seq t2 t3 t4) s = .next t ∧
      (t.mod.half h).time.seg.getD (segIndex r side) SegDelay.reset =
        { (s.mod.half h).time.seg.getD (segIndex r side) SegDelay.reset with asked := none, vals :=
          (((t4 : Int) - t1 - ((t3 : Int) - t2)) / 2 :: ((s.mod.half h).time.seg.getD (segIndex r side) SegDelay.reset).vals).take 8 } ∧
      (∀ o, o ≠ F.TIM_SEGDLY_word.off → (t.mod.half h).reg o = (s.mod.half h).reg o) ∧ s.mod.onlyHalf t.mod h) ∧
    (∀ seq', seq' ≠ seq → s.idlesTo (.pdresp h r side seq' t2 t3 t4) (s.stampAt h t4)))

/-- Tracking of a domain (R314, R316, R321) at a half out of reset, in a running module. A SYNC that the station may use starts ACQUIRING of a
domain in state NONE at the estimate; in a TRACKED domain it steers by the error, or, with an error over 1 ms, counts a phase jump
and the domain is LOST. DOMAIN_TIMEOUT of a TRACKED domain that the peer's plane does not give makes it LOST, with its tally; of
one that it gives, TRACKED over the half link; of a grandmaster's domain it moves the clock alone. REVERT_EXPIRE, 10 s after the preferred
domain became TRACKED, makes it the reference, wall time unmoved. -/
def Obligations.DomainTracking : Prop := ∀ (s : State) (h : HalfId), s.mod.settled → (s.mod.half h).inReset = false →
  (∀ (r : Nat) (side : Side) (d : Domain) (c : SyncCell) (rx tx : Nat) (est : Int), r < 2 → domainOf c.domain = some d →
    (s.mod.half h).usesSync d r side c = true →
    est = r308ns c.originSec c.originFrac + c.correction / 65536 + ((s.mod.half h).segDelay r side).getD 0 →
    (((s.mod.half h).time.dom d).st = .none →
      ∃ t, exec (.sync h r side c rx tx) s = .next t ∧ t.now = max s.now (s.stampAt h (max rx tx)) ∧
        ((t.mod.half h).time.dom d).st = .acquiring ∧ ((t.mod.half h).time.dom d).base = fineOf est ∧
        ((t.mod.half h).time.dom d).anchor = rx ∧ ((t.mod.half h).time.dom d).lastAt = rx ∧ s.mod.onlyHalf t.mod h) ∧
    (((s.mod.half h).time.dom d).st = .tracked → ((s.mod.half h).time.dom d).jumps rx est = false →
      ∃ t, exec (.sync h r side c rx tx) s = .next t ∧ ((t.mod.half h).time.dom d).st = .tracked ∧
        ((t.mod.half h).time.dom d).base = ((s.mod.half h).time.dom d).fine rx ∧
        ((t.mod.half h).time.dom d).slew = fineOf est - ((s.mod.half h).time.dom d).fine rx ∧ s.mod.onlyHalf t.mod h) ∧
    (((s.mod.half h).time.dom d).jumps rx est = true →
      ∃ t, exec (.sync h r side c rx tx) s = .next t ∧ ((t.mod.half h).time.dom d).st = .lost ∧
        (t.mod.half h).get F.TIM_TALLY_PHASEJUMP = satAdd 8 ((s.mod.half h).get F.TIM_TALLY_PHASEJUMP) 1 ∧
        s.mod.onlyHalf t.mod h)) ∧
  (∀ d : Domain,
    ((s.mod.half h).tconf.isGm d = true → s.idlesTo (.domainTimeout h d) (s.domainEnd h d)) ∧
    ((s.mod.half h).tconf.isGm d = false → ((s.mod.half h).time.dom d).st = .tracked → ((s.mod.half h).time.dom d).peerFed = false →
      (linkOk (s.mod.half h) (s.mod.half h.peer) = false ∨ (s.mod.half h.peer).givesTime d = false →
        ∃ t, exec (.domainTimeout h d) s = .next t ∧ t.now = max s.now (s.domainEnd h d) ∧
          ((t.mod.half h).time.dom d).st = .lost ∧
          (t.mod.half h).get (lostTally d) = satAdd 8 ((s.mod.half h).get (lostTally d)) 1 ∧ s.mod.onlyHalf t.mod h) ∧
      (linkOk (s.mod.half h) (s.mod.half h.peer) = true → (s.mod.half h.peer).givesTime d = true →
        ∃ t, exec (.domainTimeout h d) s = .next t ∧ ((t.mod.half h).time.dom d).st = .tracked ∧
          ((t.mod.half h).time.dom d).peerFed = true ∧ s.mod.onlyHalf t.mod h))) ∧
  ((s.mod.half h).tconf.revert = true → (s.mod.half h).time.refB.isSome = true →
    (s.mod.half h).time.ref ≠ some (s.mod.half h).tconf.prefer → ((s.mod.half h).time.dom (s.mod.half h).tconf.prefer).st = .tracked →
    ∃ t, exec (.revertExpire h) s = .next t ∧ t.now = max s.now (s.revertEnd h) ∧
      (t.mod.half h).time.ref = some (s.mod.half h).tconf.prefer ∧
      (t.mod.half h).time.wall ((s.mod.half h).lb t.now) = (s.mod.half h).time.wall ((s.mod.half h).lb t.now) ∧
      (t.mod.half h).get F.TIM_TALLY_SWITCHES = satAdd 8 ((s.mod.half h).get F.TIM_TALLY_SWITCHES) 1 ∧ s.mod.onlyHalf t.mod h) ∧
  ((s.mod.half h).tconf.revert = false → s.idlesTo (.revertExpire h) (s.revertEnd h))

/-- Wall time and grandmasters (R318, R320, R323) at a half out of reset, in a running module. SLEW_DONE, once the offset can have reached 0,
leaves it at 0, and changes nothing before wall time exists. BRIDGE_SYNC_SEND on a camera link, 1 ms after the last, gives the link a SYNC
of its own sequence while wall time is trusted and changes no register; untrusted, it changes nothing. A granted GMCMD at a grandmaster of the domain starts its time, set at once by STEP and by slewing
otherwise, and a domain already TRACKED leaves wall time where it was at that instant; at another half it changes nothing.
GRANDMASTER_START_WAIT_EXPIRE starts the domain of a grandmaster in step 9 or later at 0, unset. -/
def Obligations.WallAndGrandmasters : Prop := ∀ (s : State) (h : HalfId), s.mod.settled → (s.mod.half h).inReset = false →
  ((s.mod.half h).epoch.isSome = true → (s.mod.half h).time.refB.isSome = true →
    ∃ t, exec (.slewDone h) s = .next t ∧ t.now = max s.now (s.slewEnd h) ∧ (t.mod.half h).time.off = 0 ∧
      (t.mod.half h).time.offAt = (s.mod.half h).lb t.now ∧
      (t.mod.half h).time.wall ((s.mod.half h).lb t.now) = (s.mod.half h).time.wall ((s.mod.half h).lb t.now) ∧
      s.mod.onlyHalf t.mod h) ∧
  ((s.mod.half h).time.refB = none → s.idlesTo (.slewDone h) (s.slewEnd h)) ∧
  (∀ (l u : Nat), u = max s.now ((s.mod.half h).bridgeDue l) → l < 16 →
    let seq := (((s.mod.half h).time.bridge.find? fun b => b.1 == l).map fun b => b.2.1).getD 0
    (l < (s.mod.half h).port.runs.length → ((s.mod.half h).linkRec l).kind = 6 →
      ((s.mod.half h).trustedWall ((s.mod.half h).lb u)).isSome = true →
      ∃ t c, exec (.bridgeSyncSend h l) s = .next t ∧ t.now = u ∧
        ((t.mod.half h).run l).queue = ((s.mod.half h).run l).queue ++ [syncToCell c] ∧ c.domain = 2 ∧ c.seq = seq ∧
        ((t.mod.half h).time.bridge.find? fun b => b.1 == l) = some (l, (seq + 1) % 2 ^ 16, u) ∧
        (t.mod.half h).regs = (s.mod.half h).regs ∧ s.mod.onlyHalf t.mod h) ∧
    ((s.mod.half h).trustedWall ((s.mod.half h).lb u) = none → s.idlesTo (.bridgeSyncSend h l) u)) ∧
  (∀ (d : Domain) (master : Nat), s.mod.grants h master F.TIM_GMCMD_word.off →
    ((s.mod.half h).tconf.isGm d = true →
      (∃ t, exec (.gmcmdStep h master d) s = .next t ∧ ((t.mod.half h).time.dom d).st = .tracked ∧
        ((t.mod.half h).time.dom d).base = (s.mod.half h).gmSet ∧ ((t.mod.half h).time.dom d).slew = 0 ∧
        ((t.mod.half h).time.dom d).unset = false ∧ s.mod.onlyHalf t.mod h ∧ (((s.mod.half h).time.dom d).st = .tracked →
          (s.mod.half h).time.refB.isSome = true →
          (t.mod.half h).time.wall ((s.mod.half h).lb s.now) = (s.mod.half h).time.wall ((s.mod.half h).lb s.now))) ∧
      (∃ t, exec (.gmcmdSlew h master d) s = .next t ∧ ((t.mod.half h).time.dom d).st = .tracked ∧
        ((t.mod.half h).time.dom d).base = ((s.mod.half h).time.dom d).fine ((s.mod.half h).lb s.now) ∧
        ((t.mod.half h).time.dom d).slew = (s.mod.half h).gmSet - ((s.mod.half h).time.dom d).fine ((s.mod.half h).lb s.now) ∧
        ((t.mod.half h).time.dom d).unset = false ∧ s.mod.onlyHalf t.mod h ∧ (((s.mod.half h).time.dom d).st = .tracked →
          (s.mod.half h).time.refB.isSome = true →
          (t.mod.half h).time.wall ((s.mod.half h).lb s.now) = (s.mod.half h).time.wall ((s.mod.half h).lb s.now)))) ∧
    ((s.mod.half h).tconf.isGm d = false → exec (.gmcmdStep h master d) s = .next s ∧ exec (.gmcmdSlew h master d) s = .next s)) ∧
  (∀ d : Domain, (s.mod.half h).tconf.isGm d = true → ((s.mod.half h).time.dom d).st = .none → 8 ≤ (s.mod.half h).step →
    ∃ t, exec (.grandmasterStartWaitExpire h d) s = .next t ∧
      t.now = max s.now ((s.mod.half h).starter.step9From + 500000000) ∧ ((t.mod.half h).time.dom d).st = .tracked ∧
      ((t.mod.half h).time.dom d).base = 0 ∧ ((t.mod.half h).time.dom d).unset = true ∧ s.mod.onlyHalf t.mod h)

/-! ## Check-value units -/

/-- The check values of R331: with PRESET 1 to 4 the result over the nine ASCII bytes "123456789" with FOLDLEN 0 is 0xE3069283,
0xCBF43926, 0x29B1 and 0x6C40DF5F0B497347, whatever the unit's own fields; PRESET 0 and 5 to 7 use the unit's own fields. -/
def Obligations.CheckValues : Prop := ∀ own : CrcParams,
  let nine : List Byte := [0x31, 0x32, 0x33, 0x34, 0x35, 0x36, 0x37, 0x38, 0x39]
  presetParams 1 own = ⟨32, 0x1EDC6F41, 0xFFFFFFFF, true, true, true⟩ ∧ crcValue (presetParams 1 own) [] nine = 0xE3069283 ∧
  presetParams 2 own = ⟨32, 0x04C11DB7, 0xFFFFFFFF, true, true, true⟩ ∧ crcValue (presetParams 2 own) [] nine = 0xCBF43926 ∧
  presetParams 3 own = ⟨16, 0x1021, 0xFFFF, false, false, false⟩ ∧ crcValue (presetParams 3 own) [] nine = 0x29B1 ∧
  presetParams 4 own = ⟨64, 0x42F0E1EBA9EA3693, 0, false, false, false⟩ ∧
  crcValue (presetParams 4 own) [] nine = 0x6C40DF5F0B497347 ∧
  (∀ code ∈ [0, 5, 6, 7], presetParams code own = own)

/-- CVU_ENABLE, CVU_RESULT, FEED4, FEED1 and FEEDEND (R338) at unit `n` < 16. A granted write of ENABLE to a unit that is off
sets ENABLE so, leaves its parameters and every other register and starts with no partial computation; to a unit that is on, 1 changes
nothing and 0 turns it off and counts each computation begun and not yet written as cut short. CVU_RESULT of an enabled unit writes the
oldest result that waits there, for a unit of computation whose bytes the command brings the check value of those bytes; with none waiting, or
at a unit that is off, it changes nothing. At POINT 9 FEED4 feeds its four bytes, most
significant first, and FEED1 its byte; FEEDEND writes the result, over the fold alone where no byte was fed; at another POINT or with
ENABLE 0 the three change nothing. -/
def Obligations.CvuUnits : Prop := ∀ (s : State) (h : HalfId) (n : Nat), n < 16 →
  (∀ master, s.mod.grants h master (F.CVU_CTRL_word n).off →
    ((s.mod.half h).flag (F.CVU_CTRL_ENABLE n) = false → ∀ on,
      ∃ t, exec (.cvuEnable h n master on) s = .next t ∧ (t.mod.half h).get (F.CVU_CTRL_ENABLE n) = bit on ∧
        (t.mod.half h).cvuParams n = (s.mod.half h).cvuParams n ∧
        (t.mod.half h).get (F.CVU_CTRL_COMPARE n) = (s.mod.half h).get (F.CVU_CTRL_COMPARE n) ∧
        (t.mod.half h).get (F.CVU_CTRL_ONESHOT n) = (s.mod.half h).get (F.CVU_CTRL_ONESHOT n) ∧
        ((t.mod.half h).cvuUnit n).feed = none ∧
        (∀ o, o ≠ (F.CVU_CTRL_word n).off → (t.mod.half h).reg o = (s.mod.half h).reg o) ∧ s.mod.onlyHalf t.mod h) ∧
    ((s.mod.half h).flag (F.CVU_CTRL_ENABLE n) = true →
      exec (.cvuEnable h n master true) s = .next s ∧
      ∃ t, exec (.cvuEnable h n master false) s = .next t ∧ (t.mod.half h).get (F.CVU_CTRL_ENABLE n) = 0 ∧
        (t.mod.half h).cvuParams n = (s.mod.half h).cvuParams n ∧ ((t.mod.half h).cvuUnit n).feed = none ∧
        ((t.mod.half h).cvuUnit n).ready = [] ∧ (t.mod.half h).get (F.CVU_STATUS_ABORTS n) =
          satAdd 8 ((s.mod.half h).get (F.CVU_STATUS_ABORTS n)) ((s.mod.half h).cvuOpen n) ∧
        (∀ o, o ≠ (F.CVU_CTRL_word n).off → o ≠ (F.CVU_STATUS_word n).off → (t.mod.half h).reg o = (s.mod.half h).reg o) ∧
        s.mod.onlyHalf t.mod h)) ∧
  (∀ (data : List Byte) (stamp : Nat), (s.mod.half h).inReset = false →
    (∀ (r : Option Nat) (rest : List (Option Nat)), (s.mod.half h).flag (F.CVU_CTRL_ENABLE n) = true → n < (s.mod.half h).cvu.length →
      ((s.mod.half h).cvuUnit n).ready = r :: rest →
      ∃ t, exec (.cvuResult h n data stamp) s = .next t ∧ t.now = max s.now (s.stampAt h stamp) ∧
        (s.mod.half h).cvuGot (t.mod.half h) n
          (r.getD (crcValue ((s.mod.half h).cvuParams n) ((s.mod.half h).cvuFold n 0) data)) ∧
        (t.mod.half h).cvuUnit n = (if (s.mod.half h).flag (F.CVU_CTRL_ONESHOT n) then CvuSt.reset
          else { (s.mod.half h).cvuUnit n with ready := rest }) ∧
        { t.mod.half h with regs := (s.mod.half h).regs, cvu := (s.mod.half h).cvu } = s.mod.half h ∧ s.mod.onlyHalf t.mod h) ∧
    ((s.mod.half h).flag (F.CVU_CTRL_ENABLE n) = false ∨ ((s.mod.half h).cvuUnit n).ready = [] →
      s.idlesTo (.cvuResult h n data stamp) (s.stampAt h stamp))) ∧
  (∀ master, (s.mod.half h).cvuFeeding n = true → n < (s.mod.half h).cvu.length →
    (s.mod.grants h master (F.CVU_FEED4_word n).off → ∀ v : Word, ∃ t, exec (.feed4 h n master v) s = .next t ∧
      ((t.mod.half h).cvuUnit n).feed = some (crcBytes ((s.mod.half h).cvuParams n)
        (((s.mod.half h).cvuUnit n).feed.getD ((s.mod.half h).cvuStart n)) (beBytes 4 v.toNat)) ∧
      (t.mod.half h).regs = (s.mod.half h).regs ∧ s.mod.onlyHalf t.mod h) ∧
    (s.mod.grants h master (F.CVU_FEED1_word n).off → ∀ v : Byte, ∃ t, exec (.feed1 h n master v) s = .next t ∧
      ((t.mod.half h).cvuUnit n).feed = some (crcByte ((s.mod.half h).cvuParams n)
        (((s.mod.half h).cvuUnit n).feed.getD ((s.mod.half h).cvuStart n)) v) ∧
      (t.mod.half h).regs = (s.mod.half h).regs ∧ s.mod.onlyHalf t.mod h) ∧
    (s.mod.grants h master (F.CVU_FEEDEND_word n).off → ∃ t, exec (.feedend h n master) s = .next t ∧
      (s.mod.half h).cvuGot (t.mod.half h) n (crcFinish ((s.mod.half h).cvuParams n)
        (((s.mod.half h).cvuUnit n).feed.getD ((s.mod.half h).cvuStart n))) ∧
      ((t.mod.half h).cvuUnit n).feed = none ∧ s.mod.onlyHalf t.mod h)) ∧
  (∀ master, (s.mod.half h).cvuFeeding n = false →
    (s.mod.grants h master (F.CVU_FEED4_word n).off → ∀ v : Word, exec (.feed4 h n master v) s = .next s) ∧
    (s.mod.grants h master (F.CVU_FEED1_word n).off → ∀ v : Byte, exec (.feed1 h n master v) s = .next s) ∧
    (s.mod.grants h master (F.CVU_FEEDEND_word n).off → exec (.feedend h n master) s = .next s))

/-! ## Registers, access rules and the ledger -/

/-- LATCH_READ (R445). A granted read of the first word of a group leaves the following words of the group as they belong to the value
just read: TIM_LOCALHI, the two words of TIM_WALLSECLO while wall time exists, CVU_RESHI and ENG_IRQTSHI; it changes nothing else. A read
of a ledger word marks its entry read and changes nothing else; a read in a block other than TIM, CVU, ENG and FLT changes nothing.
SWADD (R421). A granted GO whose FLT_SWBUF names a class from 0x01 to 0x10 adds an entry to the ledger: SEQ, then bytes 0x04
to 0x07 as written but for FLAGS, where HALF is the half's own, SW is 1 and WALL as written, then LAP, then bytes 0x0C on as written; with
another class it adds the half's own HOST entry. Either way SEQ steps, the oldest of 256 entries goes and source 3 is raised. -/
def Obligations.LatchesAndLedger : Prop :=
  (∀ (s : State) (h : HalfId) (master off : Nat),
  s.mod.readable (s.mod.issuer master h) master (regAddr h off) → decodeAddr (regAddr h off) = .reg h off →
  ((off = F.TIM_LOCALLO_word.off →
    ∃ t, exec (.latchRead h master off) s = .next t ∧
      t.mod.readReg s.now h F.TIM_LOCALHI_word.off = BitVec.ofNat 32 ((s.mod.half h).lb s.now / 2 ^ 32) ∧
      { t.mod.half h with latch := (s.mod.half h).latch } = s.mod.half h ∧ s.mod.onlyHalf t.mod h) ∧
  (∀ w, off = F.TIM_WALLSECLO_word.off → (s.mod.half h).wallTicks s.now = some w →
    ∃ t, exec (.latchRead h master off) s = .next t ∧
      t.mod.readReg s.now h F.TIM_WALLSECHI_word.off = BitVec.ofNat 32 (tickSec w / 2 ^ 32) ∧
      t.mod.readReg s.now h F.TIM_WALLFRAC_word.off = BitVec.ofNat 32 (tickFrac w) ∧
      { t.mod.half h with latch := (s.mod.half h).latch } = s.mod.half h ∧ s.mod.onlyHalf t.mod h) ∧
  (∀ n < 16, off = (F.CVU_RESLO_word n).off →
    ∃ t, exec (.latchRead h master off) s = .next t ∧
      t.mod.readReg s.now h (F.CVU_RESHI_word n).off = (s.mod.half h).reg (F.CVU_RESHI_word n).off ∧
      { t.mod.half h with latch := (s.mod.half h).latch } = s.mod.half h ∧ s.mod.onlyHalf t.mod h) ∧
  (∀ n < 4, off = (F.ENG_IRQTSLO_word n).off →
    ∃ t, exec (.latchRead h master off) s = .next t ∧
      t.mod.readReg s.now h (F.ENG_IRQTSHI_word n).off = (s.mod.half h).reg (F.ENG_IRQTSHI_word n).off ∧
      { t.mod.half h with latch := (s.mod.half h).latch } = s.mod.half h ∧ s.mod.onlyHalf t.mod h) ∧
  (∀ e, 0x141000 ≤ off → off < 0x144000 → (s.mod.half h).flt.entries[(s.mod.half h).entryAge ((off - 0x141000) / 0x30)]? = some e →
    ∃ t, exec (.latchRead h master off) s = .next t ∧
      (t.mod.half h).flt.entries = (s.mod.half h).flt.entries.set ((s.mod.half h).entryAge ((off - 0x141000) / 0x30))
        { e with read := true } ∧
      { t.mod.half h with flt := (s.mod.half h).flt } = s.mod.half h ∧ s.mod.onlyHalf t.mod h) ∧
  (off / 0x10000 ≠ 0xB → off / 0x10000 ≠ 0xC → off / 0x10000 ≠ 0xE → off / 0x10000 ≠ 0x14 →
    exec (.latchRead h master off) s = .next s))) ∧
  (∀ (s : State) (h : HalfId) (master : Nat), s.mod.grants h master F.FLT_SWADD_word.off →
  let x := s.mod.half h
  ∃ t bytes, exec (.swadd h master) s = .next t ∧ (t.mod.half h).flt.entries = (LedgerRec.mk bytes false :: x.flt.entries).take 256 ∧
    bytes.length = 48 ∧ leAt bytes 0 4 = x.get F.FLT_HEAD_SEQ ∧
    (t.mod.half h).get F.FLT_HEAD_SEQ = (x.get F.FLT_HEAD_SEQ + 1) % 2 ^ 32 ∧
    (∀ e < 4, (t.mod.half h).getBit (F.ENG_IRQPEND_PEND e) irqLedger = true) ∧
    (1 ≤ byteAt x.swBuf 4 → byteAt x.swBuf 4 ≤ 0x10 →
      byteAt bytes 4 = byteAt x.swBuf 4 ∧ byteAt bytes 5 = byteAt x.swBuf 5 ∧
      byteAt bytes 6 = x.id.num + 2 + 8 * bit (bitAt (byteAt x.swBuf 6) 3) ∧ byteAt bytes 7 = byteAt x.swBuf 7 ∧
      leAt bytes 8 4 = x.entryLap ∧ bytes.drop 12 = x.swBuf.drop 12) ∧
    (byteAt x.swBuf 4 = 0 ∨ 0x10 < byteAt x.swBuf 4 → byteAt bytes 4 = clsHost ∧ byteAt bytes 5 = 3 ∧ byteAt bytes 7 = master % 256) ∧
    (∀ o, o / 0x10000 ≠ 0xE → o / 0x10000 ≠ 0x14 → (t.mod.half h).reg o = x.reg o) ∧ s.mod.onlyHalf t.mod h)

/-- REGISTER_WRITE with no start in progress (R5, R6, R68, R169, R349, R428), issued in half `i`. A granted write of a register whose block
acts by its access codes alone leaves the register as the codes say and every other register, but for the sealed-write tally, as it
was. A granted write to the frame store or shared SRAM stores its four bytes, least significant first, and leaves every other byte
and every register. A write that would need a word of the frame store with an uncorrectable error changes no memory and counts the
error. A granted write to a block that a block reset isolates waits. A refused write changes no memory and no other half, and counts one
violation. -/
def Obligations.RegisterWrites : Prop := ∀ (s : State) (i : HalfId) (master a : Nat) (v : Word), s.mod.settled →
  (s.mod.writable i master a →
    (∀ (k : HalfId) (off : Nat) (r : RegSpec), decodeAddr a = .reg k off → (off / 0x10000 = 2 ∨ off / 0x10000 = 5 ∨ off / 0x10000 = 8) →
      regSpec off = some r → (s.mod.half k).isolates off = false →
      ∃ t, exec (.registerWrite i master a v) s = .next t ∧
        (t.mod.half k).reg off = r.written (s.mod.half k).sealed ((s.mod.half k).reg off) v ∧
        (∀ o, o ≠ off → o ≠ F.SYS_SEALTALLY_word.off → (t.mod.half k).reg o = (s.mod.half k).reg o) ∧
        { t.mod.half k with regs := (s.mod.half k).regs } = s.mod.half k ∧ s.mod.onlyHalf t.mod k) ∧
    (∀ (k : HalfId) (off : Nat), decodeAddr a = .store k off →
      ∃ t, exec (.registerWrite i master a v) s = .next t ∧ memRead (t.mod.half k).fst off 4 = leBytes 4 v.toNat ∧
        (∀ b, (b < off ∨ off + 4 ≤ b) → sparseGet (fun _ => (0 : Byte)) (t.mod.half k).fst b = sparseGet (fun _ => 0) (s.mod.half k).fst b) ∧
        { t.mod.half k with fst := (s.mod.half k).fst } = s.mod.half k ∧ s.mod.onlyHalf t.mod k) ∧
    (∀ (k : HalfId) (off : Nat), decodeAddr a = .sram k off →
      ∃ t, exec (.registerWrite i master a v) s = .next t ∧ memRead (t.mod.half k).sram off 4 = leBytes 4 v.toNat ∧
        (∀ b, (b < off ∨ off + 4 ≤ b) → sparseGet (fun _ => (0 : Byte)) (t.mod.half k).sram b = sparseGet (fun _ => 0) (s.mod.half k).sram b) ∧
        { t.mod.half k with sram := (s.mod.half k).sram } = s.mod.half k ∧ s.mod.onlyHalf t.mod k) ∧
    (∀ (k : HalfId) (off : Nat), decodeAddr a = .reg k off → (s.mod.half k).isolates off = true →
      exec (.registerWrite i master a v) s = .next { s with mod := (s.mod.setHalf k { s.mod.half k with starter :=
        { (s.mod.half k).starter with waiting := (s.mod.half k).starter.waiting ++ [(master, off, v)] } }) })) ∧
  (∀ k b, (s.mod.half i).inReset = false → s.mod.checkAccess i a (.single 4) master .write = none →
    s.mod.memError a 4 true = some (k, b) →
    ∃ t, exec (.registerWrite i master a v) s = .next t ∧ (t.mod.half k).fst = (s.mod.half k).fst ∧
      (t.mod.half k).sram = (s.mod.half k).sram ∧ (t.mod.half k).get F.FST_ECC_UNCORR =
        satAdd F.FST_ECC_UNCORR.width ((s.mod.half k).get F.FST_ECC_UNCORR) 1 ∧ s.mod.onlyHalf t.mod k) ∧
  (∀ d, (s.mod.half i).inReset = false → s.mod.checkAccess i a (.single 4) master .write = some d →
    ∃ t, exec (.registerWrite i master a v) s = .next t ∧ (t.mod.half i).fst = (s.mod.half i).fst ∧
      (t.mod.half i).sram = (s.mod.half i).sram ∧
      (t.mod.half i).get F.ACR_TALLY_VIOLATIONS = satAdd 16 ((s.mod.half i).get F.ACR_TALLY_VIOLATIONS) 1 ∧
      (∀ o, o / 0x10000 ≠ 0xD → o / 0x10000 ≠ 0xE → o / 0x10000 ≠ 0x14 → (t.mod.half i).reg o = (s.mod.half i).reg o) ∧
      s.mod.onlyHalf t.mod i)

/-- Sealed fields (R7). In a half that has declared RUNNING, with no start in progress, a granted write to a register that holds RWS
fields leaves those fields unchanged, gives its RW fields the values written, completes and adds 1 to the sealed-write tally. (A
register of an intake window belongs to the window's source.) -/
def Obligations.SealedWrites : Prop := ∀ (s : State) (i k : HalfId) (master off : Nat) (r : RegSpec) (v : Word), s.mod.settled →
  s.mod.writable i master (regAddr k off) → decodeAddr (regAddr k off) = .reg k off → (s.mod.half k).isolates off = false →
  (s.mod.half k).mode = modeRunning → regSpec off = some r → r.rws ≠ 0 →
  (∀ j, off = (F.INK_SCTRL_word j).off → j < 48 → ((s.mod.half k).source j).isSome = true) →
  ∃ t, exec (.registerWrite i master (regAddr k off) v) s = .next t ∧
    (t.mod.half k).reg off &&& r.rws = (s.mod.half k).reg off &&& r.rws ∧ (t.mod.half k).reg off &&& r.rw = v &&& r.rw ∧
    (t.mod.half k).get F.SYS_SEALTALLY_COUNT = satAdd 16 ((s.mod.half k).get F.SYS_SEALTALLY_COUNT) 1 ∧ s.mod.onlyHalf t.mod k

/-- ACR_SWITCH and SWITCH_RETIRED (R347). A granted GO while SWITCHING is 1 only sets RESULT BUSY; with an entry beyond address
0xFF_FFFF_FFFF only RESULT RANGE; else with two entries that share a page only RESULT OVERLAP; otherwise the shadow table becomes the
active table, REGIONS counts its entries with pages and SWITCHING is set. Once the accesses under the old table have retired, with no start
in progress, EPOCH steps, RESULT reads DONE and SWITCHING clears; with no switch in progress, or while a write taken under the old table
still waits at a block that a reset isolates, nothing changes. -/
def Obligations.EpochSwitch : Prop := ∀ (s : State) (h : HalfId),
  let x := s.mod.half h
  (∀ master, s.mod.grants h master F.ACR_SWITCH_word.off →
    (∀ code, (x.flag F.ACR_EPOCH_SWITCHING = true ∧ code = acrBusy) ∨
        (x.flag F.ACR_EPOCH_SWITCHING = false ∧ (∃ i < 64, x.shadowRange i = true) ∧ code = acrRange) ∨
        (x.flag F.ACR_EPOCH_SWITCHING = false ∧ (∀ i < 64, x.shadowRange i = false) ∧
          (∃ i < 64, ∃ j < 64, x.shadowOverlap i j = true) ∧ code = acrOverlap) →
      exec (.acrSwitch h master) s = .next { s with mod := (s.mod.setHalf h (x.set F.ACR_EPOCH_RESULT code)) }) ∧
    (x.flag F.ACR_EPOCH_SWITCHING = false → (∀ i < 64, x.shadowRange i = false) →
      (∀ i < 64, ∀ j < 64, x.shadowOverlap i j = false) →
      ∃ t, exec (.acrSwitch h master) s = .next t ∧
        (∀ i < 64, (t.mod.half h).reg (F.ACR_BASE_word i).off = x.reg (F.ACR_SHBASE_word i).off ∧
          (t.mod.half h).reg (F.ACR_PAGES_word i).off = x.reg (F.ACR_SHPAGES_word i).off ∧
          (t.mod.half h).reg (F.ACR_RMASK_word i).off = x.reg (F.ACR_SHRMASK_word i).off ∧
          (t.mod.half h).reg (F.ACR_WMASK_word i).off = x.reg (F.ACR_SHWMASK_word i).off) ∧
        (t.mod.half h).get F.ACR_EPOCH_REGIONS = ((List.range 64).filter fun i => x.get (F.ACR_SHPAGES_COUNT i) ≠ 0).length ∧
        (t.mod.half h).get F.ACR_EPOCH_SWITCHING = 1 ∧ (t.mod.half h).get F.ACR_EPOCH_EPOCH = x.get F.ACR_EPOCH_EPOCH ∧
        x.onlyRegs (t.mod.half h) (fun o => o = F.ACR_EPOCH_word.off ∨ (0xD0100 ≤ o ∧ o < 0xD0500)) ∧ s.mod.onlyHalf t.mod h)) ∧
  (s.mod.settled → x.inReset = false →
    (x.flag F.ACR_EPOCH_SWITCHING = true → x.starter.waiting = [] →
      ∃ t, exec (.switchRetired h) s = .next t ∧ (t.mod.half h).get F.ACR_EPOCH_SWITCHING = 0 ∧
        (t.mod.half h).get F.ACR_EPOCH_EPOCH = (x.get F.ACR_EPOCH_EPOCH + 1) % 2 ^ 16 ∧
        (t.mod.half h).get F.ACR_EPOCH_RESULT = acrDone ∧ x.onlyRegs (t.mod.half h) (fun o => o = F.ACR_EPOCH_word.off) ∧
        s.mod.onlyHalf t.mod h) ∧
    (x.flag F.ACR_EPOCH_SWITCHING = false ∨ x.starter.waiting ≠ [] → exec (.switchRetired h) s = .next s))

/-! ## Engines -/

/-- ENGINE_INSTRUCTION (R352, R353, R357, R359) of an engine that runs, with no interrupt pending that it enables, no start in progress and
its next instruction whole in local SRAM. An instruction on registers alone, a jump or a branch leaves the engine as Engine.run states; a
load reads and a store writes aligned local SRAM, least significant byte first; ECALL, and an illegal instruction, while no exception is
being handled, enter the trap handler with cause 11 and 2; MRET goes back to mepc; WFI leaves the engine WAITING. Only that engine of that half
changes, but for the trap's stamp and the STATE of a WAITING engine. -/
def Obligations.EngineInstructions : Prop := ∀ (s : State) (h : HalfId) (n len raw : Nat), s.engineReady h n →
  ((s.mod.half h).engine n).fetches len raw →
  let x := s.mod.half h
  let e := x.engine n
  let next := e.pc + BitVec.ofNat 32 len
  let command := Instr.engineInstruction (4 * h.num + n)
  (∀ e1, e.run len (decodeRv raw) = some e1 →
    ∃ t, exec command s = .next t ∧ (t.mod.half h).engine n = e1 ∧ x.onlyEngine (t.mod.half h) n ∧ s.mod.onlyHalf t.mod h) ∧
  (∀ bytes sign rd rs1 off, decodeRv raw = .load bytes sign rd rs1 off → (e.rd rs1 + off).toNat < 0x20000 →
    (e.rd rs1 + off).toNat % bytes = 0 →
    ∃ t, exec command s = .next t ∧ (t.mod.half h).engine n =
        (e.retire next).wr rd (loadExtend bytes sign (leVal (memRead e.sram (e.rd rs1 + off).toNat bytes))) ∧
      x.onlyEngine (t.mod.half h) n ∧ s.mod.onlyHalf t.mod h) ∧
  (∀ bytes rs1 rs2 off, decodeRv raw = .store bytes rs1 rs2 off → (e.rd rs1 + off).toNat < 0x20000 →
    (e.rd rs1 + off).toNat % bytes = 0 →
    ∃ t, exec command s = .next t ∧ { (t.mod.half h).engine n with sram := e.sram } = e.retire next ∧
      memRead ((t.mod.half h).engine n).sram (e.rd rs1 + off).toNat bytes = leBytes bytes (e.rd rs2).toNat ∧
      (∀ b, (b < (e.rd rs1 + off).toNat ∨ (e.rd rs1 + off).toNat + bytes ≤ b) →
        sparseGet (fun _ => (0 : Byte)) ((t.mod.half h).engine n).sram b = sparseGet (fun _ => 0) e.sram b) ∧
      x.onlyEngine (t.mod.half h) n ∧ s.mod.onlyHalf t.mod h) ∧
  (∀ cause, (decodeRv raw = .ecall ∧ cause = 11) ∨ (decodeRv raw = .illegal ∧ cause = 2) → e.handling = false →
    ∃ t, exec command s = .next t ∧ ((t.mod.half h).engine n).pc = e.csr.mtvec ∧ ((t.mod.half h).engine n).csr.mepc = e.pc ∧
      ((t.mod.half h).engine n).csr.mcause = BitVec.ofNat 32 cause ∧ ((t.mod.half h).engine n).csr.mie = false ∧
      ((t.mod.half h).engine n).csr.mpie = e.csr.mie ∧ ((t.mod.half h).engine n).handling = true ∧
      ((t.mod.half h).engine n).x = e.x ∧ ((t.mod.half h).engine n).sram = e.sram ∧
      (∀ j, j ≠ n → (t.mod.half h).engine j = x.engine j) ∧
      (∀ o, o ≠ (F.ENG_IRQTSLO_word n).off → o ≠ (F.ENG_IRQTSHI_word n).off → (t.mod.half h).reg o = x.reg o) ∧
      s.mod.onlyHalf t.mod h) ∧
  (decodeRv raw = .mret →
    ∃ t, exec command s = .next t ∧ ((t.mod.half h).engine n).pc = e.csr.mepc ∧ ((t.mod.half h).engine n).csr.mie = e.csr.mpie ∧
      ((t.mod.half h).engine n).csr.mpie = true ∧ ((t.mod.half h).engine n).handling = false ∧
      ((t.mod.half h).engine n).x = e.x ∧ ((t.mod.half h).engine n).sram = e.sram ∧
      x.onlyEngine (t.mod.half h) n ∧ s.mod.onlyHalf t.mod h) ∧
  (decodeRv raw = .wfi →
    ∃ t, exec command s = .next t ∧ (t.mod.half h).engine n = e.retire next ∧ (t.mod.half h).engState n = esWaiting ∧
      (∀ j, j ≠ n → (t.mod.half h).engine j = x.engine j) ∧
      (∀ o, o ≠ (F.ENG_STATE_word n).off → (t.mod.half h).reg o = x.reg o) ∧ s.mod.onlyHalf t.mod h)

/-- Interrupts of an engine (R356, R357, R358). With an interrupt pending that the engine enables, and interrupts on, a RUNNING or WAITING
engine takes the interrupt in place of its next instruction: pc, cause and interrupt enable are saved, the engine goes on RUNNING
at its handler with interrupts off, and the local base is latched in ENG_IRQTSLO and ENG_IRQTSHI. TIMER_INTERRUPT moves the clock to the compare
value and does the same where the timer interrupt is enabled; where it is not, it moves the clock alone. An engine in any other STATE runs
no instruction, and there is no engine beyond E7. -/
def Obligations.EngineInterrupts : Prop := ∀ (s : State) (h : HalfId) (n : Nat), n < 4 → s.mod.settled →
  let x := s.mod.half h
  let e := x.engine n
  (∀ (command : Instr) (u : Nat),
    (command = .engineInstruction (4 * h.num + n) ∧ u = s.now) ∨
      (command = .timerInterrupt (4 * h.num + n) ∧ u = max s.now (s.stampAt h e.timecmp) ∧ bitAt (x.irqOn u n) 7 = true) →
    n < x.engines.length → x.inReset = false → x.engState n = esRunning ∨ x.engState n = esWaiting → x.irqOn u n ≠ 0 → e.csr.mie = true →
    ∃ t, exec command s = .next t ∧ t.now = u ∧ (t.mod.half h).engState n = esRunning ∧
      ((t.mod.half h).engine n).pc = e.csr.mtvec ∧ ((t.mod.half h).engine n).csr.mepc = e.pc ∧
      ((t.mod.half h).engine n).csr.mcause = BitVec.ofNat 32 (2 ^ 31 + firstIrq (x.irqOn u n)) ∧
      ((t.mod.half h).engine n).csr.mie = false ∧ ((t.mod.half h).engine n).csr.mpie = true ∧
      ((t.mod.half h).engine n).x = e.x ∧ ((t.mod.half h).engine n).sram = e.sram ∧
      (t.mod.half h).get (F.ENG_IRQTSLO_word n) = x.lb u % 2 ^ 32 ∧ (t.mod.half h).get (F.ENG_IRQTSHI_word n) = x.lb u / 2 ^ 32 % 2 ^ 32 ∧
      (∀ j, j ≠ n → (t.mod.half h).engine j = x.engine j) ∧
      (∀ o, o ≠ (F.ENG_IRQTSLO_word n).off → o ≠ (F.ENG_IRQTSHI_word n).off → o ≠ (F.ENG_STATE_word n).off →
        (t.mod.half h).reg o = x.reg o) ∧ s.mod.onlyHalf t.mod h) ∧
  (bitAt (x.irqOn (max s.now (s.stampAt h e.timecmp)) n) 7 = false →
    s.idlesTo (.timerInterrupt (4 * h.num + n)) (s.stampAt h e.timecmp)) ∧
  (x.engState n ≠ esRunning → x.engState n ≠ esWaiting → exec (.engineInstruction (4 * h.num + n)) s = .next s) ∧
  (∀ k, 8 ≤ k → exec (.engineInstruction k) s = .next s)

/-- HALT, RESUME, BEAT and BEATLIMIT_EXPIRE (R358, R359, R361, R364) of engine window `n` < 4, granted. HALT halts a RUNNING or WAITING engine, the
steward only for the debug port, and changes nothing else; RESUME lets a HALTED engine run again, with BEATLIMIT begun anew, the model's choice
(log entry 133), and changes nothing of another. BEAT restarts BEATLIMIT, and takes its role back at the first beat after a return; the steward's toggles its half's kick line. An engine
other than the steward that runs or waits fails when BEATLIMIT has passed: STATE FAILED, FAILS stepped to at most 3, OWN cleared, its
bit of ENG_SUPV.FAILED set, one ledger entry more, source 15 raised at the steward; for another engine only the clock moves.
IRQCLAIM and TIMECMPHI (R357) of engine window `n` < 4. A granted read of ENG_IRQCLAIM shows the lowest source that is pending
and enabled and clears its pending bit alone; with none it shows 0xFF and changes nothing. A granted write of ENG_TIMECMPHI
applies both words of the compare value. -/
def Obligations.EnginePorts : Prop :=
  (∀ (s : State) (h : HalfId) (n : Nat), n < 4 →
  let x := s.mod.half h
  (∀ master, s.mod.grants h master (F.ENG_CTRL_word n).off →
    ((x.engState n = esRunning ∨ x.engState n = esWaiting) → n ≠ 0 ∨ master = mDebug →
      exec (.halt h n master) s = .next { s with mod := (s.mod.setHalf h (x.set (F.ENG_STATE_STATE n) esHalted)) }) ∧
    ((x.engState n ≠ esRunning ∧ x.engState n ≠ esWaiting) ∨ (n = 0 ∧ master ≠ mDebug) → exec (.halt h n master) s = .next s) ∧
    (x.engState n = esHalted → n < x.engines.length →
      ∃ t, exec (.resume h n master) s = .next t ∧ (t.mod.half h).engState n = esRunning ∧
        (t.mod.half h).engine n = { x.engine n with beatAt := max (x.engine n).beatAt s.now } ∧
        (∀ j, j ≠ n → (t.mod.half h).engine j = x.engine j) ∧
        (∀ o, o ≠ (F.ENG_STATE_word n).off → (t.mod.half h).reg o = x.reg o) ∧ s.mod.onlyHalf t.mod h) ∧
    (x.engState n ≠ esHalted → exec (.resume h n master) s = .next s)) ∧
  (∀ master, s.mod.settled → s.mod.grants h master (F.ENG_BEAT_word n).off → n < x.engines.length →
    ∃ t, exec (.beat h n master) s = .next t ∧
      (t.mod.half h).engine n = { x.engine n with beatAt := s.now, beaten := true, returning := false } ∧
      (t.mod.half h).get (F.ENG_STATE_OWN n) = (if (x.engine n).returning then 1 else x.get (F.ENG_STATE_OWN n)) ∧
      (t.mod.half h).engState n = x.engState n ∧
      (∀ o, o ≠ (F.ENG_STATE_word n).off → (t.mod.half h).reg o = x.reg o) ∧ t.mod.half h.peer = s.mod.half h.peer ∧
      t.mod.lamp = (if n = 0 then s.mod.lamp.onHalf h fun l => { l with kickLine := !l.kickLine, kickAt := some s.now } else s.mod.lamp)) ∧
  (x.inReset = false →
    (1 ≤ n → x.engState n = esRunning ∨ x.engState n = esWaiting →
      ∃ t, exec (.beatlimitExpire h n) s = .next t ∧ t.now = max s.now (s.beatEnd h n) ∧ (t.mod.half h).engState n = esFailed ∧
        (t.mod.half h).get (F.ENG_STATE_FAILS n) = min 3 (x.get (F.ENG_STATE_FAILS n) + 1) ∧
        (t.mod.half h).get (F.ENG_STATE_OWN n) = 0 ∧ (t.mod.half h).getBit F.ENG_SUPV_FAILED n = true ∧
        (t.mod.half h).get F.FLT_HEAD_SEQ = (x.get F.FLT_HEAD_SEQ + 1) % 2 ^ 32 ∧
        (t.mod.half h).getBit (F.ENG_IRQPEND_PEND 0) irqRole = true ∧ (t.mod.half h).engines = x.engines ∧
        (∀ o, o / 0x10000 ≠ 0xE → o / 0x10000 ≠ 0x14 → (t.mod.half h).reg o = x.reg o) ∧ s.mod.onlyHalf t.mod h) ∧
    (n = 0 ∨ (x.engState n ≠ esRunning ∧ x.engState n ≠ esWaiting) →
      s.idlesTo (.beatlimitExpire h n) (s.beatEnd h n)))) ∧
  (∀ (s : State) (h : HalfId) (n master : Nat), n < 4 →
  let x := s.mod.half h
  (s.mod.readable (s.mod.issuer master h) master (regAddr h (F.ENG_IRQCLAIM_word n).off) →
    (∀ k, k < 16 → x.getBit (F.ENG_IRQPEND_PEND n) k = true → x.getBit (F.ENG_IRQEN_EN n) k = true →
      (∀ j < k, x.getBit (F.ENG_IRQPEND_PEND n) j = false ∨ x.getBit (F.ENG_IRQEN_EN n) j = false) →
      s.mod.readReg s.now h (F.ENG_IRQCLAIM_word n).off = BitVec.ofNat 32 k ∧
      ∃ t, exec (.irqclaim h n master) s = .next t ∧ (t.mod.half h).getBit (F.ENG_IRQPEND_PEND n) k = false ∧
        (∀ j, j ≠ k → (t.mod.half h).getBit (F.ENG_IRQPEND_PEND n) j = x.getBit (F.ENG_IRQPEND_PEND n) j) ∧
        x.onlyRegs (t.mod.half h) (fun o => o = (F.ENG_IRQPEND_word n).off) ∧ s.mod.onlyHalf t.mod h) ∧
    ((∀ j < 16, x.getBit (F.ENG_IRQPEND_PEND n) j = false ∨ x.getBit (F.ENG_IRQEN_EN n) j = false) →
      s.mod.readReg s.now h (F.ENG_IRQCLAIM_word n).off = 0xFF ∧ exec (.irqclaim h n master) s = .next s)) ∧
  (∀ v : Word, s.mod.grants h master (F.ENG_TIMECMPHI_word n).off → n < x.engines.length →
    ∃ t, exec (.timecmphi h n master v) s = .next t ∧
      ((t.mod.half h).engine n).timecmp = v.toNat * 2 ^ 32 + (x.reg (F.ENG_TIMECMPLO_word n).off).toNat ∧
      (t.mod.half h).reg (F.ENG_TIMECMPHI_word n).off = v ∧
      (∀ o, o ≠ (F.ENG_TIMECMPHI_word n).off → (t.mod.half h).reg o = x.reg o) ∧
      (∀ j, j ≠ n → (t.mod.half h).engine j = x.engine j) ∧ s.mod.onlyHalf t.mod h))

/-! ## Host access -/

/-- POLL, SVC_FRAME and REQUEST (R384 to R386), the half that holds the service port being out of reset. A POLL, or with no start in progress a
good POLL frame from the host, sends the oldest unsent frame under the next OSEQ while fewer than 8 await acknowledgement, the oldest
unacknowledged one where a resend was asked, and an EMPTY frame, whose OSEQ is open, where the queue is empty; then its RACK acknowledges
every frame up to and including RACK. With no start in progress a host frame of bad form or bad CRC only counts as such and acknowledges
nothing. A REQUEST of any OPCODE to this module, or a good REQUEST frame that holds it, is a POLL followed by the request. -/
def Obligations.ServicePort : Prop := ∀ s : State, (s.mod.half s.mod.holder).inReset = false →
  let k := s.mod.holder
  let x := s.mod.half k
  let n := x.get F.HST_SVCSTAT_OSEQ
  let stays (r : Nat) (g : SvcOut) : Bool := match g.oseq with
    | some o => !(o == r || newer 8 r o)
    | none => true
  (∀ (c : Instr) (rack : Nat) (resend : Bool), c = .poll rack resend ∨ (s.mod.settled ∧ ∃ bytes, c = .svcFrame bytes ∧
      checkFrame bytes = .good ∧ byteAt bytes 1 = 0 ∧ rack = byteAt bytes 2 ∧ resend = bitAt (byteAt bytes 3) 0) →
    (∀ pre f post, x.host.queue = pre ++ f :: post → (∀ g ∈ pre, g.oseq.isSome = true) → f.oseq = none →
      (∀ g ∈ post, g.oseq = none) → pre.length < 8 → x.host.resend = false ∨ pre = [] →
      ∃ t, exec c s = .next t ∧
        (t.mod.half k).host.miso = frameOf 0xC5 f.kind n (min 255 post.length) f.body ∧
        (t.mod.half k).get F.HST_SVCSTAT_OSEQ = (n + 1) % 2 ^ 8 ∧ (t.mod.half k).get F.HST_SVCSTAT_RACK = rack % 2 ^ 8 ∧
        (t.mod.half k).host.queue = (pre ++ { f with oseq := some n } :: post).filter (stays (rack % 256)) ∧
        (t.mod.half k).host.resend = resend ∧ s.mod.onlyHalf t.mod k) ∧
    (∀ f rest o, x.host.queue = f :: rest → f.oseq = some o → x.host.resend = true →
      ∃ t, exec c s = .next t ∧
        (t.mod.half k).host.miso = frameOf 0xC5 f.kind o (min 255 (x.host.queue.filter fun g => g.oseq.isNone).length) f.body ∧
        (t.mod.half k).get F.HST_SVCSTAT_OSEQ = n ∧ (t.mod.half k).host.queue = x.host.queue.filter (stays (rack % 256)) ∧
        s.mod.onlyHalf t.mod k) ∧
    (x.host.queue = [] →
      ∃ t o, exec c s = .next t ∧ o < 256 ∧ (t.mod.half k).host.miso = frameOf 0xC5 0 o 0 [] ∧
        (t.mod.half k).get F.HST_SVCSTAT_OSEQ = n ∧ (t.mod.half k).host.queue = [] ∧ s.mod.onlyHalf t.mod k)) ∧
  (∀ bytes : List Byte, s.mod.settled →
    (checkFrame bytes = .bad → ∃ t, exec (.svcFrame bytes) s = .next t ∧
      (t.mod.half k).get F.HST_SVCTALLY_BADFRAME = satAdd 8 (x.get F.HST_SVCTALLY_BADFRAME) 1 ∧
      (t.mod.half k).get F.HST_SVCSTAT_RACK = x.get F.HST_SVCSTAT_RACK ∧ s.mod.onlyHalf t.mod k) ∧
    (checkFrame bytes = .crc → ∃ t, exec (.svcFrame bytes) s = .next t ∧
      (t.mod.half k).get F.HST_SVCTALLY_CRCERR = satAdd 8 (x.get F.HST_SVCTALLY_CRCERR) 1 ∧
      (t.mod.half k).get F.HST_SVCSTAT_RACK = x.get F.HST_SVCSTAT_RACK ∧ s.mod.onlyHalf t.mod k)) ∧
  (∀ (rack : Nat) (resend : Bool) (h : HalfId) (tag a : Nat) (r : MgmtReq) (c : Instr),
    let q : Requester := ⟨x.ringAddr 0, 8, true⟩
    (∃ count, c = .read h q tag a count ∧ r = reqOf q tag 0 (beBytes 5 a ++ [0] ++ beBytes 2 count)) ∨
    (∃ v, c = .write h q tag a v ∧ r = reqOf q tag 1 (beBytes 5 a ++ List.replicate 3 0 ++ beBytes 4 v.toNat)) ∨
    (∃ v mask, c = .writeMasked h q tag a v mask ∧
      r = reqOf q tag 2 (beBytes 5 a ++ List.replicate 3 0 ++ beBytes 4 v.toNat ++ beBytes 4 mask.toNat)) ∨
    (∃ data, c = .blockWrite h q tag a data ∧
      r = reqOf q tag 3 (beBytes 5 a ++ [0] ++ beBytes 2 data.length ++ List.replicate 8 0 ++ data)) ∨
    (∃ scene, c = .sceneSelect h q tag scene ∧ r = reqOf q tag 4 (beBytes 1 scene)) ∨
    (∃ layer setState setAlpha state alpha, c = .graphicState h q tag layer setState setAlpha state alpha ∧
      r = reqOf q tag 5 (graphicBytes layer setState setAlpha state alpha)) ∨
    (∃ what v w y z tSec tFrac eSec eFrac, c = .schedule h q tag what v w y z tSec tFrac eSec eFrac ∧
      r = reqOf q tag 6 (beBytes 1 v ++ beBytes 1 w ++ beBytes 1 y ++ beBytes 1 z ++ beBytes 1 what ++ List.replicate 3 0 ++ beBytes 8 tSec
        ++ beBytes 4 tFrac ++ beBytes 8 eSec ++ beBytes 4 eFrac)) ∨
    (∃ mask, c = .eventSubscribe h q tag mask ∧ r = reqOf q tag 7 (beBytes 2 mask)) →
    ∃ u t, exec (.poll rack resend) s = .next u ∧ exec c u = .next t ∧ exec (.request rack resend r) s = .next t ∧
      ∀ bytes : List Byte, checkFrame bytes = .good → byteAt bytes 1 = 1 → byteAt bytes 2 = rack → bitAt (byteAt bytes 3) 0 = resend →
        frameRequest ((bytes.drop 6).take (beAt bytes 4 2)) = r → exec (.svcFrame bytes) s = .next t)

/-- Recovery mode (R387), the service port's half being out of reset. A PASSTHRU of a session that has learned the flash, the islands
qualified and nothing in progress: READ answers OK with the flash's bytes, or FORMAT beyond 224 bytes; PROGRAM clears bits in the bytes it
names and the two ERASEs set theirs, both leaving every other byte and becoming busy; READ STATUS answers the status byte. Before it has
learned a flash without SFDP it answers NO_SFDP, and one with SFDP it learns with the first frame, which it carries out. Addresses go
to the flash as 4 bytes where its density is above 16 MiB, else as their low 3 bytes, the model's choice (log entry 120). Outside recovery mode it answers NOT_RECOVERY. With nothing in progress FUSE programs a blank key fuse with a digest of 32 bytes and
answers OK, or answers ALREADY, or FORMAT for a wrong length or magic. A status poll ends the operation with OK, or with TIMEOUT 5 s after it
began; before, the next poll is due 100 µs later. A frame that waits for REFCLK is answered NO_CLOCK after 100 ms. -/
def Obligations.RecoveryMode : Prop := ∀ s : State, (s.mod.half s.mod.holder).inReset = false →
  let old (a : Nat) : Byte := sparseGet (fun _ => 0xFF) s.mod.flash.bytes a
  let sent (a : Nat) : Nat := s.mod.lamp.pass.addr a
  (s.mod.lamp.phase = .recovery → s.mod.lamp.pass.waiting = none → s.mod.lamp.pass.busy = none → s.mod.passClock = true →
    (s.mod.lamp.pass.learned.isSome = true → ∀ sfdp : Option Sfdp,
      (∀ addr len, addr < 2 ^ 32 → len < 2 ^ 16 →
        (len ≤ 224 → s.mod.wf → ∃ t, exec (.passthruRead addr len sfdp) s = .next t ∧
          s.mod.passReplied t.mod 2 repOk ((List.range len).map fun i => old (sent (addr + i))) ∧
          t.mod.flash.bytes = s.mod.flash.bytes ∧ t.mod.fuse = s.mod.fuse) ∧
        (224 < len → ∃ t, exec (.passthruRead addr len sfdp) s = .next t ∧ s.mod.passReplied t.mod 2 repFormat [] ∧
          t.mod.flash.bytes = s.mod.flash.bytes)) ∧
      (∀ (addr : Nat) (data : List Byte), addr < 2 ^ 32 → data.length ≤ 224 → addr % 256 + data.length ≤ 256 → s.mod.wf →
        ∃ t, exec (.passthruProgram addr data sfdp) s = .next t ∧ t.mod.lamp.pass.busy = some s.now ∧
          t.mod.lamp.pass.pollAt = s.now + 100000 ∧
          (∀ i < data.length, sparseGet (fun _ => 0xFF) t.mod.flash.bytes (sent addr + i) = old (sent addr + i) &&& data.getD i 0xFF) ∧
          (∀ a, (a < sent addr ∨ sent addr + data.length ≤ a) → sparseGet (fun _ => 0xFF) t.mod.flash.bytes a = old a)) ∧
      (∀ (addr size : Nat) (c : Instr), addr < 2 ^ 32 → s.mod.wf →
        (c = .passthruErase4k addr sfdp ∧ size = 4096) ∨ (c = .passthruErase64k addr sfdp ∧ size = 65536) →
        ∃ t, exec c s = .next t ∧ t.mod.lamp.pass.busy = some s.now ∧
          t.mod.lamp.pass.pollAt = s.now + 100000 ∧
          (∀ a, sparseGet (fun _ => 0xFF) t.mod.flash.bytes a = if a / size = sent addr / size then 0xFF else old a)) ∧
      (∀ status, ∃ t, exec (.passthruReadStatus status sfdp) s = .next t ∧ s.mod.passReplied t.mod 2 repOk [status] ∧
        t.mod.flash.bytes = s.mod.flash.bytes)) ∧
    (s.mod.lamp.pass.learned = none → ∀ status, ∃ t, exec (.passthruReadStatus status none) s = .next t ∧
      s.mod.passReplied t.mod 2 repNoSfdp [] ∧ t.mod.lamp = s.mod.lamp) ∧
    (s.mod.lamp.pass.learned = none → ∀ status z, ∃ t, exec (.passthruReadStatus status (some z)) s = .next t ∧
      s.mod.passReplied t.mod 2 repOk [status] ∧ t.mod.lamp.pass.learned = some (sfdpTaken z))) ∧
  (s.mod.lamp.phase ≠ .recovery → ∀ addr len sfdp, ∃ t, exec (.passthruRead addr len sfdp) s = .next t ∧
    s.mod.passReplied t.mod 2 repNotRecovery [] ∧ t.mod.flash.bytes = s.mod.flash.bytes ∧ t.mod.lamp = s.mod.lamp) ∧
  (∀ digest magic : List Byte,
    (s.mod.lamp.phase ≠ .recovery → ∃ t, exec (.fuse digest magic) s = .next t ∧ t.mod.fuse = s.mod.fuse ∧
      s.mod.passReplied t.mod 3 repNotRecovery []) ∧
    (s.mod.lamp.phase = .recovery → s.mod.lamp.pass.waiting = none → s.mod.lamp.pass.busy = none →
      (digest.length ≠ 32 ∨ magic ≠ [0x46, 0x55, 0x53, 0x45] →
        ∃ t, exec (.fuse digest magic) s = .next t ∧ t.mod.fuse = s.mod.fuse ∧ s.mod.passReplied t.mod 3 repFormat []) ∧
      (digest.length = 32 → magic = [0x46, 0x55, 0x53, 0x45] → digest ≠ List.replicate 32 0 →
        ∃ t, exec (.fuse digest magic) s = .next t ∧ t.mod.fuse = some (s.mod.fuse.getD digest) ∧
          s.mod.passReplied t.mod 3 (if s.mod.fuse.isSome then repAlready else repOk) [] ∧ t.mod.flash = s.mod.flash ∧
          t.mod.lamp = s.mod.lamp))) ∧
  (∀ (status : Byte) (since u : Nat), s.mod.lamp.pass.busy = some since → u = max s.now s.mod.lamp.pass.pollAt →
    (bitAt status.toNat 0 = false → ∃ t, exec (.flashStatusPoll status) s = .next t ∧ t.now = u ∧ t.mod.lamp.pass.busy = none ∧
      s.mod.passReplied t.mod 2 repOk [] ∧ t.mod.flash = s.mod.flash) ∧
    (bitAt status.toNat 0 = true → since + 5000000000 ≤ u → ∃ t, exec (.flashStatusPoll status) s = .next t ∧ t.now = u ∧
      t.mod.lamp.pass.busy = none ∧ s.mod.passReplied t.mod 2 repTimeout [] ∧ t.mod.flash = s.mod.flash) ∧
    (bitAt status.toNat 0 = true → u < since + 5000000000 → ∃ t, exec (.flashStatusPoll status) s = .next t ∧ t.now = u ∧
      t.mod.lamp.pass = { s.mod.lamp.pass with pollAt := u + 100000 } ∧ t.mod.half0 = s.mod.half0 ∧ t.mod.half1 = s.mod.half1 ∧
      t.mod.flash = s.mod.flash)) ∧
  (s.mod.lamp.pass.busy = none → ∀ status, exec (.flashStatusPoll status) s = .next s) ∧
  (s.mod.lamp.pass.waiting.isSome = true → s.mod.passClock = false → ∃ t, exec .passthruQualifyTimeout s = .next t ∧
    t.now = max s.now (s.mod.lamp.pass.askedAt + 100000000) ∧ t.mod.lamp.pass.waiting = none ∧ s.mod.passReplied t.mod 2 repNoClock [] ∧ t.mod.flash = s.mod.flash) ∧
  (s.mod.lamp.pass.waiting = none → exec .passthruQualifyTimeout s = .next s)

/-- Access requests to frame store (R373, R375, R379, R381) that are taken, with no start in progress. READ of 1 to 56 words returns
them, most significant byte first, and changes no frame store; WRITE stores a word, least significant byte at the lowest address;
WRITE_MASKED stores the bits of the mask; BLOCK_WRITE of up to 224 bytes stores them in address order; every other byte of both frame
stores stays. Over the service port each completes DONE, a refused one ACCESS with its cause and one violation more, one that meets an
uncorrectable memory error MEMERR, one outside its layout FORMAT and one whose tag is outstanding TAG_BUSY, the last four without
effect on any frame store. -/
def Obligations.AccessRequests : Prop := ∀ (s : State) (h : HalfId) (q : Requester) (tag a : Nat) (k : HalfId) (off : Nat),
  s.mod.settled → decodeAddr a = .store k off →
  let i := s.mod.receiver h q
  let master := (s.mod.half i).identity q
  let byte (t : State) (j : HalfId) (b : Nat) : Byte := sparseGet (fun _ => 0) (t.mod.half j).fst b
  let same (t : State) (n : Nat) : Prop := (t.mod.half k.peer).fst = (s.mod.half k.peer).fst ∧
    ∀ b, (b < off ∨ off + n ≤ b) → byte t k b = byte s k b
  let done (t : State) (opcode : Nat) (rest : List Byte) : Prop :=
    q.service = true → s.mod.replied t.mod ((s.mod.half k).completion q tag opcode stDone 0 rest)
  (∀ count, off + 4 * count ≤ 0x80000000 →
    let r := reqOf q tag 0 (beBytes 5 a ++ [0] ++ beBytes 2 count)
    let y := s.mod.executor i r
    (1 ≤ count → count ≤ 56 → s.mod.accepts h q r → s.mod.checkAccess i a (.words count) master .read = none →
      s.mod.reqError r = none →
      ∃ t, exec (.read h q tag a count) s = .next t ∧ same t 0 ∧
        done t 0 (List.replicate 13 0 ++ (List.range count).flatMap fun j => (memRead (s.mod.half k).fst (off + 4 * j) 4).reverse)) ∧
    (∀ e, q.service = true → 1 ≤ count → count ≤ 56 → s.mod.accepts h q r →
      s.mod.checkAccess i a (.words count) master .read = none → s.mod.reqError r = some e →
      ∃ t, exec (.read h q tag a count) s = .next t ∧ same t 0 ∧
        s.mod.replied t.mod ((s.mod.half y).completion q tag 0 stMemErr 0 [])) ∧
    (∀ d, q.service = true → 1 ≤ count → count ≤ 56 → s.mod.accepts h q r →
      s.mod.checkAccess i a (.words count) master .read = some d → a % 4 = 0 →
      ∃ t, exec (.read h q tag a count) s = .next t ∧ same t 0 ∧
        (t.mod.half i).get F.ACR_TALLY_VIOLATIONS = satAdd 16 ((s.mod.half i).get F.ACR_TALLY_VIOLATIONS) 1 ∧
        s.mod.replied t.mod ((s.mod.half y).completion q tag 0 stAccess 0 (accessRest d))) ∧
    (q.service = true → count = 0 ∨ (56 < count ∧ count < 2 ^ 16) → s.mod.accepts h q r →
      ∃ t, exec (.read h q tag a count) s = .next t ∧ same t 0 ∧
        s.mod.replied t.mod ((s.mod.half y).completion q tag 0 stFormat 0 [])) ∧
    (q.service = true → (s.mod.half i).inReset = false → (s.mod.half i).mode ≠ modeRecovery → y = i ∨ linkOk (s.mod.half i) (s.mod.half y) = true →
      s.mod.tagBusy y q tag = true →
      ∃ t, exec (.read h q tag a count) s = .next t ∧ same t 0 ∧
        s.mod.replied t.mod ((s.mod.half y).completion q tag 0 stTagBusy 0 []))) ∧
  (∀ v : Word, let r := reqOf q tag 1 (beBytes 5 a ++ List.replicate 3 0 ++ beBytes 4 v.toNat)
    s.mod.accepts h q r → s.mod.reqError r = none → s.mod.checkAccess i a (.words 1) master .write = none →
    ∃ t, exec (.write h q tag a v) s = .next t ∧ memRead (t.mod.half k).fst off 4 = leBytes 4 v.toNat ∧ same t 4 ∧ done t 1 []) ∧
  (∀ v mask : Word, let r := reqOf q tag 2 (beBytes 5 a ++ List.replicate 3 0 ++ beBytes 4 v.toNat ++ beBytes 4 mask.toNat)
    s.mod.accepts h q r → s.mod.reqError r = none →
    s.mod.checkAccess i a (.words 1) master .read = none → s.mod.checkAccess i a (.words 1) master .write = none →
    ∃ t, exec (.writeMasked h q tag a v mask) s = .next t ∧ same t 4 ∧ done t 2 [] ∧
      ∀ b < 32, bitAt (leVal (memRead (t.mod.half k).fst off 4)) b =
        if bitAt mask.toNat b then bitAt v.toNat b else bitAt (leVal (memRead (s.mod.half k).fst off 4)) b) ∧
  (∀ data : List Byte, 4 ≤ data.length → data.length ≤ 224 → data.length % 4 = 0 → off + data.length ≤ 0x80000000 →
    let r := reqOf q tag 3 (beBytes 5 a ++ [0] ++ beBytes 2 data.length ++ List.replicate 8 0 ++ data)
    s.mod.accepts h q r → s.mod.reqError r = none →
    s.mod.checkAccess i a (.words (data.length / 4)) master .write = none →
    ∃ t, exec (.blockWrite h q tag a data) s = .next t ∧ memRead (t.mod.half k).fst off data.length = data ∧ same t data.length ∧
      done t 3 [])

/-- Requests for changes and events (R188, R213, R326, R375, R383) that are taken at the commit owner, with no start in progress.
SCENE_SELECT of a valid scene, where no other change is named for the switch lap, names it for that lap and stays outstanding; of another
number it completes NO_SCENE. GRAPHIC_STATE that fits the scene of that lap is named for it. SCHEDULE of a valid scene within its expiry
is held with its wall time; without wall time it completes NO_TIME. EVENT_SUBSCRIBE adds or ends the requester's subscription; a 17th
completes REQ_LIMIT. -/
def Obligations.ChangeRequests : Prop := ∀ (s : State) (h : HalfId) (q : Requester) (tag : Nat), s.mod.settled →
  let i := s.mod.receiver h q
  let x := s.mod.half i
  (x.owner = true →
    (∀ scene < 256, s.mod.accepts h q (reqOf q tag 4 (beBytes 1 scene)) →
      (x.validScene scene = true → (∀ a ∈ x.acts.acts, a.lap ≠ some x.switchLap) →
        ∃ t, exec (.sceneSelect h q tag scene) s = .next t ∧ (x.switchLap, scene) ∈ (t.mod.half i).acts.scenes ∧
          (t.mod.half i).host.outstanding = x.host.outstanding ++ [⟨q, tag⟩] ∧ (t.mod.half i).host.queue = x.host.queue ∧
          (t.mod.half i).get F.RBK_SCENE_CURRENT = x.get F.RBK_SCENE_CURRENT ∧ s.mod.onlyHalf t.mod i) ∧
      (x.validScene scene = false → q.service = true →
        ∃ t, exec (.sceneSelect h q tag scene) s = .next t ∧ (t.mod.half i).acts = x.acts ∧
          (t.mod.half i).host.outstanding = x.host.outstanding ∧ s.mod.replied t.mod (x.completion q tag 4 stNoScene 0 []))) ∧
    (∀ (layer state alpha : Nat) (setState setAlpha : Bool), layer < 8 → state < 256 → alpha < 256 →
      s.mod.accepts h q (reqOf q tag 5 (graphicBytes layer setState setAlpha state alpha)) →
      x.graphicFits (x.sceneAtLap x.switchLap) layer setState state = true → (∀ a ∈ x.acts.acts, a.lap ≠ some x.switchLap) →
      ∃ t, exec (.graphicState h q tag layer setState setAlpha state alpha) s = .next t ∧
        ⟨x.switchLap, ⟨layer, state, alpha, true, setState, setAlpha, false⟩⟩ ∈ (t.mod.half i).acts.named ∧
        (t.mod.half i).host.outstanding = x.host.outstanding ++ [⟨q, tag⟩] ∧ s.mod.onlyHalf t.mod i) ∧
    (∀ (scene b c d tSec tFrac eSec eFrac : Nat), scene < 256 → tSec < 2 ^ 64 → tFrac < 2 ^ 32 → eSec < 2 ^ 64 → eFrac < 2 ^ 32 →
      let p := beBytes 1 scene ++ beBytes 1 b ++ beBytes 1 c ++ beBytes 1 d ++ beBytes 1 0 ++ List.replicate 3 0 ++ beBytes 8 tSec
        ++ beBytes 4 tFrac ++ beBytes 8 eSec ++ beBytes 4 eFrac
      let wall := r308ns tSec tFrac
      let expiry := if r308ns eSec eFrac = 0 then wall + ((x.tconf.expiry * 1000000 : Nat) : Int) else r308ns eSec eFrac
      s.mod.accepts h q (reqOf q tag 6 p) → x.validScene scene = true →
      (∀ w, x.wall s.now = some w → wall ≤ r308ns eSec eFrac ∨ r308ns eSec eFrac = 0 → w ≤ expiry →
        (x.acts.acts.filter fun a => a.sched.isSome).length < 64 →
        ∃ t a, exec (.schedule h q tag 0 scene b c d tSec tFrac eSec eFrac) s = .next t ∧ a ∈ (t.mod.half i).acts.acts ∧
          a.what = .scene scene ∧ a.sched = some (wall, expiry) ∧ a.origin = .host i q tag 6 32 p ∧
          (t.mod.half i).host.outstanding = x.host.outstanding ++ [⟨q, tag⟩] ∧ s.mod.onlyHalf t.mod i) ∧
      (x.wall s.now = none → q.service = true →
        ∃ t, exec (.schedule h q tag 0 scene b c d tSec tFrac eSec eFrac) s = .next t ∧ (t.mod.half i).acts = x.acts ∧
          s.mod.replied t.mod (x.completion q tag 6 stNoTime 0 [])))) ∧
  (∀ mask < 2 ^ 16, s.mod.accepts h q (reqOf q tag 7 (beBytes 2 mask)) → (∀ n < 16, bitAt mask n = true → n ∈ eventClasses) →
    (mask ≠ 0 → (∀ u ∈ x.host.subs, u.who ≠ q) → x.host.subs.length < 16 →
      ∃ t u, exec (.eventSubscribe h q tag mask) s = .next t ∧ u ∈ (t.mod.half i).host.subs ∧ u.who = q ∧ u.tag = tag ∧ u.mask = mask ∧
        (q.service = true → s.mod.replied t.mod (x.completion q tag 7 stDone 0 []))) ∧
    (mask = 0 → ∃ t, exec (.eventSubscribe h q tag mask) s = .next t ∧ (∀ u ∈ (t.mod.half i).host.subs, u.who ≠ q) ∧
      (q.service = true → s.mod.replied t.mod (x.completion q tag 7 stDone 0 []))) ∧
    (mask ≠ 0 → (∀ u ∈ x.host.subs, u.who ≠ q) → 16 ≤ x.host.subs.length → q.service = true →
      ∃ t, exec (.eventSubscribe h q tag mask) s = .next t ∧ (t.mod.half i).host.subs = x.host.subs ∧
        s.mod.replied t.mod (x.completion q tag 7 stReqLimit 0 [])))

/-- Management cells, engine windows and telemetry (R372, R374, R382, R388), at a half out of reset with no start in progress. The master of a
ring passes a cell with a valid CRC for another ring on to the gateway that reaches it, with HOPS stepped; a request with a bad CRC is
answered and counted as NO_ROUTE, and anything else discarded. A completion for this station reaches the service port's host or the engine that asked; while MGTEN is 0, or for another
station, it is discarded and counted. ESEND sends a request to an address of a joined ring of this plane as a cell with RESULT 1, the request
then outstanding; with no ring joined it answers it with NO_ROUTE; it refuses a cell outside its layout with RESULT 2 and one beyond 64
outstanding with 3, sending nothing. EPOP drops the oldest inbound cell and raises source 4 while cells remain. The I²C target takes the first byte written as
its pointer, and a read returns the bytes of telemetry from it and moves it on. -/
def Obligations.CellsAndTelemetry : Prop := ∀ (s : State) (h : HalfId), s.mod.settled → (s.mod.half h).inReset = false →
  let x := s.mod.half h
  (∀ r < 2, ∀ (request : Bool) (c : MgmtRsp),
    let cell := relayCell request c
    (x.mgmtHere r (cell.field 16 14) (cell.field 60 4) = false → ∀ crcOk, exec (.mgmtRelay h r crcOk request c) s = .next s) ∧
    (x.mgmtHere r (cell.field 16 14) (cell.field 60 4) = true →
      (∀ g, x.isMaster r = true → x.ringJoined r = true → cell.field 60 4 % 2 = 0 → cell.field 60 4 < 8 →
        cell.field 16 14 ≠ x.ringAddr r → x.onRingOf r (cell.field 16 14) = false →
        x.gatewayTo r (cell.field 16 14) = some g → g ≠ x.station r → x.relayQueue < 256 →
        exec (.mgmtRelay h r true request c) s = .next { s with mod := (s.mod.setHalf h (x.sendTo r g cell.hopped)) } ∧
          cell.hopped.field 60 4 = cell.field 60 4 + 1) ∧
      (cell.field 16 14 ≠ x.ringAddr r →
        ∃ t, exec (.mgmtRelay h r false request c) s = .next t ∧
          (request = true → (t.mod.half h).get F.HST_MGTTALLY_NOROUTE = satAdd 8 (x.get F.HST_MGTTALLY_NOROUTE) 1) ∧
          (request = false → t.mod = s.mod.setHalf h (x.tally F.HST_MGTTALLY_DISCARD 1))))) ∧
  (∀ c : MgmtRsp,
    (x.flag F.HST_CTRL_MGTEN = true → c.dest = x.ringAddr 0 ∨ c.dest = x.ringAddr 1 →
      (c.origin = 8 → c.event = false → (s.mod.half s.mod.holder).inReset = false → s.mod.reaches h s.mod.holder = true →
        ∃ t, exec (.mgmtCompletion h c) s = .next t ∧ s.mod.replied t.mod c ∧ s.mod.onlyHalf t.mod s.mod.holder) ∧
      (∀ e < 4, c.origin = 4 * h.num + e → e < x.engines.length → c.event = false →
        ((x.engine e).inbox.filter fun y => y.event == false).length < 64 →
        ∃ t, exec (.mgmtCompletion h c) s = .next t ∧ ((t.mod.half h).engine e).inbox = (x.engine e).inbox ++ [c] ∧
          (t.mod.half h).getBit (F.ENG_IRQPEND_PEND e) irqHost = true ∧ s.mod.onlyHalf t.mod h)) ∧
    (x.flag F.HST_CTRL_MGTEN = false ∨ (c.dest ≠ x.ringAddr 0 ∧ c.dest ≠ x.ringAddr 1) ∨ 8 < c.origin →
      exec (.mgmtCompletion h c) s = .next { s with mod := (s.mod.setHalf h (x.tally F.HST_MGTTALLY_DISCARD 1)) })) ∧
  (∀ n < 4, ∀ master : Nat,
    let cell := (Cell.parse (x.eoutBytes n)).2
    let r : MgmtReq := { reqOfCell cell with origin := 4 * h.num + n, hops := 0, src := x.answerAddr (cell.field 16 14) }
    (s.mod.grants h master (F.HST_ESEND_GO n).off →
      (r.dest = x.ringAddr 0 ∨ r.dest = x.ringAddr 1 ∨ r.dest = 0x3FFF ∨ mgmtFits r = false →
        exec (.esend h n master) s = .next { s with mod := (s.mod.setHalf h (x.set (F.HST_ESTAT_RESULT n) 2)) }) ∧
      (r.dest ≠ x.ringAddr 0 → r.dest ≠ x.ringAddr 1 → r.dest ≠ 0x3FFF → mgmtFits r = true →
        (64 ≤ (x.engine n).sent.length → (r.dest, r.tag) ∉ (x.engine n).sent →
          exec (.esend h n master) s = .next { s with mod := (s.mod.setHalf h (x.set (F.HST_ESTAT_RESULT n) 3)) }) ∧
        ((x.engine n).sent.length < 64 → (r.dest, r.tag) ∉ (x.engine n).sent → n < x.engines.length →
          (∀ k < 2, x.ringJoined k = true → x.onRingOf k r.dest = true → (k = 0 ∨ x.ringJoined 0 = false ∨ x.onRingOf 0 r.dest = false) →
            ∃ t, exec (.esend h n master) s = .next t ∧ (t.mod.half h).get (F.HST_ESTAT_RESULT n) = 1 ∧
              ((t.mod.half h).engine n).sent = (x.engine n).sent ++ [(r.dest, r.tag)] ∧
              (t.mod.half h).rings = (x.sendTo k (r.dest % 128) (reqCell r)).rings ∧ s.mod.onlyHalf t.mod h) ∧
          (x.ringJoined 0 = false → x.ringJoined 1 = false → ((x.engine n).inbox.filter fun y => y.event == false).length < 64 →
            ∃ t c, exec (.esend h n master) s = .next t ∧ (t.mod.half h).get (F.HST_ESTAT_RESULT n) = 1 ∧
              ((t.mod.half h).engine n).sent = (x.engine n).sent ∧ ((t.mod.half h).engine n).inbox = (x.engine n).inbox ++ [c] ∧
              c.status = stNoRoute ∧ c.tag = r.tag ∧ (t.mod.half h).rings = x.rings ∧ s.mod.onlyHalf t.mod h)))) ∧
    (s.mod.grants h master (F.HST_EPOP_POP n).off → n < x.engines.length →
      ∃ t, exec (.epop h n master) s = .next t ∧ ((t.mod.half h).engine n).inbox = (x.engine n).inbox.drop 1 ∧
        (1 < (x.engine n).inbox.length → (t.mod.half h).getBit (F.ENG_IRQPEND_PEND n) irqHost = true) ∧
        ((x.engine n).inbox.length ≤ 1 → (t.mod.half h).regs = x.regs) ∧ s.mod.onlyHalf t.mod h)) ∧
  (s.mod.lamp.alive = true →
    (∀ (b : Byte) (rest : List Byte),
      exec (.i2cPointerWrite (b :: rest)) s = .next { s with mod := { s.mod with lamp := { s.mod.lamp with i2cPtr := b.toNat } } }) ∧
    exec (.i2cPointerWrite []) s = .next s ∧
    (∀ n, ∃ t, exec (.i2cRead n) s = .next t ∧ t.mod.lamp.i2cOut = sliceBytes s.mod.telemetry s.mod.lamp.i2cPtr n ∧
      t.mod.lamp.i2cPtr = (s.mod.lamp.i2cPtr + n) % 256 ∧ t.mod.lamp.regs = s.mod.lamp.regs ∧ s.mod.onlyLamp t.mod))

/-! ## Touch and operator inputs -/

/-- Touch (R393, R399 to R404), half 0 out of reset. A granted write of SCAN after start step 7, with a configuration in force, begins a start baseline;
clearing it ends the contacts and turns measurement off. A touch frame decodes each node from its eight interval samples: the
first after the start is discarded, the next are summed, and a frame in RUNNING with one touched node gives one contact of
identity 0 at the node's centroid, and with none no contact; without SCAN it moves the clock alone. TOUCH_STATUS_WAIT_EXPIRE
writes the held report of 32 bytes once its wait has run out, RING_ROOM_RESYNC the RESYNC report; with none due they change nothing. -/
def Obligations.Touch : Prop := ∀ s : State, s.mod.half0.inReset = false →
  let x := s.mod.half0
  (∀ master, s.mod.grants .h0 master F.TCH_CTRL_word.off → x.get F.TCH_STATUS_STATE ≠ tsDisabled →
    (∀ c, x.flag F.TCH_CTRL_SCAN = false → 7 ≤ x.step → x.touch.conf = some c →
      ∃ t, exec (.scan master true) s = .next t ∧ t.mod.half0.get F.TCH_CTRL_SCAN = 1 ∧ t.mod.half0.get F.TCH_STATUS_STATE = tsBaseline ∧
        t.mod.half0.get F.TCH_FRAME_FRAME = 0 ∧ t.mod.half0.touch.nodes.length = c.rows * c.cols ∧ t.mod.half0.touch.frames = 0 ∧
        t.mod.half0.touch.contacts = [] ∧ s.mod.onlyHalf t.mod .h0) ∧
    (∃ t, exec (.scan master false) s = .next t ∧ t.mod.half0.get F.TCH_CTRL_SCAN = 0 ∧ t.mod.half0.get F.TCH_STATUS_STATE = tsOff ∧
      (x.touch.conf.isSome = true → t.mod.half0.touch.contacts = []) ∧ s.mod.onlyHalf t.mod .h0)) ∧
  (∀ (samples : List (List (List Int))) (selfRaw rowSelf colSelf : List Int) (stamp : Nat),
    let u := max s.now (s.stampAt .h0 stamp)
    let frame := Instr.touchFrame samples selfRaw rowSelf colSelf stamp
    (x.flag F.TCH_CTRL_SCAN = false → s.idlesTo frame (s.stampAt .h0 stamp)) ∧
    (∀ c, bitAt s.mod.lamp.outActed 8 = false → x.flag F.TCH_CTRL_SCAN = true → x.touch.conf = some c → x.touch.held = none →
      x.touch.nodes.length = c.rows * c.cols →
      let raw (k : Nat) : Int := mutualCount ((samples.getD (k / c.cols / 8) []).getD (k % c.cols) []) (k / c.cols % 8)
      (x.get F.TCH_STATUS_STATE = tsBaseline → x.touch.frames < 8 →
        ∃ t, exec frame s = .next t ∧ t.now = u ∧ t.mod.half0.get F.TCH_STATUS_STATE = tsBaseline ∧
          t.mod.half0.touch.frames = x.touch.frames + 1 ∧ t.mod.half0.touch.contacts = x.touch.contacts ∧
          (∀ k < c.rows * c.cols, (t.mod.half0.touch.nodes.getD k NodeSt.reset).raw = raw k ∧
            (t.mod.half0.touch.nodes.getD k NodeSt.reset).base = (x.touch.nodes.getD k NodeSt.reset).base +
              (if x.touch.frames = 0 then 0 else raw k)) ∧
          t.mod.half0.getBit (F.ENG_IRQPEND_PEND 2) irqTouch = true ∧ s.mod.onlyHalf t.mod .h0) ∧
      (x.get F.TCH_STATUS_STATE = tsRunning → 1 ≤ x.touch.frames → c.mode ≠ 2 → x.touch.contacts = [] → x.touch.selfs = [] →
        let nodes := putRaw x.touch.nodes (c.decode samples)
        ((∀ k < c.rows * c.cols, c.touched (nodes.getD k NodeSt.reset) = false) →
          ∃ t, exec frame s = .next t ∧ t.now = u ∧ t.mod.half0.touch.contacts = [] ∧ t.mod.half0.touch.held = none ∧
            t.mod.half0.get F.TCH_STATUS_CONTACTS = 0 ∧ s.mod.onlyHalf t.mod .h0) ∧
        (∀ k < c.rows * c.cols, (∀ j < c.rows * c.cols, c.touched (nodes.getD j NodeSt.reset) = decide (j = k)) →
          ∃ t y, exec frame s = .next t ∧ t.now = u ∧ t.mod.half0.touch.contacts = [y] ∧ y.ident = 0 ∧ y.cq = c.centroid nodes k ∧
            y.strength = (nodes.getD k NodeSt.reset).dm.toNat ∧ t.mod.half0.get F.TCH_STATUS_CONTACTS = 1 ∧
            s.mod.onlyHalf t.mod .h0)))) ∧
  (x.touch.held = none → exec .touchStatusWaitExpire s = .next s) ∧
  (let wr := x.get F.TCH_RINGPTR_WR
   let off := 2048 * x.get F.TCH_RING_BASE + 32 * wr
   x.reportRoom = true → s.mod.checkAccess .h0 (0x100600000 + off) (.words 8) mTouch .write = none →
    (∀ f r, x.touch.held = some f → f.reps = [r] → x.touch.resync = false →
      ∃ t flags word, exec .touchStatusWaitExpire s = .next t ∧ t.now = max s.now s.touchWait ∧ t.mod.half0.touch.held = none ∧
        memRead t.mod.half0.sram off 32 = repBytes f.frame r flags word f.stop ∧
        t.mod.half0.get F.TCH_RINGPTR_WR = (wr + 1) % 64 ∧ s.mod.onlyHalf t.mod .h0) ∧
    (x.touch.conf.isSome = true → x.touch.resync = true → x.touch.contacts = [] → x.touch.selfs = [] →
      ∃ t flags word, exec .ringRoomResync s = .next t ∧ t.mod.half0.touch.resync = false ∧
        memRead t.mod.half0.sram off 32 = repBytes (x.get F.TCH_FRAME_FRAME) resyncRep flags word (x.lb s.now) ∧
        t.mod.half0.get F.TCH_RINGPTR_WR = (wr + 1) % 64 ∧ s.mod.onlyHalf t.mod .h0)) ∧
  (x.touch.resync = false ∨ x.reportRoom = false → exec .ringRoomResync s = .next s)

/-- Keys and the scan of the rest state (R408 to R412), the lamplighter working. KEY_SAMPLE comes 1 ms after the last at the earliest. With
every other key steady, the eighth consecutive sample of key `k` that differs from its accepted level is accepted: the key takes the level
and a PRESS or RELEASE event enters the FIFO; a press of a wake key wakes a resting module with wake code 1; with fewer such samples
nothing is accepted. A key held for its LIMIT becomes STUCK with an event, once. A granted read of KEY_EVENT takes the oldest event. In the
rest state a scan of the chosen groups counts, one PERIOD after the last at the earliest; without VTCH it detects nothing, and a group above its
threshold in two consecutive scans wakes the module with code 2; with no group chosen the clock alone moves, and in any other phase nothing
changes. -/
def Obligations.Keys : Prop := ∀ s : State, s.mod.lamp.phase ≠ .noVaon → s.mod.lamp.stopped = false →
  let l := s.mod.lamp
  (∀ (levels k u : Nat), u = max s.now l.due.key →
    k < 16 → l.keys.length = 16 → l.events.length < 16 → (∀ j < 16, (l.key j).chatter = false) →
    (∀ j < 16, j ≠ k → (bitAt levels j != l.flag (F.KEY_CFG_ACTLOW j)) = (l.key j).active) →
    let act := bitAt levels k != l.flag (F.KEY_CFG_ACTLOW k)
    act ≠ (l.key k).active →
    (7 ≤ (l.key k).differ → ((l.key k).changes.filter fun c => decide (u < c + 1000000000)).length < 20 →
      (act = false ∨ l.flag (F.KEY_CFG_WAKE k) = false ∨ l.phase ≠ .rest →
        l.phase ≠ .waitWake → l.phase ≠ .restEntry →
        ∃ t, exec (.keySample levels) s = .next t ∧ t.now = u ∧ (t.mod.lamp.key k).active = act ∧ (t.mod.lamp.key k).differ = 0 ∧
          t.mod.lamp.due.key = u + 1000000 ∧
          t.mod.lamp.events = l.events ++ [if act then keyWord kePress k u false false
            else keyWord keRelease k u false (l.key k).stuck] ∧
          (∀ j < 16, j ≠ k → (t.mod.lamp.key j).active = (l.key j).active) ∧ t.mod.lamp.phase = l.phase) ∧
      (act = true → l.flag (F.KEY_CFG_WAKE k) = true → l.flag F.LMP_WAKE_KEYEN = true → l.phase = .rest →
        ∃ t, exec (.keySample levels) s = .next t ∧ (t.mod.lamp.key k).active = true ∧ t.mod.lamp.phase = .waitGood ∧
          t.mod.lamp.pwrEn = true ∧ t.mod.lamp.get F.LMP_WAKE_CAUSE = 1)) ∧
    ((l.key k).differ < 7 →
      ∃ t, exec (.keySample levels) s = .next t ∧ t.now = u ∧ (t.mod.lamp.key k).active = (l.key k).active ∧
        (t.mod.lamp.key k).differ = (l.key k).differ + 1 ∧ t.mod.lamp.events = l.events ∧ s.mod.onlyLamp t.mod)) ∧
  (∀ k < 16, l.keys.length = 16 →
    ((l.key k).active = true → (l.key k).chatter = false → (l.key k).stuck = false → l.get (F.KEY_CFG_LIMIT k) ≠ 0 →
      l.events.length < 16 →
      ∃ t, exec (.keyStuck k) s = .next t ∧ t.now = max s.now ((l.key k).since + l.get (F.KEY_CFG_LIMIT k) * 1000000000) ∧
        (t.mod.lamp.key k).stuck = true ∧
        t.mod.lamp.events = l.events ++ [keyWord keStuck k t.now false false]) ∧
    ((l.key k).active = false ∨ (l.key k).chatter = true ∨ (l.key k).stuck = true ∨ l.get (F.KEY_CFG_LIMIT k) = 0 →
      s.idles (.keyStuck k))) ∧
  (∀ master, s.mod.readable (s.mod.lampIssuer master) master (lampBase + F.KEY_EVENT_word.off) →
    exec (.keyEventRead master) s = .next { s with mod := { s.mod with lamp := { l with events := l.events.tail } } }) ∧
  (∀ (codes : List Nat) (u : Nat), u = max s.now l.due.scan →
    (l.phase = .rest → l.gangs ≠ [] →
      (supplyOut l.mv 8 = true → ∃ t, exec (.restScan codes) s = .next t ∧ t.now = u ∧ t.mod.lamp.phase = .rest ∧
        t.mod.lamp.get F.KEY_GANGSTAT_SCANS = (l.get F.KEY_GANGSTAT_SCANS + 1) % 2 ^ 16 ∧
        t.mod.lamp.get F.KEY_GANGSTAT_NOSUPPLY = 1 ∧ t.mod.lamp.gangHits = l.gangHits ∧ s.mod.onlyLamp t.mod) ∧
      (supplyOut l.mv 8 = false →
        ((∀ g < 3, l.gangHits.getD g 0 = 0) → ∃ t, exec (.restScan codes) s = .next t ∧ t.now = u ∧ t.mod.lamp.phase = .rest ∧
          t.mod.lamp.due.scan = u + l.gangPeriod ∧
          t.mod.lamp.get F.KEY_GANGSTAT_SCANS = (l.get F.KEY_GANGSTAT_SCANS + 1) % 2 ^ 16 ∧
          t.mod.lamp.get F.KEY_GANGSTAT_NOSUPPLY = 0 ∧ s.mod.onlyLamp t.mod) ∧
        (∀ g < 3, bitAt (l.get F.KEY_GANGCTRL_GROUPS) g = true → 1 ≤ l.gangHits.getD g 0 → g < l.gangHits.length →
          l.gangOver g (codes.getD g 0) = true → l.flag F.LMP_WAKE_TOUCHEN = true →
          ∃ t, exec (.restScan codes) s = .next t ∧ t.mod.lamp.phase = .waitGood ∧ t.mod.lamp.pwrEn = true ∧
            t.mod.lamp.get F.LMP_WAKE_CAUSE = 2))) ∧
    (l.phase = .rest → l.gangs = [] → s.idlesTo (.restScan codes) l.due.scan) ∧
    (l.phase ≠ .rest → exec (.restScan codes) s = .next s))

/-! ## The block as a whole -/

/-- With a command at the front of its queue the block's step is that command's effect on the state with the rest of the queue. -/
def Obligations.FrontOfQueue : Prop := ∀ (s : State) (c : Instr) (rest : List Instr),
  step { s with pending := c :: rest } = exec c { s with pending := rest }

/-- Every command answers a next state, leaves the queue as it is and never moves the clock back; with no command waiting a step moves
the clock by 40 ns and changes nothing else (the model's own choice: log entries 3 and 4). -/
def Obligations.EveryCommandAnswers : Prop :=
  (∀ (c : Instr) (s : State), ∃ t, exec c s = .next t ∧ t.pending = s.pending ∧ s.now ≤ t.now) ∧
  (∀ s : State, s.pending = [] → step s = .next { s with now := s.now + 40 })

/-- Reset. In the state after power-on no command waits, both halves are in reset, PWR_EN is low, every register of a half reads
the reset value of its table but RST_CAUSE, which holds cause 1, and the registers of half 1 that name the half; every register of the
lamplighter reads the reset value of its table, every byte of frame store and shared SRAM reads 0 (the model's choice: log entry 7), and the
memories and the key fuse are in the form that every step keeps. -/
def Obligations.ResetState : Prop :=
  let m := State.reset.mod
  State.reset.pending = [] ∧ m.half0.inReset = true ∧ m.half1.inReset = true ∧ m.lamp.pwrEn = false ∧ m.fuse = none ∧
  (∀ (h : HalfId) (off : Nat) (r : RegSpec), regSpec off = some r → off ≠ F.RST_CAUSE_word.off →
    (h = .h0 ∨ (off ≠ 4 ∧ (off < 0x50010 ∨ 0x5001C < off))) → (m.half h).reg off = r.reset) ∧
  (∀ h : HalfId, (m.half h).get F.RST_CAUSE_LAST = 1 ∧ (m.half h).get F.SYS_HALF_HALF = h.num) ∧
  (∀ (off : Nat) (r : RegSpec), lmpRegSpec off = some r → m.lamp.reg off = r.reset) ∧
  (∀ (h : HalfId) (a : Nat), sparseGet (fun _ => (0 : Byte)) (m.half h).fst a = 0 ∧ sparseGet (fun _ => (0 : Byte)) (m.half h).sram a = 0) ∧
  m.wf ∧ m.fuseOk

/-- Cells and batons read back as they were written (R102, R363): the 256 bytes of a cell begin with the mark 0xD5, carry a valid
CRC and give back its LSEQ, TYPE, header and payload; the 56 bytes of a baton payload give back every field of the baton. -/
def Obligations.CellAndBatonBytes : Prop :=
  (∀ (c : Cell) (lseq : Nat), c.type < 16 → lseq < 16 → c.hdr < 2 ^ 80 → c.payload.length = 240 →
    (c.bytes lseq).length = 256 ∧ byteAt (c.bytes lseq) 0 = 0xD5 ∧ cellCrcOk (c.bytes lseq) = true ∧
    Cell.parse (c.bytes lseq) = (lseq, c)) ∧
  (∀ b : Baton, b.bseq < 2 ^ 32 → b.lap < 2 ^ 32 → b.shedLap < 2 ^ 32 → b.scene < 256 → b.current < 256 → b.sceneLap < 2 ^ 32 →
    b.first < 2 ^ 32 → b.last < 2 ^ 32 → b.rangeLap < 2 ^ 32 → b.subMask < 4 → b.take < 256 → b.gLap < 2 ^ 32 → b.retLap < 2 ^ 32 →
    (∀ g ∈ [b.g0, b.g1], g.layer < 256 ∧ g.state < 256 ∧ g.alpha < 256) →
    b.bytes.length = 56 ∧ Baton.parse b.bytes = b)

/-- The line code (R99 to R101). A receiver in step with the transmitter's run of identical line bits reads from the line exactly the
data bits sent, without a stuff error, and stays in step: every one of them when it holds the last 58 line bits that the
transmitter holds, and all from the 59th on when it has taken no bit yet, whatever it held before. No run of 25 identical bits is sent. -/
def Obligations.LineCode : Prop := ∀ (x : LaneTx) (r : LaneRx) (data : List Bool),
  x.runLen < 24 → r.runLen = x.runLen → r.runBit = x.runBit →
  let sent := (x.bits data).line
  let z := r.bits sent
  (x.bits data).runLen < 24 ∧ z.1.runLen = (x.bits data).runLen ∧ z.1.runBit = (x.bits data).runBit ∧ z.2 = 0 ∧
  data.length ≤ sent.length ∧ 24 * (sent.length - data.length) ≤ sent.length + x.runLen ∧
  (58 ≤ r.fill → r.taps = x.taps → z.1.buf.map (fun b => b.1) = r.buf.map (fun b => b.1) ++ data ∧ z.1.taps = (x.bits data).taps) ∧
  (r.fill = 0 → z.1.buf.map (fun b => b.1) = r.buf.map (fun b => b.1) ++ data.drop 58 ∧
    (58 ≤ data.length → z.1.taps = (x.bits data).taps)) ∧
  (∀ pre post b, sent ≠ pre ++ List.replicate 25 b ++ post)

/-- The key fuse (R80, R387). No step changes a key fuse once it is programmed; a step programs a blank one only in recovery mode; and from a
state where the fuse is blank or holds 32 bytes that are not all zero, a step leads to such a state. -/
def Obligations.KeyFuseKept : Prop := ∀ s t : State, step s = .next t →
  (∀ d, s.mod.fuse = some d → t.mod.fuse = some d) ∧
  (t.mod.fuse ≠ s.mod.fuse → s.mod.fuse = none ∧ s.mod.lamp.phase = .recovery) ∧
  (s.mod.fuseOk → t.mod.fuseOk)
end

