-- ==== Sys2Proof/Laws/Sparse.lean ====
section
/-!
SUPPORT. Laws of sparse storage: a read after a write to the same address gives the value written, a write leaves every other
address alone, and every operation keeps the canonical form.
-/
namespace Sys2Proof.Machine

variable {α : Type}

/-- Below the lowest listed address everything reads as unlisted. -/
theorem sparseGet_below [DecidableEq α] (d : Nat → α) (l : List (Nat × α)) (b a : Nat) (h : sparseAbove d b l = true) (ha : a ≤ b) :
    sparseGet d l a = d a := by
  cases l with
  | nil => rfl
  | cons c rest =>
    obtain ⟨k, v⟩ := c
    simp only [sparseAbove, Bool.and_eq_true, decide_eq_true_eq] at h
    have : a ≠ k := by omega
    have : a < k := by omega
    simp [sparseGet, *]

/-- Being above a bound weakens with the bound. -/
theorem sparseAbove_le [DecidableEq α] (d : Nat → α) (l : List (Nat × α)) (b c : Nat) (h : sparseAbove d b l = true) (hc : c ≤ b) :
    sparseAbove d c l = true := by
  cases l with
  | nil => rfl
  | cons x rest =>
    obtain ⟨k, v⟩ := x
    simp only [sparseAbove, Bool.and_eq_true, decide_eq_true_eq] at h ⊢
    exact ⟨⟨by omega, h.1.2⟩, h.2⟩

/-- A canonical list of pairs above a bound is canonical. -/
theorem sparseWf_of_above [DecidableEq α] (d : Nat → α) (l : List (Nat × α)) (b : Nat) (h : sparseAbove d b l = true) :
    sparseWf d l = true := by
  cases l with
  | nil => rfl
  | cons x rest =>
    obtain ⟨k, v⟩ := x
    simp only [sparseAbove, Bool.and_eq_true] at h
    simp only [sparseWf, Bool.and_eq_true]
    exact ⟨h.1.2, h.2⟩

/-- Pairs above a bound all lie after it. -/
theorem sparseAfter_above [DecidableEq α] (d : Nat → α) (l : List (Nat × α)) (a : Nat) (h : sparseAbove d a l = true) :
    sparseAfter a l = l := by
  cases l with
  | nil => rfl
  | cons c rest =>
    obtain ⟨k, v⟩ := c
    simp only [sparseAbove, Bool.and_eq_true, decide_eq_true_eq] at h
    have : ¬ k ≤ a := by omega
    simp [sparseAfter, this]

/-- Nothing is listed at an address or below it among the pairs after it. -/
theorem sparseGet_after_self (d : Nat → α) (l : List (Nat × α)) (a : Nat) : sparseGet d (sparseAfter a l) a = d a := by
  induction l with
  | nil => rfl
  | cons c rest ih =>
    obtain ⟨k, v⟩ := c
    simp only [sparseAfter]
    split
    · exact ih
    · have : a ≠ k := by omega
      have : a < k := by omega
      simp [sparseGet, *]

/-- The pairs after an address read below it as unlisted. -/
theorem sparseGet_after_below (d : Nat → α) (l : List (Nat × α)) (a c : Nat) (hc : c < a) : sparseGet d (sparseAfter a l) c = d c := by
  induction l with
  | nil => rfl
  | cons x rest ih =>
    obtain ⟨k, v⟩ := x
    simp only [sparseAfter]
    split
    · exact ih
    · have : c ≠ k := by omega
      have : c < k := by omega
      simp [sparseGet, *]

/-- The pairs after an address read above it as the whole list does. -/
theorem sparseGet_after_above (d : Nat → α) (l : List (Nat × α)) (a c : Nat) (hc : a < c) :
    sparseGet d (sparseAfter a l) c = sparseGet d l c := by
  induction l with
  | nil => rfl
  | cons x rest ih =>
    obtain ⟨k, v⟩ := x
    simp only [sparseAfter]
    split
    · have : c ≠ k := by omega
      have : ¬ c < k := by omega
      simp [sparseGet, *]
    · rfl

/-- A read after a write to the same address gives the value written. -/
theorem sparseGet_put_same [DecidableEq α] (d : Nat → α) (l : List (Nat × α)) (a : Nat) (v : α) :
    sparseGet d (sparsePut d l a v) a = v := by
  induction l with
  | nil => by_cases hv : v = d a <;> simp [sparsePut, sparseGet, hv]
  | cons c rest ih =>
    obtain ⟨k, w⟩ := c
    simp only [sparsePut]
    split
    · subst_vars
      split
      · rename_i hv
        rw [sparseGet_after_self, hv]
      · simp [sparseGet]
    · split
      · split
        · simp [sparseGet, *]
        · simp [sparseGet]
      · simp [sparseGet, *]

/-- A write leaves every other address alone. -/
theorem sparseGet_put_other [DecidableEq α] (d : Nat → α) (l : List (Nat × α)) (a c : Nat) (v : α) (hc : c ≠ a) :
    sparseGet d (sparsePut d l a v) c = sparseGet d l c := by
  induction l with
  | nil => by_cases hv : v = d a <;> simp [sparsePut, sparseGet, hv, hc]
  | cons x rest ih =>
    obtain ⟨k, w⟩ := x
    simp only [sparsePut]
    split
    · subst_vars
      split
      · simp only [sparseGet, if_neg hc]
        split
        · exact sparseGet_after_below d rest _ _ ‹_›
        · exact sparseGet_after_above d rest _ _ (by omega)
      · simp [sparseGet, hc]
    · split
      · split
        · rfl
        · simp only [sparseGet, if_neg hc]
          split
          · have : c ≠ k := by omega
            have : c < k := by omega
            simp [*]
          · rfl
      · simp only [sparseGet]
        split
        · rfl
        · split
          · rfl
          · exact ih

/-- A write above a bound stays above it. -/
theorem sparsePut_above [DecidableEq α] (d : Nat → α) (l : List (Nat × α)) (b a : Nat) (v : α) (h : sparseAbove d b l = true)
    (ha : b < a) : sparseAbove d b (sparsePut d l a v) = true := by
  induction l generalizing b with
  | nil =>
    by_cases hv : v = d a <;> simp [sparsePut, sparseAbove, hv, ha]
  | cons c rest ih =>
    obtain ⟨k, w⟩ := c
    simp only [sparseAbove, Bool.and_eq_true, decide_eq_true_eq] at h
    obtain ⟨⟨hb, hw⟩, hr⟩ := h
    simp only [sparsePut]
    split
    · subst_vars
      split
      · rw [sparseAfter_above d rest _ hr]
        exact sparseAbove_le d rest _ _ hr (by omega)
      · simp [sparseAbove, *]
    · split
      · split
        · simp [sparseAbove, *]
        · simp [sparseAbove, *]
      · have := ih k hr (by omega)
        simp [sparseAbove, *]

/-- A write keeps the canonical form. -/
theorem sparsePut_wf [DecidableEq α] (d : Nat → α) (l : List (Nat × α)) (a : Nat) (v : α) (h : sparseWf d l = true) :
    sparseWf d (sparsePut d l a v) = true := by
  cases l with
  | nil => by_cases hv : v = d a <;> simp [sparsePut, sparseWf, sparseAbove, hv]
  | cons c rest =>
    obtain ⟨k, w⟩ := c
    simp only [sparseWf, Bool.and_eq_true, decide_eq_true_eq] at h
    simp only [sparsePut]
    split
    · subst_vars
      split
      · rw [sparseAfter_above d rest _ h.2]
        exact sparseWf_of_above d rest _ h.2
      · simp [sparseWf, *]
    · split
      · split <;> simp [sparseWf, sparseAbove, *]
      · have := sparsePut_above d rest k a v h.2 (by omega)
        simp [sparseWf, *]

/-- Clearing addresses above a bound stays above it. -/
theorem sparseClear_above [DecidableEq α] (d : Nat → α) (p : Nat → Bool) (l : List (Nat × α)) (b : Nat)
    (h : sparseAbove d b l = true) : sparseAbove d b (sparseClear p l) = true := by
  induction l generalizing b with
  | nil => rfl
  | cons x rest ih =>
    obtain ⟨k, w⟩ := x
    simp only [sparseAbove, Bool.and_eq_true, decide_eq_true_eq] at h
    have hr := ih k h.2
    simp only [sparseClear, List.filter] at hr ⊢
    split
    · simp only [sparseAbove, Bool.and_eq_true, decide_eq_true_eq]
      exact ⟨h.1, hr⟩
    · exact sparseAbove_le d _ _ _ hr (by omega)

/-- Clearing addresses keeps the canonical form. -/
theorem sparseClear_wf [DecidableEq α] (d : Nat → α) (p : Nat → Bool) (l : List (Nat × α)) (h : sparseWf d l = true) :
    sparseWf d (sparseClear p l) = true := by
  cases l with
  | nil => rfl
  | cons x rest =>
    obtain ⟨k, w⟩ := x
    simp only [sparseWf, Bool.and_eq_true, decide_eq_true_eq] at h
    have hr := sparseClear_above d p rest k h.2
    simp only [sparseClear, List.filter] at hr ⊢
    split
    · simp only [sparseWf, Bool.and_eq_true, decide_eq_true_eq]
      exact ⟨h.1, hr⟩
    · exact sparseWf_of_above d _ _ hr

/-! ## Memories -/

/-- A write of bytes keeps the canonical form of a memory. -/
theorem memWrite_wf (m : List (Nat × Byte)) (a : Nat) (bs : List Byte) (h : Memory.wf m = true) : Memory.wf (memWrite m a bs) = true := by
  induction bs generalizing m a with
  | nil => exact h
  | cons b rest ih => exact ih _ _ (sparsePut_wf _ m a b h)

/-- Clearing addresses keeps the canonical form of a memory. -/
theorem memClear_wf (p : Nat → Bool) (m : List (Nat × Byte)) (h : Memory.wf m = true) : Memory.wf (sparseClear p m) = true :=
  sparseClear_wf _ p m h

/-- A write of bytes leaves every address outside them alone. -/
theorem memWrite_other (m : List (Nat × Byte)) (a c : Nat) (bs : List Byte) (hc : c < a ∨ a + bs.length ≤ c) :
    sparseGet (fun _ => 0) (memWrite m a bs) c = sparseGet (fun _ => 0) m c := by
  induction bs generalizing m a with
  | nil => rfl
  | cons b rest ih =>
    simp only [List.length_cons] at hc
    show sparseGet _ (memWrite (sparsePut _ m a b) (a + 1) rest) c = _
    rw [ih _ _ (by omega)]
    exact sparseGet_put_other _ m a c b (by omega)

/-- A read of the bytes just written gives them. -/
theorem memRead_memWrite (m : List (Nat × Byte)) (a : Nat) (bs : List Byte) : memRead (memWrite m a bs) a bs.length = bs := by
  induction bs generalizing m a with
  | nil => rfl
  | cons b rest ih =>
    show sparseGet _ (memWrite (sparsePut _ m a b) (a + 1) rest) a :: memRead (memWrite (sparsePut _ m a b) (a + 1) rest) (a + 1) _ = _
    rw [ih, memWrite_other _ (a + 1) a rest (by omega), sparseGet_put_same _ m a b]

/-- A read of bytes outside those written gives what it gave. -/
theorem memRead_memWrite_other (m : List (Nat × Byte)) (a c n : Nat) (bs : List Byte) (hc : c + n ≤ a ∨ a + bs.length ≤ c) :
    memRead (memWrite m a bs) c n = memRead m c n := by
  induction n generalizing c with
  | zero => rfl
  | succ n ih =>
    show sparseGet _ (memWrite m a bs) c :: memRead (memWrite m a bs) (c + 1) n = _
    by_cases hb : bs = []
    · subst hb; rfl
    · rw [memWrite_other _ a c bs (by omega), ih (c + 1) (by omega)]
      rfl

end Sys2Proof.Machine
end

