-- ==== Sys2Proof/Laws/Word.lean ====
section
/-!
SUPPORT. Laws of bit fields, of the sequence comparison and of byte strings.
-/
namespace Sys2Proof

/-- A field of a number is below its width. -/
theorem bitsAt_lt (v lo n : Nat) : bitsAt v lo n < 2 ^ n := Nat.mod_lt _ (Nat.two_pow_pos n)

/-- A number is its part above a field, the field and its part below it. -/
theorem bitsAt_split (v lo n : Nat) : v = v / 2 ^ (lo + n) * 2 ^ (lo + n) + bitsAt v lo n * 2 ^ lo + v % 2 ^ lo := by
  have h1 : v / 2 ^ lo = v / 2 ^ (lo + n) * 2 ^ n + bitsAt v lo n := by
    unfold bitsAt
    rw [Nat.pow_add, ← Nat.div_div_eq_div_mul]
    have := Nat.div_add_mod (v / 2 ^ lo) (2 ^ n)
    rw [Nat.mul_comm] at this
    exact this.symm
  have h2 := Nat.div_add_mod v (2 ^ lo)
  conv_lhs => rw [← h2, h1]
  rw [Nat.pow_add]
  ring

/-- The number with a field replaced. -/
def replaceBits (v lo n x : Nat) : Nat := v - bitsAt v lo n * 2 ^ lo + x % 2 ^ n * 2 ^ lo

/-- The number with a field replaced, in its three parts. -/
theorem replaceBits_split (v lo n x : Nat) :
    replaceBits v lo n x = v / 2 ^ (lo + n) * 2 ^ (lo + n) + (x % 2 ^ n * 2 ^ lo + v % 2 ^ lo) := by
  unfold replaceBits
  conv_lhs => rw [bitsAt_split v lo n]
  have h : bitsAt (v / 2 ^ (lo + n) * 2 ^ (lo + n) + bitsAt v lo n * 2 ^ lo + v % 2 ^ lo) lo n = bitsAt v lo n := by
    rw [← bitsAt_split]
  rw [h]
  omega

/-- The low part under a field with the field is below the power above it. -/
theorem field_low_lt (v lo n x : Nat) : x % 2 ^ n * 2 ^ lo + v % 2 ^ lo < 2 ^ (lo + n) := by
  have h1 : x % 2 ^ n < 2 ^ n := Nat.mod_lt _ (Nat.two_pow_pos n)
  have h2 : v % 2 ^ lo < 2 ^ lo := Nat.mod_lt _ (Nat.two_pow_pos lo)
  have h3 : x % 2 ^ n + 1 ≤ 2 ^ n := h1
  calc x % 2 ^ n * 2 ^ lo + v % 2 ^ lo < x % 2 ^ n * 2 ^ lo + 2 ^ lo := by omega
    _ = (x % 2 ^ n + 1) * 2 ^ lo := by ring
    _ ≤ 2 ^ n * 2 ^ lo := Nat.mul_le_mul_right _ h3
    _ = 2 ^ (lo + n) := by rw [Nat.pow_add, Nat.mul_comm]

/-- The replaced field reads as the new value. -/
theorem bitsAt_replaceBits (v lo n x : Nat) : bitsAt (replaceBits v lo n x) lo n = x % 2 ^ n := by
  rw [replaceBits_split]
  unfold bitsAt
  have : v / 2 ^ (lo + n) * 2 ^ (lo + n) + (x % 2 ^ n * 2 ^ lo + v % 2 ^ lo)
      = v % 2 ^ lo + 2 ^ lo * (v / 2 ^ (lo + n) * 2 ^ n + x % 2 ^ n) := by
    rw [Nat.pow_add]; ring
  rw [this, Nat.add_mul_div_left _ _ (Nat.two_pow_pos lo), Nat.div_eq_of_lt (Nat.mod_lt _ (Nat.two_pow_pos lo)), Nat.zero_add,
    Nat.mul_comm, Nat.mul_add_mod, Nat.mod_mod]

/-- A field wholly below a replaced one reads as before. -/
theorem bitsAt_replaceBits_below (v lo n x b k : Nat) (h : b + k ≤ lo) : bitsAt (replaceBits v lo n x) b k = bitsAt v b k := by
  have low (w : Nat) : bitsAt w b k = bitsAt (w % 2 ^ lo) b k := by
    unfold bitsAt
    obtain ⟨c, rfl⟩ := Nat.exists_eq_add_of_le h
    rw [Nat.pow_add, Nat.pow_add, Nat.mul_assoc, Nat.mod_mul_right_div_self, Nat.mod_mul_right_mod]
  rw [low, low v, replaceBits_split]
  congr 1
  have : v / 2 ^ (lo + n) * 2 ^ (lo + n) + (x % 2 ^ n * 2 ^ lo + v % 2 ^ lo)
      = v % 2 ^ lo + 2 ^ lo * (v / 2 ^ (lo + n) * 2 ^ n + x % 2 ^ n) := by
    rw [Nat.pow_add]; ring
  rw [this, Nat.add_mul_mod_self_left, Nat.mod_mod]

/-- A field wholly above a replaced one reads as before. -/
theorem bitsAt_replaceBits_above (v lo n x b k : Nat) (h : lo + n ≤ b) : bitsAt (replaceBits v lo n x) b k = bitsAt v b k := by
  have high : replaceBits v lo n x / 2 ^ (lo + n) = v / 2 ^ (lo + n) := by
    rw [replaceBits_split, Nat.mul_comm, Nat.mul_add_div (Nat.two_pow_pos _), Nat.div_eq_of_lt (field_low_lt v lo n x)]
    omega
  obtain ⟨c, rfl⟩ := Nat.exists_eq_add_of_le h
  unfold bitsAt
  rw [Nat.pow_add, ← Nat.div_div_eq_div_mul, ← Nat.div_div_eq_div_mul, high]

/-- A replaced field of a 32-bit number leaves it a 32-bit number. -/
theorem replaceBits_lt (v lo n x : Nat) (hv : v < 2 ^ 32) (h : lo + n ≤ 32) : replaceBits v lo n x < 2 ^ 32 := by
  have hd : v / 2 ^ (lo + n) < 2 ^ (32 - (lo + n)) := by
    rw [Nat.div_lt_iff_lt_mul (Nat.two_pow_pos _), ← Nat.pow_add]
    have : 32 - (lo + n) + (lo + n) = 32 := by omega
    rw [this]; exact hv
  rw [replaceBits_split]
  have h3 : v / 2 ^ (lo + n) + 1 ≤ 2 ^ (32 - (lo + n)) := hd
  calc _ < v / 2 ^ (lo + n) * 2 ^ (lo + n) + 2 ^ (lo + n) := by have := field_low_lt v lo n x; omega
    _ = (v / 2 ^ (lo + n) + 1) * 2 ^ (lo + n) := by ring
    _ ≤ 2 ^ (32 - (lo + n)) * 2 ^ (lo + n) := Nat.mul_le_mul_right _ h3
    _ = 2 ^ 32 := by rw [← Nat.pow_add]; congr 1; omega

@[simp] theorem bit_true : bit true = 1 := rfl
@[simp] theorem bit_false : bit false = 0 := rfl

/-- A string of `n` little-endian bytes has `n` bytes. -/
@[simp] theorem leBytes_length (n v : Nat) : (leBytes n v).length = n := by
  induction n generalizing v with
  | zero => rfl
  | succ n ih => simp [leBytes, ih]

/-- A string of `n` big-endian bytes has `n` bytes. -/
@[simp] theorem beBytes_length (n v : Nat) : (beBytes n v).length = n := by simp [beBytes]

/-- The little-endian value of a little-endian string. -/
theorem leVal_leBytes (n v : Nat) : leVal (leBytes n v) = v % 256 ^ n := by
  induction n generalizing v with
  | zero => simp [leBytes, leVal, Nat.mod_one]
  | succ n ih =>
    simp only [leBytes, leVal, ih, BitVec.toNat_ofNat]
    have h : v % 256 ^ (n + 1) = v % 256 + 256 * (v / 256 % 256 ^ n) := by
      rw [Nat.pow_succ, Nat.mul_comm (256 ^ n) 256, Nat.mod_mul]
    omega

/-- The little-endian string of the value of a string of its length. -/
theorem leBytes_leVal (bs : List Byte) : leBytes bs.length (leVal bs) = bs := by
  induction bs with
  | nil => rfl
  | cons b rest ih =>
    have hb : b.toNat < 256 := b.isLt
    have h1 : (b.toNat + 256 * leVal rest) / 256 = leVal rest := by omega
    have h2 : BitVec.ofNat 8 (b.toNat + 256 * leVal rest) = b := by
      apply BitVec.eq_of_toNat_eq
      simp only [BitVec.toNat_ofNat]
      omega
    simp only [List.length_cons, leBytes, leVal, h1, h2, ih]

end Sys2Proof
end

