-- ==== Sys2Proof/Laws/Regs.lean ====
section
/-!
SUPPORT. Laws of registers and their fields: a field just set reads as the value set, every other field reads as before.
-/
namespace Sys2Proof.Machine

/-- A field lies within a word. -/
abbrev Field.fits (f : Field) : Prop := f.lo + f.width ≤ 32

/-- Two fields share no bit. -/
abbrev Field.apart (f g : Field) : Prop := f.off ≠ g.off ∨ g.lo + g.width ≤ f.lo ∨ f.lo + f.width ≤ g.lo

/-- The number of a word with a field put in. -/
theorem putBits_toNat (w : Word) (lo n v : Nat) (h : lo + n ≤ 32) : (putBits w lo n v).toNat = replaceBits w.toNat lo n v := by
  have := replaceBits_lt w.toNat lo n v w.isLt h
  unfold putBits
  rw [BitVec.toNat_ofNat]
  exact Nat.mod_eq_of_lt this

/-- The field put into a word reads as its value. -/
theorem bitsAt_putBits (w : Word) (lo n v : Nat) (h : lo + n ≤ 32) : bitsAt (putBits w lo n v).toNat lo n = v % 2 ^ n := by
  rw [putBits_toNat w lo n v h, bitsAt_replaceBits]

/-- Another field of the word reads as before. -/
theorem bitsAt_putBits_other (w : Word) (lo n v b k : Nat) (h : lo + n ≤ 32) (hb : b + k ≤ lo ∨ lo + n ≤ b) :
    bitsAt (putBits w lo n v).toNat b k = bitsAt w.toNat b k := by
  rw [putBits_toNat w lo n v h]
  rcases hb with hb | hb
  · exact bitsAt_replaceBits_below _ _ _ _ _ _ hb
  · exact bitsAt_replaceBits_above _ _ _ _ _ _ hb

/-! ## Registers of a half -/

@[simp] theorem Half.reg_setReg_same (h : Half) (off : Nat) (w : Word) : (h.setReg off w).reg off = w :=
  sparseGet_put_same _ _ _ _

theorem Half.reg_setReg_other (h : Half) (off o : Nat) (w : Word) (ho : o ≠ off) : (h.setReg off w).reg o = h.reg o :=
  sparseGet_put_other _ _ _ _ _ ho

/-- The register word of a field just set. -/
theorem Half.reg_set_same (h : Half) (f : Field) (v : Nat) : (h.set f v).reg f.off = putBits (h.reg f.off) f.lo f.width v :=
  Half.reg_setReg_same _ _ _

/-- A register other than that of the field set holds what it held. -/
theorem Half.reg_set_other (h : Half) (f : Field) (v o : Nat) (ho : o ≠ f.off) : (h.set f v).reg o = h.reg o :=
  Half.reg_setReg_other _ _ _ _ ho

/-- A field just set reads as the value set. -/
theorem Half.get_set_same (h : Half) (f : Field) (v : Nat) (hf : f.fits) : (h.set f v).get f = v % 2 ^ f.width := by
  unfold Half.get
  rw [Half.reg_set_same]
  exact bitsAt_putBits _ _ _ _ hf

/-- A field apart from the one set reads as before. -/
theorem Half.get_set_other (h : Half) (f g : Field) (v : Nat) (hf : f.fits) (hg : f.apart g) : (h.set f v).get g = h.get g := by
  unfold Half.get
  by_cases ho : g.off = f.off
  · rw [ho, Half.reg_set_same]
    refine bitsAt_putBits_other _ _ _ _ _ _ hf ?_
    rcases hg with hg | hg | hg
    · exact absurd ho.symm hg
    · exact Or.inl hg
    · exact Or.inr hg
  · rw [Half.reg_set_other _ _ _ _ ho]

/-- A value that fits its field reads back as itself. -/
theorem Half.get_set_of_lt (h : Half) (f : Field) (v : Nat) (hf : f.fits) (hv : v < 2 ^ f.width) : (h.set f v).get f = v := by
  rw [Half.get_set_same _ _ _ hf, Nat.mod_eq_of_lt hv]

/-- A one-bit field set from a Boolean. -/
theorem Half.get_setFlag_same (h : Half) (f : Field) (b : Bool) (hf : f.fits) (hw : f.width = 1) : (h.setFlag f b).get f = bit b := by
  unfold Half.setFlag
  rw [Half.get_set_same _ _ _ hf, hw]
  cases b <;> rfl

/-- A field apart from the one-bit field set reads as before. -/
theorem Half.get_setFlag_other (h : Half) (f g : Field) (b : Bool) (hf : f.fits) (hg : f.apart g) : (h.setFlag f b).get g = h.get g :=
  Half.get_set_other _ _ _ _ hf hg

/-- A tally steps by what is added, and stops at its highest value. -/
theorem Half.get_tally_same (h : Half) (f : Field) (n : Nat) (hf : f.fits) : (h.tally f n).get f = satAdd f.width (h.get f) n := by
  unfold Half.tally
  rw [Half.get_set_same _ _ _ hf, Nat.mod_eq_of_lt]
  have := Nat.two_pow_pos f.width
  unfold satAdd
  omega

/-- A field apart from the tally reads as before. -/
theorem Half.get_tally_other (h : Half) (f g : Field) (n : Nat) (hf : f.fits) (hg : f.apart g) : (h.tally f n).get g = h.get g :=
  Half.get_set_other _ _ _ _ hf hg

/-- A field apart from the one of which a bit is set reads as before. -/
theorem Half.get_setBit_other (h : Half) (f g : Field) (i : Nat) (b : Bool) (hf : f.fits) (hg : f.apart g) :
    (h.setBit f i b).get g = h.get g :=
  Half.get_set_other _ _ _ _ hf hg

/-- A field is below the power of its width. -/
theorem Half.get_lt (h : Half) (f : Field) : h.get f < 2 ^ f.width := bitsAt_lt _ _ _

/-- The fields of a half are those of its registers. -/
theorem Half.get_congr (h k : Half) (f : Field) (hr : h.reg f.off = k.reg f.off) : h.get f = k.get f := by
  unfold Half.get
  rw [hr]

/-! ## Registers of the lamplighter -/

@[simp] theorem Lamp.reg_setReg_same (l : Lamp) (off : Nat) (w : Word) : (l.setReg off w).reg off = w :=
  sparseGet_put_same _ _ _ _

theorem Lamp.reg_setReg_other (l : Lamp) (off o : Nat) (w : Word) (ho : o ≠ off) : (l.setReg off w).reg o = l.reg o :=
  sparseGet_put_other _ _ _ _ _ ho

/-- The register word of a lamplighter field just set. -/
theorem Lamp.reg_set_same (l : Lamp) (f : Field) (v : Nat) : (l.set f v).reg f.off = putBits (l.reg f.off) f.lo f.width v :=
  Lamp.reg_setReg_same _ _ _

theorem Lamp.reg_set_other (l : Lamp) (f : Field) (v o : Nat) (ho : o ≠ f.off) : (l.set f v).reg o = l.reg o :=
  Lamp.reg_setReg_other _ _ _ _ ho

/-- A lamplighter field just set reads as the value set. -/
theorem Lamp.get_set_same (l : Lamp) (f : Field) (v : Nat) (hf : f.fits) : (l.set f v).get f = v % 2 ^ f.width := by
  unfold Lamp.get
  rw [Lamp.reg_set_same]
  exact bitsAt_putBits _ _ _ _ hf

/-- A lamplighter field apart from the one set reads as before. -/
theorem Lamp.get_set_other (l : Lamp) (f g : Field) (v : Nat) (hf : f.fits) (hg : f.apart g) : (l.set f v).get g = l.get g := by
  unfold Lamp.get
  by_cases ho : g.off = f.off
  · rw [ho, Lamp.reg_set_same]
    refine bitsAt_putBits_other _ _ _ _ _ _ hf ?_
    rcases hg with hg | hg | hg
    · exact absurd ho.symm hg
    · exact Or.inl hg
    · exact Or.inr hg
  · rw [Lamp.reg_set_other _ _ _ _ ho]

/-- A value that fits its lamplighter field reads back as itself. -/
theorem Lamp.get_set_of_lt (l : Lamp) (f : Field) (v : Nat) (hf : f.fits) (hv : v < 2 ^ f.width) : (l.set f v).get f = v := by
  rw [Lamp.get_set_same _ _ _ hf, Nat.mod_eq_of_lt hv]

theorem Lamp.get_setFlag_other (l : Lamp) (f g : Field) (b : Bool) (hf : f.fits) (hg : f.apart g) : (l.setFlag f b).get g = l.get g :=
  Lamp.get_set_other _ _ _ _ hf hg

/-- A lamplighter field is below the power of its width. -/
theorem Lamp.get_lt (l : Lamp) (f : Field) : l.get f < 2 ^ f.width := bitsAt_lt _ _ _

end Sys2Proof.Machine
end

