-- ==== Sys2Proof/Laws/State.lean ====
section
/-!
SUPPORT. What each named update of the state leaves alone: one lemma per field per update, true by computation.
-/
namespace Sys2Proof.Machine

/-! Half.setReg changes registers only. -/
@[simp] theorem Half.setReg_id (h : Half) (o : Nat) (w : Word) : (h.setReg o w).id = h.id := rfl
@[simp] theorem Half.setReg_inReset (h : Half) (o : Nat) (w : Word) : (h.setReg o w).inReset = h.inReset := rfl
@[simp] theorem Half.setReg_epoch (h : Half) (o : Nat) (w : Word) : (h.setReg o w).epoch = h.epoch := rfl
@[simp] theorem Half.setReg_free (h : Half) (o : Nat) (w : Word) : (h.setReg o w).free = h.free := rfl
@[simp] theorem Half.setReg_lapBegun (h : Half) (o : Nat) (w : Word) : (h.setReg o w).lapBegun = h.lapBegun := rfl
@[simp] theorem Half.setReg_fst (h : Half) (o : Nat) (w : Word) : (h.setReg o w).fst = h.fst := rfl
@[simp] theorem Half.setReg_sram (h : Half) (o : Nat) (w : Word) : (h.setReg o w).sram = h.sram := rfl
@[simp] theorem Half.setReg_starter (h : Half) (o : Nat) (w : Word) : (h.setReg o w).starter = h.starter := rfl
@[simp] theorem Half.setReg_link (h : Half) (o : Nat) (w : Word) : (h.setReg o w).link = h.link := rfl
@[simp] theorem Half.setReg_engines (h : Half) (o : Nat) (w : Word) : (h.setReg o w).engines = h.engines := rfl
@[simp] theorem Half.setReg_flt (h : Half) (o : Nat) (w : Word) : (h.setReg o w).flt = h.flt := rfl
@[simp] theorem Half.setReg_time (h : Half) (o : Nat) (w : Word) : (h.setReg o w).time = h.time := rfl
@[simp] theorem Half.setReg_host (h : Half) (o : Nat) (w : Word) : (h.setReg o w).host = h.host := rfl
@[simp] theorem Half.setReg_port (h : Half) (o : Nat) (w : Word) : (h.setReg o w).port = h.port := rfl
@[simp] theorem Half.setReg_rings (h : Half) (o : Nat) (w : Word) : (h.setReg o w).rings = h.rings := rfl
@[simp] theorem Half.setReg_cvu (h : Half) (o : Nat) (w : Word) : (h.setReg o w).cvu = h.cvu := rfl
@[simp] theorem Half.setReg_pace (h : Half) (o : Nat) (w : Word) : (h.setReg o w).pace = h.pace := rfl
@[simp] theorem Half.setReg_image (h : Half) (o : Nat) (w : Word) : (h.setReg o w).image = h.image := rfl
@[simp] theorem Half.setReg_load (h : Half) (o : Nat) (w : Word) : (h.setReg o w).load = h.load := rfl
@[simp] theorem Half.setReg_sources (h : Half) (o : Nat) (w : Word) : (h.setReg o w).sources = h.sources := rfl
@[simp] theorem Half.setReg_store (h : Half) (o : Nat) (w : Word) : (h.setReg o w).store = h.store := rfl
@[simp] theorem Half.setReg_lap (h : Half) (o : Nat) (w : Word) : (h.setReg o w).lap = h.lap := rfl
@[simp] theorem Half.setReg_acts (h : Half) (o : Nat) (w : Word) : (h.setReg o w).acts = h.acts := rfl
@[simp] theorem Half.setReg_panel (h : Half) (o : Nat) (w : Word) : (h.setReg o w).panel = h.panel := rfl
@[simp] theorem Half.setReg_latch (h : Half) (o : Nat) (w : Word) : (h.setReg o w).latch = h.latch := rfl
@[simp] theorem Half.setReg_touch (h : Half) (o : Nat) (w : Word) : (h.setReg o w).touch = h.touch := rfl

/-! Half.set changes registers only. -/
@[simp] theorem Half.set_id (h : Half) (f : Field) (v : Nat) : (h.set f v).id = h.id := rfl
@[simp] theorem Half.set_inReset (h : Half) (f : Field) (v : Nat) : (h.set f v).inReset = h.inReset := rfl
@[simp] theorem Half.set_epoch (h : Half) (f : Field) (v : Nat) : (h.set f v).epoch = h.epoch := rfl
@[simp] theorem Half.set_free (h : Half) (f : Field) (v : Nat) : (h.set f v).free = h.free := rfl
@[simp] theorem Half.set_lapBegun (h : Half) (f : Field) (v : Nat) : (h.set f v).lapBegun = h.lapBegun := rfl
@[simp] theorem Half.set_fst (h : Half) (f : Field) (v : Nat) : (h.set f v).fst = h.fst := rfl
@[simp] theorem Half.set_sram (h : Half) (f : Field) (v : Nat) : (h.set f v).sram = h.sram := rfl
@[simp] theorem Half.set_starter (h : Half) (f : Field) (v : Nat) : (h.set f v).starter = h.starter := rfl
@[simp] theorem Half.set_link (h : Half) (f : Field) (v : Nat) : (h.set f v).link = h.link := rfl
@[simp] theorem Half.set_engines (h : Half) (f : Field) (v : Nat) : (h.set f v).engines = h.engines := rfl
@[simp] theorem Half.set_flt (h : Half) (f : Field) (v : Nat) : (h.set f v).flt = h.flt := rfl
@[simp] theorem Half.set_time (h : Half) (f : Field) (v : Nat) : (h.set f v).time = h.time := rfl
@[simp] theorem Half.set_host (h : Half) (f : Field) (v : Nat) : (h.set f v).host = h.host := rfl
@[simp] theorem Half.set_port (h : Half) (f : Field) (v : Nat) : (h.set f v).port = h.port := rfl
@[simp] theorem Half.set_rings (h : Half) (f : Field) (v : Nat) : (h.set f v).rings = h.rings := rfl
@[simp] theorem Half.set_cvu (h : Half) (f : Field) (v : Nat) : (h.set f v).cvu = h.cvu := rfl
@[simp] theorem Half.set_pace (h : Half) (f : Field) (v : Nat) : (h.set f v).pace = h.pace := rfl
@[simp] theorem Half.set_image (h : Half) (f : Field) (v : Nat) : (h.set f v).image = h.image := rfl
@[simp] theorem Half.set_load (h : Half) (f : Field) (v : Nat) : (h.set f v).load = h.load := rfl
@[simp] theorem Half.set_sources (h : Half) (f : Field) (v : Nat) : (h.set f v).sources = h.sources := rfl
@[simp] theorem Half.set_store (h : Half) (f : Field) (v : Nat) : (h.set f v).store = h.store := rfl
@[simp] theorem Half.set_lap (h : Half) (f : Field) (v : Nat) : (h.set f v).lap = h.lap := rfl
@[simp] theorem Half.set_acts (h : Half) (f : Field) (v : Nat) : (h.set f v).acts = h.acts := rfl
@[simp] theorem Half.set_panel (h : Half) (f : Field) (v : Nat) : (h.set f v).panel = h.panel := rfl
@[simp] theorem Half.set_latch (h : Half) (f : Field) (v : Nat) : (h.set f v).latch = h.latch := rfl
@[simp] theorem Half.set_touch (h : Half) (f : Field) (v : Nat) : (h.set f v).touch = h.touch := rfl

/-! Half.setFlag changes registers only. -/
@[simp] theorem Half.setFlag_id (h : Half) (f : Field) (b : Bool) : (h.setFlag f b).id = h.id := rfl
@[simp] theorem Half.setFlag_inReset (h : Half) (f : Field) (b : Bool) : (h.setFlag f b).inReset = h.inReset := rfl
@[simp] theorem Half.setFlag_epoch (h : Half) (f : Field) (b : Bool) : (h.setFlag f b).epoch = h.epoch := rfl
@[simp] theorem Half.setFlag_free (h : Half) (f : Field) (b : Bool) : (h.setFlag f b).free = h.free := rfl
@[simp] theorem Half.setFlag_lapBegun (h : Half) (f : Field) (b : Bool) : (h.setFlag f b).lapBegun = h.lapBegun := rfl
@[simp] theorem Half.setFlag_fst (h : Half) (f : Field) (b : Bool) : (h.setFlag f b).fst = h.fst := rfl
@[simp] theorem Half.setFlag_sram (h : Half) (f : Field) (b : Bool) : (h.setFlag f b).sram = h.sram := rfl
@[simp] theorem Half.setFlag_starter (h : Half) (f : Field) (b : Bool) : (h.setFlag f b).starter = h.starter := rfl
@[simp] theorem Half.setFlag_link (h : Half) (f : Field) (b : Bool) : (h.setFlag f b).link = h.link := rfl
@[simp] theorem Half.setFlag_engines (h : Half) (f : Field) (b : Bool) : (h.setFlag f b).engines = h.engines := rfl
@[simp] theorem Half.setFlag_flt (h : Half) (f : Field) (b : Bool) : (h.setFlag f b).flt = h.flt := rfl
@[simp] theorem Half.setFlag_time (h : Half) (f : Field) (b : Bool) : (h.setFlag f b).time = h.time := rfl
@[simp] theorem Half.setFlag_host (h : Half) (f : Field) (b : Bool) : (h.setFlag f b).host = h.host := rfl
@[simp] theorem Half.setFlag_port (h : Half) (f : Field) (b : Bool) : (h.setFlag f b).port = h.port := rfl
@[simp] theorem Half.setFlag_rings (h : Half) (f : Field) (b : Bool) : (h.setFlag f b).rings = h.rings := rfl
@[simp] theorem Half.setFlag_cvu (h : Half) (f : Field) (b : Bool) : (h.setFlag f b).cvu = h.cvu := rfl
@[simp] theorem Half.setFlag_pace (h : Half) (f : Field) (b : Bool) : (h.setFlag f b).pace = h.pace := rfl
@[simp] theorem Half.setFlag_image (h : Half) (f : Field) (b : Bool) : (h.setFlag f b).image = h.image := rfl
@[simp] theorem Half.setFlag_load (h : Half) (f : Field) (b : Bool) : (h.setFlag f b).load = h.load := rfl
@[simp] theorem Half.setFlag_sources (h : Half) (f : Field) (b : Bool) : (h.setFlag f b).sources = h.sources := rfl
@[simp] theorem Half.setFlag_store (h : Half) (f : Field) (b : Bool) : (h.setFlag f b).store = h.store := rfl
@[simp] theorem Half.setFlag_lap (h : Half) (f : Field) (b : Bool) : (h.setFlag f b).lap = h.lap := rfl
@[simp] theorem Half.setFlag_acts (h : Half) (f : Field) (b : Bool) : (h.setFlag f b).acts = h.acts := rfl
@[simp] theorem Half.setFlag_panel (h : Half) (f : Field) (b : Bool) : (h.setFlag f b).panel = h.panel := rfl
@[simp] theorem Half.setFlag_latch (h : Half) (f : Field) (b : Bool) : (h.setFlag f b).latch = h.latch := rfl
@[simp] theorem Half.setFlag_touch (h : Half) (f : Field) (b : Bool) : (h.setFlag f b).touch = h.touch := rfl

/-! Half.setBit changes registers only. -/
@[simp] theorem Half.setBit_id (h : Half) (f : Field) (i : Nat) (b : Bool) : (h.setBit f i b).id = h.id := rfl
@[simp] theorem Half.setBit_inReset (h : Half) (f : Field) (i : Nat) (b : Bool) : (h.setBit f i b).inReset = h.inReset := rfl
@[simp] theorem Half.setBit_epoch (h : Half) (f : Field) (i : Nat) (b : Bool) : (h.setBit f i b).epoch = h.epoch := rfl
@[simp] theorem Half.setBit_free (h : Half) (f : Field) (i : Nat) (b : Bool) : (h.setBit f i b).free = h.free := rfl
@[simp] theorem Half.setBit_lapBegun (h : Half) (f : Field) (i : Nat) (b : Bool) : (h.setBit f i b).lapBegun = h.lapBegun := rfl
@[simp] theorem Half.setBit_fst (h : Half) (f : Field) (i : Nat) (b : Bool) : (h.setBit f i b).fst = h.fst := rfl
@[simp] theorem Half.setBit_sram (h : Half) (f : Field) (i : Nat) (b : Bool) : (h.setBit f i b).sram = h.sram := rfl
@[simp] theorem Half.setBit_starter (h : Half) (f : Field) (i : Nat) (b : Bool) : (h.setBit f i b).starter = h.starter := rfl
@[simp] theorem Half.setBit_link (h : Half) (f : Field) (i : Nat) (b : Bool) : (h.setBit f i b).link = h.link := rfl
@[simp] theorem Half.setBit_engines (h : Half) (f : Field) (i : Nat) (b : Bool) : (h.setBit f i b).engines = h.engines := rfl
@[simp] theorem Half.setBit_flt (h : Half) (f : Field) (i : Nat) (b : Bool) : (h.setBit f i b).flt = h.flt := rfl
@[simp] theorem Half.setBit_time (h : Half) (f : Field) (i : Nat) (b : Bool) : (h.setBit f i b).time = h.time := rfl
@[simp] theorem Half.setBit_host (h : Half) (f : Field) (i : Nat) (b : Bool) : (h.setBit f i b).host = h.host := rfl
@[simp] theorem Half.setBit_port (h : Half) (f : Field) (i : Nat) (b : Bool) : (h.setBit f i b).port = h.port := rfl
@[simp] theorem Half.setBit_rings (h : Half) (f : Field) (i : Nat) (b : Bool) : (h.setBit f i b).rings = h.rings := rfl
@[simp] theorem Half.setBit_cvu (h : Half) (f : Field) (i : Nat) (b : Bool) : (h.setBit f i b).cvu = h.cvu := rfl
@[simp] theorem Half.setBit_pace (h : Half) (f : Field) (i : Nat) (b : Bool) : (h.setBit f i b).pace = h.pace := rfl
@[simp] theorem Half.setBit_image (h : Half) (f : Field) (i : Nat) (b : Bool) : (h.setBit f i b).image = h.image := rfl
@[simp] theorem Half.setBit_load (h : Half) (f : Field) (i : Nat) (b : Bool) : (h.setBit f i b).load = h.load := rfl
@[simp] theorem Half.setBit_sources (h : Half) (f : Field) (i : Nat) (b : Bool) : (h.setBit f i b).sources = h.sources := rfl
@[simp] theorem Half.setBit_store (h : Half) (f : Field) (i : Nat) (b : Bool) : (h.setBit f i b).store = h.store := rfl
@[simp] theorem Half.setBit_lap (h : Half) (f : Field) (i : Nat) (b : Bool) : (h.setBit f i b).lap = h.lap := rfl
@[simp] theorem Half.setBit_acts (h : Half) (f : Field) (i : Nat) (b : Bool) : (h.setBit f i b).acts = h.acts := rfl
@[simp] theorem Half.setBit_panel (h : Half) (f : Field) (i : Nat) (b : Bool) : (h.setBit f i b).panel = h.panel := rfl
@[simp] theorem Half.setBit_latch (h : Half) (f : Field) (i : Nat) (b : Bool) : (h.setBit f i b).latch = h.latch := rfl
@[simp] theorem Half.setBit_touch (h : Half) (f : Field) (i : Nat) (b : Bool) : (h.setBit f i b).touch = h.touch := rfl

/-! Half.tally changes registers only. -/
@[simp] theorem Half.tally_id (h : Half) (f : Field) (n : Nat) : (h.tally f n).id = h.id := rfl
@[simp] theorem Half.tally_inReset (h : Half) (f : Field) (n : Nat) : (h.tally f n).inReset = h.inReset := rfl
@[simp] theorem Half.tally_epoch (h : Half) (f : Field) (n : Nat) : (h.tally f n).epoch = h.epoch := rfl
@[simp] theorem Half.tally_free (h : Half) (f : Field) (n : Nat) : (h.tally f n).free = h.free := rfl
@[simp] theorem Half.tally_lapBegun (h : Half) (f : Field) (n : Nat) : (h.tally f n).lapBegun = h.lapBegun := rfl
@[simp] theorem Half.tally_fst (h : Half) (f : Field) (n : Nat) : (h.tally f n).fst = h.fst := rfl
@[simp] theorem Half.tally_sram (h : Half) (f : Field) (n : Nat) : (h.tally f n).sram = h.sram := rfl
@[simp] theorem Half.tally_starter (h : Half) (f : Field) (n : Nat) : (h.tally f n).starter = h.starter := rfl
@[simp] theorem Half.tally_link (h : Half) (f : Field) (n : Nat) : (h.tally f n).link = h.link := rfl
@[simp] theorem Half.tally_engines (h : Half) (f : Field) (n : Nat) : (h.tally f n).engines = h.engines := rfl
@[simp] theorem Half.tally_flt (h : Half) (f : Field) (n : Nat) : (h.tally f n).flt = h.flt := rfl
@[simp] theorem Half.tally_time (h : Half) (f : Field) (n : Nat) : (h.tally f n).time = h.time := rfl
@[simp] theorem Half.tally_host (h : Half) (f : Field) (n : Nat) : (h.tally f n).host = h.host := rfl
@[simp] theorem Half.tally_port (h : Half) (f : Field) (n : Nat) : (h.tally f n).port = h.port := rfl
@[simp] theorem Half.tally_rings (h : Half) (f : Field) (n : Nat) : (h.tally f n).rings = h.rings := rfl
@[simp] theorem Half.tally_cvu (h : Half) (f : Field) (n : Nat) : (h.tally f n).cvu = h.cvu := rfl
@[simp] theorem Half.tally_pace (h : Half) (f : Field) (n : Nat) : (h.tally f n).pace = h.pace := rfl
@[simp] theorem Half.tally_image (h : Half) (f : Field) (n : Nat) : (h.tally f n).image = h.image := rfl
@[simp] theorem Half.tally_load (h : Half) (f : Field) (n : Nat) : (h.tally f n).load = h.load := rfl
@[simp] theorem Half.tally_sources (h : Half) (f : Field) (n : Nat) : (h.tally f n).sources = h.sources := rfl
@[simp] theorem Half.tally_store (h : Half) (f : Field) (n : Nat) : (h.tally f n).store = h.store := rfl
@[simp] theorem Half.tally_lap (h : Half) (f : Field) (n : Nat) : (h.tally f n).lap = h.lap := rfl
@[simp] theorem Half.tally_acts (h : Half) (f : Field) (n : Nat) : (h.tally f n).acts = h.acts := rfl
@[simp] theorem Half.tally_panel (h : Half) (f : Field) (n : Nat) : (h.tally f n).panel = h.panel := rfl
@[simp] theorem Half.tally_latch (h : Half) (f : Field) (n : Nat) : (h.tally f n).latch = h.latch := rfl
@[simp] theorem Half.tally_touch (h : Half) (f : Field) (n : Nat) : (h.tally f n).touch = h.touch := rfl

/-! Lamp.setReg changes registers only. -/
@[simp] theorem Lamp.setReg_phase (l : Lamp) (o : Nat) (w : Word) : (l.setReg o w).phase = l.phase := rfl
@[simp] theorem Lamp.setReg_phaseAt (l : Lamp) (o : Nat) (w : Word) : (l.setReg o w).phaseAt = l.phaseAt := rfl
@[simp] theorem Lamp.setReg_scope (l : Lamp) (o : Nat) (w : Word) : (l.setReg o w).scope = l.scope := rfl
@[simp] theorem Lamp.setReg_cause (l : Lamp) (o : Nat) (w : Word) : (l.setReg o w).cause = l.cause := rfl
@[simp] theorem Lamp.setReg_fsCount (l : Lamp) (o : Nat) (w : Word) : (l.setReg o w).fsCount = l.fsCount := rfl
@[simp] theorem Lamp.setReg_strap (l : Lamp) (o : Nat) (w : Word) : (l.setReg o w).strap = l.strap := rfl
@[simp] theorem Lamp.setReg_pwrEn (l : Lamp) (o : Nat) (w : Word) : (l.setReg o w).pwrEn = l.pwrEn := rfl
@[simp] theorem Lamp.setReg_pwrGood (l : Lamp) (o : Nat) (w : Word) : (l.setReg o w).pwrGood = l.pwrGood := rfl
@[simp] theorem Lamp.setReg_attempts (l : Lamp) (o : Nat) (w : Word) : (l.setReg o w).attempts = l.attempts := rfl
@[simp] theorem Lamp.setReg_h0 (l : Lamp) (o : Nat) (w : Word) : (l.setReg o w).h0 = l.h0 := rfl
@[simp] theorem Lamp.setReg_h1 (l : Lamp) (o : Nat) (w : Word) : (l.setReg o w).h1 = l.h1 := rfl
@[simp] theorem Lamp.setReg_outLast (l : Lamp) (o : Nat) (w : Word) : (l.setReg o w).outLast = l.outLast := rfl
@[simp] theorem Lamp.setReg_outActed (l : Lamp) (o : Nat) (w : Word) : (l.setReg o w).outActed = l.outActed := rfl
@[simp] theorem Lamp.setReg_mv (l : Lamp) (o : Nat) (w : Word) : (l.setReg o w).mv = l.mv := rfl
@[simp] theorem Lamp.setReg_temps (l : Lamp) (o : Nat) (w : Word) : (l.setReg o w).temps = l.temps := rfl
@[simp] theorem Lamp.setReg_resetNLow (l : Lamp) (o : Nat) (w : Word) : (l.setReg o w).resetNLow = l.resetNLow := rfl
@[simp] theorem Lamp.setReg_tripped (l : Lamp) (o : Nat) (w : Word) : (l.setReg o w).tripped = l.tripped := rfl
@[simp] theorem Lamp.setReg_asked (l : Lamp) (o : Nat) (w : Word) : (l.setReg o w).asked = l.asked := rfl
@[simp] theorem Lamp.setReg_wakeHeld (l : Lamp) (o : Nat) (w : Word) : (l.setReg o w).wakeHeld = l.wakeHeld := rfl
@[simp] theorem Lamp.setReg_startAt (l : Lamp) (o : Nat) (w : Word) : (l.setReg o w).startAt = l.startAt := rfl
@[simp] theorem Lamp.setReg_step3At (l : Lamp) (o : Nat) (w : Word) : (l.setReg o w).step3At = l.step3At := rfl
@[simp] theorem Lamp.setReg_step4At (l : Lamp) (o : Nat) (w : Word) : (l.setReg o w).step4At = l.step4At := rfl
@[simp] theorem Lamp.setReg_runningAt (l : Lamp) (o : Nat) (w : Word) : (l.setReg o w).runningAt = l.runningAt := rfl
@[simp] theorem Lamp.setReg_liveFrom (l : Lamp) (o : Nat) (w : Word) : (l.setReg o w).liveFrom = l.liveFrom := rfl
@[simp] theorem Lamp.setReg_liveTrig (l : Lamp) (o : Nat) (w : Word) : (l.setReg o w).liveTrig = l.liveTrig := rfl
@[simp] theorem Lamp.setReg_liveFalls (l : Lamp) (o : Nat) (w : Word) : (l.setReg o w).liveFalls = l.liveFalls := rfl
@[simp] theorem Lamp.setReg_grantFrom (l : Lamp) (o : Nat) (w : Word) : (l.setReg o w).grantFrom = l.grantFrom := rfl
@[simp] theorem Lamp.setReg_recs (l : Lamp) (o : Nat) (w : Word) : (l.setReg o w).recs = l.recs := rfl
@[simp] theorem Lamp.setReg_stopped (l : Lamp) (o : Nat) (w : Word) : (l.setReg o w).stopped = l.stopped := rfl
@[simp] theorem Lamp.setReg_heartAt (l : Lamp) (o : Nat) (w : Word) : (l.setReg o w).heartAt = l.heartAt := rfl
@[simp] theorem Lamp.setReg_due (l : Lamp) (o : Nat) (w : Word) : (l.setReg o w).due = l.due := rfl
@[simp] theorem Lamp.setReg_free (l : Lamp) (o : Nat) (w : Word) : (l.setReg o w).free = l.free := rfl
@[simp] theorem Lamp.setReg_keys (l : Lamp) (o : Nat) (w : Word) : (l.setReg o w).keys = l.keys := rfl
@[simp] theorem Lamp.setReg_events (l : Lamp) (o : Nat) (w : Word) : (l.setReg o w).events = l.events := rfl
@[simp] theorem Lamp.setReg_gangBase (l : Lamp) (o : Nat) (w : Word) : (l.setReg o w).gangBase = l.gangBase := rfl
@[simp] theorem Lamp.setReg_gangSeen (l : Lamp) (o : Nat) (w : Word) : (l.setReg o w).gangSeen = l.gangSeen := rfl
@[simp] theorem Lamp.setReg_gangHits (l : Lamp) (o : Nat) (w : Word) : (l.setReg o w).gangHits = l.gangHits := rfl
@[simp] theorem Lamp.setReg_gangAt (l : Lamp) (o : Nat) (w : Word) : (l.setReg o w).gangAt = l.gangAt := rfl
@[simp] theorem Lamp.setReg_i2cPtr (l : Lamp) (o : Nat) (w : Word) : (l.setReg o w).i2cPtr = l.i2cPtr := rfl
@[simp] theorem Lamp.setReg_i2cOut (l : Lamp) (o : Nat) (w : Word) : (l.setReg o w).i2cOut = l.i2cOut := rfl
@[simp] theorem Lamp.setReg_mirror (l : Lamp) (o : Nat) (w : Word) : (l.setReg o w).mirror = l.mirror := rfl
@[simp] theorem Lamp.setReg_pass (l : Lamp) (o : Nat) (w : Word) : (l.setReg o w).pass = l.pass := rfl

/-! Lamp.set changes registers only. -/
@[simp] theorem Lamp.set_phase (l : Lamp) (f : Field) (v : Nat) : (l.set f v).phase = l.phase := rfl
@[simp] theorem Lamp.set_phaseAt (l : Lamp) (f : Field) (v : Nat) : (l.set f v).phaseAt = l.phaseAt := rfl
@[simp] theorem Lamp.set_scope (l : Lamp) (f : Field) (v : Nat) : (l.set f v).scope = l.scope := rfl
@[simp] theorem Lamp.set_cause (l : Lamp) (f : Field) (v : Nat) : (l.set f v).cause = l.cause := rfl
@[simp] theorem Lamp.set_fsCount (l : Lamp) (f : Field) (v : Nat) : (l.set f v).fsCount = l.fsCount := rfl
@[simp] theorem Lamp.set_strap (l : Lamp) (f : Field) (v : Nat) : (l.set f v).strap = l.strap := rfl
@[simp] theorem Lamp.set_pwrEn (l : Lamp) (f : Field) (v : Nat) : (l.set f v).pwrEn = l.pwrEn := rfl
@[simp] theorem Lamp.set_pwrGood (l : Lamp) (f : Field) (v : Nat) : (l.set f v).pwrGood = l.pwrGood := rfl
@[simp] theorem Lamp.set_attempts (l : Lamp) (f : Field) (v : Nat) : (l.set f v).attempts = l.attempts := rfl
@[simp] theorem Lamp.set_h0 (l : Lamp) (f : Field) (v : Nat) : (l.set f v).h0 = l.h0 := rfl
@[simp] theorem Lamp.set_h1 (l : Lamp) (f : Field) (v : Nat) : (l.set f v).h1 = l.h1 := rfl
@[simp] theorem Lamp.set_outLast (l : Lamp) (f : Field) (v : Nat) : (l.set f v).outLast = l.outLast := rfl
@[simp] theorem Lamp.set_outActed (l : Lamp) (f : Field) (v : Nat) : (l.set f v).outActed = l.outActed := rfl
@[simp] theorem Lamp.set_mv (l : Lamp) (f : Field) (v : Nat) : (l.set f v).mv = l.mv := rfl
@[simp] theorem Lamp.set_temps (l : Lamp) (f : Field) (v : Nat) : (l.set f v).temps = l.temps := rfl
@[simp] theorem Lamp.set_resetNLow (l : Lamp) (f : Field) (v : Nat) : (l.set f v).resetNLow = l.resetNLow := rfl
@[simp] theorem Lamp.set_tripped (l : Lamp) (f : Field) (v : Nat) : (l.set f v).tripped = l.tripped := rfl
@[simp] theorem Lamp.set_asked (l : Lamp) (f : Field) (v : Nat) : (l.set f v).asked = l.asked := rfl
@[simp] theorem Lamp.set_wakeHeld (l : Lamp) (f : Field) (v : Nat) : (l.set f v).wakeHeld = l.wakeHeld := rfl
@[simp] theorem Lamp.set_startAt (l : Lamp) (f : Field) (v : Nat) : (l.set f v).startAt = l.startAt := rfl
@[simp] theorem Lamp.set_step3At (l : Lamp) (f : Field) (v : Nat) : (l.set f v).step3At = l.step3At := rfl
@[simp] theorem Lamp.set_step4At (l : Lamp) (f : Field) (v : Nat) : (l.set f v).step4At = l.step4At := rfl
@[simp] theorem Lamp.set_runningAt (l : Lamp) (f : Field) (v : Nat) : (l.set f v).runningAt = l.runningAt := rfl
@[simp] theorem Lamp.set_liveFrom (l : Lamp) (f : Field) (v : Nat) : (l.set f v).liveFrom = l.liveFrom := rfl
@[simp] theorem Lamp.set_liveTrig (l : Lamp) (f : Field) (v : Nat) : (l.set f v).liveTrig = l.liveTrig := rfl
@[simp] theorem Lamp.set_liveFalls (l : Lamp) (f : Field) (v : Nat) : (l.set f v).liveFalls = l.liveFalls := rfl
@[simp] theorem Lamp.set_grantFrom (l : Lamp) (f : Field) (v : Nat) : (l.set f v).grantFrom = l.grantFrom := rfl
@[simp] theorem Lamp.set_recs (l : Lamp) (f : Field) (v : Nat) : (l.set f v).recs = l.recs := rfl
@[simp] theorem Lamp.set_stopped (l : Lamp) (f : Field) (v : Nat) : (l.set f v).stopped = l.stopped := rfl
@[simp] theorem Lamp.set_heartAt (l : Lamp) (f : Field) (v : Nat) : (l.set f v).heartAt = l.heartAt := rfl
@[simp] theorem Lamp.set_due (l : Lamp) (f : Field) (v : Nat) : (l.set f v).due = l.due := rfl
@[simp] theorem Lamp.set_free (l : Lamp) (f : Field) (v : Nat) : (l.set f v).free = l.free := rfl
@[simp] theorem Lamp.set_keys (l : Lamp) (f : Field) (v : Nat) : (l.set f v).keys = l.keys := rfl
@[simp] theorem Lamp.set_events (l : Lamp) (f : Field) (v : Nat) : (l.set f v).events = l.events := rfl
@[simp] theorem Lamp.set_gangBase (l : Lamp) (f : Field) (v : Nat) : (l.set f v).gangBase = l.gangBase := rfl
@[simp] theorem Lamp.set_gangSeen (l : Lamp) (f : Field) (v : Nat) : (l.set f v).gangSeen = l.gangSeen := rfl
@[simp] theorem Lamp.set_gangHits (l : Lamp) (f : Field) (v : Nat) : (l.set f v).gangHits = l.gangHits := rfl
@[simp] theorem Lamp.set_gangAt (l : Lamp) (f : Field) (v : Nat) : (l.set f v).gangAt = l.gangAt := rfl
@[simp] theorem Lamp.set_i2cPtr (l : Lamp) (f : Field) (v : Nat) : (l.set f v).i2cPtr = l.i2cPtr := rfl
@[simp] theorem Lamp.set_i2cOut (l : Lamp) (f : Field) (v : Nat) : (l.set f v).i2cOut = l.i2cOut := rfl
@[simp] theorem Lamp.set_mirror (l : Lamp) (f : Field) (v : Nat) : (l.set f v).mirror = l.mirror := rfl
@[simp] theorem Lamp.set_pass (l : Lamp) (f : Field) (v : Nat) : (l.set f v).pass = l.pass := rfl

/-! Lamp.setFlag changes registers only. -/
@[simp] theorem Lamp.setFlag_phase (l : Lamp) (f : Field) (b : Bool) : (l.setFlag f b).phase = l.phase := rfl
@[simp] theorem Lamp.setFlag_phaseAt (l : Lamp) (f : Field) (b : Bool) : (l.setFlag f b).phaseAt = l.phaseAt := rfl
@[simp] theorem Lamp.setFlag_scope (l : Lamp) (f : Field) (b : Bool) : (l.setFlag f b).scope = l.scope := rfl
@[simp] theorem Lamp.setFlag_cause (l : Lamp) (f : Field) (b : Bool) : (l.setFlag f b).cause = l.cause := rfl
@[simp] theorem Lamp.setFlag_fsCount (l : Lamp) (f : Field) (b : Bool) : (l.setFlag f b).fsCount = l.fsCount := rfl
@[simp] theorem Lamp.setFlag_strap (l : Lamp) (f : Field) (b : Bool) : (l.setFlag f b).strap = l.strap := rfl
@[simp] theorem Lamp.setFlag_pwrEn (l : Lamp) (f : Field) (b : Bool) : (l.setFlag f b).pwrEn = l.pwrEn := rfl
@[simp] theorem Lamp.setFlag_pwrGood (l : Lamp) (f : Field) (b : Bool) : (l.setFlag f b).pwrGood = l.pwrGood := rfl
@[simp] theorem Lamp.setFlag_attempts (l : Lamp) (f : Field) (b : Bool) : (l.setFlag f b).attempts = l.attempts := rfl
@[simp] theorem Lamp.setFlag_h0 (l : Lamp) (f : Field) (b : Bool) : (l.setFlag f b).h0 = l.h0 := rfl
@[simp] theorem Lamp.setFlag_h1 (l : Lamp) (f : Field) (b : Bool) : (l.setFlag f b).h1 = l.h1 := rfl
@[simp] theorem Lamp.setFlag_outLast (l : Lamp) (f : Field) (b : Bool) : (l.setFlag f b).outLast = l.outLast := rfl
@[simp] theorem Lamp.setFlag_outActed (l : Lamp) (f : Field) (b : Bool) : (l.setFlag f b).outActed = l.outActed := rfl
@[simp] theorem Lamp.setFlag_mv (l : Lamp) (f : Field) (b : Bool) : (l.setFlag f b).mv = l.mv := rfl
@[simp] theorem Lamp.setFlag_temps (l : Lamp) (f : Field) (b : Bool) : (l.setFlag f b).temps = l.temps := rfl
@[simp] theorem Lamp.setFlag_resetNLow (l : Lamp) (f : Field) (b : Bool) : (l.setFlag f b).resetNLow = l.resetNLow := rfl
@[simp] theorem Lamp.setFlag_tripped (l : Lamp) (f : Field) (b : Bool) : (l.setFlag f b).tripped = l.tripped := rfl
@[simp] theorem Lamp.setFlag_asked (l : Lamp) (f : Field) (b : Bool) : (l.setFlag f b).asked = l.asked := rfl
@[simp] theorem Lamp.setFlag_wakeHeld (l : Lamp) (f : Field) (b : Bool) : (l.setFlag f b).wakeHeld = l.wakeHeld := rfl
@[simp] theorem Lamp.setFlag_startAt (l : Lamp) (f : Field) (b : Bool) : (l.setFlag f b).startAt = l.startAt := rfl
@[simp] theorem Lamp.setFlag_step3At (l : Lamp) (f : Field) (b : Bool) : (l.setFlag f b).step3At = l.step3At := rfl
@[simp] theorem Lamp.setFlag_step4At (l : Lamp) (f : Field) (b : Bool) : (l.setFlag f b).step4At = l.step4At := rfl
@[simp] theorem Lamp.setFlag_runningAt (l : Lamp) (f : Field) (b : Bool) : (l.setFlag f b).runningAt = l.runningAt := rfl
@[simp] theorem Lamp.setFlag_liveFrom (l : Lamp) (f : Field) (b : Bool) : (l.setFlag f b).liveFrom = l.liveFrom := rfl
@[simp] theorem Lamp.setFlag_liveTrig (l : Lamp) (f : Field) (b : Bool) : (l.setFlag f b).liveTrig = l.liveTrig := rfl
@[simp] theorem Lamp.setFlag_liveFalls (l : Lamp) (f : Field) (b : Bool) : (l.setFlag f b).liveFalls = l.liveFalls := rfl
@[simp] theorem Lamp.setFlag_grantFrom (l : Lamp) (f : Field) (b : Bool) : (l.setFlag f b).grantFrom = l.grantFrom := rfl
@[simp] theorem Lamp.setFlag_recs (l : Lamp) (f : Field) (b : Bool) : (l.setFlag f b).recs = l.recs := rfl
@[simp] theorem Lamp.setFlag_stopped (l : Lamp) (f : Field) (b : Bool) : (l.setFlag f b).stopped = l.stopped := rfl
@[simp] theorem Lamp.setFlag_heartAt (l : Lamp) (f : Field) (b : Bool) : (l.setFlag f b).heartAt = l.heartAt := rfl
@[simp] theorem Lamp.setFlag_due (l : Lamp) (f : Field) (b : Bool) : (l.setFlag f b).due = l.due := rfl
@[simp] theorem Lamp.setFlag_free (l : Lamp) (f : Field) (b : Bool) : (l.setFlag f b).free = l.free := rfl
@[simp] theorem Lamp.setFlag_keys (l : Lamp) (f : Field) (b : Bool) : (l.setFlag f b).keys = l.keys := rfl
@[simp] theorem Lamp.setFlag_events (l : Lamp) (f : Field) (b : Bool) : (l.setFlag f b).events = l.events := rfl
@[simp] theorem Lamp.setFlag_gangBase (l : Lamp) (f : Field) (b : Bool) : (l.setFlag f b).gangBase = l.gangBase := rfl
@[simp] theorem Lamp.setFlag_gangSeen (l : Lamp) (f : Field) (b : Bool) : (l.setFlag f b).gangSeen = l.gangSeen := rfl
@[simp] theorem Lamp.setFlag_gangHits (l : Lamp) (f : Field) (b : Bool) : (l.setFlag f b).gangHits = l.gangHits := rfl
@[simp] theorem Lamp.setFlag_gangAt (l : Lamp) (f : Field) (b : Bool) : (l.setFlag f b).gangAt = l.gangAt := rfl
@[simp] theorem Lamp.setFlag_i2cPtr (l : Lamp) (f : Field) (b : Bool) : (l.setFlag f b).i2cPtr = l.i2cPtr := rfl
@[simp] theorem Lamp.setFlag_i2cOut (l : Lamp) (f : Field) (b : Bool) : (l.setFlag f b).i2cOut = l.i2cOut := rfl
@[simp] theorem Lamp.setFlag_mirror (l : Lamp) (f : Field) (b : Bool) : (l.setFlag f b).mirror = l.mirror := rfl
@[simp] theorem Lamp.setFlag_pass (l : Lamp) (f : Field) (b : Bool) : (l.setFlag f b).pass = l.pass := rfl

/-! Lamp.tally changes registers only. -/
@[simp] theorem Lamp.tally_phase (l : Lamp) (f : Field) (n : Nat) : (l.tally f n).phase = l.phase := rfl
@[simp] theorem Lamp.tally_phaseAt (l : Lamp) (f : Field) (n : Nat) : (l.tally f n).phaseAt = l.phaseAt := rfl
@[simp] theorem Lamp.tally_scope (l : Lamp) (f : Field) (n : Nat) : (l.tally f n).scope = l.scope := rfl
@[simp] theorem Lamp.tally_cause (l : Lamp) (f : Field) (n : Nat) : (l.tally f n).cause = l.cause := rfl
@[simp] theorem Lamp.tally_fsCount (l : Lamp) (f : Field) (n : Nat) : (l.tally f n).fsCount = l.fsCount := rfl
@[simp] theorem Lamp.tally_strap (l : Lamp) (f : Field) (n : Nat) : (l.tally f n).strap = l.strap := rfl
@[simp] theorem Lamp.tally_pwrEn (l : Lamp) (f : Field) (n : Nat) : (l.tally f n).pwrEn = l.pwrEn := rfl
@[simp] theorem Lamp.tally_pwrGood (l : Lamp) (f : Field) (n : Nat) : (l.tally f n).pwrGood = l.pwrGood := rfl
@[simp] theorem Lamp.tally_attempts (l : Lamp) (f : Field) (n : Nat) : (l.tally f n).attempts = l.attempts := rfl
@[simp] theorem Lamp.tally_h0 (l : Lamp) (f : Field) (n : Nat) : (l.tally f n).h0 = l.h0 := rfl
@[simp] theorem Lamp.tally_h1 (l : Lamp) (f : Field) (n : Nat) : (l.tally f n).h1 = l.h1 := rfl
@[simp] theorem Lamp.tally_outLast (l : Lamp) (f : Field) (n : Nat) : (l.tally f n).outLast = l.outLast := rfl
@[simp] theorem Lamp.tally_outActed (l : Lamp) (f : Field) (n : Nat) : (l.tally f n).outActed = l.outActed := rfl
@[simp] theorem Lamp.tally_mv (l : Lamp) (f : Field) (n : Nat) : (l.tally f n).mv = l.mv := rfl
@[simp] theorem Lamp.tally_temps (l : Lamp) (f : Field) (n : Nat) : (l.tally f n).temps = l.temps := rfl
@[simp] theorem Lamp.tally_resetNLow (l : Lamp) (f : Field) (n : Nat) : (l.tally f n).resetNLow = l.resetNLow := rfl
@[simp] theorem Lamp.tally_tripped (l : Lamp) (f : Field) (n : Nat) : (l.tally f n).tripped = l.tripped := rfl
@[simp] theorem Lamp.tally_asked (l : Lamp) (f : Field) (n : Nat) : (l.tally f n).asked = l.asked := rfl
@[simp] theorem Lamp.tally_wakeHeld (l : Lamp) (f : Field) (n : Nat) : (l.tally f n).wakeHeld = l.wakeHeld := rfl
@[simp] theorem Lamp.tally_startAt (l : Lamp) (f : Field) (n : Nat) : (l.tally f n).startAt = l.startAt := rfl
@[simp] theorem Lamp.tally_step3At (l : Lamp) (f : Field) (n : Nat) : (l.tally f n).step3At = l.step3At := rfl
@[simp] theorem Lamp.tally_step4At (l : Lamp) (f : Field) (n : Nat) : (l.tally f n).step4At = l.step4At := rfl
@[simp] theorem Lamp.tally_runningAt (l : Lamp) (f : Field) (n : Nat) : (l.tally f n).runningAt = l.runningAt := rfl
@[simp] theorem Lamp.tally_liveFrom (l : Lamp) (f : Field) (n : Nat) : (l.tally f n).liveFrom = l.liveFrom := rfl
@[simp] theorem Lamp.tally_liveTrig (l : Lamp) (f : Field) (n : Nat) : (l.tally f n).liveTrig = l.liveTrig := rfl
@[simp] theorem Lamp.tally_liveFalls (l : Lamp) (f : Field) (n : Nat) : (l.tally f n).liveFalls = l.liveFalls := rfl
@[simp] theorem Lamp.tally_grantFrom (l : Lamp) (f : Field) (n : Nat) : (l.tally f n).grantFrom = l.grantFrom := rfl
@[simp] theorem Lamp.tally_recs (l : Lamp) (f : Field) (n : Nat) : (l.tally f n).recs = l.recs := rfl
@[simp] theorem Lamp.tally_stopped (l : Lamp) (f : Field) (n : Nat) : (l.tally f n).stopped = l.stopped := rfl
@[simp] theorem Lamp.tally_heartAt (l : Lamp) (f : Field) (n : Nat) : (l.tally f n).heartAt = l.heartAt := rfl
@[simp] theorem Lamp.tally_due (l : Lamp) (f : Field) (n : Nat) : (l.tally f n).due = l.due := rfl
@[simp] theorem Lamp.tally_free (l : Lamp) (f : Field) (n : Nat) : (l.tally f n).free = l.free := rfl
@[simp] theorem Lamp.tally_keys (l : Lamp) (f : Field) (n : Nat) : (l.tally f n).keys = l.keys := rfl
@[simp] theorem Lamp.tally_events (l : Lamp) (f : Field) (n : Nat) : (l.tally f n).events = l.events := rfl
@[simp] theorem Lamp.tally_gangBase (l : Lamp) (f : Field) (n : Nat) : (l.tally f n).gangBase = l.gangBase := rfl
@[simp] theorem Lamp.tally_gangSeen (l : Lamp) (f : Field) (n : Nat) : (l.tally f n).gangSeen = l.gangSeen := rfl
@[simp] theorem Lamp.tally_gangHits (l : Lamp) (f : Field) (n : Nat) : (l.tally f n).gangHits = l.gangHits := rfl
@[simp] theorem Lamp.tally_gangAt (l : Lamp) (f : Field) (n : Nat) : (l.tally f n).gangAt = l.gangAt := rfl
@[simp] theorem Lamp.tally_i2cPtr (l : Lamp) (f : Field) (n : Nat) : (l.tally f n).i2cPtr = l.i2cPtr := rfl
@[simp] theorem Lamp.tally_i2cOut (l : Lamp) (f : Field) (n : Nat) : (l.tally f n).i2cOut = l.i2cOut := rfl
@[simp] theorem Lamp.tally_mirror (l : Lamp) (f : Field) (n : Nat) : (l.tally f n).mirror = l.mirror := rfl
@[simp] theorem Lamp.tally_pass (l : Lamp) (f : Field) (n : Nat) : (l.tally f n).pass = l.pass := rfl

/-! A field that is no register changes no register. -/
@[simp] theorem Half.reg_with_inReset (h : Half) (x : _) (o : Nat) : Half.reg { h with inReset := x } o = h.reg o := rfl
@[simp] theorem Half.get_with_inReset (h : Half) (x : _) (f : Field) : Half.get { h with inReset := x } f = h.get f := rfl
@[simp] theorem Half.reg_with_epoch (h : Half) (x : _) (o : Nat) : Half.reg { h with epoch := x } o = h.reg o := rfl
@[simp] theorem Half.get_with_epoch (h : Half) (x : _) (f : Field) : Half.get { h with epoch := x } f = h.get f := rfl
@[simp] theorem Half.reg_with_free (h : Half) (x : _) (o : Nat) : Half.reg { h with free := x } o = h.reg o := rfl
@[simp] theorem Half.get_with_free (h : Half) (x : _) (f : Field) : Half.get { h with free := x } f = h.get f := rfl
@[simp] theorem Half.reg_with_lapBegun (h : Half) (x : _) (o : Nat) : Half.reg { h with lapBegun := x } o = h.reg o := rfl
@[simp] theorem Half.get_with_lapBegun (h : Half) (x : _) (f : Field) : Half.get { h with lapBegun := x } f = h.get f := rfl
@[simp] theorem Half.reg_with_fst (h : Half) (x : _) (o : Nat) : Half.reg { h with fst := x } o = h.reg o := rfl
@[simp] theorem Half.get_with_fst (h : Half) (x : _) (f : Field) : Half.get { h with fst := x } f = h.get f := rfl
@[simp] theorem Half.reg_with_sram (h : Half) (x : _) (o : Nat) : Half.reg { h with sram := x } o = h.reg o := rfl
@[simp] theorem Half.get_with_sram (h : Half) (x : _) (f : Field) : Half.get { h with sram := x } f = h.get f := rfl
@[simp] theorem Half.reg_with_starter (h : Half) (x : _) (o : Nat) : Half.reg { h with starter := x } o = h.reg o := rfl
@[simp] theorem Half.get_with_starter (h : Half) (x : _) (f : Field) : Half.get { h with starter := x } f = h.get f := rfl
@[simp] theorem Half.reg_with_link (h : Half) (x : _) (o : Nat) : Half.reg { h with link := x } o = h.reg o := rfl
@[simp] theorem Half.get_with_link (h : Half) (x : _) (f : Field) : Half.get { h with link := x } f = h.get f := rfl
@[simp] theorem Half.reg_with_engines (h : Half) (x : _) (o : Nat) : Half.reg { h with engines := x } o = h.reg o := rfl
@[simp] theorem Half.get_with_engines (h : Half) (x : _) (f : Field) : Half.get { h with engines := x } f = h.get f := rfl
@[simp] theorem Half.reg_with_flt (h : Half) (x : _) (o : Nat) : Half.reg { h with flt := x } o = h.reg o := rfl
@[simp] theorem Half.get_with_flt (h : Half) (x : _) (f : Field) : Half.get { h with flt := x } f = h.get f := rfl
@[simp] theorem Half.reg_with_time (h : Half) (x : _) (o : Nat) : Half.reg { h with time := x } o = h.reg o := rfl
@[simp] theorem Half.get_with_time (h : Half) (x : _) (f : Field) : Half.get { h with time := x } f = h.get f := rfl
@[simp] theorem Half.reg_with_host (h : Half) (x : _) (o : Nat) : Half.reg { h with host := x } o = h.reg o := rfl
@[simp] theorem Half.get_with_host (h : Half) (x : _) (f : Field) : Half.get { h with host := x } f = h.get f := rfl
@[simp] theorem Half.reg_with_port (h : Half) (x : _) (o : Nat) : Half.reg { h with port := x } o = h.reg o := rfl
@[simp] theorem Half.get_with_port (h : Half) (x : _) (f : Field) : Half.get { h with port := x } f = h.get f := rfl
@[simp] theorem Half.reg_with_rings (h : Half) (x : _) (o : Nat) : Half.reg { h with rings := x } o = h.reg o := rfl
@[simp] theorem Half.get_with_rings (h : Half) (x : _) (f : Field) : Half.get { h with rings := x } f = h.get f := rfl
@[simp] theorem Half.reg_with_cvu (h : Half) (x : _) (o : Nat) : Half.reg { h with cvu := x } o = h.reg o := rfl
@[simp] theorem Half.get_with_cvu (h : Half) (x : _) (f : Field) : Half.get { h with cvu := x } f = h.get f := rfl
@[simp] theorem Half.reg_with_pace (h : Half) (x : _) (o : Nat) : Half.reg { h with pace := x } o = h.reg o := rfl
@[simp] theorem Half.get_with_pace (h : Half) (x : _) (f : Field) : Half.get { h with pace := x } f = h.get f := rfl
@[simp] theorem Half.reg_with_image (h : Half) (x : _) (o : Nat) : Half.reg { h with image := x } o = h.reg o := rfl
@[simp] theorem Half.get_with_image (h : Half) (x : _) (f : Field) : Half.get { h with image := x } f = h.get f := rfl
@[simp] theorem Half.reg_with_load (h : Half) (x : _) (o : Nat) : Half.reg { h with load := x } o = h.reg o := rfl
@[simp] theorem Half.get_with_load (h : Half) (x : _) (f : Field) : Half.get { h with load := x } f = h.get f := rfl
@[simp] theorem Half.reg_with_sources (h : Half) (x : _) (o : Nat) : Half.reg { h with sources := x } o = h.reg o := rfl
@[simp] theorem Half.get_with_sources (h : Half) (x : _) (f : Field) : Half.get { h with sources := x } f = h.get f := rfl
@[simp] theorem Half.reg_with_store (h : Half) (x : _) (o : Nat) : Half.reg { h with store := x } o = h.reg o := rfl
@[simp] theorem Half.get_with_store (h : Half) (x : _) (f : Field) : Half.get { h with store := x } f = h.get f := rfl
@[simp] theorem Half.reg_with_lap (h : Half) (x : _) (o : Nat) : Half.reg { h with lap := x } o = h.reg o := rfl
@[simp] theorem Half.get_with_lap (h : Half) (x : _) (f : Field) : Half.get { h with lap := x } f = h.get f := rfl
@[simp] theorem Half.reg_with_acts (h : Half) (x : _) (o : Nat) : Half.reg { h with acts := x } o = h.reg o := rfl
@[simp] theorem Half.get_with_acts (h : Half) (x : _) (f : Field) : Half.get { h with acts := x } f = h.get f := rfl
@[simp] theorem Half.reg_with_panel (h : Half) (x : _) (o : Nat) : Half.reg { h with panel := x } o = h.reg o := rfl
@[simp] theorem Half.get_with_panel (h : Half) (x : _) (f : Field) : Half.get { h with panel := x } f = h.get f := rfl
@[simp] theorem Half.reg_with_latch (h : Half) (x : _) (o : Nat) : Half.reg { h with latch := x } o = h.reg o := rfl
@[simp] theorem Half.get_with_latch (h : Half) (x : _) (f : Field) : Half.get { h with latch := x } f = h.get f := rfl
@[simp] theorem Half.reg_with_touch (h : Half) (x : _) (o : Nat) : Half.reg { h with touch := x } o = h.reg o := rfl
@[simp] theorem Half.get_with_touch (h : Half) (x : _) (f : Field) : Half.get { h with touch := x } f = h.get f := rfl

@[simp] theorem Lamp.get_with_phase (l : Lamp) (x : _) (f : Field) : Lamp.get { l with phase := x } f = l.get f := rfl
@[simp] theorem Lamp.get_with_phaseAt (l : Lamp) (x : _) (f : Field) : Lamp.get { l with phaseAt := x } f = l.get f := rfl
@[simp] theorem Lamp.get_with_scope (l : Lamp) (x : _) (f : Field) : Lamp.get { l with scope := x } f = l.get f := rfl
@[simp] theorem Lamp.get_with_cause (l : Lamp) (x : _) (f : Field) : Lamp.get { l with cause := x } f = l.get f := rfl
@[simp] theorem Lamp.get_with_fsCount (l : Lamp) (x : _) (f : Field) : Lamp.get { l with fsCount := x } f = l.get f := rfl
@[simp] theorem Lamp.get_with_strap (l : Lamp) (x : _) (f : Field) : Lamp.get { l with strap := x } f = l.get f := rfl
@[simp] theorem Lamp.get_with_pwrEn (l : Lamp) (x : _) (f : Field) : Lamp.get { l with pwrEn := x } f = l.get f := rfl
@[simp] theorem Lamp.get_with_pwrGood (l : Lamp) (x : _) (f : Field) : Lamp.get { l with pwrGood := x } f = l.get f := rfl
@[simp] theorem Lamp.get_with_attempts (l : Lamp) (x : _) (f : Field) : Lamp.get { l with attempts := x } f = l.get f := rfl
@[simp] theorem Lamp.get_with_h0 (l : Lamp) (x : _) (f : Field) : Lamp.get { l with h0 := x } f = l.get f := rfl
@[simp] theorem Lamp.get_with_h1 (l : Lamp) (x : _) (f : Field) : Lamp.get { l with h1 := x } f = l.get f := rfl
@[simp] theorem Lamp.get_with_outLast (l : Lamp) (x : _) (f : Field) : Lamp.get { l with outLast := x } f = l.get f := rfl
@[simp] theorem Lamp.get_with_outActed (l : Lamp) (x : _) (f : Field) : Lamp.get { l with outActed := x } f = l.get f := rfl
@[simp] theorem Lamp.get_with_mv (l : Lamp) (x : _) (f : Field) : Lamp.get { l with mv := x } f = l.get f := rfl
@[simp] theorem Lamp.get_with_temps (l : Lamp) (x : _) (f : Field) : Lamp.get { l with temps := x } f = l.get f := rfl
@[simp] theorem Lamp.get_with_resetNLow (l : Lamp) (x : _) (f : Field) : Lamp.get { l with resetNLow := x } f = l.get f := rfl
@[simp] theorem Lamp.get_with_tripped (l : Lamp) (x : _) (f : Field) : Lamp.get { l with tripped := x } f = l.get f := rfl
@[simp] theorem Lamp.get_with_asked (l : Lamp) (x : _) (f : Field) : Lamp.get { l with asked := x } f = l.get f := rfl
@[simp] theorem Lamp.get_with_wakeHeld (l : Lamp) (x : _) (f : Field) : Lamp.get { l with wakeHeld := x } f = l.get f := rfl
@[simp] theorem Lamp.get_with_startAt (l : Lamp) (x : _) (f : Field) : Lamp.get { l with startAt := x } f = l.get f := rfl
@[simp] theorem Lamp.get_with_step3At (l : Lamp) (x : _) (f : Field) : Lamp.get { l with step3At := x } f = l.get f := rfl
@[simp] theorem Lamp.get_with_step4At (l : Lamp) (x : _) (f : Field) : Lamp.get { l with step4At := x } f = l.get f := rfl
@[simp] theorem Lamp.get_with_runningAt (l : Lamp) (x : _) (f : Field) : Lamp.get { l with runningAt := x } f = l.get f := rfl
@[simp] theorem Lamp.get_with_liveFrom (l : Lamp) (x : _) (f : Field) : Lamp.get { l with liveFrom := x } f = l.get f := rfl
@[simp] theorem Lamp.get_with_liveTrig (l : Lamp) (x : _) (f : Field) : Lamp.get { l with liveTrig := x } f = l.get f := rfl
@[simp] theorem Lamp.get_with_liveFalls (l : Lamp) (x : _) (f : Field) : Lamp.get { l with liveFalls := x } f = l.get f := rfl
@[simp] theorem Lamp.get_with_grantFrom (l : Lamp) (x : _) (f : Field) : Lamp.get { l with grantFrom := x } f = l.get f := rfl
@[simp] theorem Lamp.get_with_recs (l : Lamp) (x : _) (f : Field) : Lamp.get { l with recs := x } f = l.get f := rfl
@[simp] theorem Lamp.get_with_stopped (l : Lamp) (x : _) (f : Field) : Lamp.get { l with stopped := x } f = l.get f := rfl
@[simp] theorem Lamp.get_with_heartAt (l : Lamp) (x : _) (f : Field) : Lamp.get { l with heartAt := x } f = l.get f := rfl
@[simp] theorem Lamp.get_with_due (l : Lamp) (x : _) (f : Field) : Lamp.get { l with due := x } f = l.get f := rfl
@[simp] theorem Lamp.get_with_free (l : Lamp) (x : _) (f : Field) : Lamp.get { l with free := x } f = l.get f := rfl
@[simp] theorem Lamp.get_with_keys (l : Lamp) (x : _) (f : Field) : Lamp.get { l with keys := x } f = l.get f := rfl
@[simp] theorem Lamp.get_with_events (l : Lamp) (x : _) (f : Field) : Lamp.get { l with events := x } f = l.get f := rfl
@[simp] theorem Lamp.get_with_gangBase (l : Lamp) (x : _) (f : Field) : Lamp.get { l with gangBase := x } f = l.get f := rfl
@[simp] theorem Lamp.get_with_gangSeen (l : Lamp) (x : _) (f : Field) : Lamp.get { l with gangSeen := x } f = l.get f := rfl
@[simp] theorem Lamp.get_with_gangHits (l : Lamp) (x : _) (f : Field) : Lamp.get { l with gangHits := x } f = l.get f := rfl
@[simp] theorem Lamp.get_with_gangAt (l : Lamp) (x : _) (f : Field) : Lamp.get { l with gangAt := x } f = l.get f := rfl
@[simp] theorem Lamp.get_with_i2cPtr (l : Lamp) (x : _) (f : Field) : Lamp.get { l with i2cPtr := x } f = l.get f := rfl
@[simp] theorem Lamp.get_with_i2cOut (l : Lamp) (x : _) (f : Field) : Lamp.get { l with i2cOut := x } f = l.get f := rfl
@[simp] theorem Lamp.get_with_mirror (l : Lamp) (x : _) (f : Field) : Lamp.get { l with mirror := x } f = l.get f := rfl
@[simp] theorem Lamp.get_with_pass (l : Lamp) (x : _) (f : Field) : Lamp.get { l with pass := x } f = l.get f := rfl

/-! ## The module -/

@[simp] theorem Module.half_setHalf (m : Module) (h : HalfId) (x : Half) : (m.setHalf h x).half h = x := by cases h <;> rfl
@[simp] theorem Module.peer_setHalf (m : Module) (h : HalfId) (x : Half) : (m.setHalf h x).half h.peer = m.half h.peer := by cases h <;> rfl
@[simp] theorem Module.half_setPeer (m : Module) (h : HalfId) (x : Half) : (m.setHalf h.peer x).half h = m.half h := by cases h <;> rfl
@[simp] theorem Module.half_onHalf (m : Module) (h : HalfId) (f : Half → Half) : (m.onHalf h f).half h = f (m.half h) := by cases h <;> rfl
@[simp] theorem Module.peer_onHalf (m : Module) (h : HalfId) (f : Half → Half) : (m.onHalf h f).half h.peer = m.half h.peer := by cases h <;> rfl
@[simp] theorem Module.half_onPeer (m : Module) (h : HalfId) (f : Half → Half) : (m.onHalf h.peer f).half h = m.half h := by cases h <;> rfl
@[simp] theorem Module.half_onLamp (m : Module) (h : HalfId) (f : Lamp → Lamp) : (m.onLamp f).half h = m.half h := by cases h <;> rfl
@[simp] theorem Module.half_onBoth (m : Module) (h : HalfId) (f : Half → Half) : (m.onBoth f).half h = f (m.half h) := by cases h <;> rfl
@[simp] theorem Module.onLamp_lamp (m : Module) (f : Lamp → Lamp) : (m.onLamp f).lamp = f m.lamp := rfl
@[simp] theorem Module.half_withLamp (m : Module) (l : Lamp) (h : HalfId) : Module.half { m with lamp := l } h = m.half h := by cases h <;> rfl
@[simp] theorem Lamp.onHalf_phase (l : Lamp) (h : HalfId) (f : LampHalf → LampHalf) : (l.onHalf h f).phase = l.phase := by cases h <;> rfl
@[simp] theorem Lamp.onHalf_phaseAt (l : Lamp) (h : HalfId) (f : LampHalf → LampHalf) : (l.onHalf h f).phaseAt = l.phaseAt := by cases h <;> rfl
@[simp] theorem Lamp.onHalf_scope (l : Lamp) (h : HalfId) (f : LampHalf → LampHalf) : (l.onHalf h f).scope = l.scope := by cases h <;> rfl
@[simp] theorem Lamp.onHalf_cause (l : Lamp) (h : HalfId) (f : LampHalf → LampHalf) : (l.onHalf h f).cause = l.cause := by cases h <;> rfl
@[simp] theorem Lamp.onHalf_fsCount (l : Lamp) (h : HalfId) (f : LampHalf → LampHalf) : (l.onHalf h f).fsCount = l.fsCount := by cases h <;> rfl
@[simp] theorem Lamp.onHalf_strap (l : Lamp) (h : HalfId) (f : LampHalf → LampHalf) : (l.onHalf h f).strap = l.strap := by cases h <;> rfl
@[simp] theorem Lamp.onHalf_pwrEn (l : Lamp) (h : HalfId) (f : LampHalf → LampHalf) : (l.onHalf h f).pwrEn = l.pwrEn := by cases h <;> rfl
@[simp] theorem Lamp.onHalf_pwrGood (l : Lamp) (h : HalfId) (f : LampHalf → LampHalf) : (l.onHalf h f).pwrGood = l.pwrGood := by cases h <;> rfl
@[simp] theorem Lamp.onHalf_attempts (l : Lamp) (h : HalfId) (f : LampHalf → LampHalf) : (l.onHalf h f).attempts = l.attempts := by cases h <;> rfl
@[simp] theorem Lamp.onHalf_outLast (l : Lamp) (h : HalfId) (f : LampHalf → LampHalf) : (l.onHalf h f).outLast = l.outLast := by cases h <;> rfl
@[simp] theorem Lamp.onHalf_outActed (l : Lamp) (h : HalfId) (f : LampHalf → LampHalf) : (l.onHalf h f).outActed = l.outActed := by cases h <;> rfl
@[simp] theorem Lamp.onHalf_mv (l : Lamp) (h : HalfId) (f : LampHalf → LampHalf) : (l.onHalf h f).mv = l.mv := by cases h <;> rfl
@[simp] theorem Lamp.onHalf_temps (l : Lamp) (h : HalfId) (f : LampHalf → LampHalf) : (l.onHalf h f).temps = l.temps := by cases h <;> rfl
@[simp] theorem Lamp.onHalf_resetNLow (l : Lamp) (h : HalfId) (f : LampHalf → LampHalf) : (l.onHalf h f).resetNLow = l.resetNLow := by cases h <;> rfl
@[simp] theorem Lamp.onHalf_tripped (l : Lamp) (h : HalfId) (f : LampHalf → LampHalf) : (l.onHalf h f).tripped = l.tripped := by cases h <;> rfl
@[simp] theorem Lamp.onHalf_asked (l : Lamp) (h : HalfId) (f : LampHalf → LampHalf) : (l.onHalf h f).asked = l.asked := by cases h <;> rfl
@[simp] theorem Lamp.onHalf_wakeHeld (l : Lamp) (h : HalfId) (f : LampHalf → LampHalf) : (l.onHalf h f).wakeHeld = l.wakeHeld := by cases h <;> rfl
@[simp] theorem Lamp.onHalf_startAt (l : Lamp) (h : HalfId) (f : LampHalf → LampHalf) : (l.onHalf h f).startAt = l.startAt := by cases h <;> rfl
@[simp] theorem Lamp.onHalf_step3At (l : Lamp) (h : HalfId) (f : LampHalf → LampHalf) : (l.onHalf h f).step3At = l.step3At := by cases h <;> rfl
@[simp] theorem Lamp.onHalf_step4At (l : Lamp) (h : HalfId) (f : LampHalf → LampHalf) : (l.onHalf h f).step4At = l.step4At := by cases h <;> rfl
@[simp] theorem Lamp.onHalf_runningAt (l : Lamp) (h : HalfId) (f : LampHalf → LampHalf) : (l.onHalf h f).runningAt = l.runningAt := by cases h <;> rfl
@[simp] theorem Lamp.onHalf_liveFrom (l : Lamp) (h : HalfId) (f : LampHalf → LampHalf) : (l.onHalf h f).liveFrom = l.liveFrom := by cases h <;> rfl
@[simp] theorem Lamp.onHalf_liveTrig (l : Lamp) (h : HalfId) (f : LampHalf → LampHalf) : (l.onHalf h f).liveTrig = l.liveTrig := by cases h <;> rfl
@[simp] theorem Lamp.onHalf_liveFalls (l : Lamp) (h : HalfId) (f : LampHalf → LampHalf) : (l.onHalf h f).liveFalls = l.liveFalls := by cases h <;> rfl
@[simp] theorem Lamp.onHalf_grantFrom (l : Lamp) (h : HalfId) (f : LampHalf → LampHalf) : (l.onHalf h f).grantFrom = l.grantFrom := by cases h <;> rfl
@[simp] theorem Lamp.onHalf_recs (l : Lamp) (h : HalfId) (f : LampHalf → LampHalf) : (l.onHalf h f).recs = l.recs := by cases h <;> rfl
@[simp] theorem Lamp.onHalf_stopped (l : Lamp) (h : HalfId) (f : LampHalf → LampHalf) : (l.onHalf h f).stopped = l.stopped := by cases h <;> rfl
@[simp] theorem Lamp.onHalf_heartAt (l : Lamp) (h : HalfId) (f : LampHalf → LampHalf) : (l.onHalf h f).heartAt = l.heartAt := by cases h <;> rfl
@[simp] theorem Lamp.onHalf_due (l : Lamp) (h : HalfId) (f : LampHalf → LampHalf) : (l.onHalf h f).due = l.due := by cases h <;> rfl
@[simp] theorem Lamp.onHalf_free (l : Lamp) (h : HalfId) (f : LampHalf → LampHalf) : (l.onHalf h f).free = l.free := by cases h <;> rfl
@[simp] theorem Lamp.onHalf_keys (l : Lamp) (h : HalfId) (f : LampHalf → LampHalf) : (l.onHalf h f).keys = l.keys := by cases h <;> rfl
@[simp] theorem Lamp.onHalf_events (l : Lamp) (h : HalfId) (f : LampHalf → LampHalf) : (l.onHalf h f).events = l.events := by cases h <;> rfl
@[simp] theorem Lamp.onHalf_gangBase (l : Lamp) (h : HalfId) (f : LampHalf → LampHalf) : (l.onHalf h f).gangBase = l.gangBase := by cases h <;> rfl
@[simp] theorem Lamp.onHalf_gangSeen (l : Lamp) (h : HalfId) (f : LampHalf → LampHalf) : (l.onHalf h f).gangSeen = l.gangSeen := by cases h <;> rfl
@[simp] theorem Lamp.onHalf_gangHits (l : Lamp) (h : HalfId) (f : LampHalf → LampHalf) : (l.onHalf h f).gangHits = l.gangHits := by cases h <;> rfl
@[simp] theorem Lamp.onHalf_gangAt (l : Lamp) (h : HalfId) (f : LampHalf → LampHalf) : (l.onHalf h f).gangAt = l.gangAt := by cases h <;> rfl
@[simp] theorem Lamp.onHalf_i2cPtr (l : Lamp) (h : HalfId) (f : LampHalf → LampHalf) : (l.onHalf h f).i2cPtr = l.i2cPtr := by cases h <;> rfl
@[simp] theorem Lamp.onHalf_i2cOut (l : Lamp) (h : HalfId) (f : LampHalf → LampHalf) : (l.onHalf h f).i2cOut = l.i2cOut := by cases h <;> rfl
@[simp] theorem Lamp.onHalf_mirror (l : Lamp) (h : HalfId) (f : LampHalf → LampHalf) : (l.onHalf h f).mirror = l.mirror := by cases h <;> rfl
@[simp] theorem Lamp.onHalf_pass (l : Lamp) (h : HalfId) (f : LampHalf → LampHalf) : (l.onHalf h f).pass = l.pass := by cases h <;> rfl
@[simp] theorem Lamp.onHalf_regs (l : Lamp) (h : HalfId) (f : LampHalf → LampHalf) : (l.onHalf h f).regs = l.regs := by cases h <;> rfl
@[simp] theorem Lamp.half_onHalf (l : Lamp) (h : HalfId) (f : LampHalf → LampHalf) : (l.onHalf h f).half h = f (l.half h) := by cases h <;> rfl
@[simp] theorem Lamp.peer_onHalf (l : Lamp) (h : HalfId) (f : LampHalf → LampHalf) : (l.onHalf h f).half h.peer = l.half h.peer := by cases h <;> rfl
@[simp] theorem HalfId.peer_peer (h : HalfId) : h.peer.peer = h := by cases h <;> rfl
@[simp] theorem Module.setHalf_lamp (m : Module) (h : HalfId) (x : Half) : (m.setHalf h x).lamp = m.lamp := by cases h <;> rfl
@[simp] theorem Module.setHalf_flash (m : Module) (h : HalfId) (x : Half) : (m.setHalf h x).flash = m.flash := by cases h <;> rfl
@[simp] theorem Module.setHalf_fuse (m : Module) (h : HalfId) (x : Half) : (m.setHalf h x).fuse = m.fuse := by cases h <;> rfl
@[simp] theorem Module.onHalf_lamp (m : Module) (h : HalfId) (f : Half → Half) : (m.onHalf h f).lamp = m.lamp := by cases h <;> rfl
@[simp] theorem Module.onHalf_flash (m : Module) (h : HalfId) (f : Half → Half) : (m.onHalf h f).flash = m.flash := by cases h <;> rfl
@[simp] theorem Module.onHalf_fuse (m : Module) (h : HalfId) (f : Half → Half) : (m.onHalf h f).fuse = m.fuse := by cases h <;> rfl
@[simp] theorem Module.onLive_lamp (m : Module) (h : HalfId) (f : Half → Half) : (m.onLive h f).lamp = m.lamp := by unfold Module.onLive; split <;> simp
@[simp] theorem Module.onLive_flash (m : Module) (h : HalfId) (f : Half → Half) : (m.onLive h f).flash = m.flash := by unfold Module.onLive; split <;> simp
@[simp] theorem Module.onLive_fuse (m : Module) (h : HalfId) (f : Half → Half) : (m.onLive h f).fuse = m.fuse := by unfold Module.onLive; split <;> simp
@[simp] theorem Module.onBoth_lamp (m : Module) (f : Half → Half) : (m.onBoth f).lamp = m.lamp := rfl
@[simp] theorem Module.onBoth_flash (m : Module) (f : Half → Half) : (m.onBoth f).flash = m.flash := rfl
@[simp] theorem Module.onBoth_fuse (m : Module) (f : Half → Half) : (m.onBoth f).fuse = m.fuse := rfl
@[simp] theorem Module.onLamp_flash (m : Module) (f : Lamp → Lamp) : (m.onLamp f).flash = m.flash := rfl
@[simp] theorem Module.onLamp_fuse (m : Module) (f : Lamp → Lamp) : (m.onLamp f).fuse = m.fuse := rfl

/-- On a half out of reset an effect is its effect. -/
theorem Module.onLive_live (m : Module) (h : HalfId) (f : Half → Half) (hl : (m.half h).inReset = false) : m.onLive h f = m.onHalf h f := by
  unfold Module.onLive
  rw [hl]
  rfl

/-- On a half in reset there is none (R425). -/
theorem Module.onLive_reset (m : Module) (h : HalfId) (f : Half → Half) (hl : (m.half h).inReset = true) : m.onLive h f = m := by
  unfold Module.onLive
  rw [hl]
  rfl

@[simp] theorem Module.given_true (m : Module) (f : Module → Module) : m.given true f = f m := rfl
@[simp] theorem Module.given_false (m : Module) (f : Module → Module) : m.given false f = m := rfl

/-! ## The state -/

@[simp] theorem State.act_eq (s : State) (f : Nat → Module → Module) : s.act f = .next { s with mod := f s.now s.mod } := rfl
@[simp] theorem State.actAt_eq (s : State) (u : Nat) (f : Nat → Module → Module) :
    s.actAt u f = .next { s with now := max s.now u, mod := f (max s.now u) s.mod } := rfl

end Sys2Proof.Machine
end

