-- ==== Sys2Proof/Laws/Frames.lean ====
section
/-!
SUPPORT. What the shared operations that signal (interrupt sources, events, ledger entries) leave alone: one lemma per field of a
half, or of the lamplighter, per operation.
-/
namespace Sys2Proof.Machine

/-! Half.raiseAt -/
@[simp] theorem Half.raiseAt_id (h : Half) (n s : Nat) : (h.raiseAt n s).id = h.id := by unfold Half.raiseAt; split <;> simp
@[simp] theorem Half.raiseAt_inReset (h : Half) (n s : Nat) : (h.raiseAt n s).inReset = h.inReset := by unfold Half.raiseAt; split <;> simp
@[simp] theorem Half.raiseAt_epoch (h : Half) (n s : Nat) : (h.raiseAt n s).epoch = h.epoch := by unfold Half.raiseAt; split <;> simp
@[simp] theorem Half.raiseAt_free (h : Half) (n s : Nat) : (h.raiseAt n s).free = h.free := by unfold Half.raiseAt; split <;> simp
@[simp] theorem Half.raiseAt_lapBegun (h : Half) (n s : Nat) : (h.raiseAt n s).lapBegun = h.lapBegun := by unfold Half.raiseAt; split <;> simp
@[simp] theorem Half.raiseAt_fst (h : Half) (n s : Nat) : (h.raiseAt n s).fst = h.fst := by unfold Half.raiseAt; split <;> simp
@[simp] theorem Half.raiseAt_sram (h : Half) (n s : Nat) : (h.raiseAt n s).sram = h.sram := by unfold Half.raiseAt; split <;> simp
@[simp] theorem Half.raiseAt_starter (h : Half) (n s : Nat) : (h.raiseAt n s).starter = h.starter := by unfold Half.raiseAt; split <;> simp
@[simp] theorem Half.raiseAt_link (h : Half) (n s : Nat) : (h.raiseAt n s).link = h.link := by unfold Half.raiseAt; split <;> simp
@[simp] theorem Half.raiseAt_engines (h : Half) (n s : Nat) : (h.raiseAt n s).engines = h.engines := by unfold Half.raiseAt; split <;> simp
@[simp] theorem Half.raiseAt_flt (h : Half) (n s : Nat) : (h.raiseAt n s).flt = h.flt := by unfold Half.raiseAt; split <;> simp
@[simp] theorem Half.raiseAt_time (h : Half) (n s : Nat) : (h.raiseAt n s).time = h.time := by unfold Half.raiseAt; split <;> simp
@[simp] theorem Half.raiseAt_host (h : Half) (n s : Nat) : (h.raiseAt n s).host = h.host := by unfold Half.raiseAt; split <;> simp
@[simp] theorem Half.raiseAt_port (h : Half) (n s : Nat) : (h.raiseAt n s).port = h.port := by unfold Half.raiseAt; split <;> simp
@[simp] theorem Half.raiseAt_rings (h : Half) (n s : Nat) : (h.raiseAt n s).rings = h.rings := by unfold Half.raiseAt; split <;> simp
@[simp] theorem Half.raiseAt_cvu (h : Half) (n s : Nat) : (h.raiseAt n s).cvu = h.cvu := by unfold Half.raiseAt; split <;> simp
@[simp] theorem Half.raiseAt_pace (h : Half) (n s : Nat) : (h.raiseAt n s).pace = h.pace := by unfold Half.raiseAt; split <;> simp
@[simp] theorem Half.raiseAt_image (h : Half) (n s : Nat) : (h.raiseAt n s).image = h.image := by unfold Half.raiseAt; split <;> simp
@[simp] theorem Half.raiseAt_load (h : Half) (n s : Nat) : (h.raiseAt n s).load = h.load := by unfold Half.raiseAt; split <;> simp
@[simp] theorem Half.raiseAt_sources (h : Half) (n s : Nat) : (h.raiseAt n s).sources = h.sources := by unfold Half.raiseAt; split <;> simp
@[simp] theorem Half.raiseAt_store (h : Half) (n s : Nat) : (h.raiseAt n s).store = h.store := by unfold Half.raiseAt; split <;> simp
@[simp] theorem Half.raiseAt_lap (h : Half) (n s : Nat) : (h.raiseAt n s).lap = h.lap := by unfold Half.raiseAt; split <;> simp
@[simp] theorem Half.raiseAt_acts (h : Half) (n s : Nat) : (h.raiseAt n s).acts = h.acts := by unfold Half.raiseAt; split <;> simp
@[simp] theorem Half.raiseAt_panel (h : Half) (n s : Nat) : (h.raiseAt n s).panel = h.panel := by unfold Half.raiseAt; split <;> simp
@[simp] theorem Half.raiseAt_latch (h : Half) (n s : Nat) : (h.raiseAt n s).latch = h.latch := by unfold Half.raiseAt; split <;> simp
@[simp] theorem Half.raiseAt_touch (h : Half) (n s : Nat) : (h.raiseAt n s).touch = h.touch := by unfold Half.raiseAt; split <;> simp

/-! Half.raise -/
@[simp] theorem Half.raise_id (h : Half) (s : Nat) : (h.raise s).id = h.id := by simp [Half.raise]
@[simp] theorem Half.raise_inReset (h : Half) (s : Nat) : (h.raise s).inReset = h.inReset := by simp [Half.raise]
@[simp] theorem Half.raise_epoch (h : Half) (s : Nat) : (h.raise s).epoch = h.epoch := by simp [Half.raise]
@[simp] theorem Half.raise_free (h : Half) (s : Nat) : (h.raise s).free = h.free := by simp [Half.raise]
@[simp] theorem Half.raise_lapBegun (h : Half) (s : Nat) : (h.raise s).lapBegun = h.lapBegun := by simp [Half.raise]
@[simp] theorem Half.raise_fst (h : Half) (s : Nat) : (h.raise s).fst = h.fst := by simp [Half.raise]
@[simp] theorem Half.raise_sram (h : Half) (s : Nat) : (h.raise s).sram = h.sram := by simp [Half.raise]
@[simp] theorem Half.raise_starter (h : Half) (s : Nat) : (h.raise s).starter = h.starter := by simp [Half.raise]
@[simp] theorem Half.raise_link (h : Half) (s : Nat) : (h.raise s).link = h.link := by simp [Half.raise]
@[simp] theorem Half.raise_engines (h : Half) (s : Nat) : (h.raise s).engines = h.engines := by simp [Half.raise]
@[simp] theorem Half.raise_flt (h : Half) (s : Nat) : (h.raise s).flt = h.flt := by simp [Half.raise]
@[simp] theorem Half.raise_time (h : Half) (s : Nat) : (h.raise s).time = h.time := by simp [Half.raise]
@[simp] theorem Half.raise_host (h : Half) (s : Nat) : (h.raise s).host = h.host := by simp [Half.raise]
@[simp] theorem Half.raise_port (h : Half) (s : Nat) : (h.raise s).port = h.port := by simp [Half.raise]
@[simp] theorem Half.raise_rings (h : Half) (s : Nat) : (h.raise s).rings = h.rings := by simp [Half.raise]
@[simp] theorem Half.raise_cvu (h : Half) (s : Nat) : (h.raise s).cvu = h.cvu := by simp [Half.raise]
@[simp] theorem Half.raise_pace (h : Half) (s : Nat) : (h.raise s).pace = h.pace := by simp [Half.raise]
@[simp] theorem Half.raise_image (h : Half) (s : Nat) : (h.raise s).image = h.image := by simp [Half.raise]
@[simp] theorem Half.raise_load (h : Half) (s : Nat) : (h.raise s).load = h.load := by simp [Half.raise]
@[simp] theorem Half.raise_sources (h : Half) (s : Nat) : (h.raise s).sources = h.sources := by simp [Half.raise]
@[simp] theorem Half.raise_store (h : Half) (s : Nat) : (h.raise s).store = h.store := by simp [Half.raise]
@[simp] theorem Half.raise_lap (h : Half) (s : Nat) : (h.raise s).lap = h.lap := by simp [Half.raise]
@[simp] theorem Half.raise_acts (h : Half) (s : Nat) : (h.raise s).acts = h.acts := by simp [Half.raise]
@[simp] theorem Half.raise_panel (h : Half) (s : Nat) : (h.raise s).panel = h.panel := by simp [Half.raise]
@[simp] theorem Half.raise_latch (h : Half) (s : Nat) : (h.raise s).latch = h.latch := by simp [Half.raise]
@[simp] theorem Half.raise_touch (h : Half) (s : Nat) : (h.raise s).touch = h.touch := by simp [Half.raise]

/-! Half.note -/
@[simp] theorem Half.note_id (h : Half) (c : Nat) (d : List Byte) : (h.note c d).id = h.id := rfl
@[simp] theorem Half.note_inReset (h : Half) (c : Nat) (d : List Byte) : (h.note c d).inReset = h.inReset := rfl
@[simp] theorem Half.note_epoch (h : Half) (c : Nat) (d : List Byte) : (h.note c d).epoch = h.epoch := rfl
@[simp] theorem Half.note_free (h : Half) (c : Nat) (d : List Byte) : (h.note c d).free = h.free := rfl
@[simp] theorem Half.note_lapBegun (h : Half) (c : Nat) (d : List Byte) : (h.note c d).lapBegun = h.lapBegun := rfl
@[simp] theorem Half.note_fst (h : Half) (c : Nat) (d : List Byte) : (h.note c d).fst = h.fst := rfl
@[simp] theorem Half.note_sram (h : Half) (c : Nat) (d : List Byte) : (h.note c d).sram = h.sram := rfl
@[simp] theorem Half.note_starter (h : Half) (c : Nat) (d : List Byte) : (h.note c d).starter = h.starter := rfl
@[simp] theorem Half.note_link (h : Half) (c : Nat) (d : List Byte) : (h.note c d).link = h.link := rfl
@[simp] theorem Half.note_engines (h : Half) (c : Nat) (d : List Byte) : (h.note c d).engines = h.engines := rfl
@[simp] theorem Half.note_flt (h : Half) (c : Nat) (d : List Byte) : (h.note c d).flt = h.flt := rfl
@[simp] theorem Half.note_time (h : Half) (c : Nat) (d : List Byte) : (h.note c d).time = h.time := rfl
@[simp] theorem Half.note_port (h : Half) (c : Nat) (d : List Byte) : (h.note c d).port = h.port := rfl
@[simp] theorem Half.note_rings (h : Half) (c : Nat) (d : List Byte) : (h.note c d).rings = h.rings := rfl
@[simp] theorem Half.note_cvu (h : Half) (c : Nat) (d : List Byte) : (h.note c d).cvu = h.cvu := rfl
@[simp] theorem Half.note_pace (h : Half) (c : Nat) (d : List Byte) : (h.note c d).pace = h.pace := rfl
@[simp] theorem Half.note_image (h : Half) (c : Nat) (d : List Byte) : (h.note c d).image = h.image := rfl
@[simp] theorem Half.note_load (h : Half) (c : Nat) (d : List Byte) : (h.note c d).load = h.load := rfl
@[simp] theorem Half.note_sources (h : Half) (c : Nat) (d : List Byte) : (h.note c d).sources = h.sources := rfl
@[simp] theorem Half.note_store (h : Half) (c : Nat) (d : List Byte) : (h.note c d).store = h.store := rfl
@[simp] theorem Half.note_lap (h : Half) (c : Nat) (d : List Byte) : (h.note c d).lap = h.lap := rfl
@[simp] theorem Half.note_acts (h : Half) (c : Nat) (d : List Byte) : (h.note c d).acts = h.acts := rfl
@[simp] theorem Half.note_panel (h : Half) (c : Nat) (d : List Byte) : (h.note c d).panel = h.panel := rfl
@[simp] theorem Half.note_latch (h : Half) (c : Nat) (d : List Byte) : (h.note c d).latch = h.latch := rfl
@[simp] theorem Half.note_touch (h : Half) (c : Nat) (d : List Byte) : (h.note c d).touch = h.touch := rfl
@[simp] theorem Half.note_regs (h : Half) (c : Nat) (d : List Byte) : (h.note c d).regs = h.regs := rfl

/-! Half.signal -/
@[simp] theorem Half.signal_id (h : Half) (s off : Nat) : (h.signal s off).id = h.id := by unfold Half.signal; dsimp only; split <;> simp
@[simp] theorem Half.signal_inReset (h : Half) (s off : Nat) : (h.signal s off).inReset = h.inReset := by unfold Half.signal; dsimp only; split <;> simp
@[simp] theorem Half.signal_epoch (h : Half) (s off : Nat) : (h.signal s off).epoch = h.epoch := by unfold Half.signal; dsimp only; split <;> simp
@[simp] theorem Half.signal_free (h : Half) (s off : Nat) : (h.signal s off).free = h.free := by unfold Half.signal; dsimp only; split <;> simp
@[simp] theorem Half.signal_lapBegun (h : Half) (s off : Nat) : (h.signal s off).lapBegun = h.lapBegun := by unfold Half.signal; dsimp only; split <;> simp
@[simp] theorem Half.signal_fst (h : Half) (s off : Nat) : (h.signal s off).fst = h.fst := by unfold Half.signal; dsimp only; split <;> simp
@[simp] theorem Half.signal_sram (h : Half) (s off : Nat) : (h.signal s off).sram = h.sram := by unfold Half.signal; dsimp only; split <;> simp
@[simp] theorem Half.signal_starter (h : Half) (s off : Nat) : (h.signal s off).starter = h.starter := by unfold Half.signal; dsimp only; split <;> simp
@[simp] theorem Half.signal_link (h : Half) (s off : Nat) : (h.signal s off).link = h.link := by unfold Half.signal; dsimp only; split <;> simp
@[simp] theorem Half.signal_engines (h : Half) (s off : Nat) : (h.signal s off).engines = h.engines := by unfold Half.signal; dsimp only; split <;> simp
@[simp] theorem Half.signal_flt (h : Half) (s off : Nat) : (h.signal s off).flt = h.flt := by unfold Half.signal; dsimp only; split <;> simp
@[simp] theorem Half.signal_time (h : Half) (s off : Nat) : (h.signal s off).time = h.time := by unfold Half.signal; dsimp only; split <;> simp
@[simp] theorem Half.signal_port (h : Half) (s off : Nat) : (h.signal s off).port = h.port := by unfold Half.signal; dsimp only; split <;> simp
@[simp] theorem Half.signal_rings (h : Half) (s off : Nat) : (h.signal s off).rings = h.rings := by unfold Half.signal; dsimp only; split <;> simp
@[simp] theorem Half.signal_cvu (h : Half) (s off : Nat) : (h.signal s off).cvu = h.cvu := by unfold Half.signal; dsimp only; split <;> simp
@[simp] theorem Half.signal_pace (h : Half) (s off : Nat) : (h.signal s off).pace = h.pace := by unfold Half.signal; dsimp only; split <;> simp
@[simp] theorem Half.signal_image (h : Half) (s off : Nat) : (h.signal s off).image = h.image := by unfold Half.signal; dsimp only; split <;> simp
@[simp] theorem Half.signal_load (h : Half) (s off : Nat) : (h.signal s off).load = h.load := by unfold Half.signal; dsimp only; split <;> simp
@[simp] theorem Half.signal_sources (h : Half) (s off : Nat) : (h.signal s off).sources = h.sources := by unfold Half.signal; dsimp only; split <;> simp
@[simp] theorem Half.signal_store (h : Half) (s off : Nat) : (h.signal s off).store = h.store := by unfold Half.signal; dsimp only; split <;> simp
@[simp] theorem Half.signal_lap (h : Half) (s off : Nat) : (h.signal s off).lap = h.lap := by unfold Half.signal; dsimp only; split <;> simp
@[simp] theorem Half.signal_acts (h : Half) (s off : Nat) : (h.signal s off).acts = h.acts := by unfold Half.signal; dsimp only; split <;> simp
@[simp] theorem Half.signal_panel (h : Half) (s off : Nat) : (h.signal s off).panel = h.panel := by unfold Half.signal; dsimp only; split <;> simp
@[simp] theorem Half.signal_latch (h : Half) (s off : Nat) : (h.signal s off).latch = h.latch := by unfold Half.signal; dsimp only; split <;> simp
@[simp] theorem Half.signal_touch (h : Half) (s off : Nat) : (h.signal s off).touch = h.touch := by unfold Half.signal; dsimp only; split <;> simp

/-! Half.send -/
@[simp] theorem Half.send_id (h : Half) (x : LinkMsg) : (h.send x).id = h.id := by unfold Half.send; split <;> rfl
@[simp] theorem Half.send_inReset (h : Half) (x : LinkMsg) : (h.send x).inReset = h.inReset := by unfold Half.send; split <;> rfl
@[simp] theorem Half.send_epoch (h : Half) (x : LinkMsg) : (h.send x).epoch = h.epoch := by unfold Half.send; split <;> rfl
@[simp] theorem Half.send_free (h : Half) (x : LinkMsg) : (h.send x).free = h.free := by unfold Half.send; split <;> rfl
@[simp] theorem Half.send_lapBegun (h : Half) (x : LinkMsg) : (h.send x).lapBegun = h.lapBegun := by unfold Half.send; split <;> rfl
@[simp] theorem Half.send_fst (h : Half) (x : LinkMsg) : (h.send x).fst = h.fst := by unfold Half.send; split <;> rfl
@[simp] theorem Half.send_sram (h : Half) (x : LinkMsg) : (h.send x).sram = h.sram := by unfold Half.send; split <;> rfl
@[simp] theorem Half.send_starter (h : Half) (x : LinkMsg) : (h.send x).starter = h.starter := by unfold Half.send; split <;> rfl
@[simp] theorem Half.send_engines (h : Half) (x : LinkMsg) : (h.send x).engines = h.engines := by unfold Half.send; split <;> rfl
@[simp] theorem Half.send_flt (h : Half) (x : LinkMsg) : (h.send x).flt = h.flt := by unfold Half.send; split <;> rfl
@[simp] theorem Half.send_time (h : Half) (x : LinkMsg) : (h.send x).time = h.time := by unfold Half.send; split <;> rfl
@[simp] theorem Half.send_host (h : Half) (x : LinkMsg) : (h.send x).host = h.host := by unfold Half.send; split <;> rfl
@[simp] theorem Half.send_port (h : Half) (x : LinkMsg) : (h.send x).port = h.port := by unfold Half.send; split <;> rfl
@[simp] theorem Half.send_rings (h : Half) (x : LinkMsg) : (h.send x).rings = h.rings := by unfold Half.send; split <;> rfl
@[simp] theorem Half.send_cvu (h : Half) (x : LinkMsg) : (h.send x).cvu = h.cvu := by unfold Half.send; split <;> rfl
@[simp] theorem Half.send_pace (h : Half) (x : LinkMsg) : (h.send x).pace = h.pace := by unfold Half.send; split <;> rfl
@[simp] theorem Half.send_image (h : Half) (x : LinkMsg) : (h.send x).image = h.image := by unfold Half.send; split <;> rfl
@[simp] theorem Half.send_load (h : Half) (x : LinkMsg) : (h.send x).load = h.load := by unfold Half.send; split <;> rfl
@[simp] theorem Half.send_sources (h : Half) (x : LinkMsg) : (h.send x).sources = h.sources := by unfold Half.send; split <;> rfl
@[simp] theorem Half.send_store (h : Half) (x : LinkMsg) : (h.send x).store = h.store := by unfold Half.send; split <;> rfl
@[simp] theorem Half.send_lap (h : Half) (x : LinkMsg) : (h.send x).lap = h.lap := by unfold Half.send; split <;> rfl
@[simp] theorem Half.send_acts (h : Half) (x : LinkMsg) : (h.send x).acts = h.acts := by unfold Half.send; split <;> rfl
@[simp] theorem Half.send_panel (h : Half) (x : LinkMsg) : (h.send x).panel = h.panel := by unfold Half.send; split <;> rfl
@[simp] theorem Half.send_latch (h : Half) (x : LinkMsg) : (h.send x).latch = h.latch := by unfold Half.send; split <;> rfl
@[simp] theorem Half.send_touch (h : Half) (x : LinkMsg) : (h.send x).touch = h.touch := by unfold Half.send; split <;> rfl
@[simp] theorem Half.send_regs (h : Half) (x : LinkMsg) : (h.send x).regs = h.regs := by unfold Half.send; split <;> rfl

/-! Half.writeEntry -/
@[simp] theorem Half.writeEntry_id (h : Half) (e : Nat → List Byte) (c : Nat) : (h.writeEntry e c).id = h.id := by unfold Half.writeEntry; dsimp only; split <;> simp
@[simp] theorem Half.writeEntry_inReset (h : Half) (e : Nat → List Byte) (c : Nat) : (h.writeEntry e c).inReset = h.inReset := by unfold Half.writeEntry; dsimp only; split <;> simp
@[simp] theorem Half.writeEntry_epoch (h : Half) (e : Nat → List Byte) (c : Nat) : (h.writeEntry e c).epoch = h.epoch := by unfold Half.writeEntry; dsimp only; split <;> simp
@[simp] theorem Half.writeEntry_free (h : Half) (e : Nat → List Byte) (c : Nat) : (h.writeEntry e c).free = h.free := by unfold Half.writeEntry; dsimp only; split <;> simp
@[simp] theorem Half.writeEntry_lapBegun (h : Half) (e : Nat → List Byte) (c : Nat) : (h.writeEntry e c).lapBegun = h.lapBegun := by unfold Half.writeEntry; dsimp only; split <;> simp
@[simp] theorem Half.writeEntry_fst (h : Half) (e : Nat → List Byte) (c : Nat) : (h.writeEntry e c).fst = h.fst := by unfold Half.writeEntry; dsimp only; split <;> simp
@[simp] theorem Half.writeEntry_sram (h : Half) (e : Nat → List Byte) (c : Nat) : (h.writeEntry e c).sram = h.sram := by unfold Half.writeEntry; dsimp only; split <;> simp
@[simp] theorem Half.writeEntry_starter (h : Half) (e : Nat → List Byte) (c : Nat) : (h.writeEntry e c).starter = h.starter := by unfold Half.writeEntry; dsimp only; split <;> simp
@[simp] theorem Half.writeEntry_engines (h : Half) (e : Nat → List Byte) (c : Nat) : (h.writeEntry e c).engines = h.engines := by unfold Half.writeEntry; dsimp only; split <;> simp
@[simp] theorem Half.writeEntry_time (h : Half) (e : Nat → List Byte) (c : Nat) : (h.writeEntry e c).time = h.time := by unfold Half.writeEntry; dsimp only; split <;> simp
@[simp] theorem Half.writeEntry_port (h : Half) (e : Nat → List Byte) (c : Nat) : (h.writeEntry e c).port = h.port := by unfold Half.writeEntry; dsimp only; split <;> simp
@[simp] theorem Half.writeEntry_rings (h : Half) (e : Nat → List Byte) (c : Nat) : (h.writeEntry e c).rings = h.rings := by unfold Half.writeEntry; dsimp only; split <;> simp
@[simp] theorem Half.writeEntry_cvu (h : Half) (e : Nat → List Byte) (c : Nat) : (h.writeEntry e c).cvu = h.cvu := by unfold Half.writeEntry; dsimp only; split <;> simp
@[simp] theorem Half.writeEntry_pace (h : Half) (e : Nat → List Byte) (c : Nat) : (h.writeEntry e c).pace = h.pace := by unfold Half.writeEntry; dsimp only; split <;> simp
@[simp] theorem Half.writeEntry_image (h : Half) (e : Nat → List Byte) (c : Nat) : (h.writeEntry e c).image = h.image := by unfold Half.writeEntry; dsimp only; split <;> simp
@[simp] theorem Half.writeEntry_load (h : Half) (e : Nat → List Byte) (c : Nat) : (h.writeEntry e c).load = h.load := by unfold Half.writeEntry; dsimp only; split <;> simp
@[simp] theorem Half.writeEntry_sources (h : Half) (e : Nat → List Byte) (c : Nat) : (h.writeEntry e c).sources = h.sources := by unfold Half.writeEntry; dsimp only; split <;> simp
@[simp] theorem Half.writeEntry_store (h : Half) (e : Nat → List Byte) (c : Nat) : (h.writeEntry e c).store = h.store := by unfold Half.writeEntry; dsimp only; split <;> simp
@[simp] theorem Half.writeEntry_lap (h : Half) (e : Nat → List Byte) (c : Nat) : (h.writeEntry e c).lap = h.lap := by unfold Half.writeEntry; dsimp only; split <;> simp
@[simp] theorem Half.writeEntry_acts (h : Half) (e : Nat → List Byte) (c : Nat) : (h.writeEntry e c).acts = h.acts := by unfold Half.writeEntry; dsimp only; split <;> simp
@[simp] theorem Half.writeEntry_panel (h : Half) (e : Nat → List Byte) (c : Nat) : (h.writeEntry e c).panel = h.panel := by unfold Half.writeEntry; dsimp only; split <;> simp
@[simp] theorem Half.writeEntry_latch (h : Half) (e : Nat → List Byte) (c : Nat) : (h.writeEntry e c).latch = h.latch := by unfold Half.writeEntry; dsimp only; split <;> simp
@[simp] theorem Half.writeEntry_touch (h : Half) (e : Nat → List Byte) (c : Nat) : (h.writeEntry e c).touch = h.touch := by unfold Half.writeEntry; dsimp only; split <;> simp

/-! Half.fault -/
@[simp] theorem Half.fault_id (h : Half) (t c k u : Nat) (d : List Byte) : (h.fault t c k u d).id = h.id := by unfold Half.fault; simp
@[simp] theorem Half.fault_inReset (h : Half) (t c k u : Nat) (d : List Byte) : (h.fault t c k u d).inReset = h.inReset := by unfold Half.fault; simp
@[simp] theorem Half.fault_epoch (h : Half) (t c k u : Nat) (d : List Byte) : (h.fault t c k u d).epoch = h.epoch := by unfold Half.fault; simp
@[simp] theorem Half.fault_free (h : Half) (t c k u : Nat) (d : List Byte) : (h.fault t c k u d).free = h.free := by unfold Half.fault; simp
@[simp] theorem Half.fault_lapBegun (h : Half) (t c k u : Nat) (d : List Byte) : (h.fault t c k u d).lapBegun = h.lapBegun := by unfold Half.fault; simp
@[simp] theorem Half.fault_fst (h : Half) (t c k u : Nat) (d : List Byte) : (h.fault t c k u d).fst = h.fst := by unfold Half.fault; simp
@[simp] theorem Half.fault_sram (h : Half) (t c k u : Nat) (d : List Byte) : (h.fault t c k u d).sram = h.sram := by unfold Half.fault; simp
@[simp] theorem Half.fault_starter (h : Half) (t c k u : Nat) (d : List Byte) : (h.fault t c k u d).starter = h.starter := by unfold Half.fault; simp
@[simp] theorem Half.fault_engines (h : Half) (t c k u : Nat) (d : List Byte) : (h.fault t c k u d).engines = h.engines := by unfold Half.fault; simp
@[simp] theorem Half.fault_time (h : Half) (t c k u : Nat) (d : List Byte) : (h.fault t c k u d).time = h.time := by unfold Half.fault; simp
@[simp] theorem Half.fault_port (h : Half) (t c k u : Nat) (d : List Byte) : (h.fault t c k u d).port = h.port := by unfold Half.fault; simp
@[simp] theorem Half.fault_rings (h : Half) (t c k u : Nat) (d : List Byte) : (h.fault t c k u d).rings = h.rings := by unfold Half.fault; simp
@[simp] theorem Half.fault_cvu (h : Half) (t c k u : Nat) (d : List Byte) : (h.fault t c k u d).cvu = h.cvu := by unfold Half.fault; simp
@[simp] theorem Half.fault_pace (h : Half) (t c k u : Nat) (d : List Byte) : (h.fault t c k u d).pace = h.pace := by unfold Half.fault; simp
@[simp] theorem Half.fault_image (h : Half) (t c k u : Nat) (d : List Byte) : (h.fault t c k u d).image = h.image := by unfold Half.fault; simp
@[simp] theorem Half.fault_load (h : Half) (t c k u : Nat) (d : List Byte) : (h.fault t c k u d).load = h.load := by unfold Half.fault; simp
@[simp] theorem Half.fault_sources (h : Half) (t c k u : Nat) (d : List Byte) : (h.fault t c k u d).sources = h.sources := by unfold Half.fault; simp
@[simp] theorem Half.fault_store (h : Half) (t c k u : Nat) (d : List Byte) : (h.fault t c k u d).store = h.store := by unfold Half.fault; simp
@[simp] theorem Half.fault_lap (h : Half) (t c k u : Nat) (d : List Byte) : (h.fault t c k u d).lap = h.lap := by unfold Half.fault; simp
@[simp] theorem Half.fault_acts (h : Half) (t c k u : Nat) (d : List Byte) : (h.fault t c k u d).acts = h.acts := by unfold Half.fault; simp
@[simp] theorem Half.fault_panel (h : Half) (t c k u : Nat) (d : List Byte) : (h.fault t c k u d).panel = h.panel := by unfold Half.fault; simp
@[simp] theorem Half.fault_latch (h : Half) (t c k u : Nat) (d : List Byte) : (h.fault t c k u d).latch = h.latch := by unfold Half.fault; simp
@[simp] theorem Half.fault_touch (h : Half) (t c k u : Nat) (d : List Byte) : (h.fault t c k u d).touch = h.touch := by unfold Half.fault; simp

/-! Half.addCause -/
@[simp] theorem Half.addCause_id (h : Half) (c : Nat) : (h.addCause c).id = h.id := by simp [Half.addCause]
@[simp] theorem Half.addCause_inReset (h : Half) (c : Nat) : (h.addCause c).inReset = h.inReset := by simp [Half.addCause]
@[simp] theorem Half.addCause_epoch (h : Half) (c : Nat) : (h.addCause c).epoch = h.epoch := by simp [Half.addCause]
@[simp] theorem Half.addCause_free (h : Half) (c : Nat) : (h.addCause c).free = h.free := by simp [Half.addCause]
@[simp] theorem Half.addCause_lapBegun (h : Half) (c : Nat) : (h.addCause c).lapBegun = h.lapBegun := by simp [Half.addCause]
@[simp] theorem Half.addCause_fst (h : Half) (c : Nat) : (h.addCause c).fst = h.fst := by simp [Half.addCause]
@[simp] theorem Half.addCause_sram (h : Half) (c : Nat) : (h.addCause c).sram = h.sram := by simp [Half.addCause]
@[simp] theorem Half.addCause_starter (h : Half) (c : Nat) : (h.addCause c).starter = h.starter := by simp [Half.addCause]
@[simp] theorem Half.addCause_link (h : Half) (c : Nat) : (h.addCause c).link = h.link := by simp [Half.addCause]
@[simp] theorem Half.addCause_engines (h : Half) (c : Nat) : (h.addCause c).engines = h.engines := by simp [Half.addCause]
@[simp] theorem Half.addCause_flt (h : Half) (c : Nat) : (h.addCause c).flt = h.flt := by simp [Half.addCause]
@[simp] theorem Half.addCause_time (h : Half) (c : Nat) : (h.addCause c).time = h.time := by simp [Half.addCause]
@[simp] theorem Half.addCause_host (h : Half) (c : Nat) : (h.addCause c).host = h.host := by simp [Half.addCause]
@[simp] theorem Half.addCause_port (h : Half) (c : Nat) : (h.addCause c).port = h.port := by simp [Half.addCause]
@[simp] theorem Half.addCause_rings (h : Half) (c : Nat) : (h.addCause c).rings = h.rings := by simp [Half.addCause]
@[simp] theorem Half.addCause_cvu (h : Half) (c : Nat) : (h.addCause c).cvu = h.cvu := by simp [Half.addCause]
@[simp] theorem Half.addCause_pace (h : Half) (c : Nat) : (h.addCause c).pace = h.pace := by simp [Half.addCause]
@[simp] theorem Half.addCause_image (h : Half) (c : Nat) : (h.addCause c).image = h.image := by simp [Half.addCause]
@[simp] theorem Half.addCause_load (h : Half) (c : Nat) : (h.addCause c).load = h.load := by simp [Half.addCause]
@[simp] theorem Half.addCause_sources (h : Half) (c : Nat) : (h.addCause c).sources = h.sources := by simp [Half.addCause]
@[simp] theorem Half.addCause_store (h : Half) (c : Nat) : (h.addCause c).store = h.store := by simp [Half.addCause]
@[simp] theorem Half.addCause_lap (h : Half) (c : Nat) : (h.addCause c).lap = h.lap := by simp [Half.addCause]
@[simp] theorem Half.addCause_acts (h : Half) (c : Nat) : (h.addCause c).acts = h.acts := by simp [Half.addCause]
@[simp] theorem Half.addCause_panel (h : Half) (c : Nat) : (h.addCause c).panel = h.panel := by simp [Half.addCause]
@[simp] theorem Half.addCause_latch (h : Half) (c : Nat) : (h.addCause c).latch = h.latch := by simp [Half.addCause]
@[simp] theorem Half.addCause_touch (h : Half) (c : Nat) : (h.addCause c).touch = h.touch := by simp [Half.addCause]

/-! Lamp.enter -/
@[simp] theorem Lamp.enter_scope (l : Lamp) (t : Nat) (p : LampPhase) : (l.enter t p).scope = l.scope := rfl
@[simp] theorem Lamp.enter_cause (l : Lamp) (t : Nat) (p : LampPhase) : (l.enter t p).cause = l.cause := rfl
@[simp] theorem Lamp.enter_fsCount (l : Lamp) (t : Nat) (p : LampPhase) : (l.enter t p).fsCount = l.fsCount := rfl
@[simp] theorem Lamp.enter_strap (l : Lamp) (t : Nat) (p : LampPhase) : (l.enter t p).strap = l.strap := rfl
@[simp] theorem Lamp.enter_pwrEn (l : Lamp) (t : Nat) (p : LampPhase) : (l.enter t p).pwrEn = l.pwrEn := rfl
@[simp] theorem Lamp.enter_pwrGood (l : Lamp) (t : Nat) (p : LampPhase) : (l.enter t p).pwrGood = l.pwrGood := rfl
@[simp] theorem Lamp.enter_attempts (l : Lamp) (t : Nat) (p : LampPhase) : (l.enter t p).attempts = l.attempts := rfl
@[simp] theorem Lamp.enter_h0 (l : Lamp) (t : Nat) (p : LampPhase) : (l.enter t p).h0 = l.h0 := rfl
@[simp] theorem Lamp.enter_h1 (l : Lamp) (t : Nat) (p : LampPhase) : (l.enter t p).h1 = l.h1 := rfl
@[simp] theorem Lamp.enter_outLast (l : Lamp) (t : Nat) (p : LampPhase) : (l.enter t p).outLast = l.outLast := rfl
@[simp] theorem Lamp.enter_outActed (l : Lamp) (t : Nat) (p : LampPhase) : (l.enter t p).outActed = l.outActed := rfl
@[simp] theorem Lamp.enter_mv (l : Lamp) (t : Nat) (p : LampPhase) : (l.enter t p).mv = l.mv := rfl
@[simp] theorem Lamp.enter_temps (l : Lamp) (t : Nat) (p : LampPhase) : (l.enter t p).temps = l.temps := rfl
@[simp] theorem Lamp.enter_resetNLow (l : Lamp) (t : Nat) (p : LampPhase) : (l.enter t p).resetNLow = l.resetNLow := rfl
@[simp] theorem Lamp.enter_tripped (l : Lamp) (t : Nat) (p : LampPhase) : (l.enter t p).tripped = l.tripped := rfl
@[simp] theorem Lamp.enter_asked (l : Lamp) (t : Nat) (p : LampPhase) : (l.enter t p).asked = l.asked := rfl
@[simp] theorem Lamp.enter_wakeHeld (l : Lamp) (t : Nat) (p : LampPhase) : (l.enter t p).wakeHeld = l.wakeHeld := rfl
@[simp] theorem Lamp.enter_startAt (l : Lamp) (t : Nat) (p : LampPhase) : (l.enter t p).startAt = l.startAt := rfl
@[simp] theorem Lamp.enter_step3At (l : Lamp) (t : Nat) (p : LampPhase) : (l.enter t p).step3At = l.step3At := rfl
@[simp] theorem Lamp.enter_step4At (l : Lamp) (t : Nat) (p : LampPhase) : (l.enter t p).step4At = l.step4At := rfl
@[simp] theorem Lamp.enter_runningAt (l : Lamp) (t : Nat) (p : LampPhase) : (l.enter t p).runningAt = l.runningAt := rfl
@[simp] theorem Lamp.enter_liveFrom (l : Lamp) (t : Nat) (p : LampPhase) : (l.enter t p).liveFrom = l.liveFrom := rfl
@[simp] theorem Lamp.enter_liveTrig (l : Lamp) (t : Nat) (p : LampPhase) : (l.enter t p).liveTrig = l.liveTrig := rfl
@[simp] theorem Lamp.enter_liveFalls (l : Lamp) (t : Nat) (p : LampPhase) : (l.enter t p).liveFalls = l.liveFalls := rfl
@[simp] theorem Lamp.enter_grantFrom (l : Lamp) (t : Nat) (p : LampPhase) : (l.enter t p).grantFrom = l.grantFrom := rfl
@[simp] theorem Lamp.enter_recs (l : Lamp) (t : Nat) (p : LampPhase) : (l.enter t p).recs = l.recs := rfl
@[simp] theorem Lamp.enter_stopped (l : Lamp) (t : Nat) (p : LampPhase) : (l.enter t p).stopped = l.stopped := rfl
@[simp] theorem Lamp.enter_heartAt (l : Lamp) (t : Nat) (p : LampPhase) : (l.enter t p).heartAt = l.heartAt := rfl
@[simp] theorem Lamp.enter_due (l : Lamp) (t : Nat) (p : LampPhase) : (l.enter t p).due = l.due := rfl
@[simp] theorem Lamp.enter_free (l : Lamp) (t : Nat) (p : LampPhase) : (l.enter t p).free = l.free := rfl
@[simp] theorem Lamp.enter_keys (l : Lamp) (t : Nat) (p : LampPhase) : (l.enter t p).keys = l.keys := rfl
@[simp] theorem Lamp.enter_events (l : Lamp) (t : Nat) (p : LampPhase) : (l.enter t p).events = l.events := rfl
@[simp] theorem Lamp.enter_gangBase (l : Lamp) (t : Nat) (p : LampPhase) : (l.enter t p).gangBase = l.gangBase := rfl
@[simp] theorem Lamp.enter_gangSeen (l : Lamp) (t : Nat) (p : LampPhase) : (l.enter t p).gangSeen = l.gangSeen := rfl
@[simp] theorem Lamp.enter_gangHits (l : Lamp) (t : Nat) (p : LampPhase) : (l.enter t p).gangHits = l.gangHits := rfl
@[simp] theorem Lamp.enter_gangAt (l : Lamp) (t : Nat) (p : LampPhase) : (l.enter t p).gangAt = l.gangAt := rfl
@[simp] theorem Lamp.enter_i2cPtr (l : Lamp) (t : Nat) (p : LampPhase) : (l.enter t p).i2cPtr = l.i2cPtr := rfl
@[simp] theorem Lamp.enter_i2cOut (l : Lamp) (t : Nat) (p : LampPhase) : (l.enter t p).i2cOut = l.i2cOut := rfl
@[simp] theorem Lamp.enter_mirror (l : Lamp) (t : Nat) (p : LampPhase) : (l.enter t p).mirror = l.mirror := rfl
@[simp] theorem Lamp.enter_pass (l : Lamp) (t : Nat) (p : LampPhase) : (l.enter t p).pass = l.pass := rfl

/-! Lamp.liveLow -/
@[simp] theorem Lamp.liveLow_phase (l : Lamp)  : (l.liveLow).phase = l.phase := by unfold Lamp.liveLow; dsimp only; split <;> rfl
@[simp] theorem Lamp.liveLow_phaseAt (l : Lamp)  : (l.liveLow).phaseAt = l.phaseAt := by unfold Lamp.liveLow; dsimp only; split <;> rfl
@[simp] theorem Lamp.liveLow_scope (l : Lamp)  : (l.liveLow).scope = l.scope := by unfold Lamp.liveLow; dsimp only; split <;> rfl
@[simp] theorem Lamp.liveLow_cause (l : Lamp)  : (l.liveLow).cause = l.cause := by unfold Lamp.liveLow; dsimp only; split <;> rfl
@[simp] theorem Lamp.liveLow_fsCount (l : Lamp)  : (l.liveLow).fsCount = l.fsCount := by unfold Lamp.liveLow; dsimp only; split <;> rfl
@[simp] theorem Lamp.liveLow_strap (l : Lamp)  : (l.liveLow).strap = l.strap := by unfold Lamp.liveLow; dsimp only; split <;> rfl
@[simp] theorem Lamp.liveLow_pwrEn (l : Lamp)  : (l.liveLow).pwrEn = l.pwrEn := by unfold Lamp.liveLow; dsimp only; split <;> rfl
@[simp] theorem Lamp.liveLow_pwrGood (l : Lamp)  : (l.liveLow).pwrGood = l.pwrGood := by unfold Lamp.liveLow; dsimp only; split <;> rfl
@[simp] theorem Lamp.liveLow_attempts (l : Lamp)  : (l.liveLow).attempts = l.attempts := by unfold Lamp.liveLow; dsimp only; split <;> rfl
@[simp] theorem Lamp.liveLow_h0 (l : Lamp)  : (l.liveLow).h0 = l.h0 := by unfold Lamp.liveLow; dsimp only; split <;> rfl
@[simp] theorem Lamp.liveLow_h1 (l : Lamp)  : (l.liveLow).h1 = l.h1 := by unfold Lamp.liveLow; dsimp only; split <;> rfl
@[simp] theorem Lamp.liveLow_outLast (l : Lamp)  : (l.liveLow).outLast = l.outLast := by unfold Lamp.liveLow; dsimp only; split <;> rfl
@[simp] theorem Lamp.liveLow_outActed (l : Lamp)  : (l.liveLow).outActed = l.outActed := by unfold Lamp.liveLow; dsimp only; split <;> rfl
@[simp] theorem Lamp.liveLow_mv (l : Lamp)  : (l.liveLow).mv = l.mv := by unfold Lamp.liveLow; dsimp only; split <;> rfl
@[simp] theorem Lamp.liveLow_temps (l : Lamp)  : (l.liveLow).temps = l.temps := by unfold Lamp.liveLow; dsimp only; split <;> rfl
@[simp] theorem Lamp.liveLow_resetNLow (l : Lamp)  : (l.liveLow).resetNLow = l.resetNLow := by unfold Lamp.liveLow; dsimp only; split <;> rfl
@[simp] theorem Lamp.liveLow_tripped (l : Lamp)  : (l.liveLow).tripped = l.tripped := by unfold Lamp.liveLow; dsimp only; split <;> rfl
@[simp] theorem Lamp.liveLow_asked (l : Lamp)  : (l.liveLow).asked = l.asked := by unfold Lamp.liveLow; dsimp only; split <;> rfl
@[simp] theorem Lamp.liveLow_wakeHeld (l : Lamp)  : (l.liveLow).wakeHeld = l.wakeHeld := by unfold Lamp.liveLow; dsimp only; split <;> rfl
@[simp] theorem Lamp.liveLow_startAt (l : Lamp)  : (l.liveLow).startAt = l.startAt := by unfold Lamp.liveLow; dsimp only; split <;> rfl
@[simp] theorem Lamp.liveLow_step3At (l : Lamp)  : (l.liveLow).step3At = l.step3At := by unfold Lamp.liveLow; dsimp only; split <;> rfl
@[simp] theorem Lamp.liveLow_step4At (l : Lamp)  : (l.liveLow).step4At = l.step4At := by unfold Lamp.liveLow; dsimp only; split <;> rfl
@[simp] theorem Lamp.liveLow_runningAt (l : Lamp)  : (l.liveLow).runningAt = l.runningAt := by unfold Lamp.liveLow; dsimp only; split <;> rfl
@[simp] theorem Lamp.liveLow_liveTrig (l : Lamp)  : (l.liveLow).liveTrig = l.liveTrig := by unfold Lamp.liveLow; dsimp only; split <;> rfl
@[simp] theorem Lamp.liveLow_grantFrom (l : Lamp)  : (l.liveLow).grantFrom = l.grantFrom := by unfold Lamp.liveLow; dsimp only; split <;> rfl
@[simp] theorem Lamp.liveLow_recs (l : Lamp)  : (l.liveLow).recs = l.recs := by unfold Lamp.liveLow; dsimp only; split <;> rfl
@[simp] theorem Lamp.liveLow_stopped (l : Lamp)  : (l.liveLow).stopped = l.stopped := by unfold Lamp.liveLow; dsimp only; split <;> rfl
@[simp] theorem Lamp.liveLow_heartAt (l : Lamp)  : (l.liveLow).heartAt = l.heartAt := by unfold Lamp.liveLow; dsimp only; split <;> rfl
@[simp] theorem Lamp.liveLow_due (l : Lamp)  : (l.liveLow).due = l.due := by unfold Lamp.liveLow; dsimp only; split <;> rfl
@[simp] theorem Lamp.liveLow_free (l : Lamp)  : (l.liveLow).free = l.free := by unfold Lamp.liveLow; dsimp only; split <;> rfl
@[simp] theorem Lamp.liveLow_keys (l : Lamp)  : (l.liveLow).keys = l.keys := by unfold Lamp.liveLow; dsimp only; split <;> rfl
@[simp] theorem Lamp.liveLow_events (l : Lamp)  : (l.liveLow).events = l.events := by unfold Lamp.liveLow; dsimp only; split <;> rfl
@[simp] theorem Lamp.liveLow_gangBase (l : Lamp)  : (l.liveLow).gangBase = l.gangBase := by unfold Lamp.liveLow; dsimp only; split <;> rfl
@[simp] theorem Lamp.liveLow_gangSeen (l : Lamp)  : (l.liveLow).gangSeen = l.gangSeen := by unfold Lamp.liveLow; dsimp only; split <;> rfl
@[simp] theorem Lamp.liveLow_gangHits (l : Lamp)  : (l.liveLow).gangHits = l.gangHits := by unfold Lamp.liveLow; dsimp only; split <;> rfl
@[simp] theorem Lamp.liveLow_gangAt (l : Lamp)  : (l.liveLow).gangAt = l.gangAt := by unfold Lamp.liveLow; dsimp only; split <;> rfl
@[simp] theorem Lamp.liveLow_i2cPtr (l : Lamp)  : (l.liveLow).i2cPtr = l.i2cPtr := by unfold Lamp.liveLow; dsimp only; split <;> rfl
@[simp] theorem Lamp.liveLow_i2cOut (l : Lamp)  : (l.liveLow).i2cOut = l.i2cOut := by unfold Lamp.liveLow; dsimp only; split <;> rfl
@[simp] theorem Lamp.liveLow_mirror (l : Lamp)  : (l.liveLow).mirror = l.mirror := by unfold Lamp.liveLow; dsimp only; split <;> rfl
@[simp] theorem Lamp.liveLow_pass (l : Lamp)  : (l.liveLow).pass = l.pass := by unfold Lamp.liveLow; dsimp only; split <;> rfl

@[simp] theorem Lamp.enter_phase (l : Lamp) (t : Nat) (p : LampPhase) : (l.enter t p).phase = p := rfl
@[simp] theorem Lamp.enter_phaseAt (l : Lamp) (t : Nat) (p : LampPhase) : (l.enter t p).phaseAt = t := rfl

end Sys2Proof.Machine
end

