-- ==== Sys2Proof/Laws/Signals.lean ====
section
/-!
SUPPORT. What raising an interrupt source, signalling and writing a ledger entry do to registers: the pending and overrun words of
the four controllers, the head, status and class words of the ledger, and nothing else.
-/
namespace Sys2Proof.Machine

/-- A register outside the block of a field that is set holds what it held. -/
theorem Half.reg_set_block (h : Half) (f : Field) (v o : Nat) (ho : o / 0x10000 ≠ f.off / 0x10000) : (h.set f v).reg o = h.reg o :=
  Half.reg_set_other _ _ _ _ (fun e => ho (by rw [e]))

theorem Half.reg_setBit_block (h : Half) (f : Field) (i : Nat) (b : Bool) (o : Nat) (ho : o / 0x10000 ≠ f.off / 0x10000) :
    (h.setBit f i b).reg o = h.reg o :=
  Half.reg_set_block _ _ _ _ ho

theorem Half.reg_tally_block (h : Half) (f : Field) (n o : Nat) (ho : o / 0x10000 ≠ f.off / 0x10000) :
    (h.tally f n).reg o = h.reg o :=
  Half.reg_set_block _ _ _ _ ho

/-- An event at one controller changes registers of the engine block only. -/
theorem Half.reg_raiseAt (h : Half) (n s o : Nat) (hn : n < 4) (ho : o / 0x10000 ≠ 0xE) : (h.raiseAt n s).reg o = h.reg o := by
  unfold Half.raiseAt
  split <;> refine Half.reg_setBit_block _ _ _ _ _ ?_ <;> simp only [F.ENG_IRQOVR_OVR, F.ENG_IRQPEND_PEND] <;> omega

/-- An event at the four controllers changes registers of the engine block only. -/
theorem Half.reg_raise (h : Half) (s o : Nat) (ho : o / 0x10000 ≠ 0xE) : (h.raise s).reg o = h.reg o := by
  unfold Half.raise
  rw [Half.reg_raiseAt _ 3 _ _ (by omega) ho, Half.reg_raiseAt _ 2 _ _ (by omega) ho, Half.reg_raiseAt _ 1 _ _ (by omega) ho,
    Half.reg_raiseAt _ 0 _ _ (by omega) ho]

/-- Noting an event's data changes no register. -/
@[simp] theorem Half.reg_note (h : Half) (c : Nat) (d : List Byte) (o : Nat) : (h.note c d).reg o = h.reg o := rfl

/-- Giving a message to the half link changes no register. -/
@[simp] theorem Half.reg_send (h : Half) (x : LinkMsg) (o : Nat) : (h.send x).reg o = h.reg o := by
  unfold Half.send; split <;> rfl

/-- Noting an event's data changes no field. -/
@[simp] theorem Half.get_note (h : Half) (c : Nat) (d : List Byte) (f : Field) : (h.note c d).get f = h.get f := rfl

/-- Giving a message to the half link changes no field. -/
@[simp] theorem Half.get_send (h : Half) (x : LinkMsg) (f : Field) : (h.send x).get f = h.get f := by
  unfold Half.send; split <;> rfl

/-- A signalled change changes registers of the engine block only. -/
theorem Half.reg_signal (h : Half) (s off o : Nat) (ho : o / 0x10000 ≠ 0xE) : (h.signal s off).reg o = h.reg o := by
  unfold Half.signal
  dsimp only
  split
  · rw [Half.reg_note, Half.reg_raise _ _ _ ho]
  · rw [Half.reg_raise _ _ _ ho]

/-- The class counter of a class lies in the ledger block. -/
theorem classField_block (cls : Nat) (hc : 1 ≤ cls ∧ cls ≤ 16) : (classField cls).off / 0x10000 = 0x14 := by
  simp only [classField]
  omega

/-- A ledger entry changes registers of the engine and ledger blocks only. -/
theorem Half.reg_writeEntry (h : Half) (e : Nat → List Byte) (c o : Nat) (hc : 1 ≤ c ∧ c ≤ 16) (ho : o / 0x10000 ≠ 0xE)
    (ho2 : o / 0x10000 ≠ 0x14) : (h.writeEntry e c).reg o = h.reg o := by
  unfold Half.writeEntry
  dsimp only
  rw [Half.reg_note, Half.reg_raise _ _ _ ho, Half.reg_send, Half.reg_tally_block _ _ _ _ (by rw [classField_block c hc]; exact ho2),
    Half.reg_set_block _ _ _ _ (by simpa [F.FLT_STATUS_NEXT] using ho2), Half.reg_set_block _ _ _ _ (by simpa [F.FLT_HEAD_SEQ] using ho2)]
  split
  · exact Half.reg_set_block h _ _ _ (by simpa [F.FLT_STATUS_WRAPPED] using ho2)
  · rfl

/-- A fault changes registers of the engine and ledger blocks only. -/
theorem Half.reg_fault (h : Half) (t c k u : Nat) (d : List Byte) (o : Nat) (hc : 1 ≤ c ∧ c ≤ 16) (ho : o / 0x10000 ≠ 0xE)
    (ho2 : o / 0x10000 ≠ 0x14) : (h.fault t c k u d).reg o = h.reg o := by
  unfold Half.fault
  dsimp only
  rw [Half.reg_writeEntry _ _ _ _ hc ho ho2]

/-- A field outside the engine block reads as before after an event. -/
theorem Half.get_raise (h : Half) (s : Nat) (f : Field) (ho : f.off / 0x10000 ≠ 0xE) : (h.raise s).get f = h.get f :=
  Half.get_congr _ _ _ (Half.reg_raise _ _ _ ho)

/-- A field outside the engine and ledger blocks reads as before after a fault. -/
theorem Half.get_fault (h : Half) (t c k u : Nat) (d : List Byte) (f : Field) (hc : 1 ≤ c ∧ c ≤ 16) (ho : f.off / 0x10000 ≠ 0xE)
    (ho2 : f.off / 0x10000 ≠ 0x14) : (h.fault t c k u d).get f = h.get f :=
  Half.get_congr _ _ _ (Half.reg_fault _ _ _ _ _ _ _ hc ho ho2)

/-- The ledger after an entry: it stands first, and the oldest of 256 goes. -/
theorem Half.writeEntry_flt (h : Half) (e : Nat → List Byte) (c : Nat) : (h.writeEntry e c).flt = h.flt.add (e (h.get F.FLT_HEAD_SEQ)) := by
  unfold Half.writeEntry
  dsimp only
  split <;> simp

/-- SEQ steps by one with each entry. -/
theorem Half.writeEntry_seq (h : Half) (e : Nat → List Byte) (c : Nat) :
    (h.writeEntry e c).get F.FLT_HEAD_SEQ = (h.get F.FLT_HEAD_SEQ + 1) % 2 ^ 32 := by
  have key (x : Half) (v : Nat) : ((((x.set F.FLT_HEAD_SEQ v).set F.FLT_STATUS_NEXT (v % 256)).tally (classField c) 1)).get F.FLT_HEAD_SEQ
      = v % 2 ^ 32 := by
    have hne : (classField c).off ≠ F.FLT_HEAD_SEQ.off := by simp only [classField, F.FLT_HEAD_SEQ]; omega
    rw [Half.get_congr _ (x.set F.FLT_HEAD_SEQ v) _ ?_, Half.get_set_same _ _ _ (by decide)]
    · rfl
    · rw [Half.tally, Half.reg_set_other _ _ _ _ hne.symm, Half.reg_set_other _ _ _ _ (by decide)]
  unfold Half.writeEntry
  dsimp only
  rw [Half.get_note, Half.get_raise _ _ _ (by decide), Half.get_send, key]

/-- Registers of a half just put into reset by the lamplighter, with a cause added. -/
theorem Half.get_addCause (h : Half) (c : Nat) (f : Field) (ho : f.off ≠ F.RST_CAUSE_word.off) : (h.addCause c).get f = h.get f := by
  refine Half.get_congr _ _ _ ?_
  unfold Half.addCause Half.setBit
  rw [Half.reg_set_other _ _ _ _ (by simpa [F.RST_CAUSE_LAST, F.RST_CAUSE_word] using ho),
    Half.reg_set_other _ _ _ _ (by simpa [F.RST_CAUSE_CAUSES, F.RST_CAUSE_word] using ho)]

end Sys2Proof.Machine
end

