-- ==== Sys2Proof/Laws/Access.lean ====
section
/-!
SUPPORT. What a checked access does: the granted access has its effect, the refused one leaves only its record; and a start that is
not in progress does not go on.
-/
namespace Sys2Proof.Machine

/-- Where no step of any start is done nothing goes on. -/
theorem Module.advance_fixed (m : Module) (t : Nat) (hl : m.laneTestStep t = m) (hs : m.startStep t = m)
    (hh : ∀ h, m.halfStep t h = m) : m.advance t = m := by
  have hf (f : Module → Module) (h : f m = m) (n : Nat) : (List.range n).foldl (fun (m : Module) _ => f m) m = m := by
    induction n with
    | zero => rfl
    | succ n ih => rw [List.range_succ, List.foldl_append, ih]; exact h
  unfold Module.advance
  dsimp only
  rw [hl, hf (fun m => m.startStep t) hs 11, hf (fun m => m.halfStep t .h0) (hh _) 5, hf (fun m => m.halfStep t .h1) (hh _) 5]

/-- A half that makes no half start takes no step of one. -/
theorem Module.halfStep_none (m : Module) (t : Nat) (h : HalfId) (hm : (m.half h).mode ≠ modeHalfStart) : m.halfStep t h = m := by
  unfold Module.halfStep
  have : ((m.half h).mode == modeHalfStart) = false := by simpa using hm
  simp [this]

/-- Outside lane test no step of it is taken. -/
theorem Module.laneTestStep_none (m : Module) (t : Nat) (hm : m.lamp.phase ≠ .laneTest) : m.laneTestStep t = m := by
  unfold Module.laneTestStep
  rw [if_neg (fun e => hm e.1)]

/-- Outside a module start no step of it is taken. -/
theorem Module.startStep_none (m : Module) (t : Nat) (hm : m.lamp.phase ≠ .starting) : m.startStep t = m := by
  unfold Module.startStep
  dsimp only
  split
  · rfl
  · rw [if_neg (fun e => hm e.1)]

/-- A step of a module start that is not done is not taken. -/
theorem Module.startStep_waits (m : Module) (t : Nat) (h : HalfId) (rest : List HalfId) (hs : m.starters = h :: rest)
    (hd : m.stepDone t m.starters ((m.half h).step + 1) = false) : m.startStep t = m := by
  unfold Module.startStep
  rw [hs] at hd ⊢
  dsimp only
  rw [if_neg (fun e => by rw [hd] at e; exact absurd e.2.2 (by decide))]

/-- With no start in progress nothing goes on (R60, R61). -/
theorem Module.advance_settled (m : Module) (t : Nat) (hm : m.settled) : m.advance t = m := by
  obtain ⟨hp, h0, h1⟩ := hm
  refine Module.advance_fixed m t (Module.laneTestStep_none m t (by rw [hp]; decide)) (Module.startStep_none m t (by rw [hp]; decide)) ?_
  intro h
  exact Module.halfStep_none m t h (by cases h <;> assumption)

/-- An access that the check grants has its effect. -/
theorem Module.checked_granted (m : Module) (t : Nat) (i : HalfId) (a : Nat) (z : AccessSize) (master : Nat) (k : AccessKind)
    (f : Module → Module) (hc : m.checkAccess i a z master k = none) : m.checked t i a z master k f = f m := by
  unfold Module.checked
  rw [hc]

/-- An access that the check refuses leaves only its record in the half that checks (R349). -/
theorem Module.checked_denied (m : Module) (t : Nat) (i : HalfId) (a : Nat) (z : AccessSize) (master : Nat) (k : AccessKind)
    (f : Module → Module) (d : Denial) (hc : m.checkAccess i a z master k = some d) :
    m.checked t i a z master k f = m.onHalf i fun h => h.refuse t a d master k := by
  unfold Module.checked
  rw [hc]

/-- A granted write of a register writes it. -/
theorem Module.regWrite_granted (m : Module) (t : Nat) (h : HalfId) (master off : Nat) (v : Word) (hg : m.grants h master off) :
    m.regWrite t h master off v = m.writeReg t h master off v := by
  obtain ⟨hr, hc, hi⟩ := hg
  unfold Module.regWrite Module.checkedReg
  rw [hr, Bool.not_false, Module.given_true, Module.checked_granted _ _ _ _ _ _ _ _ hc]
  unfold Module.putReg
  rw [hi]
  simp

/-- A granted read of a word does what the read does. -/
theorem Module.wordRead_granted (m : Module) (t : Nat) (i : HalfId) (master a : Nat) (hg : m.readable i master a) :
    m.wordRead t i master a = (m.readAt t a 4).2 := by
  obtain ⟨hr, hc, he, -⟩ := hg
  unfold Module.wordRead Module.wordAccess
  rw [hr, Bool.not_false, Module.given_true, Module.checked_granted _ _ _ _ _ _ _ _ hc]
  rw [show (AccessKind.read == AccessKind.write) = false from rfl, he]

/-- A granted write of a word writes it. -/
theorem Module.wordWrite_granted (m : Module) (t : Nat) (i : HalfId) (master a : Nat) (v : Word) (hg : m.writable i master a) :
    m.wordWrite t i master a v = m.writeAt t i master a 4 v.toNat := by
  obtain ⟨hr, hc, he⟩ := hg
  unfold Module.wordWrite Module.wordAccess
  rw [hr, Bool.not_false, Module.given_true, Module.checked_granted _ _ _ _ _ _ _ _ hc]
  rw [show (AccessKind.write == AccessKind.write) = true from rfl, he]

end Sys2Proof.Machine
end

