-- ==== Sys2Proof/Laws/Resets.lean ====
section
/-!
SUPPORT. What entering reset, leaving it and a fault of the lamplighter do to a half and to the module.
-/
namespace Sys2Proof.Machine

/-- What every turn of a fold keeps, the fold keeps. -/
theorem foldl_keeps {α β γ : Type} (p : α → γ) (f : α → β → α) (hf : ∀ a b, p (f a b) = p a) (l : List β) (a : α) :
    p (l.foldl f a) = p a := by
  induction l generalizing a with
  | nil => rfl
  | cons b rest ih => rw [List.foldl_cons, ih, hf]

/-- What every turn keeps, the turns keep. -/
theorem Half.forBelow_keeps {γ : Type} (p : Half → γ) (n : Nat) (f : Half → Nat → Half) (hf : ∀ h i, p (f h i) = p h) (h : Half) :
    p (h.forBelow n f) = p h := foldl_keeps p f hf _ h

/-- A half released is out of reset. -/
@[simp] theorem Half.release_inReset (h : Half) (t mode : Nat) (d : Option (List Byte)) : (h.release t mode d).inReset = false := by
  have owner (x : Half) : (if mode = modeHalfStart then x.set F.SYS_HALF_COMMIT_OWNER 0 else x).inReset = x.inReset := by
    split <;> rfl
  unfold Half.release
  dsimp only
  split
  · refine (Half.forBelow_keeps Half.inReset _ _ ?_ _).trans (owner _)
    intro x i
    rfl
  · exact owner _

/-- What the release of a half keeps of its registers, besides the mode that it sets: a field apart from the mode, from the commit owner
and from the key hash. -/
theorem Half.release_get (h : Half) (t mode : Nat) (d : Option (List Byte)) (f : Field) (h1 : F.RST_STATE_MODE.apart f)
    (h2 : F.SYS_HALF_COMMIT_OWNER.apart f) (h3 : ∀ i, (F.LDR_KEYHASH_word i).apart f) : (h.release t mode d).get f = h.get f := by
  have owner (x : Half) : (if mode = modeHalfStart then x.set F.SYS_HALF_COMMIT_OWNER 0 else x).get f = x.get f := by
    split
    · exact Half.get_set_other _ _ _ _ (by decide) h2
    · rfl
  unfold Half.release
  dsimp only
  split
  · rw [Half.forBelow_keeps (fun x => x.get f), owner]
    · exact Half.get_set_other _ _ _ _ (by decide) h1
    · intro x i
      exact Half.get_set_other _ _ _ _ (by simp [F.LDR_KEYHASH_word]) (h3 i)
  · rw [owner]
    exact Half.get_set_other _ _ _ _ (by decide) h1

/-- A half released is in the mode given. -/
theorem Half.release_mode (h : Half) (t mode : Nat) (d : Option (List Byte)) (hm : mode < 2 ^ F.RST_STATE_MODE.width) : (h.release t mode d).mode = mode := by
  have owner (x : Half) : (if mode = modeHalfStart then x.set F.SYS_HALF_COMMIT_OWNER 0 else x).get F.RST_STATE_MODE
      = x.get F.RST_STATE_MODE := by
    split
    · exact Half.get_set_other _ _ _ _ (by decide) (by decide)
    · rfl
  unfold Half.release Half.mode
  dsimp only
  split
  · rw [Half.forBelow_keeps (fun x => x.get F.RST_STATE_MODE), owner]
    · exact Half.get_set_of_lt _ _ _ (by decide) hm
    · intro x i
      exact Half.get_set_other _ _ _ _ (by simp [F.LDR_KEYHASH_word])
        (Or.inl (by simp only [F.LDR_KEYHASH_word, F.RST_STATE_MODE]; omega))
  · rw [owner]
    exact Half.get_set_of_lt _ _ _ (by decide) hm

/-- A half put into reset is in reset. -/
@[simp] theorem Half.intoReset_inReset (h : Half) (cold strap : Bool) (cs : List Nat) (n : Nat) :
    (h.intoReset cold strap cs n).inReset = true := by
  have key (x : Half) (hx : x.inReset = true) : ((x.addCauses cs).set F.HST_SESSION_SESSION n).inReset = true := by
    rw [Half.set_inReset]
    unfold Half.addCauses
    dsimp only
    split
    · rw [Half.set_inReset, foldl_keeps Half.inReset _ (fun a b => Half.addCause_inReset a b)]; exact hx
    · rw [foldl_keeps Half.inReset _ (fun a b => Half.addCause_inReset a b)]; exact hx
  unfold Half.intoReset
  exact key _ rfl

/-! ## Faults of the lamplighter -/

/-- A fault of the lamplighter neither resets nor releases a half. -/
@[simp] theorem Module.lampFault_inReset (m : Module) (t c k u : Nat) (d : List Byte) (h : HalfId) :
    ((m.lampFault t c k u d).half h).inReset = (m.half h).inReset := by
  unfold Module.lampFault
  cases h <;> simp only [Module.half, Module.onLamp, Module.onBoth] <;> split <;> simp

@[simp] theorem Module.lampFault_flash (m : Module) (t c k u : Nat) (d : List Byte) : (m.lampFault t c k u d).flash = m.flash := rfl
@[simp] theorem Module.lampFault_fuse (m : Module) (t c k u : Nat) (d : List Byte) : (m.lampFault t c k u d).fuse = m.fuse := rfl
@[simp] theorem Module.lampFault_phase (m : Module) (t c k u : Nat) (d : List Byte) :
    (m.lampFault t c k u d).lamp.phase = m.lamp.phase := rfl
@[simp] theorem Module.lampFault_stopped (m : Module) (t c k u : Nat) (d : List Byte) :
    (m.lampFault t c k u d).lamp.stopped = m.lamp.stopped := rfl

/-- LIVE_OK driven low reads 0, with its hold-off shown (R368). -/
theorem Lamp.liveLow_live (l : Lamp) : l.liveLow.get F.LMP_STATUS_LIVEOK = 0 ∧ l.liveLow.get F.LMP_LIVE_HOLDOFF = 1 := by
  unfold Lamp.liveLow
  dsimp only
  refine ⟨?_, Lamp.get_set_of_lt _ _ _ (by decide) (by decide)⟩
  rw [Lamp.get_set_other _ _ _ _ (by decide) (by decide)]
  exact Lamp.get_set_of_lt _ _ _ (by decide) (by decide)

/-- A lamplighter field outside those of LIVE_OK is untouched when LIVE_OK falls. -/
theorem Lamp.get_liveLow (l : Lamp) (f : Field) (h1 : F.LMP_STATUS_LIVEOK.apart f) (h2 : F.LMP_LIVE_HOLDOFF.apart f) :
    l.liveLow.get f = l.get f := by
  unfold Lamp.liveLow
  dsimp only
  rw [Lamp.get_set_other _ _ _ _ (by decide) h2, Lamp.get_set_other _ _ _ _ (by decide) h1]
  split <;> rfl

/-- A lamplighter field other than STATE is untouched by a change of phase. -/
theorem Lamp.get_enter (l : Lamp) (t : Nat) (p : LampPhase) (f : Field) (h1 : F.LMP_STATUS_STATE.apart f) : (l.enter t p).get f = l.get f := by
  unfold Lamp.enter
  rw [Lamp.get_set_other _ _ _ _ (by decide) h1]
  rfl

/-! ## The cause of a reset, and half resets -/

/-- One cause added to RST_CAUSE. -/
theorem Half.addCauses_one (h : Half) (c : Nat) : h.addCauses [c] = (h.addCause c).set F.RST_CAUSE_LAST c := by
  unfold Half.addCauses
  rw [List.foldl_cons, List.foldl_nil, List.min?_singleton]

/-- LAST of RST_CAUSE after a reset for one cause (R50, R51). -/
theorem Half.intoReset_last (h : Half) (cold strap : Bool) (c n : Nat) (hc : c < 2 ^ F.RST_CAUSE_LAST.width) :
    (h.intoReset cold strap [c] n).get F.RST_CAUSE_LAST = c := by
  have key (x : Half) : ((x.addCauses [c]).set F.HST_SESSION_SESSION n).get F.RST_CAUSE_LAST = c := by
    rw [Half.get_set_other _ _ _ _ (by decide) (by decide), Half.addCauses_one]
    exact Half.get_set_of_lt _ _ _ (by decide) hc
  unfold Half.intoReset
  exact key _

/-- LAST of RST_CAUSE is untouched by the release of a half. -/
theorem Half.release_last (h : Half) (t mode : Nat) (d : Option (List Byte)) :
    (h.release t mode d).get F.RST_CAUSE_LAST = h.get F.RST_CAUSE_LAST :=
  Half.release_get _ _ _ _ _ (by decide) (by decide)
    fun i => Or.inl (by simp only [F.LDR_KEYHASH_word, F.RST_CAUSE_LAST]; omega)

/-! ## A half whose peer enters reset -/

/-- A fetch issued changes its pipe and the tag counts only. -/
theorem Half.issueOne_keeps {γ : Type} (p : Half → γ) (hs : ∀ x f v, f.off / 0x10000 = 6 → p (Half.set x f v) = p x)
    (hp : ∀ x k g, p (Half.onPipe x k g) = p x) (k : Nat) (h x : Half) (hx : h.issueOne k = some x) : p x = p h := by
  unfold Half.issueOne at hx
  split at hx
  · cases hx
    exact (hs _ F.RBK_TAGS_PEAK _ (by decide)).trans ((hs _ F.RBK_TAGS_INUSE _ (by decide)).trans (hp _ _ _))
  · cases hx

/-- What writes to the tag counts and changes of a pipe keep, the issue of fetches keeps. -/
theorem Half.issue_keeps {γ : Type} (p : Half → γ) (hs : ∀ x f v, f.off / 0x10000 = 6 → p (Half.set x f v) = p x)
    (hp : ∀ x k g, p (Half.onPipe x k g) = p x) (k n : Nat) (h : Half) : p (Half.issue k n h) = p h := by
  induction n generalizing h with
  | zero => rfl
  | succ n ih =>
    unfold Half.issue
    split
    · next x hx => exact (ih x).trans (Half.issueOne_keeps p hs hp k h x hx)
    · rfl

/-- What they keep, the issue to every pipe keeps. -/
theorem Half.issueAll_keeps {γ : Type} (p : Half → γ) (hs : ∀ x f v, f.off / 0x10000 = 6 → p (Half.set x f v) = p x)
    (hp : ∀ x k g, p (Half.onPipe x k g) = p x) (h : Half) : p h.issueAll = p h := by
  unfold Half.issueAll
  generalize 512 = n
  exact foldl_keeps p _ (fun a i => Half.issue_keeps p hs hp i n a) _ h

/-- What a completed fetch keeps. -/
theorem Half.completeFetch_keeps {γ : Type} (p : Half → γ) (hs : ∀ x f v, f.off / 0x10000 = 6 → p (Half.set x f v) = p x)
    (hp : ∀ x k g, p (Half.onPipe x k g) = p x) (k tag : Nat) (b : Option (List Byte)) (h : Half) :
    p (h.completeFetch k tag b) = p h := by
  have leaves (x : Half) : p (x.pipeLeaves k) = p x := by
    unfold Half.pipeLeaves
    dsimp only
    split
    · exact hp _ _ _
    · rfl
  unfold Half.completeFetch
  dsimp only
  refine (leaves _).trans ((Half.issueAll_keeps p hs hp _).trans ((hs _ F.RBK_TAGS_INUSE _ (by decide)).trans ((hp _ _ _).trans ?_)))
  split
  · exact hs _ F.RBK_NOTREADY_COUNT _ (by decide)
  · rfl

/-- What a half keeps when its fetches across the half link are discarded. -/
theorem Half.dropCross_keeps {γ : Type} (p : Half → γ) (hs : ∀ x f v, f.off / 0x10000 = 6 → p (Half.set x f v) = p x)
    (hp : ∀ x k g, p (Half.onPipe x k g) = p x) (hx : ∀ x v, p (Half.set x F.SYS_XDISC_COUNT v) = p x) (h : Half) :
    p h.dropCross = p h := by
  have key (x : Half) (f : Nat × Nat) : p (x.completeFetch f.1 f.2 none) = p x := Half.completeFetch_keeps p hs hp _ _ _ x
  unfold Half.dropCross
  exact (hx _ _).trans (foldl_keeps p _ key _ h)

/-- A half that sees its peer enter reset stays as it is in reset or out of it. -/
@[simp] theorem Half.peerEntersReset_inReset (h : Half) : h.peerEntersReset.inReset = h.inReset := by
  unfold Half.peerEntersReset
  split
  · rfl
  · dsimp only
    rw [Half.dropCross_keeps Half.inReset (fun x f v _ => Half.set_inReset x f v) (fun _ _ _ => rfl)
      (fun x v => Half.set_inReset x _ v)]
    rfl

/-- A half out of reset shows its peer in reset (R19). -/
theorem Half.peerEntersReset_shows (h : Half) (hr : h.inReset = false) : h.peerEntersReset.get F.LNK_STATUS_PEER_RESET = 1 := by
  unfold Half.peerEntersReset
  rw [hr]
  rw [if_neg (by decide)]
  dsimp only
  rw [Half.dropCross_keeps (fun x => x.get F.LNK_STATUS_PEER_RESET), Half.get_tally_other _ _ _ _ (by decide) (by decide),
    Half.get_set_other _ _ _ _ (by decide) (by decide)]
  · exact Half.get_set_of_lt _ _ _ (by decide) (by decide)
  · intro x f v hf
    exact Half.get_congr _ _ _ (Half.reg_set_block _ _ _ _ (by rw [hf]; decide))
  · intro x k g
    rfl
  · intro x v
    exact Half.get_set_other _ _ _ _ (by decide) (by decide)

/-- What the lamplighter leaves of a half whose reset it applies, and of its peer. -/
theorem Module.applyHalfReset_halves (m : Module) (t : Nat) (h : HalfId) (cs : List Nat) (hold : HalfHold) :
    ((m.applyHalfReset t h cs hold).half h).inReset = true ∧
    (m.applyHalfReset t h cs hold).half h.peer = (m.half h.peer).peerEntersReset ∧
    ((m.applyHalfReset t h cs hold).lamp.half h).hold = hold ∧
    (m.applyHalfReset t h cs hold).lamp.phase = m.lamp.phase ∧
    (m.applyHalfReset t h cs hold).flash = m.flash ∧ (m.applyHalfReset t h cs hold).fuse = m.fuse := by
  unfold Module.applyHalfReset
  dsimp only
  refine ⟨?_, ?_, ?_, ?_, ?_, ?_⟩
  · rw [Module.half_onPeer, Module.half_onHalf, Half.intoReset_inReset]
  · rw [Module.half_onHalf, Module.peer_onHalf, Module.half_withLamp]
  · rw [Module.onHalf_lamp, Module.onHalf_lamp]
    cases h <;> simp only [Lamp.half, Lamp.set_h0, Lamp.set_h1, Lamp.liveLow_h0, Lamp.liveLow_h1, Lamp.onHalf, LampHalf.intoReset]
  · rw [Module.onHalf_lamp, Module.onHalf_lamp]
    have e (l : Lamp) (g : Option HalfId) : Lamp.phase { l with grantFrom := g } = l.phase := rfl
    rw [e, Lamp.set_phase, Lamp.liveLow_phase, Lamp.onHalf_phase]
  · rw [Module.onHalf_flash, Module.onHalf_flash]
  · rw [Module.onHalf_fuse, Module.onHalf_fuse]

/-- LAST of RST_CAUSE of a half whose reset the lamplighter applies. -/
theorem Module.applyHalfReset_last (m : Module) (t : Nat) (h : HalfId) (c : Nat) (hold : HalfHold) (hc : c < 2 ^ F.RST_CAUSE_LAST.width) :
    ((m.applyHalfReset t h [c] hold).half h).get F.RST_CAUSE_LAST = c := by
  unfold Module.applyHalfReset
  cases h <;> simp only [Module.onHalf, Module.setHalf, Module.half, HalfId.peer] <;> exact Half.intoReset_last _ _ _ _ _ hc

/-- A request for a half reset while both halves are out of reset, no start is in progress and no module reset was asked in the same
sample period is applied, and noted among the requests of that period. -/
theorem Module.requestHalfReset_applied (m : Module) (t : Nat) (h : HalfId) (cs : List Nat) (hold : HalfHold)
    (hs : m.lamp.stopped = false) (h1 : (m.half h).inReset = false) (h2 : (m.half h.peer).inReset = false)
    (hp : m.lamp.phase.inStart = false) (ha : (m.lamp.askedAt t).scope = none) :
    m.requestHalfReset t h cs hold = (m.applyHalfReset t h cs hold).noteHalf t h ((m.half h).reg F.RST_CAUSE_word.off) cs := by
  unfold Module.requestHalfReset
  simp [hs, h1, h2, hp, ha]

/-- Noting a request changes neither half, nor the flash, nor the fuse, nor the phase and holds of the lamplighter. -/
@[simp] theorem Module.noteHalf_half (m : Module) (t : Nat) (h k : HalfId) (w : Word) (cs : List Nat) :
    (m.noteHalf t h w cs).half k = m.half k := by cases k <;> rfl
@[simp] theorem Module.noteHalf_flash (m : Module) (t : Nat) (h : HalfId) (w : Word) (cs : List Nat) :
    (m.noteHalf t h w cs).flash = m.flash := rfl
@[simp] theorem Module.noteHalf_fuse (m : Module) (t : Nat) (h : HalfId) (w : Word) (cs : List Nat) :
    (m.noteHalf t h w cs).fuse = m.fuse := rfl
@[simp] theorem Module.noteHalf_phase (m : Module) (t : Nat) (h : HalfId) (w : Word) (cs : List Nat) :
    (m.noteHalf t h w cs).lamp.phase = m.lamp.phase := rfl
@[simp] theorem Module.noteHalf_lampHalf (m : Module) (t : Nat) (h k : HalfId) (w : Word) (cs : List Nat) :
    (m.noteHalf t h w cs).lamp.half k = m.lamp.half k := by cases k <;> rfl

/-- The end of a start step leaves the mode. -/
theorem Half.endStep_mode (h : Half) (t n : Nat) : (h.endStep t n).mode = h.mode := by
  unfold Half.endStep Half.mode
  rw [Half.get_set_other _ _ _ _ (by simp [F.RST_STEPTIME_MS]) (Or.inl (by simp only [F.RST_STEPTIME_MS, F.RST_STATE_MODE]; omega)),
    Half.get_set_other _ _ _ _ (by decide) (by decide)]

/-- The release of a half held in reset while a module start has long ended: it enters the mode that the phase names (R61, R66). -/
theorem Module.releaseHalf_does (m : Module) (t : Nat) (h : HalfId) (mode : Nat) (hr : (m.half h).inReset = true)
    (hm : m.lamp.phase.halfMode = some mode) (hw : mode < 2 ^ F.RST_STATE_MODE.width) :
    ((m.releaseHalf t h).half h).inReset = false ∧ ((m.releaseHalf t h).half h).mode = mode ∧
    ((m.releaseHalf t h).lamp.half h).hold = .none ∧ ((m.releaseHalf t h).half h.peer).get F.LNK_STATUS_PEER_RESET = 0 ∧
    ((m.releaseHalf t h).half h.peer).inReset = (m.half h.peer).inReset := by
  have e : m.releaseHalf t h = (((m.onLamp fun l => l.onHalf h fun (x : LampHalf) => { x with hold := .none }).onHalf h
      fun x => if mode = modeHalfStart then x.release t mode m.fuse else (x.release t mode m.fuse).endStep t 1).onHalf h.peer
      fun x => (x.set F.LNK_STATUS_PEER_RESET 0).set F.RST_STATE_PEERHELD 0) := by
    unfold Module.releaseHalf
    rw [hm]
    dsimp only
    rw [if_pos hr]
    rfl
  rw [e]
  refine ⟨?_, ?_, ?_, ?_, ?_⟩
  · simp only [Module.half_onPeer, Module.half_onHalf]
    split
    · exact Half.release_inReset _ _ _ _
    · exact Half.release_inReset _ _ _ _
  · rw [Module.half_onPeer, Module.half_onHalf]
    split
    · exact Half.release_mode _ _ _ _ hw
    · rw [Half.endStep_mode]
      exact Half.release_mode _ _ _ _ hw
  · cases h <;> simp [Lamp.onHalf, Lamp.half]
  · rw [Module.half_onHalf, Half.get_set_other _ _ _ _ (by decide) (by decide)]
    exact Half.get_set_of_lt _ _ _ (by decide) (by decide)
  · simp

end Sys2Proof.Machine
end

