-- ==== Sys2Proof/Machine/Pins.lean ====
section
/-!
DEFINITION. What the module drives on its pins in each state (R34), what a closed bypass pair passes on (R35), and the transmit levels
of a port (R114). Nothing here is state: each value follows from the state of the blocks.
-/
namespace Sys2Proof.Machine

/-- What a pin does. -/
inductive PinDrive where
  /-- the domain is unpowered: the pin neither drives nor terminates -/
  | off
  | highZ
  /-- high-Z with pull-ups -/
  | pulledUp
  /-- high-Z with a weak pull-down -/
  | pulledDown
  | driven
  /-- driven while a host or a tester selects it, and high-Z otherwise -/
  | whileSelected
  /-- driven for each pass-through command of the service port only -/
  | whileCommanded
  /-- an open-drain pin that nothing pulls low -/
  | released
  /-- an input that is sensed -/
  | sensed
  deriving DecidableEq, Repr

/-- The columns of R34. -/
inductive PinSpan where
  | vaonOnly | reset | running | recovery | laneTest
  deriving DecidableEq, Repr

/-- The module's switched supplies are on: from PWR_GOOD to the fall of PWR_EN. -/
def Module.suppliesOn (m : Module) : Bool := m.lamp.phase.powered || m.lamp.phase == .restEntry

/-- The column of R34 that holds for half `h`: Reset lasts from power good to the end of step 7 or the entry into recovery, in a half
reset and its half start too. -/
def Module.pinSpan (m : Module) (h : HalfId) : PinSpan :=
  let x := m.half h
  if !m.suppliesOn then .vaonOnly
  else if m.lamp.phase = .recovery ∧ x.mode = modeRecovery then .recovery
  else if x.inReset ∨ x.step < 7 then .reset
  else if x.mode = modeLaneTest then .laneTest
  else .running

/-- The loader of half `h` reads the flash: start steps 3 and 4. -/
def Module.loaderReads (m : Module) (h : HalfId) : Bool :=
  let x := m.half h
  !x.inReset && (x.mode == modeStart || x.mode == modeHalfStart) && (x.step == 2 || x.step == 3)

/-- The QSPI pins (R34): driven by a loader that reads, or in recovery mode for pass-through commands. -/
def Module.qspiPins (m : Module) : PinDrive :=
  if !m.suppliesOn then .off
  else if m.lamp.phase = .recovery then .whileCommanded
  else if m.loaderReads .h0 || m.loaderReads .h1 then .driven
  else .pulledUp

/-- SVC_MISO (R34). -/
def Module.svcMiso (m : Module) : PinDrive := if m.suppliesOn then .whileSelected else .off

/-- TDO (R34): recovery mode names SVC_MISO alone, so TDO is high-Z there. -/
def Module.tdo (m : Module) : PinDrive :=
  if !m.suppliesOn then .off else if m.lamp.phase = .recovery then .highZ else .whileSelected

/-- IRQ_N (R34, R386). -/
def Module.irqPin (m : Module) : PinDrive := match m.pinSpan m.holder with
  | .vaonOnly => .off
  | .running => if m.irqLow then .driven else .released
  | _ => .released

/-- PMBx_SCL and PMBx_SDA of half `h` (R34): the controller is active from step 6. -/
def Module.pmbPins (m : Module) (h : HalfId) : PinDrive := match m.pinSpan h with
  | .vaonOnly => .off
  | .reset => if !(m.half h).inReset && decide (5 ≤ (m.half h).step) then .driven else .released
  | .running => .driven
  | _ => .released

/-- The ganged scan is on: in the rest state, with groups of KEY_GANGCTRL enabled and VTCH in its window (R34, R408). -/
def Module.gangOn (m : Module) : Bool :=
  m.lamp.phase == .rest && m.lamp.get F.KEY_GANGCTRL_GROUPS != 0 && !supplyOut m.lamp.mv 8

/-- TX0 to TX39 (R34): driven by the ganged scan at rest, or by the touch block of half 0 while it scans. -/
def Module.touchDrive (m : Module) : PinDrive := match m.pinSpan .h0 with
  | .vaonOnly => if m.gangOn then .driven else .pulledDown
  | .running => if m.half0.flag F.TCH_CTRL_SCAN then .driven else .pulledDown
  | _ => .pulledDown

/-- RX0 to RX71 (R34). -/
def Module.touchSense (m : Module) : PinDrive := match m.pinSpan .h0 with
  | .vaonOnly => if m.gangOn then .sensed else .highZ
  | .running => .sensed
  | _ => .highZ

/-! ## Serial ports -/

/-- What the transmit balls of a serial port send. -/
inductive TxBalls where
  /-- unpowered: neither driven nor terminated -/
  | off
  | idle
  /-- the line bits of the port's own transmitter -/
  | own (bits : List Bool)
  /-- what the receive balls of the paired port took: the bypass pair is closed (R35, R121) -/
  | passed (bits : List Bool)
  deriving DecidableEq, Repr

/-- The transmit balls of port `p` of half `h` (R34, R35): a closed pair passes its neighbour's signal in every state of the module;
otherwise the transmitter is electrically idle until its lane sends. -/
def Module.txBalls (m : Module) (h : HalfId) (p : Nat) : TxBalls :=
  let x := m.half h
  if x.pairClosed p then .passed (x.lane p).pass
  else match m.pinSpan h with
    | .vaonOnly => .off
    | .reset => .idle
    | .recovery => .idle
    | _ => if x.flag (F.LANE_CTRL_ENABLE p) && x.txOn p then .own (x.lane p).tx.line else .idle

/-- Transmit swing of a port in mV, differential peak to peak (R114). -/
def Half.swingMv (h : Half) (p : Nat) : Nat := 400 + 80 * h.get (F.LANE_EQ_SWING p)

/-- Pre-cursor and post-cursor in force in steps of 0.5 dB (R114): their sum is at most 9.0 dB, a larger one being cut at the
post-cursor. -/
def Half.deEmphasis (h : Half) (p : Nat) : Nat × Nat :=
  (h.get (F.LANE_EQ_PRE p), min (h.get (F.LANE_EQ_POST p)) (18 - h.get (F.LANE_EQ_PRE p)))

end Sys2Proof.Machine
end

