-- ==== Sys2Proof/WellFormed.lean ====
section
/-!
DEFINITION. Which commands can occur: the ranges that the manual gives their operands, each with the flaw of a command that breaks
it. A meaning acts on every command; on an ill-formed one it changes nothing or takes the operand modulo its field (log entry 6).
-/
namespace Sys2Proof

/-- What is wrong with a command. -/
inductive Flaw where
  /-- a port of a half is 0 to 23 (R94) -/
  | port
  /-- a link is a record 0 to 15, or 16 + p for the native port p (R97) -/
  | link
  /-- a bypass pair of a half is 0 to 3 (R120) -/
  | pair
  /-- a source window is 0 to 47 (R143) -/
  | window
  /-- an engine is E0 to E7, 0 to 3 in its half (R352) -/
  | engine
  /-- a check-value unit is 0 to 15 (R328) -/
  | unit
  /-- a ring is the first or a gateway's second (R302) -/
  | ring
  /-- a pipe is 0 to 3 (R141) -/
  | pipe
  /-- a master identity is 0 to 19 (R340) -/
  | master
  /-- ten supplies, four sensors, or temperatures of the four (R36, R45) -/
  | sample
  /-- one to three measurements of 16 codes of 12 bits, or three codes (R55, R57, R408) -/
  | codes
  /-- counts of the four meters (R123) -/
  | meters
  /-- a flit is 62 bytes and a CRC of 16 bits (R12) -/
  | flit
  /-- a layer, state, alpha, scene, mode or set of them beyond its field (R188, R213, R273) -/
  | field
  /-- a key is 0 to 15 (R409) -/
  | key
  /-- a device address has 40 bits, a flash address 32 (R428, R387) -/
  | address
  /-- a stream of bytes beyond its frame: 240 of payload, 224 of data, 48 of an entry, 32 of a digest (R102, R387, R417) -/
  | bytes
  /-- TAG, ORIGIN or station address beyond its field (R374) -/
  | requester
  /-- a fetch tag is 0 to 511, a tile lies on the screen (R24, R140) -/
  | tile
  deriving DecidableEq, Repr

/-- No flaw where the condition holds. -/
def Flaw.unless (f : Flaw) (ok : Bool) : Option Flaw := if ok then none else some f

/-- A port and the master that writes its register. -/
def portBy (p m : Nat) : Option Flaw := (Flaw.port.unless (p < 24)).or (Flaw.master.unless (m < 20))

/-- A window of an engine and the master that accesses it. -/
def windowBy (n m : Nat) : Option Flaw := (Flaw.engine.unless (n < 4)).or (Flaw.master.unless (m < 20))

/-- A unit and the master that writes its register. -/
def unitBy (n m : Nat) : Option Flaw := (Flaw.unit.unless (n < 16)).or (Flaw.master.unless (m < 20))

/-- A layer with the values of a graphic change. -/
def graphicFields (layer state alpha : Nat) : Option Flaw := Flaw.field.unless (layer < 8 && state < 64 && alpha < 256)

/-- A requester and its tag. -/
def Requester.flaw (q : Requester) (tag : Nat) : Option Flaw := Flaw.requester.unless (q.station < 2 ^ 14 && q.origin < 9 && tag < 256)

/-- A request: its requester, tag and payload. -/
def MgmtReq.flaw (r : MgmtReq) : Option Flaw :=
  (Flaw.requester.unless (r.src < 2 ^ 14 && r.dest < 2 ^ 14 && r.origin < 16 && r.tag < 256 && r.opcode < 16)).or
    (Flaw.bytes.unless (r.payload.length ≤ 240))

/-- A completion or event. -/
def MgmtRsp.flaw (r : MgmtRsp) : Option Flaw :=
  (Flaw.requester.unless (r.src < 2 ^ 14 && r.dest < 2 ^ 14 && r.origin < 16 && r.tag < 256 && r.opcode < 16)).or
    (Flaw.bytes.unless (r.payload.length ≤ 240))

/-- The flaw of a command, if it has one. -/
def Instr.flaw : Instr → Option Flaw
  | .vaonRise => none
  | .vaonLow => none
  | .pwrEnRaise => none
  | .pwrGoodRise => none
  | .pwrGoodTimeout => none
  | .pwrRetry => none
  | .supplySample mv _ temps => Flaw.sample.unless (mv.length == 10 && temps.length == 4)
  | .vcoreHalfRelease _ => none
  | .thermalTrip temps => Flaw.sample.unless (temps.length == 4)
  | .tripRelease temps => Flaw.sample.unless (temps.length == 4)
  | .resetNAssert => none
  | .resetNRelease => none
  | .start codes => Flaw.codes.unless (1 ≤ codes.length && codes.length ≤ 3 && codes.all fun c => c.length == 16 && c.all (· < 4096))
  | .islandQualified _ _ => none
  | .lossOfClock _ _ => none
  | .steps13LimitExpire => none
  | .imageHeadersRead _ => none
  | .sectionArrival => none
  | .loadLimitExpire => none
  | .trainingDone _ passed => Flaw.field.unless (passed < 256)
  | .startLimitExpire => none
  | .falseStartHoldEnd => none
  | .step8Timeout => none
  | .step9Timeout => none
  | .fsCountClear60s => none
  | .halfResetRelease _ => none
  | .halfStartLimitExpire _ => none
  | .halffsClear60s _ => none
  | .restart _ m _ => Flaw.master.unless (m < 20)
  | .resetHalf _ m _ => Flaw.master.unless (m < 20)
  | .clearFs _ m _ => Flaw.master.unless (m < 20)
  | .clearHalffs _ m _ => Flaw.master.unless (m < 20)
  | .kick _ m => Flaw.master.unless (m < 20)
  | .stewardWatchdogExpire _ => none
  | .blkrst _ m blocks => (Flaw.master.unless (m < 20)).or (Flaw.field.unless (blocks < 1024))
  | .blockResetComplete _ => none
  | .flitReceive _ f => Flaw.flit.unless (f.bytes.length == 62 && f.crc < 65536)
  | .batonSend _ => none
  | .batonReceive _ b => Flaw.field.unless (b.bseq < 2 ^ 32 && b.lap < 2 ^ 32 && b.scene < 256 && b.current < 256)
  | .batonSilence2ms _ => none
  | .batonSilence _ => none
  | .peerResetGrant _ => none
  | .lamplighterWatchdogExpire => none
  | .lamplighterSample => none
  | .healthToggle _ => none
  | .liveOkHoldoffEnd => none
  | .bypassClose _ k => Flaw.pair.unless (k < 4)
  | .lmpHeartStop _ => none
  | .rest m _ => Flaw.master.unless (m < 20)
  | .restPowerOff => none
  | .wakeTimerExpire => none
  | .cdrLock _ p => Flaw.port.unless (p < 24)
  | .cdrLossOfLock _ p => Flaw.port.unless (p < 24)
  | .cellReceive _ p _ _ => Flaw.port.unless (p < 24)
  | .bringupTimeout _ p => Flaw.port.unless (p < 24)
  | .qualifyDone _ p => Flaw.port.unless (p < 24)
  | .mapoutRetryExpire _ p => Flaw.port.unless (p < 24)
  | .txCellRow _ l => Flaw.link.unless (l < 40)
  | .enableLane _ p m _ => portBy p m
  | .openPair _ p m _ => portBy p m
  | .mapout _ p m _ => portBy p m
  | .retry _ p m => portBy p m
  | .txidle _ p m _ => portBy p m
  | .genen _ p m _ => portBy p m
  | .chken _ p m _ => portBy p m
  | .fire _ p m => portBy p m
  | .sdiLock _ p rate _ => (Flaw.port.unless (p < 24)).or (Flaw.field.unless (rate < 16))
  | .sdiRateHuntTimeout _ p => Flaw.port.unless (p < 24)
  | .sdiLockLoss _ p => Flaw.port.unless (p < 24)
  | .paceGate _ counts => Flaw.meters.unless (counts.length == 4)
  | .paceEvaluation _ => none
  | .regulatorReadback _ _ mv status => Flaw.field.unless (mv < 65536 && status < 65536)
  | .pmbAlert _ _ status => Flaw.field.unless (status < 65536)
  | .counterDrain _ p => Flaw.port.unless (p < 24)
  | .sdiFrameStart _ i _ _ _ _ => Flaw.window.unless (i < 48)
  | .sdiFrameComplete _ i _ => Flaw.window.unless (i < 48)
  | .tileCellArrival _ _ c _ => Flaw.bytes.unless (c.data.length == 240)
  | .nosigTimeout _ i => Flaw.window.unless (i < 48)
  | .sourceEnable _ i m _ => (Flaw.window.unless (i < 48)).or (Flaw.master.unless (m < 20))
  | .publishRow _ i _ => Flaw.window.unless (i < 48)
  | .scrubPass _ c u => Flaw.address.unless ((c ++ u).all (· < 2 ^ 31))
  | .lapBoundary _ _ => none
  | .latchRecordReceive _ r => Flaw.field.unless (r.layer < 16)
  | .latchRecordTimeout _ layer => Flaw.field.unless (layer < 16)
  | .pipeFree _ k => Flaw.pipe.unless (k < 4)
  | .fetchComplete _ tag _ => Flaw.tile.unless (tag < 512)
  | .tileReady _ tx ty => Flaw.tile.unless (tx < 512 && ty < 512)
  | .lapDeadline _ => none
  | .scenesel _ m scene => (Flaw.master.unless (m < 20)).or (Flaw.field.unless (scene < 256))
  | .gsel _ m layer _ _ state alpha => (Flaw.master.unless (m < 20)).or (graphicFields layer state alpha)
  | .force _ m _ => Flaw.master.unless (m < 20)
  | .ident _ _ i => Flaw.field.unless (1 ≤ i.modes && i.modes ≤ 16)
  | .modedecl _ _ _ => none
  | .ready _ _ _ _ => none
  | .blankingReport _ _ _ _ => none
  | .echo _ _ _ _ result => Flaw.field.unless (result < 3)
  | .kaecho _ _ token _ => Flaw.field.unless (token < 65536)
  | .panelFault _ _ code => Flaw.field.unless (code < 256)
  | .keepaliveSend _ => none
  | .blankingReportWaitExpire _ => none
  | .panelInitRetry _ => none
  | .reinit _ m => Flaw.master.unless (m < 20)
  | .pnlRun _ m _ => Flaw.master.unless (m < 20)
  | .modesel _ m mode => (Flaw.master.unless (m < 20)).or (Flaw.field.unless (mode < 256))
  | .modeChangeTimeout _ => none
  | .sublinkDownExpire _ => none
  | .ringLapStart _ r => Flaw.ring.unless (r < 2)
  | .lapstart _ r _ _ => Flaw.ring.unless (r < 2)
  | .lapstartTimeout _ r _ => Flaw.ring.unless (r < 2)
  | .segmentHealed _ r _ => Flaw.ring.unless (r < 2)
  | .join _ r _ => Flaw.ring.unless (r < 2)
  | .joinack _ r _ result => (Flaw.ring.unless (r < 2)).or (Flaw.field.unless (result < 4))
  | .leave _ r _ => Flaw.ring.unless (r < 2)
  | .joinen _ r m _ => (Flaw.ring.unless (r < 2)).or (Flaw.master.unless (m < 20))
  | .masterCandidateTimeout _ r => Flaw.ring.unless (r < 2)
  | .pdreqSend _ r _ _ => Flaw.ring.unless (r < 2)
  | .pdreq _ r _ _ _ _ => Flaw.ring.unless (r < 18)
  | .pdresp _ r _ _ _ _ _ => Flaw.ring.unless (r < 2)
  | .sync _ r _ _ _ _ => Flaw.ring.unless (r < 2)
  | .domainTimeout _ _ => none
  | .revertExpire _ => none
  | .slewDone _ => none
  | .bridgeSyncSend _ l => Flaw.link.unless (l < 16)
  | .gmcmdSlew _ m _ => Flaw.master.unless (m < 20)
  | .gmcmdStep _ m _ => Flaw.master.unless (m < 20)
  | .cvuEnable _ n m _ => unitBy n m
  | .cvuResult _ n _ _ => Flaw.unit.unless (n < 16)
  | .feed4 _ n m _ => unitBy n m
  | .feed1 _ n m _ => unitBy n m
  | .feedend _ n m => unitBy n m
  | .latchRead _ m off => (Flaw.master.unless (m < 20)).or (Flaw.address.unless (off < 2 ^ 24))
  | .acrSwitch _ m => Flaw.master.unless (m < 20)
  | .switchRetired _ => none
  | .engineInstruction e => Flaw.engine.unless (e < 8)
  | .halt _ n m => windowBy n m
  | .resume _ n m => windowBy n m
  | .beat _ n m => windowBy n m
  | .beatlimitExpire _ n => Flaw.engine.unless (n < 4)
  | .irqclaim _ n m => windowBy n m
  | .timecmphi _ n m _ => windowBy n m
  | .timerInterrupt e => Flaw.engine.unless (e < 8)
  | .svcFrame _ => none
  | .poll rack _ => Flaw.field.unless (rack < 256)
  | .request rack _ r => (Flaw.field.unless (rack < 256)).or r.flaw
  | .passthruRead addr len _ => (Flaw.address.unless (addr < 2 ^ 32)).or (Flaw.bytes.unless (len ≤ 224))
  | .passthruProgram addr data _ => (Flaw.address.unless (addr < 2 ^ 32)).or (Flaw.bytes.unless (data.length ≤ 224))
  | .passthruErase4k addr _ => Flaw.address.unless (addr < 2 ^ 32)
  | .passthruErase64k addr _ => Flaw.address.unless (addr < 2 ^ 32)
  | .passthruReadStatus _ _ => none
  | .fuse digest magic => Flaw.bytes.unless (digest.length == 32 && magic.length == 4)
  | .read _ q tag addr count => (q.flaw tag).or ((Flaw.address.unless (addr < 2 ^ 40)).or (Flaw.field.unless (count < 65536)))
  | .write _ q tag addr _ => (q.flaw tag).or (Flaw.address.unless (addr < 2 ^ 40))
  | .writeMasked _ q tag addr _ _ => (q.flaw tag).or (Flaw.address.unless (addr < 2 ^ 40))
  | .blockWrite _ q tag addr data => (q.flaw tag).or ((Flaw.address.unless (addr < 2 ^ 40)).or (Flaw.bytes.unless (data.length ≤ 224)))
  | .sceneSelect _ q tag scene => (q.flaw tag).or (Flaw.field.unless (scene < 256))
  | .graphicState _ q tag layer _ _ state alpha => (q.flaw tag).or (Flaw.field.unless (layer < 256 && state < 256 && alpha < 256))
  | .schedule _ q tag what a b c d tSec tFrac eSec eFrac => (q.flaw tag).or (Flaw.field.unless
      (what < 256 && a < 256 && b < 256 && c < 256 && d < 256 && tSec < 2 ^ 64 && tFrac < 2 ^ 32 && eSec < 2 ^ 64 && eFrac < 2 ^ 32))
  | .eventSubscribe _ q tag mask => (q.flaw tag).or (Flaw.field.unless (mask < 65536))
  | .mgmtRelay _ r _ _ c => (Flaw.ring.unless (r < 2)).or c.flaw
  | .mgmtCompletion _ c => c.flaw
  | .esend _ n m => windowBy n m
  | .epop _ n m => windowBy n m
  | .i2cPointerWrite _ => none
  | .i2cRead _ => none
  | .scan m _ => Flaw.master.unless (m < 20)
  | .touchFrame _ _ _ _ _ => none
  | .touchStatusWaitExpire => none
  | .ringRoomResync => none
  | .restScan codes => Flaw.codes.unless (codes.length == 3 && codes.all (· < 4096))
  | .keySample levels => Flaw.key.unless (levels < 65536)
  | .keyStuck k => Flaw.key.unless (k < 16)
  | .keyEventRead m => Flaw.master.unless (m < 20)
  | .swadd _ m => Flaw.master.unless (m < 20)
  | .ledgerMirrorReceive _ entry => Flaw.bytes.unless (entry.length == 48)
  | .registerWrite _ m addr _ => (Flaw.master.unless (m < 20)).or (Flaw.address.unless (addr < 2 ^ 40))
  | .liveOkToggleExpire => none
  | .grandmasterStartWaitExpire _ _ => none
  | .patternBitsReceive _ p _ => Flaw.port.unless (p < 24)
  | .flashStatusPoll _ => none
  | .passthruQualifyTimeout => none

/-- The command is well formed. -/
def Instr.wellFormed (i : Instr) : Bool := i.flaw.isNone

end Sys2Proof
end

