-- ==== Sys2Proof/Tests/Slice0.lean ====
section
/-!
SUPPORT. Small checks of the model: ill-formed commands, worked examples of the manual, and for each statement with hypotheses a
concrete state and operands that meet them, clause by clause.
-/
open Sys2Proof Sys2Proof.Machine
namespace Sys2Proof.Tests

set_option Elab.async false

/-! ## States -/

/-- A running half: epoch 0, lap 0 begun, every page of one region open to the masters 0 to 19. -/
def half (id : HalfId) : Half :=
  ({ Half.reset id with inReset := false, epoch := some 0, lapBegun := true }.sets
    [(F.RST_STATE_MODE, 1), (F.RST_STATE_STEP, 12), (F.ACR_EPOCH_EPOCH, 1), (F.ACR_PAGES_COUNT 0, 2 ^ 28),
     (F.ACR_RMASK_MASK 0, 2 ^ 20 - 1), (F.ACR_WMASK_MASK 0, 2 ^ 20 - 1)])

/-- A running module, 1 s after power-on. -/
def run : State := { now := 10 ^ 9, pending := [], mod := { Module.reset with
  half0 := half .h0, half1 := half .h1, lamp := { Lamp.reset with phase := .running, pwrEn := true, pwrGood := true } } }

/-- The running module with its lamplighter changed. -/
def lampAs (f : Lamp → Lamp) : State := { run with mod := { run.mod with lamp := f run.mod.lamp } }

/-- The running module in another phase. -/
def phaseAs (p : LampPhase) : State := lampAs fun (l : Lamp) => { l with phase := p }

/-- The running module with half 1 changed. -/
def h1As (f : Half → Half) : State := { run with mod := { run.mod with half1 := f run.mod.half1 } }

/-- The running module with fields of half 1 set. -/
def h1Set (fs : List (Field × Nat)) : State := h1As fun x => x.sets fs

/-- The running module with both halves changed. -/
def bothAs (f : Half → Half) : State := { run with mod := { run.mod with half0 := f run.mod.half0, half1 := f run.mod.half1 } }

/-- A module in a start, both halves in mode START at a step. -/
def starting (step : Nat) : State :=
  let s := bothAs fun x => x.sets [(F.RST_STATE_MODE, 0), (F.RST_STATE_STEP, step)]
  { s with mod := { s.mod with lamp := { s.mod.lamp with phase := .starting, step4At := some 5 } } }

/-- A module in a start with both halves changed. -/
def startingWith (step : Nat) (f : Half → Half) : State :=
  let s := starting step
  { s with mod := { s.mod with half0 := f s.mod.half0, half1 := f s.mod.half1 } }

/-- Supplies inside their windows. -/
def goodMv : List Nat := [800, 800, 900, 1200, 500, 1050, 1800, 1800, 3300, 1800]

/-! ## Power -/

theorem witness_PowerUp :
    (State.reset.mod.lamp.phase = .off ∧ State.reset.mod.lamp.attempts = 0) ∧
    (let s : State := lampAs fun (l : Lamp) => { l with phase := .off, attempts := 2 }
     s.mod.lamp.phase = .off ∧ 1 ≤ s.mod.lamp.attempts ∧ s.mod.lamp.attempts < 3) ∧
    (let s := phaseAs .waitGood
     s.mod.lamp.phase = .waitGood ∧ s.mod.freeToGo) ∧
    (let s := lampAs fun (l : Lamp) => { l with phase := .waitGood, tripped := true }
     s.mod.lamp.phase = .waitGood ∧ s.mod.lamp.tripped = true) ∧
    (let s := lampAs fun (l : Lamp) => { l with phase := .waitGood, resetNLow := true }
     s.mod.lamp.phase = .waitGood ∧ s.mod.lamp.tripped = false ∧ s.mod.lamp.resetNLow = true) := by decide +kernel

theorem witness_SupplySamples :
    (∀ i < 9, supplyOut goodMv i = false) ∧
    (let s := lampAs fun (l : Lamp) => { l with outLast := 1 }
     let mv := 659 :: goodMv.drop 1
     s.mod.lamp.phase = .running ∧ s.mod.lamp.stopped = false ∧ s.mod.unasked (max s.now s.mod.lamp.due.supply) ∧
       s.mod.half0.inReset = false ∧ s.mod.half1.inReset = false ∧ supplyOut mv 0 = true ∧ (∀ i < 9, i ≠ 0 → supplyOut mv i = false) ∧ bitAt s.mod.lamp.outLast 0 = true ∧
       bitAt s.mod.lamp.outActed 0 = false) ∧
    (let s := { (h1As fun (x : Half) => { x with inReset := true }) with mod := { (h1As fun (x : Half) => { x with inReset := true }).mod with
       lamp := { run.mod.lamp with h1 := { LampHalf.reset with hold := .vcore, vcoreOk := some 7 } } } }
     s.mod.lamp.phase = .running ∧ s.mod.lamp.stopped = false ∧ (s.mod.half .h1).inReset = true ∧
       (s.mod.lamp.half .h1).hold = .vcore ∧ (s.mod.lamp.half .h1).vcoreOk = some 7) := by decide +kernel

theorem witness_TripAndResetPin :
    (run.mod.lamp.stopped = false ∧ run.mod.lamp.phase = .running ∧ run.mod.unasked run.now ∧ ∃ x ∈ [(20 : Int), 112, 30, 40], 112 ≤ x) ∧
    (∃ x ∈ [(96 : Int), 94, 0, -20], 95 < x) ∧
    (let s := lampAs fun (l : Lamp) => { l with phase := .heldTrip, tripped := true }
     s.mod.lamp.stopped = false ∧ s.mod.lamp.phase = .heldTrip ∧ s.mod.lamp.tripped = true ∧
      (∀ x ∈ [(95 : Int), 94, 0, -20], x ≤ 95) ∧ s.mod.lamp.resetNLow = false) ∧
    (let s := lampAs fun (l : Lamp) => { l with phase := .heldTrip, tripped := true, resetNLow := true }
     s.mod.lamp.stopped = false ∧ s.mod.lamp.phase = .heldTrip ∧ s.mod.lamp.tripped = true ∧ s.mod.lamp.resetNLow = true) ∧
    (phaseAs .rest).mod.lamp.phase = .rest ∧
    ((phaseAs .heldResetN).mod.lamp.phase = .heldResetN ∧ (phaseAs .heldResetN).mod.lamp.tripped = false) := by decide +kernel

/-! ## Resets and watchdogs -/

theorem witness_ResetCommands :
    (run.mod.grants .h0 mService F.RST_CMD_word.off ∧ run.mod.grants .h1 4 F.RST_CMD_word.off ∧ run.mod.lamp.phase = .running ∧
      run.mod.lamp.stopped = false ∧ run.mod.unasked run.now ∧ run.mod.freeToGo ∧
      (run.mod.half .h1).inReset = false ∧ (run.mod.half HalfId.h1.peer).inReset = false ∧
      (0x5B : Byte) ≠ 0x5A ∧ 4 ≠ mService) ∧
    (run.mod.lamp.h0.hold ≠ .falseStarts ∧ run.mod.lamp.h1.hold ≠ .falseStarts) := by decide +kernel

theorem witness_Watchdogs :
    (let s := h1Set [(F.RST_WDOG_ARMED, 1)]
     s.mod.grants .h1 4 F.RST_WDOG_word.off ∧ 4 = stewardOf (s.mod.half .h1).id ∧ (s.mod.half .h1).flag F.RST_WDOG_ARMED = true ∧
       (s.mod.half .h1).inReset = false ∧ (s.mod.half .h1).flag F.ENG_SUPV_LMPSTOP = false ∧ s.mod.lamp.phase = .running ∧
       s.mod.lamp.stopped = false ∧ (s.mod.half HalfId.h1.peer).inReset = false ∧
       s.mod.unasked (max s.now ((s.mod.half .h1).starter.wdogAt + 20000000)) ∧ (s.mod.half .h1).flag F.SYS_HALF_ALONE = false ∧
       (s.mod.lamp.half .h1).request = none) ∧
    (run.mod.grants .h1 3 F.RST_WDOG_word.off ∧ 3 ≠ stewardOf (run.mod.half .h1).id) ∧
    (let s := h1Set [(F.RST_WDOG_ARMED, 1), (F.SYS_HALF_ALONE, 1)]
     (s.mod.half .h1).flag F.RST_WDOG_ARMED = true ∧ (s.mod.half .h1).flag F.SYS_HALF_ALONE = true ∧ s.mod.freeToGo ∧
       s.mod.unasked (max s.now ((s.mod.half .h1).starter.wdogAt + 20000000))) ∧
    (let s := lampAs fun (l : Lamp) => { l with h1 := { l.h1 with request := some 9 } }
     s.mod.half0.inReset = false ∧ s.mod.half1.inReset = false ∧ (s.mod.lamp.half .h1).request = some 9 ∧
       s.mod.lamp.h0.request = none ∧ s.mod.unasked (max s.now (9 + 2000000)) ∧ 6 ≤ s.mod.half0.step ∧ s.mod.freeToGo ∧
       s.mod.unasked (max s.now (max (s.mod.watchedKick .h0) (s.mod.watchedKick .h1) + 50000000))) := by decide +kernel

theorem witness_BlockResets :
    (run.mod.grants .h1 4 F.RST_BLKRST_word.off ∧ (run.mod.half .h1).starter.isolated = 0 ∧ 1 % 1024 ≠ 0 ∧
      1 % 1024 &&& (run.mod.half .h1).idleMask = 1 % 1024) ∧
    (let s := h1As fun (x : Half) => { x with starter := { x.starter with isolated := 2 } }
     s.mod.grants .h1 4 F.RST_BLKRST_word.off ∧ (s.mod.half .h1).starter.isolated ≠ 0 ∧ (s.mod.half .h1).starter.waiting = [] ∧
       (s.mod.half .h1).inReset = false) ∧
    (let s := h1Set [(F.CVU_CTRL_ENABLE 15, 1)]
     s.mod.grants .h1 4 F.RST_BLKRST_word.off ∧ (s.mod.half .h1).starter.isolated = 0 ∧
       1 % 1024 - (1 % 1024 &&& (s.mod.half .h1).idleMask) ≠ 0) := by decide +kernel

/-! ## The lamplighter -/

/-- A half 1 with the panel's sub-link up over port 12 and a fresh blanking report. -/
def withPanel (x : Half) : Half :=
  { x.sets [(F.LANE_CTRL_ENABLE 12, 1), (F.LANE_STATUS_STATE 12, lsUp), (F.AGE_PERIOD_NS, 16000000)] with
    port := { x.port with links := [⟨1, 12, 1, 4, 1⟩], ports := x.port.ports.set 12 { PortRec.off with role := 3, link := 0, rate := 4 } }
    panel := { x.panel with reportAt := some (10 ^ 9) } }

theorem witness_HoldsAndLiveOk :
    (let s := h1As withPanel
     let s : State := { s with mod := { s.mod with lamp := { s.mod.lamp with h1 := { s.mod.lamp.h1 with kickAt := some (10 ^ 9) } } } }
     (s.mod.half .h1).inReset = false ∧ (s.mod.half .h1).mode = modeRunning ∧ (s.mod.half .h1).unhealthy s.now = false ∧
       (s.mod.half .h1).overstays = false ∧ (s.mod.lamp.half .h1).kicked s.now = true) ∧
    (State.reset.mod.half .h0).mode ≠ modeRunning ∧
    (let s := lampAs fun (l : Lamp) => { (l.set F.LMP_LIVE_LIVE 1) with liveFrom := some 5 }
     s.mod.lamp.alive = true ∧ s.mod.lamp.flag F.LMP_LIVE_LIVE = true ∧ s.mod.lamp.liveFrom = some 5) ∧
    (let s := lampAs fun (l : Lamp) => { l with h0 := { l.h0 with healthAt := some (10 ^ 9) }, h1 := { l.h1 with healthAt := some (10 ^ 9) } }
     let s : State := { s with mod := { s.mod with fuse := some (List.replicate 32 1) } }
     s.mod.lamp.alive = true ∧ s.mod.lamp.phase = .running ∧ s.mod.fuse ≠ none ∧ s.mod.lamp.get F.LMP_LIVE_GRANT = 0 ∧
       s.mod.healthBad (max s.now s.mod.lamp.due.sample) .h0 = false ∧ s.mod.healthBad (max s.now s.mod.lamp.due.sample) .h1 = false) ∧
    (State.reset.mod.lamp.alive = true ∧ State.reset.mod.lamp.phase ≠ .running) ∧
    run.mod.lamp.flag (holdField .h1) = false ∧
    (lampAs fun (l : Lamp) => l.set (holdField .h1) 1).mod.lamp.flag (holdField .h1) = true := by decide +kernel

theorem witness_RestState :
    (run.mod.writable (run.mod.lampIssuer 4) 4 (lampBase + F.LMP_REST_word.off) ∧ run.mod.lamp.phase = .running ∧
      run.mod.lamp.stopped = false ∧ (0xA4 : Byte) ≠ 0xA5) ∧
    ((phaseAs .restEntry).mod.lamp.phase = .restEntry ∧ (phaseAs .restEntry).mod.lamp.wakeHeld = none) ∧
    (let s := lampAs fun (l : Lamp) => { l with phase := .restEntry, wakeHeld := some 7 }
     s.mod.lamp.phase = .restEntry ∧ s.mod.lamp.wakeHeld = some 7) ∧
    (let s := lampAs fun (l : Lamp) => { (l.set F.LMP_WAKE_TIMER 1) with phase := .rest }
     s.mod.lamp.phase = .rest ∧ s.mod.lamp.get F.LMP_WAKE_TIMER ≠ 0) ∧ run.mod.lamp.get F.LMP_WAKE_TIMER = 0 := by decide +kernel

/-! ## Starts -/

theorem witness_StepOneOfAStart :
    (let s := { (bothAs fun x => x.sets [(F.RST_STATE_MODE, 0), (F.RST_STATE_STEP, 0)]) with mod := {
       (bothAs fun x => x.sets [(F.RST_STATE_MODE, 0), (F.RST_STATE_STEP, 0)]).mod with lamp := { run.mod.lamp with phase := .released } } }
     let s3 : State := { s with mod := { s.mod with lamp := { s.mod.lamp with fsCount := 3 } } }
     (s.mod.lamp.phase = .released ∧ s.mod.half0.inReset = false ∧ s.mod.half1.inReset = false ∧
       s.mod.half0.flag F.RST_QUAL_TIME = false) ∧ codeSpread (388 :: List.replicate 15 372) ≤ 16 ∧ 3 ≤ s3.mod.lamp.fsCount ∧
     s3.mod.lamp.phase = .released ∧ s.mod.lamp.fsCount < 3 ∧
     strapTaken (strapIndex (codeMean (List.replicate 16 0))) = 0 ∧
     strapTaken (strapIndex (codeMean (388 :: List.replicate 15 372))) ≠ 0 ∧
     strapTaken (strapIndex (codeMean (388 :: List.replicate 15 372))) ≠ 12) := by decide +kernel

theorem witness_Islands :
    (run.mod.settled ∧ run.mod.lamp.pass.waiting = none ∧ (run.mod.half .h1).inReset = false ∧ (run.mod.half .h1).step ≠ 0) ∧
    (let s := h1Set [(F.RST_QUAL_TIME, 1), (F.RST_QUAL_QSPI, 1)]
     s.mod.settled ∧ s.mod.lamp.pass.waiting = none ∧ (s.mod.half .h1).flag F.RST_QUAL_TIME = true ∧ s.mod.lamp.stopped = false ∧
       s.mod.freeToGo ∧ s.mod.unasked s.now ∧ (s.mod.half .h1).flag F.RST_QUAL_QSPI = true) ∧
    (let s := h1Set [(F.RST_QUAL_TIME, 1), (F.RST_QUAL_PORTPLL, 0x3F), (F.LANE_STATUS_STATE 23, lsMappedOut), (F.LANE_CTRL_ENABLE 22, 1)]
     s.mod.half1.getBit F.RST_QUAL_PORTPLL 5 = true ∧ 23 / 4 = 5 ∧ s.mod.half1.laneState 23 ≠ lsOff ∧
       s.mod.half1.flag (F.LANE_CTRL_MAPOUT 23) = false ∧ s.mod.half1.laneState 23 = lsMappedOut ∧ s.mod.half1.laneState 22 = lsOff ∧
       s.mod.half1.flag (F.LANE_CTRL_ENABLE 22) = true ∧ s.mod.half1.laneState 0 = lsOff) := by decide +kernel

theorem witness_StartLimits :
    ((starting 2).mod.lamp.phase = .starting ∧ (starting 2).mod.half0.step < 3) ∧
    ((starting 4).mod.lamp.phase = .starting ∧ (starting 4).mod.lamp.step4At = some 5) ∧
    (starting 3).mod.half0.step = 3 ∧
    ((phaseAs .heldFalse).mod.lamp.phase = .heldFalse ∧ (phaseAs .heldFalse).mod.freeToGo) ∧
    run.mod.lamp.phase = .running ∧ (phaseAs .rest).mod.lamp.phase ≠ .running := by decide +kernel

/-- Bytes of a flash from an address on. -/
def bytesFrom (base : Nat) (bs : List Byte) : Mem := (bs.zipIdx base).filterMap fun x => if x.1 = 0xFF then none else some (x.2, x.1)

/-- A serial flash of 2 MiB. -/
def sfdp : Sfdp := { density := 2 ^ 21, quad444 := false, quad144 := true, addr4Inst := true, addr4Mode := false }

/-- Header and manifest of an image with every section that is required. -/
def head : List Byte :=
    leBytes 32 0x13000000015000000040000013A000000007004000014C495554 ++
    leBytes 32 0xF71B940F000000000000000000000000000000000000000000000000696E696D ++
    leBytes 32 0xF79071FF00000000000000000000000000FF0000000000110000015000010001 ++
    leBytes 32 0x1000000001770000100010002FFFFFFFF0001000000110001 ++
    leBytes 32 0x20000003000000001100000000000000200000020000000010 ++
    leBytes 32 0x20000005000000001300000000000000200000040000000012 ++
    leBytes 32 0x20000007000000001500000000000000200000060000000014 ++
    leBytes 32 0x20000009000000001700000000000000200000080000000016 ++
    leBytes 32 0x2000000B0000000021000000000000002000000A0000000020 ++
    leBytes 32 0x2000000D0000000050000000000000002000000C0000000030 ++
    leBytes 32 0x2000000F0000000070000000000000002000000E0000000060 ++
    leBytes 32 0x2000001100000000B000000000000000200000100000000080 ++
    leBytes 16 0x2000001200000000C0

/-- Its signature section, with the neutral point as key: `R` neutral and S 0 sign every message. -/
def signature : List Byte :=
    leBytes 32 0x4337D58200000000000000000000000000FF008000000001000000A0000100F0 ++
    leBytes 32 0x1 ++
    leBytes 32 0x1 ++
    leBytes 32 0x0 ++
    leBytes 32 0x0

def flashA : Flash := { bytes := bytesFrom 0 head ++ bytesFrom 4864 signature, sfdp := none }

/-- Header and manifest of an image whose first entry is its scenes. -/
def sceneHead : List Byte :=
  leBytes 32 0xF6000000060000000400000100000000007004000014C495554 ++
  leBytes 32 0xB9B2D813000000000000000000000000000000000000000000000000696E696D ++
  leBytes 32 0xC604A49E00000000000000000000000000FF0000000000020000006000010001 ++
  leBytes 32 0x1000000001770000100010002FFFFFFFF0001000000020001 ++
  leBytes 32 0x6000000600000000C072A0AD28000002200000020000000030

/-- A scenes section of one scene. -/
def sceneSection : List Byte :=
  leBytes 32 0x72A0AD2800000000000000000000000000FF0000000000010000022000010030 ++
  leBytes 32 0x10001 ++
  leBytes 32 0x1000100010001000100010001000000010001000100001FF0015500000100 ++
  List.replicate 448 0

/-- A module in step 3 whose half 0 loads that image. -/
def loading (f : Mem) (step : Nat) (l : Option LoadSt) : State :=
  let s := starting step
  { s with mod := { s.mod with flash := { bytes := f, sfdp := none }, half0 := { s.mod.half0 with load := l } } }

def sceneFlash : Mem := bytesFrom 0 sceneHead ++ bytesFrom 0x200 sceneSection
def sceneLoad : LoadSt := LoadSt.start { bytes := sceneFlash, sfdp := none } (2 ^ 20) 1 none true

set_option maxRecDepth 1000000 in
theorem witness_LoaderSteps :
    (let s := loading flashA.bytes 2 none
     s.mod.lamp.phase = .starting ∧ s.mod.half0.inReset = false ∧ s.mod.half1.inReset = false ∧ s.mod.half0.mode = modeStart ∧
       s.mod.half1.mode = modeStart ∧ s.mod.half0.image = none ∧ s.mod.half0.step = 2 ∧ s.mod.half0.load = none) ∧
    (strapSlots 2 = [1] ∧ ({ bytes := flashA.bytes, sfdp := some sfdp } : Flash).slotFail none (slotBase (sfdpSlotSize sfdp) 1)
      (sfdpSlotSize sfdp) 2 1 = none) ∧ (loading [] 2 none).mod.half0.get F.SYS_ID_MAJOR = 1 ∧
    (({ bytes := [], sfdp := some sfdp } : Flash).slotFail none (slotBase (sfdpSlotSize sfdp) 1) (sfdpSlotSize sfdp) 2 1).isSome = true := by
  decide +kernel

set_option maxRecDepth 1000000 in
theorem witness_SectionArrival :
    let s := loading sceneFlash 3 (some sceneLoad)
    let e : ManEntry := (s.mod.loadEntries sceneLoad).headD ⟨0, 0, 0, 0, false⟩
    let x := s.mod.flash.sect sceneLoad.base e.ofs e.len
    s.mod.half0.step = 3 ∧ s.mod.half0.load = some sceneLoad ∧
      s.mod.nextEntry sceneLoad .h0 (s.mod.loadEntries sceneLoad) sceneLoad.next = some (0, e) ∧
      s.mod.forwards sceneLoad .h0 e = true ∧ sectionFail x e sceneLoad.img.man.roles sceneLoad.placed = none ∧ x.type = 0x30 ∧
      (scenesOf x).isSome = true ∧ (s.mod.nextEntry sceneLoad .h0 (s.mod.loadEntries sceneLoad) 1).isSome = true ∧
      (((s.mod.loaderPoint x.type (s.mod.flash.read (sceneLoad.base + e.ofs) 28 ++ x.payload)).placeSection s.now sceneLoad .h0 x).any
        fun r => (r.1.nextEntry { r.2 with next := 1 } .h0 (s.mod.loadEntries sceneLoad) 1).isSome &&
          decide (r.1.lamp.phase = .starting ∧ r.1.half0.step = 3 ∧ r.1.half0.inReset = false ∧ r.1.half0.mode = modeStart ∧
            r.1.half0.image = none ∧ r.1.half1.mode = modeStart)) = true := by decide +kernel

theorem witness_StartStepsEnd :
    (let s := h1Set [(F.RST_QUAL_TIME, 1), (F.RST_QUAL_QSPI, 1), (F.RST_QUAL_PHY, 255)]
     s.mod.settled ∧ (s.mod.half .h1).inReset = false ∧ (s.mod.half .h1).starter.trained = none ∧ (s.mod.half .h1).islandsDone = true) ∧
    (let s := startingWith 4 fun (x : Half) => { x.sets [(F.RST_QUAL_TIME, 1), (F.RST_QUAL_QSPI, 1), (F.RST_QUAL_PHY, 255)] with
       starter := { x.starter with trained := if x.id = .h0 then some 255 else none } }
     s.mod.lamp.phase = .starting ∧ s.mod.starters = [.h0, .h1] ∧ s.mod.half0.step = 4 ∧ s.mod.half1.step = 4 ∧ s.mod.half0.store.out = 0 ∧
       s.mod.half1.store.out = 0 ∧ s.mod.half1.inReset = false ∧ s.mod.half1.starter.trained = none ∧ s.mod.half1.islandsDone = true ∧
       s.mod.half0.starter.trained = some 255) ∧
    (let s := startingWith 7 fun x => x.set F.FST_CHMAP_N 8
     s.mod.lamp.phase = .starting ∧ s.mod.starters = [.h0, .h1] ∧ s.mod.half0.step = 7 ∧ s.mod.half1.step = 7 ∧
       s.mod.half0.get F.FST_CHMAP_N ≠ 0 ∧ s.mod.half1.get F.FST_CHMAP_N ≠ 0) ∧
    (let s := startingWith 8 fun x => x.set F.FST_CHMAP_N 7
     s.mod.lamp.phase = .starting ∧ s.mod.starters = [.h0, .h1] ∧ s.mod.half0.step = 8 ∧ s.mod.half1.step = 8 ∧
       s.mod.half0.get F.FST_CHMAP_N ≠ 0 ∧ s.mod.half1.get F.FST_CHMAP_N ≠ 0) := by decide +kernel

theorem witness_HalfStarts :
    (let s := h1As fun (x : Half) => { x with inReset := true }
     let s : State := { s with mod := { s.mod with lamp := { s.mod.lamp with h1 := { s.mod.lamp.h1 with hold := .brief } } } }
     s.mod.lamp.phase = .running ∧ s.mod.lamp.stopped = false ∧ (s.mod.half .h1).inReset = true ∧ (s.mod.lamp.half .h1).hold = .brief) ∧
    (let s := h1Set [(F.RST_STATE_MODE, 4), (F.RST_STATE_STEP, 4)]
     let s : State := { s with mod := { s.mod with lamp := { s.mod.lamp with h1 := { s.mod.lamp.h1 with falseStarts := 2 } } } }
     (s.mod.half .h1).inReset = false ∧ (s.mod.half .h1).mode = modeHalfStart ∧ 4 ≤ (s.mod.half .h1).step ∧
       (s.mod.half .h1).link.exchanged = false ∧ (s.mod.half HalfId.h1.peer).inReset = false ∧
       s.mod.unasked (max s.now ((s.mod.half .h1).starter.step4At + 4000000000)) ∧
       3 ≤ (s.mod.lamp.half .h1).falseStarts + 1) ∧
    (let s := bothAs fun (x : Half) => { x with link := { x.link with exchanged := true } }
     (s.mod.half .h1).inReset = false ∧ (s.mod.half .h1).link.exchanged = true ∧
       (s.mod.half HalfId.h1.peer).link.exchanged = true) := by decide +kernel

/-! ## The half link -/

/-- A flit of zeros, with its CRC or with another. -/
def flit (c : FlitClass) (good : Bool) : Flit :=
  { cls := c, bytes := List.replicate 62 0, crc := crcValue crc16Ccitt [] (List.replicate 62 0) + if good then 0 else 1 }

theorem witness_FlitsAndBatons :
    ((run.mod.half .h1).inReset = false ∧ flitCrcOk (flit .status false) = false ∧ (run.mod.half .h1).link.resendAt = [] ∧
      (run.mod.half HalfId.h1.peer).inReset = false ∧ (run.mod.half HalfId.h1.peer).flag F.LNK_STATUS_PEER_RESET = false) ∧
    (flitCrcOk (flit .status true) = true ∧ (flit .status true).cls ≠ .baton) ∧
    (flitCrcOk (flit .baton true) = true ∧ (flit .baton true).cls = .baton ∧
      ∀ y ∈ (run.mod.half HalfId.h1.peer).link.out, y ≠ .resend .baton) ∧
    (let s := h1As fun (x : Half) => { x with engines := x.engines.set 0 { Engine.reset with beaten := true, beatAt := 10 ^ 9 - 2000000 } }
     (s.mod.half .h1).mayBaton s.now = true) ∧ (run.mod.half .h1).mayBaton run.now = false ∧
    (let s := h1As fun (x : Half) => { x with link := { x.link with lastBseq := some 0 } }
     let b := Baton.parse (List.replicate 56 0)
     (s.mod.half .h1).takesBaton { b with bseq := 1 } = true ∧ (s.mod.half .h1).takesBaton b = false) := by decide +kernel

theorem witness_SilenceAndMirror :
    let s := h1As fun (x : Half) => { x with link := { x.link with lastBseq := some 0 } }
    (s.mod.half .h1).inReset = false ∧ (s.mod.half .h1).link.lastBseq ≠ none ∧ s.mod.lamp.stopped = false ∧
      linkOk (s.mod.half .h1) (s.mod.half HalfId.h1.peer) = true := by decide +kernel

/-! ## Serial ports -/

/-- Lane 23 of half 1 in a state, with further fields set. -/
def laneAs (st : Nat) (fs : List (Field × Nat)) : State := h1Set ((F.LANE_STATUS_STATE 23, st) :: fs)

theorem witness_LaneBringUp :
    (run.mod.settled ∧ (run.mod.half .h1).inReset = false ∧ (laneAs lsCdr []).mod.half1.laneState 23 = lsCdr ∧
      run.mod.half1.laneState 23 ≠ lsCdr) ∧
    (lsDescramble ≤ (laneAs lsDeskew []).mod.half1.laneState 23 ∧ (laneAs lsDeskew []).mod.half1.laneState 23 ≤ lsDeskew) ∧
    (laneAs lsUp []).mod.half1.laneState 23 = lsUp ∧ (laneAs lsQualify []).mod.half1.laneState 23 = lsQualify ∧
    (lsCdr ≤ (laneAs lsCheck []).mod.half1.laneState 23 ∧ (laneAs lsCheck []).mod.half1.laneState 23 ≤ lsCheck) ∧
    lsCheck < (laneAs (lsCheck + 1) []).mod.half1.laneState 23 ∧ (laneAs lsUp []).mod.half1.laneState 23 ≠ lsQualify ∧
    (let s := laneAs lsMappedOut [(F.RST_QUAL_PORTPLL, 32)]
     s.mod.settled ∧ s.mod.half1.laneState 23 = lsMappedOut ∧ s.mod.half1.get (F.LANE_CTRL_MAPOUT 23) = 0 ∧
       s.mod.half1.getBit F.RST_QUAL_PORTPLL (23 / 4) = true) ∧
    (laneAs lsMappedOut [(F.LANE_CTRL_MAPOUT 23, 1)]).mod.half1.get (F.LANE_CTRL_MAPOUT 23) = 1 := by decide +kernel

/-- Port 23 of half 1 as a single-lane native link that is up, with a cell to send. -/
def nativeUp : State :=
  let s := laneAs lsUp [(F.LANE_CTRL_ENABLE 23, 1), (F.RST_QUAL_PORTPLL, 32)]
  let x := s.mod.half1
  let x1 : Half := { x with port := { x.port with
    ports := x.port.ports.set 23 { PortRec.off with role := 1, rate := 4 }
    runs := x.port.runs.set 39 { LinkRun.reset with peerUp := 8, mask := 1, queue := [⟨1, 0, []⟩] } } }
  { s with mod := { s.mod with half1 := x1 } }

/-- That port with its receiver and its link's running state changed. -/
def nativeAs (f : LaneRx → LaneRx) (g : LinkRun → LinkRun) : Half :=
  (nativeUp.mod.half1.onRx 23 f).onRun 39 fun (r : LinkRun) => g { r with up := true, sending := [23] }

/-- The bits of an alignment idle cell as a receiver buffers them. -/
def idleBits : List (Bool × Bool) := (bytesBits ((idleCell 5 0x83 9 4 true).bytes 3)).map fun b => (b, false)

/-- 58 line bits without a stuff error. -/
def mixedBits : List Bool := (List.range 58).map fun i => i % 2 == 0

set_option maxRecDepth 1000000 in
theorem witness_LaneTraffic :
    (let s := h1As fun x => (withPanel x).set (F.LANE_STATUS_STATE 12) lsDescramble
     let x := s.mod.half1
     s.mod.settled ∧ x.inReset = false ∧ 12 < x.port.lanes.length ∧ x.laneState 12 = lsDescramble ∧ ((x.lane 12).rx.bits mixedBits).2 = 0 ∧
       58 ≤ ((x.lane 12).rx.bits mixedBits).1.fill ∧ ((x.lane 12).rx.bits mixedBits).1.buf.length < 2048 ∧
       x.linkOf 12 = some 0 ∧ (x.run 0).up = x.linkUp 0 ∧ x.upLanes 0 = []) ∧
    (let s := h1As fun _ => nativeAs (fun (r : LaneRx) => { r with fill := 58, buf := idleBits.take 2047 }) fun r => r
     let x := s.mod.half1
     let bits := (idleBits.drop 2047).map fun b => b.1
     let r := ((x.lane 23).rx.bits bits).1
     let bs := frameBytes r.inv r.buf
     let c := (Cell.parse bs).2
     s.mod.settled ∧ x.laneState 23 = lsUp ∧ ((x.lane 23).rx.bits bits).2 = 0 ∧ x.linkOf 23 = some 39 ∧ (x.run 39).up = x.linkUp 39 ∧
       x.upLanes 39 = [23] ∧ (x.lane 23).rx.fifo = [] ∧ r.buf.length = 2048 ∧ byteAt bs 0 = 0xD5 ∧ cellCrcOk bs = true ∧
       cleanCell r.buf = true ∧ c.type = 0 ∧ c.field 36 1 = 1 ∧ ((x.lane 23).rx.bits []).1.buf.length < 2048) ∧
    rxActive (run.mod.half1.laneState 23) = false ∧ run.mod.half1.pairClosed 23 = true ∧
    pairOther 23 < run.mod.half1.port.lanes.length ∧ run.mod.half1.pairClosed 12 = false := by decide +kernel

theorem witness_LaneTraffic_sent :
    (let x := (h1As fun _ => nativeUp.mod.half1.set (F.LANE_STATUS_BYPASS 19) 1).mod.half1
     x.txCells 23 = true ∧ x.linkUp (16 + 23) = true ∧ (x.portRec 23).role ≠ 3 ∧ x.carries 23 = true ∧ 16 + 23 < x.port.runs.length ∧
       (x.run (16 + 23)).queue = [⟨1, 0, []⟩] ∧ bitAt (x.run (16 + 23)).peerUp (23 % 4) = true ∧
       (x.run (16 + 23)).mask = x.rxUp (16 + 23) ∧ x.injectEvery 23 = 0 ∧ (x.lane 23).tx.burst = 0) ∧
    (let x := nativeAs (fun r => r) fun (r : LinkRun) => { r with queue := [] }
     let lanes := (x.rowPorts 39).filter x.txCells
     lanes = [23] ∧ 39 < x.port.runs.length ∧ x.ringSide 39 = none ∧ (x.run 39).queue = [] ∧ x.flag (F.LANE_PATTERN_GENEN 23) = false ∧
       x.rowPorts 39 = [23] ∧ (x.run 39).sending = lanes ∧ 23 < x.port.lanes.length ∧ (x.portRec 23).role ≠ 4 ∧ x.injectEvery 23 = 0 ∧
       (x.lane 23).tx.burst = 0) ∧
    (let x := (laneAs lsPattern [(F.LANE_PATTERN_CHKEN 23, 1), (F.LANE_PATTERN_CHKLOCK 23, 1), (F.LANE_PATTERN_CHKSEL 23, 3)]).mod.half1
     x.flag (F.LANE_PATTERN_CHKEN 23) = true ∧ x.flag (F.LANE_PATTERN_CHKLOCK 23) = true ∧ x.get (F.LANE_PATTERN_CHKSEL 23) < 4) ∧
    (let x := (h1As fun (x : Half) => x.onLane 23 fun (l : Lane) => { l with isle := [(7, 3), (0, 255)] }).mod.half1
     ((x.lane 23).isle.map fun c => c.1).Nodup ∧ ∀ c ∈ (x.lane 23).isle, c.1 < 8) := by decide +kernel

theorem witness_LaneControl :
    (run.mod.settled ∧ run.mod.grants .h1 4 (F.LANE_CTRL_word 23).off ∧ run.mod.half1.get (F.LANE_CTRL_MAPOUT 23) = 0 ∧
      run.mod.half1.inReset = false ∧ run.mod.half1.linkOf 23 = none ∧ run.mod.half1.get (F.LANE_CTRL_ENABLE 23) = 0 ∧
      run.mod.half1.clocked 23 = false) ∧
    (laneAs lsMappedOut [(F.LANE_CTRL_MAPOUT 23, 1), (F.LANE_CTRL_ENABLE 23, 1)]).mod.half1.get (F.LANE_CTRL_MAPOUT 23) = 1 ∧
    (laneAs lsOff [(F.RST_QUAL_PORTPLL, 32)]).mod.half1.clocked 23 = true ∧
    (let x := nativeAs (fun r => r) fun r => r
     x.get (F.LANE_CTRL_ENABLE 23) = 1 ∧ x.linkOf 23 = some 39 ∧ (x.run 39).up = x.linkUp 39) ∧
    (let s := laneAs lsQualify [(F.LANE_CTRL_ENABLE 23, 1)]
     s.mod.grants .h1 4 (F.LANE_CTRL_word 23).off ∧ s.mod.half1.get (F.LANE_CTRL_ENABLE 23) = 1 ∧
       s.mod.half1.laneState 23 ≤ lsQualify ∧ s.mod.half1.linkOf 23 = none) ∧
    (let s := laneAs lsMappedOut [(F.RST_QUAL_PORTPLL, 32)]
     s.mod.grants .h1 4 (F.LANE_CTRL_word 23).off ∧ s.mod.half1.laneState 23 = lsMappedOut ∧
       s.mod.half1.getBit F.RST_QUAL_PORTPLL (23 / 4) = true) ∧
    (run.mod.grants .h1 4 (F.LANE_CTRL_word 16).off ∧ run.mod.half1.linkOf 16 = none ∧ run.mod.grants .h1 4 (F.LANE_CTRL_word 19).off) := by
  decide +kernel

theorem witness_Patterns :
    (run.mod.grants .h1 4 (F.LANE_PATTERN_word 23).off ∧ run.mod.half1.get (F.LANE_PATTERN_GENEN 23) = 0 ∧
      run.mod.half1.get (F.LANE_PATTERN_CHKEN 23) = 0 ∧ run.mod.grants .h1 4 (F.LANE_INJECT_word 23).off ∧
      23 < run.mod.half1.port.lanes.length) ∧
    (let s := laneAs lsPattern [(F.LANE_PATTERN_GENEN 23, 1), (F.LANE_PATTERN_CHKEN 23, 1), (F.LANE_CTRL_ENABLE 23, 1)]
     s.mod.settled ∧ s.mod.grants .h1 4 (F.LANE_PATTERN_word 23).off ∧ s.mod.half1.get (F.LANE_PATTERN_GENEN 23) = 1 ∧
       s.mod.half1.get (F.LANE_CTRL_ENABLE 23) = 1 ∧ (s.mod.half1.portRec 23).role ≠ 2 ∧
       s.mod.half1.get (F.LANE_PATTERN_CHKEN 23) = 1) ∧
    (laneAs lsPattern [(F.LANE_PATTERN_GENEN 23, 1), (F.LANE_CTRL_ENABLE 23, 1), (F.RST_QUAL_PORTPLL, 32)]).mod.half1.clocked 23 = true ∧
    (let x := (laneAs lsPattern [(F.LANE_PATTERN_GENEN 23, 1)]).mod.half1
     (x.portRec 23).role ≠ 2 ∧ x.get (F.LANE_CTRL_ENABLE 23) = 0) := by decide +kernel

theorem witness_SdiPorts :
    (let s := h1As fun x => let x1 := x.set (F.LANE_STATUS_STATE 23) lsSdiHunt
       ({ x1 with port := { x1.port with ports := x1.port.ports.set 23 { PortRec.off with role := 2, rate := 8 } } } : Half).onRx 23
         fun (r : LaneRx) => { r with fill := 3 }
     let x := s.mod.half1
     s.mod.settled ∧ x.inReset = false ∧ x.laneState 23 = lsSdiHunt ∧ (15 - 8) / 2 = (x.lane 23).rx.fill ∧
       bitAt (x.portRec 23).rate ((15 - 8) / 2) = true ∧ 23 < x.port.lanes.length) ∧
    run.mod.half1.laneState 23 ≠ lsSdiHunt ∧ run.mod.half1.laneState 23 ≠ lsSdiLock ∧
    (laneAs lsSdiLock []).mod.half1.laneState 23 = lsSdiLock := by decide +kernel

/-! ## Pace and core supply -/

/-- Half 1 past step 6 with a margin, a setting and a REGFAIL, and 999 evaluations at or above DOWNTH. -/
def paceAs (mean setting regfail : Nat) : State := h1As fun (x : Half) =>
  { x.sets [(F.RST_STATE_STEP, 6), (F.PACE_HALF_MEAN, mean), (F.LDR_DESIGN_PACE, 1000), (F.PACE_REG_SETTING, setting),
      (F.PACE_REG_REGFAIL, regfail), (F.PACE_CTRL_FLOOR, 70)] with pace := { x.pace with downRun := 999, stepAt := some (10 ^ 9 - 1000000), reading := true } }

theorem witness_PaceAndRegulator :
    ((starting 5).mod.half1.inReset = false ∧ (starting 5).mod.half1.evaluates = false) ∧
    (let x := (paceAs 1049 89 0).mod.half1
     x.inReset = false ∧ 6 ≤ x.step ∧ x.evaluates = true ∧ x.margin < 1050 ∧ x.get F.PACE_REG_SETTING < 90 ∧
       x.pace.mayStep (10 ^ 9) = true ∧ x.get F.PACE_REG_REGFAIL = 0) ∧
    (let x := (paceAs 1150 71 0).mod.half1
     1050 ≤ x.margin ∧ x.downTh ≤ x.margin ∧ 999 ≤ x.pace.downRun ∧ x.floor < x.get F.PACE_REG_SETTING ∧
       x.flag F.PACE_SHED_OWNPACE = false ∧ x.pace.mayStep (10 ^ 9) = true ∧ x.get F.PACE_REG_REGFAIL = 0) ∧
    (paceAs 949 80 0).mod.half1.margin < 950 ∧ run.mod.half1.pace.reading = false ∧
    (let x := (paceAs 1000 80 0).mod.half1
     x.pace.reading = true ∧ statusFault 0 = false ∧ voutOff (x.get F.PACE_REG_SETTING) 816 = false ∧
       voutOff (x.get F.PACE_REG_SETTING) 817 = true ∧ statusFault 0x8000 = true ∧ x.get F.PACE_REG_REGFAIL = 0) ∧
    (paceAs 1000 80 1).mod.half1.get F.PACE_REG_REGFAIL = 1 := by decide +kernel

/-! ## Intake and frame store -/

def sdiRec : SourceRec :=
  { ident := 0x207, kind := 1, half := 1, port := 36, flags := 1, format := 0, freezew := 0, width := 1920, height := 1080, rate := 60000,
    uplat := 0, parent := 0, factor := 0, nosign := 0, slotbase := 0 }

/-- A frame being written. -/
def frame : Writing :=
  { slot := 2, fseq := 7, arr := 5, wallArr := none, ew := 0, csec := 0, cfrac := 0, badTime := false, parts := [], crcs := [] }

/-- Half 1 with 48 windows of one record, the last with its own state, enabled, and the port locked. -/
def sourceAs (r : SourceRec) (f : SourceSt → SourceSt) : Half :=
  { (half .h1).sets [(F.INK_SCTRL_ENABLE 47, 1), (F.LANE_SDI_LOCK 12, 1)] with
    sources := List.replicate 47 (SourceSt.reset { r with ident := 9 }) ++ [f (SourceSt.reset r)] }

theorem witness_SdiFrames :
    (let x := sourceAs sdiRec fun s => s
     x.inReset = false ∧ x.source 47 = some (SourceSt.reset sdiRec) ∧ x.takesSdi 47 (SourceSt.reset sdiRec) = true ∧
       pidMatches sdiRec (0x85CB0000 : Word).toNat = true ∧ pidMatches sdiRec (0x85CB0001 : Word).toNat = true ∧
       pidMatches sdiRec (0x01CB0000 : Word).toNat = false ∧ x.takesSdi 46 (SourceSt.reset sdiRec) = false) ∧
    (let s : SourceSt := { SourceSt.reset sdiRec with seen := true }
     (sourceAs sdiRec fun _ => s).source 47 = some s ∧ (sourceAs sdiRec fun _ => s).takesSdi 47 s = true ∧ s.noPid = 0 ∧ s.badFormat = false) ∧
    (let s : SourceSt := { SourceSt.reset sdiRec with noPid := 1 }
     let x := (sourceAs sdiRec fun _ => s).set (F.LANE_STATUS_RATE 12) 10
     x.source 47 = some s ∧ x.takesSdi 47 s = true ∧ s.rcd.height = 1080 ∧ s.rcd.width = 1920 ∧ x.lineRateFits s.rcd = true) ∧
    (let x := sourceAs sdiRec fun s => s
     let y := x.set (F.INK_SCTRL_ENABLE 47) 0
     y.takesSdi 47 (SourceSt.reset sdiRec) = false ∧ sdiRec.kind = 1 ∧ y.flag (F.LANE_SDI_LOCK sdiRec.localPort) = true ∧
       (y.set (F.LANE_SDI_LOCK 12) 0).flag (F.LANE_SDI_LOCK sdiRec.localPort) = false) ∧
    (let r : SourceRec := { sdiRec with width := 2, height := 1, flags := 0 }
     let s : SourceSt := { SourceSt.reset r with writing := some frame }
     let x := sourceAs r fun _ => s
     x.source 47 = some s ∧ x.takesSdi 47 s = true ∧ s.writing = some frame ∧ frame.slot < 3 ∧
       [[1, 2, 3, 4]].length = s.rcd.height ∧ (∀ l ∈ [[1, 2, 3, 4]], l.length = 2 * s.rcd.width) ∧ s.rcd.kind = 1 ∧ s.rcd.held = false ∧
       ([] : List (List Nat)).length ≠ s.rcd.height) ∧
    (let r : SourceRec := { sdiRec with width := 2, height := 1, flags := 1 }
     r.held = true ∧ r.tiles = 1 ∧ ({ run.mod with half1 := sourceAs r fun s => s }.checkAccess .h1 (storeAddr .h1 (r.granule 2 0)) .tile mIntake .write = none)) := by
  decide +kernel

theorem witness_SourceState :
    (let s := h1As fun _ => sourceAs sdiRec fun s => s
     (s.mod.half .h1).flag (F.INK_SCTRL_ENABLE 47) = true ∧ (s.mod.half .h1).flag (F.INK_SCTRL_ENABLE 46) = false ∧
       s.mod.grants .h1 4 (F.INK_SCTRL_word 47).off ∧ (s.mod.half .h1).get (F.INK_SCTRL_ENABLE 46) = 0 ∧
       (s.mod.half .h1).get (F.INK_SCTRL_ENABLE 47) = 1 ∧ (SourceSt.reset sdiRec).rcd.publish = false) ∧
    (let r : SourceRec := { sdiRec with flags := 3, width := 16, height := 16 }
     let fr : Writing := { frame with crcs := [(0, 0)] }
     let s : SourceSt := { SourceSt.reset r with writing := some fr }
     let x := sourceAs r fun _ => s
     x.source 47 = some s ∧ s.rcd.publish = true ∧ 0 < s.rcd.rows ∧ s.rcd.kind ≠ 4 ∧ (x.pubFrame s 47 0 fun _ => false).isSome = true ∧
       s.pub.waiting = [] ∧ ({ s with pub := { s.pub with waiting := [⟨1, 0, []⟩] } } : SourceSt).pub.waiting ≠ []) ∧
    (let r : SourceRec := { sdiRec with flags := 3, width := 16, height := 32 }
     let s : SourceSt := { SourceSt.reset r with
       writing := some { frame with crcs := [(1, 0)] }, pub := { PubSt.reset with row := 1, fseq := 7, cut := false } }
     let x := sourceAs r fun _ => s
     x.source 47 = some s ∧ 1 < s.rcd.rows ∧ s.pub.cut = false ∧
       (x.pubFrame s 47 1 fun q => decide (1 ≠ 0) && 1 == s.pub.row && q == s.pub.fseq).map (fun y => y.2.1) = some s.pub.fseq) := by
  decide +kernel

theorem witness_TileCellsAndScrub :
    (run.mod.half1.cellWindow (.native 12) 5 = none ∧ run.mod.half1.cellWindow (.ring 1) 5 = none) ∧
    (let r : SourceRec := { sdiRec with kind := 2, width := 32, height := 16 }
     let s : SourceSt := { SourceSt.reset r with writing := some frame }
     let x := sourceAs r fun _ => s
     let c : TileCell := { lastTile := false, source := 0x207, fseq := 6, tx := 1, ty := 0, cell := 2, csec := 0, cfrac := 0, data := [] }
     x.cellWindow (.native 12) c.source = some 47 ∧ x.source 47 = some s ∧ s.refused ≠ some c.fseq ∧ x.flag (F.INK_SCTRL_ENABLE 47) = true ∧
       x.noMemory s.rcd = false ∧ s.rcd.badCell { c with tx := 2 } = true ∧ s.rcd.badCell c = false ∧ s.fit c.fseq = .old ∧
       (SourceSt.reset r).writing = none ∧ s.rcd.badCell { c with cell := 0 } = false ∧ 0 + 1 ≠ s.rcd.tileCells) ∧
    (let x := (h1Set [(F.FST_SCRUB_ENABLE, 1)]).mod.half1
     x.flag F.FST_SCRUB_ENABLE = true ∧ x.store.bad = [] ∧ x.inWriting (2 ^ 31 - 1) = false) ∧
    (h1Set [(F.FST_SCRUB_ENABLE, 0)]).mod.half1.flag F.FST_SCRUB_ENABLE = false := by decide +kernel

/-! ## Laps and composition -/

/-- Half 1 with its lap state changed. -/
def lapAs (f : LapSt → LapSt) : State := h1As fun (x : Half) => { x with lap := f x.lap }

theorem witness_LapBoundaries :
    (let s := h1As fun (x : Half) => { x.set F.AGE_PERIOD_NS 16000000 with lap := { x.lap with bounds := [(3, 1000)] } }
     let x := s.mod.half1
     let b := s.mod.boundaryStamp (max s.now (s.stampAt .h1 5)) .h1
     x.inReset = false ∧ x.sources.length ≤ 48 ∧ x.overruns 1135 = false ∧ x.lapBegun = true ∧ x.overruns 1134 = true ∧
       x.overruns b = false) ∧
    (let s := lapAs fun (l : LapSt) => { l with bounds := [(3, 10 ^ 9)] }
     s.mod.half1.overruns (s.mod.boundaryStamp (max s.now (s.stampAt .h1 5)) .h1) = true) ∧
    (let x : Half := { (starting 10).mod.half1 with lapBegun := false }
     x.overruns 0 = false ∧ x.lapBegun = false ∧ x.mode = modeStart ∧ 10 ≤ x.step) ∧
    (let x : Half := { (starting 9).mod.half1 with lapBegun := false }
     x.overruns 0 = false ∧ x.lapNumber 0 = none) := by decide +kernel

theorem witness_LatchAndDeadline :
    (linkOk run.mod.half1 run.mod.half0 = true ∧ run.mod.half1.lapBegun = true ∧
      newer 32 (2 ^ 31 - 1) (run.mod.half1.get F.RBK_LAP_LAP) = true ∧ run.mod.half1.lap.late = false ∧
      run.mod.half1.lap.awaiting.contains 15 = false) ∧
    (let s := lapAs fun (l : LapSt) => { l with awaiting := [0, 7], late := true }
     0 = s.mod.half1.get F.RBK_LAP_LAP ∧ s.mod.half1.lap.awaiting.contains 7 = true ∧ s.mod.half1.lap.late = true ∧
       s.mod.half1.lapBegun = true ∧ busyCrossing s.mod.half1.lap.cutAt s.now = false) ∧
    linkOk (h1Set [(F.LNK_STATUS_FAILED, 1)]).mod.half1 run.mod.half0 = false := by decide +kernel

def work : RunWork := { entry := 0, region := 0, tx0 := 5, ty0 := 0, tw := 1, th := 1, variant := .normal, list := [] }

/-- A contribution of a background pattern over the output tile of that run. -/
def onlyLayer : Contrib :=
  { what := 1, layer := 15, opaqueC := true, cross := false, ftx0 := 5, fty0 := 0, ftw := 1, fth := 1, len := 1024, hstart := 0, vstart := 0 }

/-- Half 1 with pipe 3 in a state. -/
def pipeAs (p : PipeSt) : State := lapAs fun (l : LapSt) => { l with pipes := l.pipes.set 3 p }

/-- A fetch that holds tag 63. -/
def fetchAs (src : FetchSrc) : FetchSt := { tag := 63, plan := ⟨0, 0, 0, 1024, src⟩, lap := 0, got := none }

/-- A scene without layers, in force in an image of one mode. -/
def emptyScene : Scene :=
  { valid := true, background := 0, h0 := ⟨0, 0, 0, 0, 0, 0⟩, h1 := ⟨0, 0, 0, 0, 0, 0⟩,
    layers := List.replicate 15 LayerRec.none ++ [{ LayerRec.none with source := 4, flags := 1 }] }

def image : ImageSt := { sceneLoad.img with
  man := { sceneLoad.img.man with roles := 4, width := 2, height := 1, maxRefresh := 6000 }
  scenes := [emptyScene], gsets := [⟨4, [0], 0⟩], panel := { sceneLoad.img.panel with prefer := [255] } }

theorem witness_Pipes :
    (let s := lapAs fun (l : LapSt) => { l with runs := [work] }
     3 < s.mod.half1.lap.pipes.length ∧ (s.mod.half1.pipe 3).run = none ∧ s.mod.half1.lap.late = false ∧ s.mod.half1.lap.runs = [work]) ∧
    (let x := (pipeAs { PipeSt.reset with run := some work, issued := [fetchAs (.frame .h1 5 0)] }).mod
     ((List.range 4).find? fun k => (x.half1.pipe k).issued.any fun f => f.tag == 63 && f.got.isNone) = some 3 ∧
       ((x.half1.pipe 3).issued.find? fun f => f.tag == 63) = some (fetchAs (.frame .h1 5 0)) ∧
       (fetchAs (.frame .h1 5 0)).plan.src.owner .h1 = .h1 ∧ x.fetchPlace .h1 (fetchAs (.frame .h1 5 0)) = none) ∧
    (let a := regAddr .h1 0
     let b := storeAddr .h1 0x1000
     run.mod.fetchPlace .h1 (fetchAs (.asset b)) = some (b, .tile) ∧ (fetchAs (.asset b)).plan.src.owner .h1 = .h1 ∧ a ≠ b ∧
       run.mod.checkAccess .h1 b .tile mFetch .read = none) ∧
    (∀ g, (fetchAs (.asset (storeAddr .h1 0x1000))).plan.src ≠ .pattern g) ∧
    run.mod.memError (storeAddr .h1 0x1000) 1024 false = none ∧
    ((List.range 4).find? fun k => (run.mod.half1.pipe k).issued.any fun f => f.tag == 62 && f.got.isNone) = none ∧
    (let s := pipeAs { PipeSt.reset with run := some work }
     let x : Half := { s.mod.half1 with image := some image }
     ((List.range 4).find? fun k => ((x.pipe k).run.map fun r => r.covers 5 0).getD false) = some 3 ∧
       (x.pipe 3).run = some work ∧ x.scene = some emptyScene ∧ x.mayPush = false ∧ x.composing emptyScene (x.pipe 3) work 5 0 = false ∧
       (x.lap.push.tiles.any fun o => o.tx == 5 && o.ty == 0) = false ∧
       ((List.range 4).find? fun k => ((x.pipe k).run.map fun r => r.covers 6 0).getD false) = none) ∧
    (let r : RunWork := { work with list := [onlyLayer] }
     let s := pipeAs { PipeSt.reset with run := some r, todo := [⟨0, 5, 0, 1024, .frame .h1 5 0⟩] }
     let x : Half := { s.mod.half1 with image := some image }
     (x.pipe 3).run = some r ∧ x.composing emptyScene (x.pipe 3) r 5 0 = true) := by
  refine ⟨?_, ?_, ?_, ?_, ?_, ?_, ?_, ?_⟩ <;> first | decide +kernel | (intro g h; simp [fetchAs] at h)

/-- Half 1, commit owner, with an image, with fields set. -/
def ownerAs (fs : List (Field × Nat)) : State :=
  h1As fun (x : Half) => { x.sets ((F.SYS_HALF_COMMIT_OWNER, 1) :: fs) with image := some image }

theorem witness_Selections :
    let s := ownerAs []
    let x := s.mod.half1
    x.inReset = false ∧ s.mod.grants .h1 4 F.RBK_SCENESEL_word.off ∧ x.owner = true ∧ x.validScene 0 = true ∧
      (∀ a ∈ x.acts.acts, a.lap ≠ some x.switchLap) ∧ x.validScene 1 = false ∧ s.mod.grants .h1 4 F.CMP_GSEL_word.off ∧
      x.graphicFits (x.sceneAtLap x.switchLap) 7 true 0 = true ∧ x.graphicFits (x.sceneAtLap x.switchLap) 7 true 1 = false ∧
      s.mod.grants .h1 4 F.AGE_CTRL_word.off := by decide +kernel

/-! ## The panel port -/

/-- The running module with half 1's panel state changed. -/
def panelAs (f : PanelSt → PanelSt) : State := h1As fun (x : Half) => { x with panel := f x.panel }

def cell0 : BlankingCell := { flipCount := 1, lapCommit := 2, flipped := true, late := false, newMode := false, missing := 0 }

def mode255 : ModeRecord :=
  { mode := 255, cutLines := 8, refresh := 6000, period := 16666667, scanOut := 16000000, vTotal := 20, vActive := 16, flipErr := 0,
    flipPpm := 0, rptLat := 0, turn := 0, reserved := 0 }

def ident2 : PanelIdent := { pversion := 1, width := 2, height := 1, modes := 1, sublinks := 1, kept := false }

theorem witness_PanelDescribes :
    (run.mod.settled ∧ run.mod.half1.inReset = false) ∧
    ((panelAs fun (p : PanelSt) => { p with setup := true, echoed := true }).mod.half1.panel.setup = true ∧
      (panelAs fun (p : PanelSt) => { p with setup := true, echoed := true }).mod.half1.panel.echoed = true) ∧
    (panelAs fun (p : PanelSt) => { p with setup := true }).mod.half1.panel.echoed = false ∧
    (let p := (panelAs fun (p : PanelSt) => { p with ident := some ident2, declared := [254] }).mod.half1.panel
     modeValid mode255 ((p.ident.map fun i => i.height).getD 0) = true ∧ mode255.mode ∉ p.declared ∧
       ({ mode255 with mode := 254 } : ModeRecord).mode ∈ p.declared) := by decide +kernel

def pushed : Pushed :=
  { lap := 0, pseq := 9, variants := [], frames := [], deadline := none, status := 0, layer := 15, held := [], echo := none }

def region : RegionSt :=
  { tx0 := 0, ty0 := 0, tw := 1, th := 1, pushed := some pushed, shown := none, again := false, unapplied := false, fails := 2,
    counted := false }

theorem witness_PanelReports :
    run.mod.half1.lap.regions.length ≤ 1024 ∧ run.mod.half1.panel.echoed = false ∧
    (panelAs fun (p : PanelSt) => { p with echoed := true }).mod.half1.panel.echoed = true ∧
    (panelAs fun (p : PanelSt) => { p with shutter := some 3 }).mod.half1.panel.shutter = some 3 ∧
    (let x := (lapAs fun (l : LapSt) => { l with regions := [region] }).mod.half1
     x.panel.shutter ≠ some 9 ∧ x.lap.regions = [region] ∧ region.pushed = some pushed ∧ pushed.pseq = 9 ∧ pushed.echo = none) ∧
    (let x := (panelAs fun (p : PanelSt) => { p with tokens := [(0xFFFF, some 100)] }).mod.half1
     x.panel.tokens.find? (fun t => t.1 == 0xFFFF) = some (0xFFFF, some 100) ∧ x.panel.held = []) := by decide +kernel

/-- Half 1, commit owner, running, its sub-link up, with an IDENT and a mode that fit the image. -/
def panelReady (f : PanelSt → PanelSt) : State := h1As fun (x : Half) =>
  let y := (withPanel x).sets [(F.SYS_HALF_COMMIT_OWNER, 1), (F.PNL_CTRL_RUN, 1)]
  { y with image := some image, starter := { y.starter with wdogAt := 10 ^ 9 }, lap := { y.lap with bounds := [(0, 10 ^ 9 - 1)] }
           panel := f { y.panel with ident := some ident2, modes := [mode255], declared := [255] } }

theorem witness_PanelIntervals :
    (let s := panelReady fun (p : PanelSt) => { p with setup := true }
     let u := max s.now (s.mod.half1.panel.keepAt + ((s.mod.half1.image.map fun i => i.panel.kaperiod).getD 5) * 1000000)
     s.mod.half1.panel.setup = true ∧ s.mod.half1.panelUp = true ∧ s.mod.half1.mayTalk u = true ∧ s.mod.half1.panel.tokens.length ≤ 64) ∧
    run.mod.half1.panel.setup = false ∧
    (run.mod.half1.lapBegun = true ∧ run.mod.half1.mode ≠ modeHalfStart ∧ run.mod.half1.lap.push.allowed = false ∧
      run.mod.half1.lap.push.barred = false) ∧
    (lapAs fun (l : LapSt) => { l with push := { l.push with allowed := true } }).mod.half1.lap.push.allowed = true ∧
    (let x := (panelReady fun (p : PanelSt) => { p with failedAt := some 7 }).mod.half1
     x.panel.failedAt = some 7 ∧ x.panelActive = true ∧ x.panel.ident.isSome = true ∧ x.panel.ready = false ∧ x.joins = false ∧
       x.chosenMode false = some mode255 ∧ x.identFits = true ∧ mode255.mode < 256) ∧ run.mod.half1.panel.failedAt = none ∧
    (let c : ModeChange := { mode := 255, former := 0, lap := 5, began := 2, sentAt := none, back := false }
     (panelAs fun (p : PanelSt) => { p with change := some c }).mod.half1.panel.change = some c ∧ c.back = false ∧
       ({ c with back := true } : ModeChange).back = true) ∧ run.mod.half1.panel.change = none ∧
    (let b : Baton := { Baton.parse (List.replicate 56 0) with linkUp := true }
     let x : Half := { half .h1 with link := { LinkSt.reset with peer := some b }, panel := { PanelSt.reset with downFrom := some 4 } }
     x.panel.downFrom = some 4 ∧ x.panelUp = false ∧ x.link.peer = some b ∧ b.linkUp = true ∧ x.link.stopped = false) := by decide +kernel

theorem witness_PanelControl :
    (run.mod.grants .h1 4 F.PNL_CTRL_word.off ∧ run.mod.half1.panel.ident = none) ∧
    (let s := panelReady fun p => p
     let x := s.mod.half1
     s.mod.grants .h1 4 F.PNL_CTRL_word.off ∧ x.panel.ident = some ident2 ∧ x.panelActive = true ∧ x.chosenMode false = some mode255 ∧
       x.identFits = true ∧ s.mod.grants .h1 4 F.PNL_MODESEL_word.off ∧ x.owner = true ∧ x.modeAllowed 255 = true ∧
       (∀ a ∈ x.acts.acts, a.lap ≠ some x.switchLap) ∧ x.modeAllowed 254 = false) := by decide +kernel

/-! ## Rings -/

def plan : RingPlan :=
  { ring := 1, rate := 4, order := [1, 5], head := 5, root := 5, streams := [], gateways := [], crc := 0x1234 }

/-- Half 1 as station 5 of a ring, its second, in a state. -/
def ringAs (st : Nat) (f : RingSt → RingSt) (fs : List (Field × Nat)) : State := h1As fun (x : Half) =>
  let y := x.sets ((F.RNG_STATE_STATE 1, st) :: (F.RNG_STATE_STATION 1, 5) :: fs)
  { y with rings := y.rings.set 1 (f { RingSt.reset with plan := some plan })
           image := some { image with man := { image.man with addr1 := 0x85 } } }

def lapCell : LapStart :=
  { addr := 0, lapNum := 0, mplan := 0x1234, seen := 2, cand := 0, edge := 0, kseen := 2, kcand := 0, kedge := 0, master := 0x81, ring := 1,
    rot := false, line := false }

/-- Half 1 as head of its second ring with a working east segment, at a row of its lap. -/
def headAs (next : Option Nat) : Half :=
  let s := ringAs rsJoined (fun (r : RingSt) => { r with newSeen := 34, seen := 34, lapAt := some 3, east := { r.east with next := next } })
    [(F.RNG_STATE_HEAD 1, 1), (F.LANE_CTRL_ENABLE 12, 1), (F.LANE_STATUS_STATE 12, lsUp)]
  { s.mod.half1 with port := { s.mod.half1.port with links := [⟨5, 12, 1, 4, 1⟩] } }

theorem witness_RingLaps :
    (let s := ringAs rsJoined (fun (r : RingSt) => { r with newSeen := 34, seen := 34 }) [(F.RNG_STATE_HEAD 1, 1)]
     let x := s.mod.half1
     s.mod.settled ∧ x.inReset = false ∧ 1 < x.rings.length ∧ x.sources.length ≤ 48 ∧ x.ringState 1 = rsJoined ∧
       ((x.applyTopo s.now 1).headsTo 1 .east = true ∨ (x.applyTopo s.now 1).headsTo 1 .west = true) ∧
       (x.ring 1).plan = some plan ∧ lapCell.ring = plan.ring ∧ (x.ring 1).broken .west = false) ∧
    (let x := headAs none
     x.ringState 1 = rsJoined ∧ (x.ring 1).lapAt = some 3 ∧ (x.applyTopo (max run.now (3 + x.lapNs 1)) 1).headsTo 1 .east = true ∧
       ((x.ring 1).rot .east).next = none) ∧
    (let x := headAs (some 7)
     (x.applyTopo (max run.now (3 + x.lapNs 1)) 1).headsTo 1 .east = true ∧ ((x.ring 1).rot .east).next = some 7 ∧
       (x.applyTopo (max run.now (3 + x.lapNs 1)) 1).sendsRows 1 .east = true) ∧
    (run.mod.half1.ringState 1 = rsOff ∧ rsOff ≠ rsJoined ∧ rsOff ≠ rsLeaving) ∧
    (let x := (ringAs rsListen (fun r => r) [(F.RNG_PLANCRC_CRC 1, 0x1235)]).mod.half1
     x.ringState 1 = rsListen ∧ (x.ring 1).broken .east = false ∧ lapCell.master ≠ 0x3FFF ∧
       lapCell.mplan ≠ x.get (F.RNG_PLANCRC_CRC 1) ∧ (x.ring 1).plan = some plan) ∧
    (let s := ringAs rsJoined (fun (r : RingSt) => { r with brokenE := true, newSeen := 34 })
       [(F.LANE_CTRL_ENABLE 12, 1), (F.LANE_STATUS_STATE 12, lsUp)]
     let x : Half := { s.mod.half1 with port := { s.mod.half1.port with links := [⟨5, 12, 1, 4, 1⟩] } }
     x.ringLink 1 .east = some 0 ∧ x.linkUp 0 = true ∧ (x.ring 1).plan = some plan ∧ x.runOver 1 (x.ring 1).newSeen .east = false ∧
       (x.ring 1).broken .east = true) := by decide +kernel

theorem witness_RingMembers :
    (let x := (ringAs rsJoined (fun (r : RingSt) => { r with seen := 32, east := { r.east with ended := some (34, 2, 0) } })
       [(F.RNG_STATE_MASTER 1, 1)]).mod.half1
     (x.ring 1).plan = some plan ∧ x.isMaster 1 = true ∧ bitAt (x.ring 1).seen (5 % 128) = true ∧ x.ringState 1 = rsJoined ∧
       plan.ring = ringOf 0x81 ∧ (x.ring 1).east.ended = some (34, 2, 0)) ∧
    (run.mod.half1.isMaster 1 = false ∧ run.mod.half1.ringState 1 ≠ rsJoining) ∧
    (ringAs rsJoining (fun r => r) []).mod.half1.ringState 1 = rsJoining ∧
    (let s := ringAs rsOff (fun r => r) []
     s.mod.grants .h1 4 (F.RNG_CTRL_word 1).off ∧ s.mod.half1.ringState 1 = rsOff ∧ (s.mod.half1.ring 1).plan ≠ none) ∧
    (let s := ringAs rsJoined (fun r => r) []
     s.mod.grants .h1 4 (F.RNG_CTRL_word 1).off ∧ s.mod.half1.ringState 1 = rsJoined) ∧
    (let x := (ringAs rsListen (fun r => r) [(F.RST_STRAP_INDEX, 6)]).mod.half1
     (∃ im, x.image = some im ∧ bitAt im.man.roles 2 = true) ∧ 4 ≤ x.get F.RST_STRAP_INDEX ∧ x.get F.RST_STRAP_INDEX ≤ 6 ∧
       x.ringState 1 = rsListen ∧ (x.ring 1).heard = none ∧ (x.ring 1).plan ≠ none) ∧
    ((ringAs rsListen (fun (r : RingSt) => { r with heard := some 0x81 }) []).mod.half1.ring 1).heard ≠ none :=
  ⟨by decide +kernel, by decide +kernel, by decide +kernel, by decide +kernel, by decide +kernel,
   ⟨⟨{ image with man := { image.man with addr1 := 0x85 } }, by decide +kernel⟩, by decide +kernel⟩, by decide +kernel⟩

/-! ## Time -/

theorem witness_SegmentDelays :
    (1 < run.mod.half1.rings.length ∧ segIndex 1 .east < run.mod.half1.time.seg.length ∧ 15 < run.mod.half1.port.runs.length) ∧
    (let x : Half := { half .h1 with time := { TimeSt.reset with seg := TimeSt.reset.seg.set (segIndex 1 .east) ⟨some (3, some 100), none, []⟩ } }
     (x.time.seg.getD (segIndex 1 .east) SegDelay.reset).asked = some (3, some 100)) ∧ (4 : Nat) ≠ 3 := by decide +kernel

/-- Half 1 with a time configuration and time state. -/
def timeAs (c : TimeConf → TimeConf) (f : TimeSt → TimeSt) : State :=
  ringAs rsJoined (fun r => r) [] |> fun s => { s with mod := { s.mod with half1 := { s.mod.half1 with
    time := f { TimeSt.reset with conf := some (c { TimeConf.default with gmAddrA := 0x81, upRingA := 1 }),
                                  seg := List.replicate 4 ⟨none, none, [120]⟩ } } } }

def syncA : SyncCell :=
  { domain := 0, srcAddr := 0x81, seq := 1, originSec := 0, originFrac := 0, correction := 0, errBound := 0, gmAddr := 0x81, hops := 0,
    gmUnset := false, following := false }

/-- A tracked domain at 0 ns on the local base. -/
def tracked : DomainSt := { DomainSt.reset with st := .tracked }

theorem witness_DomainTracking :
    (let x := (timeAs (fun c => c) fun t => t).mod.half1
     domainOf syncA.domain = some .a ∧ x.usesSync .a 1 .west syncA = true ∧ (x.time.dom .a).st = .none ∧ x.tconf.isGm .a = false) ∧
    (let x := (timeAs (fun c => c) fun (t : TimeSt) => { t with a := tracked }).mod.half1
     x.usesSync .a 1 .west syncA = true ∧ (x.time.dom .a).st = .tracked ∧ (x.time.dom .a).peerFed = false ∧
       (x.time.dom .a).jumps 100 (120 + 0) = false ∧ (x.time.dom .a).jumps 10000000 120 = true ∧
       linkOk x run.mod.half0 = true ∧ run.mod.half0.givesTime .a = false ∧
       ({ run.mod.half0 with time := { TimeSt.reset with a := tracked } } : Half).givesTime .a = true) ∧
    (timeAs (fun (c : TimeConf) => { c with gmA := true }) fun t => t).mod.half1.tconf.isGm .a = true ∧
    (let x := (timeAs (fun (c : TimeConf) => { c with revert := true, preferB := true }) fun (t : TimeSt) =>
       { t with a := tracked, b := tracked, refB := some false }).mod.half1
     x.tconf.revert = true ∧ x.time.refB.isSome = true ∧ x.time.ref ≠ some x.tconf.prefer ∧ (x.time.dom x.tconf.prefer).st = .tracked) ∧
    (timeAs (fun (c : TimeConf) => { c with revert := false }) fun t => t).mod.half1.tconf.revert = false := by decide +kernel

theorem witness_WallAndGrandmasters :
    (let s := timeAs (fun c => c) fun (t : TimeSt) => { t with a := tracked, refB := some false }
     s.mod.half1.epoch.isSome = true ∧ s.mod.half1.time.refB.isSome = true) ∧ run.mod.half1.time.refB = none ∧
    (let s := timeAs (fun (c : TimeConf) => { c with gmA := true, peerErr := 2 ^ 30 }) fun (t : TimeSt) => { t with a := tracked, refB := some false }
     let x : Half := { s.mod.half1 with port := { s.mod.half1.port with links := List.replicate 16 ⟨6, 12, 1, 4, 1⟩ } }
     15 < x.port.runs.length ∧ (x.linkRec 15).kind = 6 ∧ (x.trustedWall (x.lb s.now)).isSome = true ∧
       s.mod.grants .h1 4 F.TIM_GMCMD_word.off ∧ s.mod.half1.tconf.isGm .a = true ∧ (s.mod.half1.time.dom .a).st = .tracked) ∧
    (run.mod.half1.trustedWall (run.mod.half1.lb run.now) = none ∧ run.mod.half1.tconf.isGm .a = false) ∧
    (let x := (timeAs (fun (c : TimeConf) => { c with gmA := true }) fun t => t).mod.half1
     x.tconf.isGm .a = true ∧ (x.time.dom .a).st = .none ∧ 8 ≤ x.step) := by decide +kernel

/-! ## Check-value units, registers, access rules and the ledger -/

theorem witness_CvuUnits :
    (run.mod.grants .h1 4 (F.CVU_CTRL_word 15).off ∧ run.mod.half1.flag (F.CVU_CTRL_ENABLE 15) = false ∧
      run.mod.half1.cvuFeeding 15 = false ∧ run.mod.grants .h1 4 (F.CVU_FEED4_word 15).off ∧
      run.mod.grants .h1 4 (F.CVU_FEED1_word 15).off ∧ run.mod.grants .h1 4 (F.CVU_FEEDEND_word 15).off ∧ run.mod.half1.inReset = false) ∧
    (let s := h1Set [(F.CVU_CTRL_ENABLE 15, 1), (F.CVU_SNOOP_POINT 15, 8)]
     s.mod.grants .h1 4 (F.CVU_CTRL_word 15).off ∧ s.mod.half1.flag (F.CVU_CTRL_ENABLE 15) = true ∧
       1 ≤ s.mod.half1.get (F.CVU_SNOOP_POINT 15) ∧ s.mod.half1.get (F.CVU_SNOOP_POINT 15) ≤ 8) ∧
    (let s := h1Set [(F.CVU_CTRL_ENABLE 15, 1), (F.CVU_SNOOP_POINT 15, 9)]
     s.mod.half1.cvuFeeding 15 = true ∧ 15 < s.mod.half1.cvu.length ∧ s.mod.grants .h1 4 (F.CVU_FEED4_word 15).off ∧
       s.mod.grants .h1 4 (F.CVU_FEED1_word 15).off ∧ s.mod.grants .h1 4 (F.CVU_FEEDEND_word 15).off) ∧
    (let x : Half := { (h1Set [(F.CVU_CTRL_ENABLE 15, 1)]).mod.half1 with
       cvu := run.mod.half1.cvu.set 15 { CvuSt.reset with ready := [none, some 7] } }
     x.inReset = false ∧ x.flag (F.CVU_CTRL_ENABLE 15) = true ∧ 15 < x.cvu.length ∧ (x.cvuUnit 15).ready = none :: [some 7]) ∧
    (run.mod.half1.cvuUnit 15).ready = [] := by decide +kernel

theorem witness_LatchesAndLedger :
    (∀ off ∈ [F.TIM_LOCALLO_word.off, F.TIM_WALLSECLO_word.off, (F.CVU_RESLO_word 15).off, (F.ENG_IRQTSLO_word 3).off, 0x143FFC, 0x50000],
      run.mod.readable (run.mod.issuer 4 .h1) 4 (regAddr .h1 off) ∧ decodeAddr (regAddr .h1 off) = .reg .h1 off) ∧
    (let x := (timeAs (fun c => c) fun (t : TimeSt) => { t with a := tracked, refB := some false }).mod.half1
     (x.wallTicks run.now).isSome = true) ∧
    (let x : Half := { half .h1 with flt := { LedgerSt.reset with entries := List.replicate 256 ⟨[], false⟩ } }
     x.flt.entries[x.entryAge ((0x143FFC - 0x141000) / 0x30)]? = some ⟨[], false⟩) ∧
    (0x50000 / 0x10000 ≠ 0xB ∧ 0x50000 / 0x10000 ≠ 0xC ∧ 0x50000 / 0x10000 ≠ 0xE ∧ 0x50000 / 0x10000 ≠ 0x14) ∧
    (let s := h1As fun (x : Half) => x.setReg 0x140104 0x10
     s.mod.grants .h1 4 F.FLT_SWADD_word.off ∧ 1 ≤ byteAt s.mod.half1.swBuf 4 ∧ byteAt s.mod.half1.swBuf 4 ≤ 0x10) ∧
    byteAt run.mod.half1.swBuf 4 = 0 ∧ 0x10 < byteAt (run.mod.half1.setReg 0x140104 0x11).swBuf 4 := by decide +kernel

/-- Half 1 with uncorrectable errors in its frame store. -/
def badAs (bad : List Nat) : State := h1As fun (x : Half) => { x with store := { x.store with bad := bad } }

theorem witness_RegisterWrites :
    (run.mod.settled ∧ run.mod.writable .h0 0 (regAddr .h1 F.LDR_DESIGN_word.off) ∧
      decodeAddr (regAddr .h1 F.LDR_DESIGN_word.off) = .reg .h1 F.LDR_DESIGN_word.off ∧ F.LDR_DESIGN_word.off / 0x10000 = 2 ∧
      (regSpec F.LDR_DESIGN_word.off).isSome = true ∧ run.mod.half1.isolates F.LDR_DESIGN_word.off = false) ∧
    (run.mod.writable .h0 0 (storeAddr .h1 0x7EFFFFFC) ∧ decodeAddr (storeAddr .h1 0x7EFFFFFC) = .store .h1 0x7EFFFFFC) ∧
    (run.mod.writable .h0 0 0x100600000 ∧ decodeAddr 0x100600000 = .sram .h0 0) ∧
    (let s := h1As fun (x : Half) => { x with starter := { x.starter with isolated := 1 } }
     s.mod.writable .h0 0 (regAddr .h1 (F.CVU_CTRL_word 0).off) ∧ s.mod.half1.isolates (F.CVU_CTRL_word 0).off = true) ∧
    (let s := badAs [0x7EFFFFF8]
     s.mod.half0.inReset = false ∧ s.mod.checkAccess .h0 (storeAddr .h1 0x7EFFFFFC) (.single 4) 0 .write = none ∧
       s.mod.memError (storeAddr .h1 0x7EFFFFFC) 4 true = some (.h1, 0x7EFFFFF8)) ∧
    (let s := h1Set [(F.ACR_WMASK_MASK 0, 0)]
     s.mod.half1.inReset = false ∧ (s.mod.checkAccess .h1 (storeAddr .h1 0) (.single 4) 4 .write).isSome = true) := by decide +kernel

theorem witness_SealedWrites :
    let off := F.LDR_DESIGN_word.off
    let a := F.AGE_CTRL_word.off
    run.mod.settled ∧ run.mod.writable .h0 0 (regAddr .h1 a) ∧ decodeAddr (regAddr .h1 a) = .reg .h1 a ∧ run.mod.half1.isolates a = false ∧
      run.mod.half1.mode = modeRunning ∧ (regSpec a).any (fun r => r.rws != 0) = true ∧ (∀ j < 48, a ≠ (F.INK_SCTRL_word j).off) ∧
      off ≠ a := by decide +kernel

theorem witness_EpochSwitch :
    (run.mod.grants .h1 8 F.ACR_SWITCH_word.off ∧ run.mod.half1.flag F.ACR_EPOCH_SWITCHING = false ∧
      (∀ i < 64, run.mod.half1.shadowRange i = false) ∧ (∀ i < 64, ∀ j < 64, run.mod.half1.shadowOverlap i j = false)) ∧
    (let x := (h1Set [(F.ACR_EPOCH_SWITCHING, 1)]).mod.half1
     x.flag F.ACR_EPOCH_SWITCHING = true ∧ x.starter.waiting = []) ∧
    (h1As fun (x : Half) => { x with starter := { x.starter with waiting := [(8, 0xA0000, 1)] } }).mod.half1.starter.waiting ≠ [] ∧
    (let x := (h1Set [(F.ACR_SHBASE_PAGE 63, 1), (F.ACR_SHPAGES_COUNT 63, 2 ^ 28)]).mod.half1
     x.flag F.ACR_EPOCH_SWITCHING = false ∧ x.shadowRange 63 = true) ∧
    (let x := (h1Set [(F.ACR_SHBASE_PAGE 63, 1), (F.ACR_SHPAGES_COUNT 63, 1), (F.ACR_SHPAGES_COUNT 0, 2)]).mod.half1
     (∀ i < 64, x.shadowRange i = false) ∧ x.shadowOverlap 0 63 = true) := by decide +kernel

/-! ## Engines -/

/-- Half 1 with engine 3 in a STATE, its next instruction at the end of its SRAM, and x2 at the last word. -/
def engineAs (state raw : Nat) (f : Engine → Engine) : State :=
  let e : Engine := f { Engine.reset with pc := 0x1FFFC, x := Engine.reset.x.set 2 0x1FFFC, csr := { Csrs.reset with mie := true }
                                          sram := bytesFrom 0x1FFFC (leBytes 4 raw) |>.filter fun c => c.2 != 0 }
  h1As fun (x : Half) => { x.set (F.ENG_STATE_STATE 3) state with engines := x.engines.set 3 e }

theorem witness_EngineInstructions :
    (∀ raw ∈ [0x00100093, 0x00012083, 0x00112023, 0x73, 0x30200073, 0x10500073],
      (engineAs esRunning raw fun e => e).engineReady .h1 3 ∧ ((engineAs esRunning raw fun e => e).mod.half1.engine 3).fetches 4 raw) ∧
    ((engineAs esRunning 0x0085 fun e => e).mod.half1.engine 3).fetches 2 0x85 ∧
    (((engineAs esRunning 0x85 fun e => e).mod.half1.engine 3).run 2 (decodeRv 0x85)).isSome = true ∧
    (((engineAs esRunning 0x85 fun e => e).mod.half1.engine 3).run 4 (decodeRv 0x00100093)).isSome = true ∧
    decodeRv 0x00012083 = .load 4 true 1 2 0 ∧ decodeRv 0x00112023 = .store 4 2 1 0 ∧
    (let e := (engineAs esRunning 0x73 fun e => e).mod.half1.engine 3
     (e.rd 2 + 0).toNat < 0x20000 ∧ (e.rd 2 + 0).toNat % 4 = 0 ∧ e.handling = false) ∧
    decodeRv 0x73 = .ecall ∧ decodeRv 0x7F = .illegal ∧ decodeRv 0x30200073 = .mret ∧ decodeRv 0x10500073 = .wfi := by decide +kernel

theorem witness_EngineInterrupts :
    (let s := engineAs esWaiting 0 fun (e : Engine) => { e with timecmp := 2 * 10 ^ 9, csr := { e.csr with mieBits := 0x80 } }
     let x := s.mod.half1
     let u := max s.now (s.stampAt .h1 (x.engine 3).timecmp)
     s.mod.settled ∧ 3 < x.engines.length ∧ x.inReset = false ∧ x.engState 3 = esWaiting ∧ x.irqOn u 3 ≠ 0 ∧ bitAt (x.irqOn u 3) 7 = true ∧
       (x.engine 3).csr.mie = true) ∧
    (let s := engineAs esRunning 0 fun (e : Engine) => { e with csr := { e.csr with mieBits := 0x800 } }
     let x := s.mod.half1.sets [(F.ENG_IRQPEND_PEND 3, 2 ^ 15), (F.ENG_IRQEN_EN 3, 2 ^ 15)]
     x.engState 3 = esRunning ∧ x.irqOn s.now 3 ≠ 0 ∧ bitAt (x.irqOn (max s.now (s.stampAt .h1 (x.engine 3).timecmp)) 3) 7 = false) ∧
    (let x := (engineAs esHalted 0 fun e => e).mod.half1
     x.engState 3 ≠ esRunning ∧ x.engState 3 ≠ esWaiting) := by decide +kernel

theorem witness_EnginePorts :
    (let s := engineAs esRunning 0 fun e => e
     s.mod.settled ∧ s.mod.grants .h1 mDebug (F.ENG_CTRL_word 3).off ∧ s.mod.grants .h1 7 (F.ENG_CTRL_word 3).off ∧
       s.mod.half1.engState 3 = esRunning ∧ s.mod.grants .h1 7 (F.ENG_BEAT_word 3).off ∧ 3 < s.mod.half1.engines.length ∧
       s.mod.half1.inReset = false ∧ s.mod.half1.engState 3 ≠ esHalted ∧ s.mod.grants .h1 7 (F.ENG_TIMECMPHI_word 3).off ∧
       s.mod.readable (s.mod.issuer 7 .h1) 7 (regAddr .h1 (F.ENG_IRQCLAIM_word 3).off) ∧
       (∀ j < 16, s.mod.half1.getBit (F.ENG_IRQPEND_PEND 3) j = false ∨ s.mod.half1.getBit (F.ENG_IRQEN_EN 3) j = false)) ∧
    (let x := (engineAs esHalted 0 fun e => e).mod.half1
     x.engState 3 = esHalted ∧ x.engState 3 ≠ esRunning ∧ x.engState 3 ≠ esWaiting) ∧
    (let x := (h1Set [(F.ENG_IRQPEND_PEND 3, 2 ^ 15 + 2 ^ 4), (F.ENG_IRQEN_EN 3, 2 ^ 15)]).mod.half1
     x.getBit (F.ENG_IRQPEND_PEND 3) 15 = true ∧ x.getBit (F.ENG_IRQEN_EN 3) 15 = true ∧
       (∀ j < 15, x.getBit (F.ENG_IRQPEND_PEND 3) j = false ∨ x.getBit (F.ENG_IRQEN_EN 3) j = false)) := by decide +kernel

/-! ## Host access -/

/-- The running module with half 0's host state changed. -/
def hostAs (f : HostSt → HostSt) : State :=
  { run with mod := { run.mod with half0 := { run.mod.half0 with host := f run.mod.half0.host } } }

theorem witness_ServicePort :
    (run.mod.half run.mod.holder).inReset = false ∧ (run.mod.half run.mod.holder).host.queue = [] ∧ run.mod.settled ∧
    (let a : SvcOut := ⟨1, [], some 6⟩
     let b : SvcOut := ⟨2, [], none⟩
     let x := (hostAs fun (q : HostSt) => { q with queue := List.replicate 7 a ++ b :: [b] }).mod
     (x.half x.holder).host.queue = List.replicate 7 a ++ b :: [b] ∧ (∀ g ∈ List.replicate 7 a, g.oseq.isSome = true) ∧ b.oseq = none ∧
       (∀ g ∈ [b], g.oseq = none) ∧ (List.replicate 7 a).length < 8 ∧ (x.half x.holder).host.resend = false) ∧
    (let a : SvcOut := ⟨1, [], some 6⟩
     let x := (hostAs fun (q : HostSt) => { q with queue := [a], resend := true }).mod
     (x.half x.holder).host.queue = a :: [] ∧ a.oseq = some 6 ∧ (x.half x.holder).host.resend = true) ∧
    (let poll := frameOf 0x5C 0 9 1 []
     let ask := frameOf 0x5C 1 9 0 (List.replicate 20 0)
     checkFrame poll = .good ∧ byteAt poll 1 = 0 ∧ checkFrame ask = .good ∧ byteAt ask 1 = 1 ∧
       checkFrame (frameOf 0xC5 0 9 1 []) = .bad ∧ checkFrame (poll.set 9 0) = .crc) := by decide +kernel

/-- A module in recovery mode with its clock qualified. -/
def recoveryAs (p : PassSt) : State :=
  let m := (bothAs fun x => x.sets [(F.RST_STATE_MODE, 2), (F.RST_QUAL_TIME, 1), (F.RST_QUAL_QSPI, 1)]).mod
  { run with mod := { m with lamp := { m.lamp with phase := .recovery, pass := p } } }

theorem witness_RecoveryMode :
    (let s := recoveryAs { learned := some 21, waiting := none, busy := none }
     (s.mod.half s.mod.holder).inReset = false ∧ s.mod.lamp.phase = .recovery ∧ s.mod.lamp.pass.waiting = none ∧
       s.mod.lamp.pass.busy = none ∧ s.mod.passClock = true ∧ s.mod.lamp.pass.learned.isSome = true ∧ 2 ^ 32 - 1 < 2 ^ 32 ∧
       (32 + 224) % 256 + (List.replicate 224 (0 : Byte)).length ≤ 256) ∧
    (recoveryAs { learned := none, waiting := none, busy := none }).mod.lamp.pass.learned = none ∧ run.mod.lamp.phase ≠ .recovery ∧
    (List.replicate 32 (1 : Byte)).length = 32 ∧ List.replicate 32 (1 : Byte) ≠ List.replicate 32 0 ∧
    (let s := recoveryAs { learned := some 21, waiting := none, busy := some 0 }
     s.mod.lamp.pass.busy = some 0 ∧ bitAt (0xFE : Byte).toNat 0 = false ∧ bitAt (1 : Byte).toNat 0 = true ∧
       max s.now s.mod.lamp.pass.pollAt < 0 + 5000000000 ∧
       0 + 5000000000 ≤ max ({ s with now := 5 * 10 ^ 9 } : State).now s.mod.lamp.pass.pollAt) ∧
    (let s : State := { run with mod := { run.mod with lamp := { run.mod.lamp with pass := { learned := none, waiting := some [], busy := none } } } }
     s.mod.lamp.pass.waiting.isSome = true ∧ s.mod.passClock = false) := by decide +kernel

theorem witness_RecoveryMemories : run.mod.wf ∧ (recoveryAs { learned := some 21, waiting := none, busy := none }).mod.wf := by
  unfold Module.wf Half.wf
  decide +kernel

/-- A host on the service port, and an engine of another module on a ring. -/
def serviceHost : Requester := ⟨0x3FFF, 8, true⟩
def farEngine : Requester := ⟨0x81, 7, false⟩

/-- Half 1 joined to its second ring, with management cells enabled and further fields set. -/
def hostRing (fs : List (Field × Nat)) : State := ringAs rsJoined (fun r => r) ((F.HST_CTRL_MGTEN, 1) :: fs)

theorem witness_AccessRequests :
    let a := storeAddr .h1 0x7EFFFF20
    let r := reqOf serviceHost 255 0 (beBytes 5 a ++ [0] ++ beBytes 2 56)
    run.mod.settled ∧ decodeAddr a = .store .h1 0x7EFFFF20 ∧ 0x7EFFFF20 + 4 * 56 ≤ 0x80000000 ∧ run.mod.accepts .h0 serviceHost r ∧
      run.mod.checkAccess .h0 a (.words 56) mService .read = none ∧ run.mod.checkAccess .h0 a (.words 56) mService .write = none ∧
      (run.mod.half .h0).identity serviceHost = mService ∧ run.mod.receiver .h0 serviceHost = .h0 ∧ run.mod.reqError r = none ∧
      (badAs [0x7EFFFFF8]).mod.accepts .h0 serviceHost r ∧ (badAs [0x7EFFFFF8]).mod.checkAccess .h0 a (.words 56) mService .read = none ∧
      (badAs [0x7EFFFFF8]).mod.reqError r = some (.h1, 0x7EFFFFF8) := by decide +kernel

theorem witness_AccessLayouts :
    let a := storeAddr .h1 0x7EFFFF20
    run.mod.accepts .h0 serviceHost (reqOf serviceHost 255 0 (beBytes 5 a ++ [0] ++ beBytes 2 57)) ∧
      run.mod.accepts .h0 serviceHost (reqOf serviceHost 255 0 (beBytes 5 a ++ [0] ++ beBytes 2 0)) ∧
      run.mod.accepts .h0 serviceHost (reqOf serviceHost 0 3 (beBytes 5 a ++ [0] ++ beBytes 2 224 ++ List.replicate 8 0 ++
        List.replicate 224 7)) := by decide +kernel

theorem witness_RingRequests :
    let s := hostRing []
    let a := storeAddr .h1 0
    s.mod.accepts .h1 farEngine (reqOf farEngine 1 1 (beBytes 5 a ++ List.replicate 3 0 ++ beBytes 4 5)) ∧
      s.mod.checkAccess .h1 a (.words 1) ((s.mod.half .h1).identity farEngine) .write = none ∧
      s.mod.checkAccess .h1 a (.words 1) ((s.mod.half .h1).identity farEngine) .read = none ∧
      s.mod.reqError (reqOf farEngine 1 1 (beBytes 5 a ++ List.replicate 3 0 ++ beBytes 4 5)) = none ∧
      s.mod.reqError (reqOf farEngine 1 2 (beBytes 5 a ++ List.replicate 3 0 ++ beBytes 4 5 ++ beBytes 4 6)) = none ∧
      s.mod.accepts .h1 farEngine (reqOf farEngine 1 2 (beBytes 5 a ++ List.replicate 3 0 ++ beBytes 4 5 ++ beBytes 4 6)) := by decide +kernel

theorem witness_RefusedRequests :
    (let s := bothAs fun x => x.sets [(F.ACR_RMASK_MASK 0, 0)]
     let a := storeAddr .h0 0
     s.mod.accepts .h0 serviceHost (reqOf serviceHost 1 0 (beBytes 5 a ++ [0] ++ beBytes 2 1)) ∧ a % 4 = 0 ∧
       (s.mod.checkAccess .h0 a (.words 1) mService .read).isSome = true) ∧
    (let m := (hostAs fun (q : HostSt) => { q with outstanding := [⟨serviceHost, 3⟩] }).mod
     m.tagBusy .h0 serviceHost 3 = true ∧ m.half0.inReset = false ∧ m.half0.mode ≠ modeRecovery ∧ linkOk m.half0 m.half1 = true) := by
  decide +kernel

/-- A module whose half 0 is commit owner, with an image. -/
def ownerModule (x : Half) : Module := { run.mod with half0 := { x.set F.SYS_HALF_COMMIT_OWNER 1 with image := some image } }

theorem witness_ChangeRequests :
    let m := ownerModule run.mod.half0
    let x := m.half0
    m.settled ∧ x.owner = true ∧ m.accepts .h0 serviceHost (reqOf serviceHost 1 4 (beBytes 1 0)) ∧ x.validScene 0 = true ∧
      (∀ a ∈ x.acts.acts, a.lap ≠ some x.switchLap) ∧ m.accepts .h0 serviceHost (reqOf serviceHost 1 4 (beBytes 1 255)) ∧
      x.validScene 255 = false ∧ m.accepts .h0 serviceHost (reqOf serviceHost 1 5 (graphicBytes 7 true false 0 255)) ∧
      x.graphicFits (x.sceneAtLap x.switchLap) 7 true 0 = true ∧ x.wall run.now = none := by decide +kernel

theorem witness_Subscriptions :
    (run.mod.accepts .h0 serviceHost (reqOf serviceHost 1 7 (beBytes 2 0xE008)) ∧ (∀ n < 16, bitAt 0xE008 n = true → n ∈ eventClasses) ∧
      (∀ u ∈ run.mod.half0.host.subs, u.who ≠ serviceHost) ∧ run.mod.half0.host.subs.length < 16) ∧
    (let x := (hostAs fun (q : HostSt) => { q with subs := List.replicate 16 ⟨farEngine, 0, 8, 0, []⟩ }).mod.half0
     (∀ u ∈ x.host.subs, u.who ≠ serviceHost) ∧ 16 ≤ x.host.subs.length) := by decide +kernel

theorem witness_Schedules :
    let x : Half := (timeAs (fun c => c) fun (t : TimeSt) => { t with a := tracked, refB := some false }).mod.half1
    let m := ownerModule x
    let p := beBytes 1 0 ++ beBytes 1 0 ++ beBytes 1 0 ++ beBytes 1 0 ++ beBytes 1 0 ++ List.replicate 3 0 ++ beBytes 8 2 ++ beBytes 4 0 ++
      beBytes 8 2 ++ beBytes 4 0
    m.accepts .h0 serviceHost (reqOf serviceHost 1 6 p) ∧ m.half0.validScene 0 = true ∧ x.wall run.now = some (10 ^ 9) ∧
      (10 ^ 9 : Int) ≤ r308ns 2 0 ∧ (m.half0.acts.acts.filter fun a => a.sched.isSome).length < 64 := by decide +kernel

/-- The plan with a gateway at station 1 to ring 2. -/
def gatePlan : RingPlan := { plan with gateways := [⟨1, 2, 4⟩] }

def toRing2 : MgmtRsp :=
  { event := false, dest := 0x101, src := 0x85, tag := 0, origin := 0, opcode := 4, hops := 6, len := 1, status := 0, payload := [] }

/-- EOUT of engine 3 with a request to a station of the joined ring. -/
def eoutAs (c : MgmtRsp) (x : Half) : Half :=
  let bytes := (relayCell true c).bytes 0
  (List.range 64).foldl (fun x k => x.setReg (0xF1C00 + 4 * k) (BitVec.ofNat 32 (leAt bytes (4 * k) 4))) x

theorem witness_CellsAndTelemetry :
    (let x := (ringAs rsJoined (fun (r : RingSt) => { r with plan := some gatePlan, seen := 2 }) [(F.RNG_STATE_MASTER 1, 1)]).mod.half1
     let c := relayCell true toRing2
     x.inReset = false ∧ x.mgmtHere 1 (c.field 16 14) (c.field 60 4) = true ∧ x.isMaster 1 = true ∧ x.ringJoined 1 = true ∧
       c.field 60 4 % 2 = 0 ∧ c.field 60 4 < 8 ∧ c.field 16 14 ≠ x.ringAddr 1 ∧ x.onRingOf 1 (c.field 16 14) = false ∧
       x.gatewayTo 1 (c.field 16 14) = some 1 ∧ 1 ≠ x.station 1 ∧ x.relayQueue < 256) ∧
    run.mod.half1.mgmtHere 1 0x101 6 = false ∧
    (let x := (hostRing []).mod.half1
     x.flag F.HST_CTRL_MGTEN = true ∧ 0x85 = x.ringAddr 1 ∧ 3 < x.engines.length ∧ (hostRing []).mod.reaches .h1 (hostRing []).mod.holder = true ∧
       ((x.engine 3).inbox.filter fun y => y.event == false).length < 64) ∧
    (h1Set [(F.HST_CTRL_MGTEN, 0)]).mod.half1.flag F.HST_CTRL_MGTEN = false ∧ run.mod.grants .h1 7 (F.HST_ESEND_GO 3).off ∧ run.mod.grants .h1 7 (F.HST_EPOP_POP 3).off ∧
    mgmtFits { reqOfCell (Cell.parse (run.mod.half1.eoutBytes 3)).2 with origin := 7 } = false ∧ run.mod.lamp.alive = true := by
  decide +kernel

theorem witness_EngineWindows :
    (let x := eoutAs { toRing2 with dest := 0x81 } (hostRing []).mod.half1
     let cell := (Cell.parse (x.eoutBytes 3)).2
     let r : MgmtReq := { reqOfCell cell with origin := 7, hops := 0, src := x.answerAddr (cell.field 16 14) }
     r.dest ≠ x.ringAddr 0 ∧ r.dest ≠ x.ringAddr 1 ∧ r.dest ≠ 0x3FFF ∧ mgmtFits r = true ∧ (x.engine 3).sent.length < 64 ∧
       (r.dest, r.tag) ∉ (x.engine 3).sent ∧ 3 < x.engines.length ∧ x.ringJoined 1 = true ∧ x.onRingOf 1 r.dest = true ∧
       (1 = 0 ∨ x.ringJoined 0 = false ∨ x.onRingOf 0 r.dest = false)) ∧
    (let x := eoutAs { toRing2 with dest := 0x81 } run.mod.half1
     let cell := (Cell.parse (x.eoutBytes 3)).2
     let r : MgmtReq := { reqOfCell cell with origin := 7, hops := 0, src := x.answerAddr (cell.field 16 14) }
     r.dest ≠ x.ringAddr 0 ∧ r.dest ≠ x.ringAddr 1 ∧ r.dest ≠ 0x3FFF ∧ mgmtFits r = true ∧ (x.engine 3).sent.length < 64 ∧
       (r.dest, r.tag) ∉ (x.engine 3).sent ∧ 3 < x.engines.length ∧ x.ringJoined 0 = false ∧ x.ringJoined 1 = false ∧
       ((x.engine 3).inbox.filter fun y => y.event == false).length < 64) ∧
    (let e : Engine := { Engine.reset with sent := List.replicate 64 (0, 0), inbox := [toRing2, toRing2] }
     64 ≤ e.sent.length ∧ (0x85, 7) ∉ e.sent ∧ 1 < e.inbox.length) := by decide +kernel

/-! ## Touch and operator inputs -/

def touchConf : TouchConf :=
  { mode := 0, rows := 1, cols := 2, rate := 60, flags := 0, touchTh := 100, relTh := 80, selfTh := 0, waterTh := 0, startTh := 0, hold := 0,
    xorg := 0, yorg := 0, xpitch := 0, ypitch := 0, maxArea := 9, track := 9, drift := 0, self := [] }

/-- Half 0 with its touch state changed and fields set. -/
def touchAs (f : TouchSt → TouchSt) (fs : List (Field × Nat)) : State :=
  { run with mod := { run.mod with half0 := { run.mod.half0.sets fs with
      touch := f { run.mod.half0.touch with conf := some touchConf, nodes := List.replicate 2 NodeSt.reset } } } }

/-- A touched node: eight samples of 800 in the polarity of row 0. -/
def samplesOf (a b : Int) : List (List (List Int)) :=
  [[(List.range 8).map fun j => polarity 0 j * a, (List.range 8).map fun j => polarity 0 j * b]]

theorem witness_Touch :
    (let s := touchAs (fun t => t) []
     let x := s.mod.half0
     x.inReset = false ∧ s.mod.grants .h0 0 F.TCH_CTRL_word.off ∧ x.get F.TCH_STATUS_STATE ≠ tsDisabled ∧ x.flag F.TCH_CTRL_SCAN = false ∧
       7 ≤ x.step ∧ x.touch.conf = some touchConf ∧ x.touch.held = none ∧ x.touch.resync = false) ∧
    (let s := touchAs (fun t => t) [(F.TCH_CTRL_SCAN, 1), (F.TCH_STATUS_STATE, tsBaseline)]
     let x := s.mod.half0
     bitAt s.mod.lamp.outActed 8 = false ∧ x.flag F.TCH_CTRL_SCAN = true ∧ x.touch.nodes.length = touchConf.rows * touchConf.cols ∧
       x.get F.TCH_STATUS_STATE = tsBaseline ∧ x.touch.frames < 8) ∧
    (let x := (touchAs (fun (t : TouchSt) => { t with frames := 1 }) [(F.TCH_CTRL_SCAN, 1), (F.TCH_STATUS_STATE, tsRunning)]).mod.half0
     x.get F.TCH_STATUS_STATE = tsRunning ∧ 1 ≤ x.touch.frames ∧ touchConf.mode ≠ 2 ∧ x.touch.contacts = [] ∧ x.touch.selfs = [] ∧
       (∀ k < 2, touchConf.touched ((putRaw x.touch.nodes (touchConf.decode (samplesOf 0 99))).getD k NodeSt.reset) = false) ∧
       (∀ j < 2, touchConf.touched ((putRaw x.touch.nodes (touchConf.decode (samplesOf 0 800))).getD j NodeSt.reset) = decide (j = 1) ∨
         touchConf.touched ((putRaw x.touch.nodes (touchConf.decode (samplesOf 0 (-800)))).getD j NodeSt.reset) = decide (j = 1))) ∧
    (let r : TouchRep := { kind := 1, ident := 0, flags := 0, pos := (0, 0), area := 1, strength := 1, top := 0, region := none, unknown := false }
     let f : TouchHeld := { frame := 1, reps := [r], start := 0, stop := 0 }
     let s := touchAs (fun (t : TouchSt) => { t with held := some f }) [(F.TCH_RINGPTR_WR, 63)]
     let u := touchAs (fun (t : TouchSt) => { t with resync := true }) [(F.TCH_RINGPTR_WR, 63)]
     s.mod.half0.reportRoom = false ∧ (touchAs (fun (t : TouchSt) => { t with held := some f }) []).mod.half0.reportRoom = true ∧
       s.mod.checkAccess .h0 0x100600000 (.words 8) mTouch .write = none ∧ s.mod.half0.touch.held = some f ∧ f.reps = [r] ∧
       u.mod.half0.touch.conf.isSome = true ∧ u.mod.half0.touch.resync = true ∧ u.mod.half0.touch.contacts = [] ∧
       u.mod.half0.touch.selfs = [] ∧ u.mod.half0.reportRoom = false) ∧
    (let s := touchAs (fun (t : TouchSt) => { t with resync := true }) []
     s.mod.half0.touch.conf.isSome = true ∧ s.mod.half0.touch.resync = true ∧ s.mod.half0.reportRoom = true ∧
       s.mod.checkAccess .h0 0x100600000 (.words 8) mTouch .write = none) := by decide +kernel

/-- The running module with key 15 in a state and fields of the lamplighter set, in a phase. -/
def keyAs (p : LampPhase) (k : KeySt) (fs : List (Field × Nat)) : State := lampAs fun (l : Lamp) =>
  fs.foldl (fun (l : Lamp) f => l.set f.1 f.2) { l with phase := p, keys := l.keys.set 15 k, mv := goodMv }

theorem witness_Keys :
    (let s := keyAs .running { KeySt.reset with differ := 7 } []
     let l := s.mod.lamp
     let levels := if l.flag (F.KEY_CFG_ACTLOW 0) then 0x7FFF else 0x8000
     l.phase ≠ .noVaon ∧ l.stopped = false ∧ l.keys.length = 16 ∧ l.events.length < 16 ∧ (∀ j < 16, (l.key j).chatter = false) ∧
       (∀ j < 16, j ≠ 15 → (bitAt levels j != l.flag (F.KEY_CFG_ACTLOW j)) = (l.key j).active) ∧
       (bitAt levels 15 != l.flag (F.KEY_CFG_ACTLOW 15)) ≠ (l.key 15).active ∧ 7 ≤ (l.key 15).differ ∧
       ((l.key 15).changes.filter fun c => decide (max s.now l.due.key < c + 1000000000)).length < 20 ∧ l.phase ≠ .rest ∧ l.phase ≠ .waitWake ∧
       l.phase ≠ .restEntry) ∧
    (let l := (keyAs .rest { KeySt.reset with differ := 7 } [(F.KEY_CFG_WAKE 15, 1), (F.LMP_WAKE_KEYEN, 1)]).mod.lamp
     l.flag (F.KEY_CFG_WAKE 15) = true ∧ l.flag F.LMP_WAKE_KEYEN = true ∧ l.phase = .rest) ∧
    ((keyAs .running { KeySt.reset with differ := 6 } []).mod.lamp.key 15).differ < 7 ∧
    (let l := (keyAs .running { KeySt.reset with active := true } [(F.KEY_CFG_LIMIT 15, 1)]).mod.lamp
     (l.key 15).active = true ∧ (l.key 15).chatter = false ∧ (l.key 15).stuck = false ∧ l.get (F.KEY_CFG_LIMIT 15) ≠ 0) ∧
    (run.mod.lamp.key 15).active = false ∧ run.mod.readable (run.mod.lampIssuer 4) 4 (lampBase + F.KEY_EVENT_word.off) ∧
    (let s := keyAs .rest KeySt.reset [(F.KEY_GANGCTRL_GROUPS, 4), (F.LMP_WAKE_TOUCHEN, 1), (F.KEY_GANGCTRL_TH, 10)]
     let l : Lamp := { s.mod.lamp with gangHits := [0, 0, 1], gangSeen := [4, 4, 4], gangBase := [40, 40, 40] }
     s.mod.lamp.gangs ≠ [] ∧ supplyOut s.mod.lamp.mv 8 = false ∧ (∀ g < 3, s.mod.lamp.gangHits.getD g 0 = 0) ∧ bitAt (l.get F.KEY_GANGCTRL_GROUPS) 2 = true ∧
       1 ≤ l.gangHits.getD 2 0 ∧ 2 < l.gangHits.length ∧ l.gangOver 2 20 = true ∧ l.flag F.LMP_WAKE_TOUCHEN = true) ∧
    (keyAs .rest KeySt.reset []).mod.lamp.gangs = [] ∧ supplyOut run.mod.lamp.mv 8 = true ∧ run.mod.lamp.phase ≠ .rest := by decide +kernel

/-! ## The block as a whole -/

theorem witness_ResetState : State.reset.pending = [] ∧ (regSpec F.LDR_DESIGN_word.off).isSome = true ∧
    F.LDR_DESIGN_word.off ≠ F.RST_CAUSE_word.off ∧ F.LDR_DESIGN_word.off ≠ 4 ∧ F.LDR_DESIGN_word.off < 0x50010 ∧
    (lmpRegSpec F.LMP_WAKE_word.off).isSome = true := by decide +kernel

theorem witness_CellAndBatonBytes :
    (let c : Cell := ⟨15, 2 ^ 80 - 1, List.replicate 240 0xFF⟩
     c.type < 16 ∧ c.hdr < 2 ^ 80 ∧ c.payload.length = 240) ∧
    (let b := Baton.parse (List.replicate 56 0xFF)
     b.bseq < 2 ^ 32 ∧ b.lap < 2 ^ 32 ∧ b.shedLap < 2 ^ 32 ∧ b.scene < 256 ∧ b.current < 256 ∧ b.sceneLap < 2 ^ 32 ∧ b.first < 2 ^ 32 ∧
       b.last < 2 ^ 32 ∧ b.rangeLap < 2 ^ 32 ∧ b.subMask < 4 ∧ b.take < 256 ∧ b.gLap < 2 ^ 32 ∧ b.retLap < 2 ^ 32 ∧
       (∀ g ∈ [b.g0, b.g1], g.layer < 256 ∧ g.state < 256 ∧ g.alpha < 256)) := by decide +kernel

theorem witness_LineCode :
    (let x : LaneTx := { LaneTx.reset with runLen := 23 }
     let r : LaneRx := { LaneRx.reset with runLen := 23, fill := 58, taps := x.taps }
     x.runLen < 24 ∧ r.runLen = x.runLen ∧ r.runBit = x.runBit ∧ 58 ≤ r.fill ∧ r.taps = x.taps) ∧
    LaneRx.reset.fill = 0 ∧ LaneRx.reset.runLen = LaneTx.reset.runLen ∧ 58 ≤ mixedBits.length := by decide +kernel

theorem witness_KeyFuseKept :
    let s : State := { (recoveryAs { learned := none, waiting := none, busy := none }) with
      pending := [.fuse (List.replicate 32 1) [0x46, 0x55, 0x53, 0x45]] }
    s.mod.fuse = none ∧ ∃ t, step s = .next t ∧ t.mod.fuse = some (List.replicate 32 1) ∧ t.mod.fuse ≠ s.mod.fuse :=
  ⟨rfl, _, rfl, by decide +kernel⟩

/-! ## Ill-formed commands -/

/-- A command that shows a flaw, and the flaw. -/
def illFormed : List (Instr × Flaw) :=
  [(.cdrLock .h0 24, .port), (.txCellRow .h0 40, .link), (.bypassClose .h0 4, .pair), (.nosigTimeout .h0 48, .window),
   (.timerInterrupt 8, .engine), (.cvuResult .h0 16 [] 0, .unit), (.ringLapStart .h0 2, .ring), (.pipeFree .h0 4, .pipe),
   (.kick .h0 20, .master), (.thermalTrip [0, 0, 0], .sample), (.start [[0]], .codes), (.paceGate .h0 [0, 0, 0], .meters),
   (.flitReceive .h0 ⟨.baton, [], 0⟩, .flit), (.scenesel .h0 0 256, .field), (.keyStuck 16, .key),
   (.passthruErase4k (2 ^ 32) none, .address), (.fuse [] [], .bytes), (.sceneSelect .h0 ⟨2 ^ 14, 0, false⟩ 0 0, .requester),
   (.fetchComplete .h0 512 ⟨0, none⟩, .tile)]

theorem test_ill_formed_refused : (illFormed.all fun x => x.1.flaw == some x.2 && !x.1.wellFormed) = true := by decide +kernel

theorem test_boundary_well_formed : [Instr.cdrLock .h0 23, .txCellRow .h0 39, .bypassClose .h0 3, .nosigTimeout .h0 47, .timerInterrupt 7,
    .cvuResult .h0 15 [] 0, .ringLapStart .h0 1, .pipeFree .h0 3, .kick .h0 19, .scenesel .h0 0 255, .keyStuck 15,
    .passthruErase4k (2 ^ 32 - 1) none, .fetchComplete .h0 511 ⟨0, none⟩].all Instr.wellFormed = true := by decide +kernel

/-! ## Worked examples of the manual -/

/-- Chapter 18: the 3 × 3 deltas around row 7, column 6 of a 12 × 20 matrix give 1,691 and 1,909, and pixel (2,536, 1,342). -/
theorem test_touch_position :
    let c : TouchConf := { touchConf with rows := 12, cols := 20, xpitch := 6144, ypitch := 2880 }
    let dm : List (Nat × Int) := [(125, 40), (126, 120), (127, 60), (145, 90), (146, 300), (147, 150), (165, 30), (166, 100), (167, 50)]
    let nodes := (List.range 240).map fun k => { NodeSt.reset with base := 256 * (((dm.find? fun x => x.1 == k).map fun x => x.2).getD 0) }
    c.centroid nodes 146 = (1691, 1909) ∧ c.place 7680 2160 nodes 146 = (2536, 1342) := by decide +kernel

/-- Chapter 5: the 12 header bytes of a tile cell. -/
theorem test_tile_cell_header :
    ((tileToCell 0x207 0x2A31 5 3 1 0x1F40 0x8000 false (List.replicate 240 0)).bytes 6).take 12 =
      [0xD5, 0x16, 0x20, 0x72, 0xA3, 0x10, 0x28, 0x0D, 0x1F, 0x40, 0x80, 0x00] := by decide +kernel

/-- Chapter 17: the 12 header bytes of a SCENE_SELECT. -/
theorem test_request_header :
    ((reqCell { dest := 0x011E, src := 0x0081, tag := 0x21, origin := 8, opcode := 4, hops := 0, len := 4, payload := [] }).bytes 0).take 12 =
      [0xD5, 0x40, 0x04, 0x78, 0x08, 0x12, 0x18, 0x40, 0x04, 0x00, 0x00, 0x00] := by decide +kernel

/-- Chapter 4: the load limit of an image of 0x12_CCA0 bytes at 50,000,000 bytes per second. -/
theorem test_load_limit : loadLimit 0x12CCA0 50000000 = 548 := by decide

/-- Chapter 11: CUT, Ef, LINKDLY and MARGIN put the lap deadline 754,703 ns before A(L). -/
theorem test_lap_deadline :
    let m : ModeRecord := { mode255 with mode := 2, refresh := 6000, period := 16666667, vTotal := 2250, vActive := 2160, cutLines := 8 }
    let x : Half := { (half .h0).sets [(F.PNL_MODE_MODE, 2), (F.PNL_MODE_CUTLINES, 8), (F.AGE_PERIOD_NS, 16666667),
      (F.AGE_FLIPDECL_FLIPERR, 2000), (F.AGE_FLIPDECL_FLIPPPM, 100), (F.PNL_LINK_LINKDLY, 110), (F.PNL_CTRL_MARGIN, 20)] with
      panel := { PanelSt.reset with modes := [m], linkDly := 110 } }
    x.flipErr = 8667 ∧ x.cutNs = 754703 := by decide +kernel

/-- Chapter 9: a vertical sum, a horizontal sum, the matrix of preset 0x02, and a class V pixel of the load indicator. -/
theorem test_composition_arithmetic :
    tapSum [18, -90, 868, 270, -56, 14] [480, 492, 508, 516, 520, 518] = 511 ∧
    tapSum [-6, 24, -92, 860, 287, -64, 19, -4] [498, 503, 507, 511, 515, 521, 526, 530] = 512 ∧
    (presetMatrix 2).apply [512, 480, 560] = [609, 504, 455] ∧
    [blendV 192 230 (expand8 255) 412, blendV 192 230 (expand8 140) 530, blendV 192 230 (expand8 0) 604] = [827, 552, 194] := by
  decide +kernel

/-- Chapter 14: a 96-bit fold with five pixel words, and 32 bytes of zeros. -/
theorem test_check_values :
    crcOf ((List.range 32).map fun k => BitVec.ofNat 8 k) = 0x46DD794E ∧ crcOf (List.replicate 32 0) = 0x8A9136AA := by decide +kernel

/-- R81 to R84 of RFC 8032's form: with the neutral point as key and as R, and S 0, the signature of any message is valid. -/
theorem test_small_order_key : (edDecode (leBytes 32 1)).any (fun p => p.x == 0 && p.y == 1) = true := by decide +kernel

/-! ## Steps -/

/-- What a command leaves of the running module. -/
def after (s : State) (c : Instr) : Module := match exec c s with
  | .next t => t.mod
  | _ => s.mod

theorem test_kick_restarts : (after (h1Set [(F.RST_WDOG_ARMED, 1)]) (.kick .h1 4)).half1.starter.wdogAt = 10 ^ 9 := by decide +kernel

theorem test_register_write_reads_back :
    (after run (.registerWrite .h0 0 (storeAddr .h1 8) 0x11223344)).half1.fst = [(8, 0x44), (9, 0x33), (10, 0x22), (11, 0x11)] := by
  decide +kernel

theorem test_scene_select_named : (after (ownerAs []) (.scenesel .h1 4 0)).half1.acts.scenes = [(2, 0)] := by decide +kernel

theorem test_fuse_programmed_once :
    (after (recoveryAs { learned := none, waiting := none, busy := none }) (.fuse (List.replicate 32 7) [0x46, 0x55, 0x53, 0x45])).fuse =
      some (List.replicate 32 7) := by decide +kernel

theorem test_addi : ((after (engineAs esRunning 0x00100093 fun e => e) (.engineInstruction 7)).half1.engine 3).x.getD 1 0 = 1 := by
  decide +kernel

theorem test_no_bits_in_the_table : decodeTableWord 16 0 = none := rfl

end Sys2Proof.Tests
end

section
/-!
SUPPORT. Writes of registers and memories as commands: a write that changes one half only ends there, what a write by the access
codes alone leaves, and what a refused write and an uncorrectable error record.
-/
namespace Sys2Proof.Machine

/-! ## REGISTER_WRITE as a change of one half -/

/-- A change of one half leaves the rest of the module. -/
theorem Module.onlyHalf_onHalf (m : Module) (k : HalfId) (f : Half → Half) : m.onlyHalf (m.onHalf k f) k :=
  ⟨Module.peer_onHalf m k f, Module.onHalf_lamp m k f, Module.onHalf_flash m k f, Module.onHalf_fuse m k f⟩

/-- A change of one half that keeps its mode begins no start. -/
theorem Module.settled_onHalf (m : Module) (k : HalfId) (f : Half → Half) (hm : m.settled)
    (hf : (f (m.half k)).mode = (m.half k).mode) : (m.onHalf k f).settled := by
  obtain ⟨hp, h0, h1⟩ := hm
  cases k
  · exact ⟨hp, hf ▸ h0, h1⟩
  · exact ⟨hp, h0, hf ▸ h1⟩

/-- With no start in progress, a REGISTER_WRITE whose access changes one half, but not its mode, does that and nothing else. -/
theorem exec_registerWrite_onHalf (s : State) (i k : HalfId) (master a : Nat) (v : Word) (f : Half → Half) (hs : s.mod.settled)
    (hw : s.mod.wordWrite s.now i master a v = s.mod.onHalf k f) (hf : (f (s.mod.half k)).mode = (s.mod.half k).mode) :
    exec (.registerWrite i master a v) s = .next { s with mod := s.mod.onHalf k f } := by
  show Host.Outcome.next { s with mod := (s.mod.wordWrite s.now i master a v).advance s.now } = _
  rw [hw, Module.advance_settled _ _ (Module.settled_onHalf _ _ _ hs hf)]

/-- A half is in the mode that its RST_STATE word gives. -/
theorem Half.mode_congr (h k : Half) (hr : h.reg F.RST_STATE_MODE.off = k.reg F.RST_STATE_MODE.off) : h.mode = k.mode :=
  Half.get_congr _ _ _ hr

/-! ## What a granted word write does, by the range of its address -/

section Granted
variable (m : Module) (t : Nat) (i k : HalfId) (master a off : Nat) (v : Word) (hw : m.writable i master a)
include hw

/-- A word of the frame store. -/
theorem Module.wordWrite_store (ha : decodeAddr a = .store k off) :
    m.wordWrite t i master a v = m.onHalf k fun x => x.storeWrite off (leBytes 4 v.toNat) := by
  rw [Module.wordWrite_granted _ _ _ _ _ _ hw]
  unfold Module.writeAt
  rw [ha]

/-- A word of shared SRAM. -/
theorem Module.wordWrite_sram (ha : decodeAddr a = .sram k off) :
    m.wordWrite t i master a v = m.onHalf k fun x => { x with sram := memWrite x.sram off (leBytes 4 v.toNat) } := by
  rw [Module.wordWrite_granted _ _ _ _ _ _ hw]
  unfold Module.writeAt
  rw [ha]

/-- A register that a block reset isolates: the write waits (R68). -/
theorem Module.wordWrite_isolated (ha : decodeAddr a = .reg k off) (hi : (m.half k).isolates off = true) :
    m.wordWrite t i master a v = m.onHalf k fun x =>
      { x with starter := { x.starter with waiting := x.starter.waiting ++ [(master, off, v)] } } := by
  rw [Module.wordWrite_granted _ _ _ _ _ _ hw]
  unfold Module.writeAt
  rw [ha]
  dsimp only
  unfold Module.putReg
  rw [hi, if_pos rfl, BitVec.ofNat_toNat, BitVec.setWidth_eq]

/-- A register that no block reset isolates. -/
theorem Module.wordWrite_reg (ha : decodeAddr a = .reg k off) (hi : (m.half k).isolates off = false) :
    m.wordWrite t i master a v = m.writeReg t k master off v := by
  rw [Module.wordWrite_granted _ _ _ _ _ _ hw]
  unfold Module.writeAt
  rw [ha]
  dsimp only
  unfold Module.putReg
  rw [hi, if_neg Bool.false_ne_true, BitVec.ofNat_toNat, BitVec.setWidth_eq]

end Granted

/-- A word write that meets an uncorrectable error records the error and writes nothing (R169). -/
theorem Module.wordWrite_meetsError (m : Module) (t : Nat) (i k : HalfId) (master a b : Nat) (v : Word)
    (hr : (m.half i).inReset = false) (hc : m.checkAccess i a (.single 4) master .write = none)
    (he : m.memError a 4 true = some (k, b)) : m.wordWrite t i master a v = m.onHalf k fun x => x.uncorrectable t b := by
  unfold Module.wordWrite Module.wordAccess
  rw [hr, Bool.not_false, Module.given_true, Module.checked_granted _ _ _ _ _ _ _ _ hc,
    show (AccessKind.write == AccessKind.write) = true from rfl, he]
  rfl

/-- A refused word write leaves its record in the half that issues it (R349). -/
theorem Module.wordWrite_denied (m : Module) (t : Nat) (i : HalfId) (master a : Nat) (v : Word) (d : Denial)
    (hr : (m.half i).inReset = false) (hc : m.checkAccess i a (.single 4) master .write = some d) :
    m.wordWrite t i master a v = m.onHalf i fun x => x.refuse t a d master .write := by
  unfold Module.wordWrite Module.wordAccess
  rw [hr, Bool.not_false, Module.given_true, Module.checked_denied _ _ _ _ _ _ _ _ _ hc]

/-- The blocks LDR, FST and AGE take every write by the access codes alone. -/
theorem Module.writeReg_plain (m : Module) (t : Nat) (k : HalfId) (master off : Nat) (v : Word)
    (hb : off / 0x10000 = 2 ∨ off / 0x10000 = 5 ∨ off / 0x10000 = 8) :
    m.writeReg t k master off v = m.onHalf k fun x => x.plainWrite off v := by
  unfold Module.writeReg
  rcases hb with hb | hb | hb
  · rw [hb]; rfl
  · rw [hb]; rfl
  · rw [hb]; rfl

/-! ## A write of four bytes into the frame store -/

/-- A write of fewer than eight bytes replaces no 8-byte word whole, so that every uncorrectable error stays. -/
theorem Half.storeWrite_short (h : Half) (a : Nat) (bs : List Byte) (hb : bs.length < 8) :
    h.storeWrite a bs = { h with fst := memWrite h.fst a bs } := by
  have stays : (h.store.bad.filter fun b => !(decide (a ≤ b) && decide (b + 8 ≤ a + bs.length))) = h.store.bad := by
    refine List.filter_eq_self.mpr fun b _ => ?_
    simp only [Bool.not_eq_true', Bool.and_eq_false_iff, decide_eq_false_iff_not]
    omega
  unfold Half.storeWrite
  rw [stays]

/-! ## Writes by the access codes alone -/

section Plain
variable (h : Half) (off : Nat) (v : Word) (r : RegSpec) (hr : regSpec off = some r)
include hr

/-- The register written holds what the access codes say. -/
theorem Half.reg_plainWrite_same : (h.plainWrite off v).reg off = r.written h.sealed (h.reg off) v := by
  unfold Half.plainWrite
  rw [hr]
  exact Half.reg_setReg_same _ _ _

/-- Every other register but the sealed-write tally stays. -/
theorem Half.reg_plainWrite_other (o : Nat) (ho : o ≠ off) (ht : o ≠ F.SYS_SEALTALLY_word.off) :
    (h.plainWrite off v).reg o = h.reg o := by
  unfold Half.plainWrite
  rw [hr]
  dsimp only
  rw [Half.reg_setReg_other _ _ _ _ ho]
  split
  · exact Half.reg_set_other _ _ _ _ ht
  · rfl

/-- A write of a register with sealed fields once they are sealed is tallied (R7). -/
theorem Half.sealTally_plainWrite (hs : h.sealed = true) (hw : r.rws ≠ 0) (ho : off ≠ F.SYS_SEALTALLY_word.off) :
    (h.plainWrite off v).get F.SYS_SEALTALLY_COUNT = satAdd 16 (h.get F.SYS_SEALTALLY_COUNT) 1 := by
  have tallied : h.plainWrite off v = (h.tally F.SYS_SEALTALLY_COUNT 1).setReg off (r.written h.sealed (h.reg off) v) := by
    unfold Half.plainWrite
    rw [hr]
    dsimp only
    rw [if_pos (by rw [hs, Bool.true_and]; exact bne_iff_ne.mpr hw)]
  have kept : (h.plainWrite off v).get F.SYS_SEALTALLY_COUNT = (h.tally F.SYS_SEALTALLY_COUNT 1).get F.SYS_SEALTALLY_COUNT := by
    rw [tallied]
    exact Half.get_congr _ _ _ (Half.reg_setReg_other _ _ _ _ ho.symm)
  rw [kept]
  exact Half.get_tally_same _ _ _ (by decide)

/-- Nothing but registers changes. -/
theorem Half.plainWrite_onlyRegs : { h.plainWrite off v with regs := h.regs } = h := by
  unfold Half.plainWrite
  rw [hr]
  dsimp only
  split <;> rfl

/-- A write of another register than RST_STATE keeps the mode. -/
theorem Half.mode_plainWrite (ho : off ≠ F.RST_STATE_word.off) : (h.plainWrite off v).mode = h.mode :=
  Half.mode_congr _ _ (Half.reg_plainWrite_other h off v r hr _ ho.symm (by decide))

end Plain

/-! ## Several fields set in turn -/

/-- The registers that a list of fields leaves alone. -/
theorem Half.reg_sets_other (h : Half) (l : List (Field × Nat)) (o : Nat) (hl : ∀ c ∈ l, o ≠ c.1.off) : (h.sets l).reg o = h.reg o := by
  induction l generalizing h with
  | nil => rfl
  | cons c rest ih =>
    rw [Half.sets, ih _ fun c hc => hl c (List.mem_cons_of_mem _ hc)]
    exact Half.reg_set_other _ _ _ _ (hl _ List.mem_cons_self)

/-- What the setting of one field keeps, that of several keeps. -/
theorem Half.sets_keeps {γ : Type} (p : Half → γ) (hp : ∀ x f v, p (Half.set x f v) = p x) (h : Half) (l : List (Field × Nat)) :
    p (h.sets l) = p h := by
  induction l generalizing h with
  | nil => rfl
  | cons c rest ih => rw [Half.sets, ih, hp]

@[simp] theorem Half.sets_fst (h : Half) (l : List (Field × Nat)) : (h.sets l).fst = h.fst :=
  Half.sets_keeps _ (fun _ _ _ => rfl) h l
@[simp] theorem Half.sets_sram (h : Half) (l : List (Field × Nat)) : (h.sets l).sram = h.sram :=
  Half.sets_keeps _ (fun _ _ _ => rfl) h l

/-! ## A refused access -/

/-- The violation record changes registers of the access rule and engine blocks only. -/
theorem Half.reg_violationRecord (h : Half) (a : Nat) (d : Denial) (master : Nat) (kind : AccessKind) (o : Nat)
    (hd : o / 0x10000 ≠ 0xD) (he : o / 0x10000 ≠ 0xE) : (h.violationRecord a d master kind).reg o = h.reg o := by
  unfold Half.violationRecord
  split
  · exact Half.reg_tally_block _ _ _ _ hd
  · rw [Half.reg_signal _ _ _ _ he]
    refine Half.reg_sets_other _ _ _ fun c hc e => hd ?_
    subst e
    revert c
    simp [F.ACR_VIOLSTARTLO_ADDR, F.ACR_VIOLSTARTHI_ADDR, F.ACR_VIOLFIRSTLO_ADDR, F.ACR_VIOLFIRSTHI_ADDR, F.ACR_VIOLINFO_CAUSE,
      F.ACR_VIOLINFO_REGION, F.ACR_VIOLINFO_KIND, F.ACR_VIOLINFO_MASTER, F.ACR_VIOLINFO_VALID]

/-- The violation record leaves the count of violations. -/
theorem Half.violations_violationRecord (h : Half) (a : Nat) (d : Denial) (master : Nat) (kind : AccessKind) :
    (h.violationRecord a d master kind).get F.ACR_TALLY_VIOLATIONS = h.get F.ACR_TALLY_VIOLATIONS := by
  unfold Half.violationRecord
  split
  · exact Half.get_tally_other _ _ _ _ (by decide) (by decide)
  · refine Half.get_congr _ _ _ ?_
    rw [Half.reg_signal _ _ _ _ (by decide)]
    exact Half.reg_sets_other _ _ _ (by simp [F.ACR_TALLY_VIOLATIONS, F.ACR_VIOLSTARTLO_ADDR, F.ACR_VIOLSTARTHI_ADDR,
      F.ACR_VIOLFIRSTLO_ADDR, F.ACR_VIOLFIRSTHI_ADDR, F.ACR_VIOLINFO_CAUSE, F.ACR_VIOLINFO_REGION, F.ACR_VIOLINFO_KIND,
      F.ACR_VIOLINFO_MASTER, F.ACR_VIOLINFO_VALID])

@[simp] theorem Half.violationRecord_fst (h : Half) (a : Nat) (d : Denial) (master : Nat) (kind : AccessKind) :
    (h.violationRecord a d master kind).fst = h.fst := by
  unfold Half.violationRecord
  split <;> simp
@[simp] theorem Half.violationRecord_sram (h : Half) (a : Nat) (d : Denial) (master : Nat) (kind : AccessKind) :
    (h.violationRecord a d master kind).sram = h.sram := by
  unfold Half.violationRecord
  split <;> simp

section Refuse
variable (h : Half) (t a : Nat) (d : Denial) (master : Nat) (kind : AccessKind)

/-- A refusal changes registers of the access rule, engine and ledger blocks only. -/
theorem Half.reg_refuse (o : Nat) (hd : o / 0x10000 ≠ 0xD) (he : o / 0x10000 ≠ 0xE) (hl : o / 0x10000 ≠ 0x14) :
    (h.refuse t a d master kind).reg o = h.reg o := by
  have recorded : ((h.tally F.ACR_TALLY_VIOLATIONS 1).violationRecord a d master kind).reg o = h.reg o := by
    rw [Half.reg_violationRecord _ _ _ _ _ _ hd he, Half.reg_tally_block _ _ _ _ hd]
  unfold Half.refuse
  dsimp only
  split
  · rw [Half.reg_tally_block _ _ _ _ hd, recorded]
  · rw [Half.reg_with_flt, Half.reg_fault _ _ _ _ _ _ _ (by decide) he hl, recorded]

/-- A refusal counts one violation. -/
theorem Half.violations_refuse :
    (h.refuse t a d master kind).get F.ACR_TALLY_VIOLATIONS = satAdd 16 (h.get F.ACR_TALLY_VIOLATIONS) 1 := by
  have recorded : ((h.tally F.ACR_TALLY_VIOLATIONS 1).violationRecord a d master kind).get F.ACR_TALLY_VIOLATIONS =
      satAdd 16 (h.get F.ACR_TALLY_VIOLATIONS) 1 := by
    rw [Half.violations_violationRecord]
    exact Half.get_tally_same _ _ _ (by decide)
  unfold Half.refuse
  dsimp only
  split
  · rw [Half.get_tally_other _ _ _ _ (by decide) (by decide), recorded]
  · rw [Half.get_with_flt, Half.get_fault _ _ _ _ _ _ _ (by decide) (by decide) (by decide), recorded]

@[simp] theorem Half.refuse_fst : (h.refuse t a d master kind).fst = h.fst := by
  unfold Half.refuse
  dsimp only
  split <;> simp
@[simp] theorem Half.refuse_sram : (h.refuse t a d master kind).sram = h.sram := by
  unfold Half.refuse
  dsimp only
  split <;> simp

end Refuse

end Sys2Proof.Machine
end

section
/-!
SUPPORT. What an access that meets an uncorrectable error of the frame store does (R169, R171), and the statement on REGISTER_WRITE.
-/
namespace Sys2Proof.Machine

/-! ## An uncorrectable error -/

/-- Offset `o` is no register that follows the frames of source window `i`. -/
def OffFrame (i o : Nat) : Prop := ∀ k ∈ [0x8, 0xC, 0x10, 0x14, 0x18, 0x1C, 0x20, 0x2C], o ≠ 0x41000 + k + 0x40 * i

/-- A register below the source windows follows no frame. -/
theorem offFrame_below (i o : Nat) (ho : o < 0x41000) : OffFrame i o := fun k _ => by omega

/-- FST_ECC follows no frame of any window number. -/
theorem offFrame_fstEcc (i : Nat) : OffFrame i F.FST_ECC_word.off := by
  simp only [OffFrame, List.forall_mem_cons, F.FST_ECC_word]
  refine ⟨?_, ?_, ?_, ?_, ?_, ?_, ?_, ?_, fun _ h => absurd h List.not_mem_nil⟩ <;> omega

/-- A register that follows no frame of the window stays when its newest frame is shown. -/
theorem Half.reg_showNewest (h : Half) (i o : Nat) (ho : OffFrame i o) : (h.showNewest i).reg o = h.reg o := by
  simp only [OffFrame, List.forall_mem_cons] at ho
  obtain ⟨h8, hC, h10, h14, h18, h1C, h20, -⟩ := ho
  unfold Half.showNewest
  split
  · exact Half.reg_set_other _ _ _ _ h8
  · refine Half.reg_sets_other _ _ _ ?_
    simp only [List.forall_mem_cons]
    exact ⟨h8, h8, hC, h10, h14, h18, h1C, h20, fun _ h => absurd h List.not_mem_nil⟩

@[simp] theorem Half.showNewest_fst (h : Half) (i : Nat) : (h.showNewest i).fst = h.fst := by
  unfold Half.showNewest
  split <;> simp
@[simp] theorem Half.showNewest_sram (h : Half) (i : Nat) : (h.showNewest i).sram = h.sram := by
  unfold Half.showNewest
  split <;> simp

/-- What every slot that becomes DAMAGED keeps, the search of a window for one keeps (R169). -/
theorem Half.damageSlot_keeps {γ : Type} (p : Half → γ) (i : Nat)
    (hp : ∀ x n, p (((Half.setSlot x i n slotDamaged).tally (F.INK_STALLY2_DAMAGED i) 1).showNewest i) = p x) (h : Half) (a : Nat) :
    p (h.damageSlot a i) = p h := by
  unfold Half.damageSlot
  split
  · rfl
  · split
    · refine Half.forBelow_keeps p _ _ (fun x n => ?_) h
      dsimp only
      split
      · exact hp x n
      · rfl
    · rfl

/-- Over every window, as each one does. -/
theorem Half.damageSlots_keep {γ : Type} (p : Half → γ)
    (hp : ∀ x i n, p (((Half.setSlot x i n slotDamaged).tally (F.INK_STALLY2_DAMAGED i) 1).showNewest i) = p x) (h : Half) (a : Nat)
    (l : List Nat) : p (l.foldl (fun h i => h.damageSlot a i) h) = p h :=
  foldl_keeps p _ (fun x i => Half.damageSlot_keeps p i (fun y n => hp y i n) x a) l h

/-- A slot that becomes DAMAGED changes registers of its window only. -/
theorem Half.reg_damagedSlot (h : Half) (i n o : Nat) (ho : OffFrame i o) :
    (((h.setSlot i n slotDamaged).tally (F.INK_STALLY2_DAMAGED i) 1).showNewest i).reg o = h.reg o := by
  have hs : o ≠ (F.INK_SSTAT_SLOTS i).off := ho 8 (by simp)
  have ht : o ≠ (F.INK_STALLY2_DAMAGED i).off := ho 0x2C (by simp)
  rw [Half.reg_showNewest _ _ _ ho]
  exact (Half.reg_set_other _ _ _ _ ht).trans (Half.reg_set_other _ _ _ _ hs)

/-- A channel mapped out changes FST_CHMAP and registers of the engine and ledger blocks only. -/
theorem Half.reg_mapOutChannel (h : Half) (t ch o : Nat) (hm : o ≠ F.FST_CHMAP_word.off) (he : o / 0x10000 ≠ 0xE)
    (hl : o / 0x10000 ≠ 0x14) : (h.mapOutChannel t ch).reg o = h.reg o := by
  have map (x : Half) (f : Field) (v : Nat) (hf : f.off = F.FST_CHMAP_word.off) : (x.set f v).reg o = x.reg o :=
    Half.reg_set_other _ _ _ _ (hf ▸ hm)
  unfold Half.mapOutChannel
  split
  · dsimp only
    rw [Half.reg_set_block _ _ _ _ he, Half.reg_fault _ _ _ _ _ _ _ (by decide) he hl, map _ F.FST_CHMAP_N _ rfl]
    exact (map _ F.FST_CHMAP_INSERVICE _ rfl).trans (map _ F.FST_CHMAP_FAILED _ rfl)
  · rfl

@[simp] theorem Half.mapOutChannel_fst (h : Half) (t ch : Nat) : (h.mapOutChannel t ch).fst = h.fst := by
  unfold Half.mapOutChannel
  split
  · exact Half.fault_fst _ _ _ _ _ _
  · rfl
@[simp] theorem Half.mapOutChannel_sram (h : Half) (t ch : Nat) : (h.mapOutChannel t ch).sram = h.sram := by
  unfold Half.mapOutChannel
  split
  · exact Half.fault_sram _ _ _ _ _ _
  · rfl

/-- What the count of an uncorrectable error, its fault, its damaged slots, its record and a channel mapped out keep, it keeps. -/
theorem Half.uncorrectable_keeps {γ : Type} (p : Half → γ) (c : γ) (h : Half) (t a : Nat)
    (hcount : p ((h.tally F.FST_ECC_UNCORR 1).sets [(F.FST_ECCADDR_VALID, 1), (F.FST_ECCADDR_ADDR, a / 8 * 8)]) = c)
    (hfault : ∀ x u d, p (Half.fault x t clsMem 1 u d) = p x)
    (hslot : ∀ x i n, p (((Half.setSlot x i n slotDamaged).tally (F.INK_STALLY2_DAMAGED i) 1).showNewest i) = p x)
    (hstore : ∀ (x : Half) y, p { x with store := y } = p x) (hmap : ∀ x ch, p (Half.mapOutChannel x t ch) = p x) :
    p (h.uncorrectable t a) = c := by
  unfold Half.uncorrectable
  dsimp only
  split
  · rw [hmap, hstore, Half.damageSlots_keep p hslot, hfault, hcount]
  · rw [hstore, Half.damageSlots_keep p hslot, hfault, hcount]

@[simp] theorem Half.uncorrectable_fst (h : Half) (t a : Nat) : (h.uncorrectable t a).fst = h.fst :=
  Half.uncorrectable_keeps Half.fst _ h t a rfl (fun _ _ _ => Half.fault_fst _ _ _ _ _ _) (fun _ _ _ => Half.showNewest_fst _ _)
    (fun _ _ => rfl) (fun _ _ => Half.mapOutChannel_fst _ _ _)
@[simp] theorem Half.uncorrectable_sram (h : Half) (t a : Nat) : (h.uncorrectable t a).sram = h.sram :=
  Half.uncorrectable_keeps Half.sram _ h t a rfl (fun _ _ _ => Half.fault_sram _ _ _ _ _ _) (fun _ _ _ => Half.showNewest_sram _ _)
    (fun _ _ => rfl) (fun _ _ => Half.mapOutChannel_sram _ _ _)

/-- An uncorrectable error keeps the mode. -/
theorem Half.mode_uncorrectable (h : Half) (t a : Nat) : (h.uncorrectable t a).mode = h.mode := by
  refine Half.mode_congr _ _ (Half.uncorrectable_keeps (fun x => x.reg F.RST_STATE_MODE.off) _ h t a ?_ ?_ ?_ ?_ ?_)
  · exact (Half.reg_sets_other _ _ _ (by simp [F.RST_STATE_MODE, F.FST_ECCADDR_VALID, F.FST_ECCADDR_ADDR])).trans
      (Half.reg_set_other _ _ _ _ (by decide))
  · exact fun x u d => Half.reg_fault _ _ _ _ _ _ _ (by decide) (by decide) (by decide)
  · exact fun x i n => Half.reg_damagedSlot _ _ _ _ (offFrame_below _ _ (by decide))
  · exact fun _ _ => rfl
  · exact fun x ch => Half.reg_mapOutChannel _ _ _ _ (by decide) (by decide) (by decide)

/-- An uncorrectable error is counted. -/
theorem Half.uncorr_uncorrectable (h : Half) (t a : Nat) :
    (h.uncorrectable t a).get F.FST_ECC_UNCORR = satAdd F.FST_ECC_UNCORR.width (h.get F.FST_ECC_UNCORR) 1 := by
  refine Half.uncorrectable_keeps (fun x => x.get F.FST_ECC_UNCORR) _ h t a ?_ ?_ ?_ ?_ ?_
  · exact (Half.get_congr _ _ _ (Half.reg_sets_other _ _ _ (by simp [F.FST_ECC_UNCORR, F.FST_ECCADDR_VALID,
      F.FST_ECCADDR_ADDR]))).trans (Half.get_tally_same _ _ _ (by decide))
  · exact fun x u d => Half.get_fault _ _ _ _ _ _ _ (by decide) (by decide) (by decide)
  · exact fun x i n => Half.get_congr _ _ _ (Half.reg_damagedSlot _ _ _ _ (offFrame_fstEcc i))
  · exact fun _ _ => rfl
  · exact fun x ch => Half.get_congr _ _ _ (Half.reg_mapOutChannel _ _ _ _ (by decide) (by decide) (by decide))

/-! ## REGISTER_WRITE -/

/-- Settles O42: each clause is a change of one half that keeps its mode, and the half is as the rules of the store say. -/
theorem registerWrites : Obligations.RegisterWrites := by
  unfold Obligations.RegisterWrites
  intro s i master a v hs
  refine ⟨fun hw => ⟨?plain, ?store, ?sram, ?isolated⟩, ?error, ?denied⟩
  case plain =>
    intro k off r ha hb hr hi
    have hstate : off ≠ F.RST_STATE_word.off := by rintro rfl; revert hb; decide
    have hx := exec_registerWrite_onHalf s i k master a v (fun x => x.plainWrite off v) hs
      ((Module.wordWrite_reg _ _ _ _ _ _ _ _ hw ha hi).trans (Module.writeReg_plain _ _ _ _ _ _ hb))
      (Half.mode_plainWrite _ _ _ _ hr hstate)
    refine ⟨_, hx, ?_, fun o ho ht => ?_, ?_, Module.onlyHalf_onHalf _ _ _⟩ <;> rw [Module.half_onHalf]
    · exact Half.reg_plainWrite_same _ _ _ _ hr
    · exact Half.reg_plainWrite_other _ _ _ _ hr o ho ht
    · exact Half.plainWrite_onlyRegs _ _ _ _ hr
  case store =>
    intro k off ha
    have hx := exec_registerWrite_onHalf s i k master a v (fun x => x.storeWrite off (leBytes 4 v.toNat)) hs
      (Module.wordWrite_store _ _ _ _ _ _ _ _ hw ha) rfl
    have hf := Half.storeWrite_short (s.mod.half k) off (leBytes 4 v.toNat) (by simp)
    refine ⟨_, hx, ?_, fun b hb => ?_, ?_, Module.onlyHalf_onHalf _ _ _⟩ <;> rw [Module.half_onHalf, hf]
    · exact memRead_memWrite _ _ (leBytes 4 v.toNat)
    · exact memWrite_other _ _ _ _ (by simpa using hb)
  case sram =>
    intro k off ha
    have hx := exec_registerWrite_onHalf s i k master a v (fun x => { x with sram := memWrite x.sram off (leBytes 4 v.toNat) }) hs
      (Module.wordWrite_sram _ _ _ _ _ _ _ _ hw ha) rfl
    refine ⟨_, hx, ?_, fun b hb => ?_, ?_, Module.onlyHalf_onHalf _ _ _⟩ <;> rw [Module.half_onHalf]
    · exact memRead_memWrite _ _ (leBytes 4 v.toNat)
    · exact memWrite_other _ _ _ _ (by simpa using hb)
  case isolated =>
    intro k off ha hi
    exact exec_registerWrite_onHalf s i k master a v _ hs (Module.wordWrite_isolated _ _ _ _ _ _ _ _ hw ha hi) rfl
  case error =>
    intro k b hr hc he
    have hx := exec_registerWrite_onHalf s i k master a v (fun x => x.uncorrectable s.now b) hs
      (Module.wordWrite_meetsError _ _ _ _ _ _ _ _ hr hc he) (Half.mode_uncorrectable _ _ _)
    refine ⟨_, hx, ?_, ?_, ?_, Module.onlyHalf_onHalf _ _ _⟩ <;> rw [Module.half_onHalf]
    · exact Half.uncorrectable_fst _ _ _
    · exact Half.uncorrectable_sram _ _ _
    · exact Half.uncorr_uncorrectable _ _ _
  case denied =>
    intro d hr hc
    have hx := exec_registerWrite_onHalf s i i master a v (fun x => x.refuse s.now a d master .write) hs
      (Module.wordWrite_denied _ _ _ _ _ _ _ hr hc)
      (Half.mode_congr _ _ (Half.reg_refuse _ _ _ _ _ _ _ (by decide) (by decide) (by decide)))
    refine ⟨_, hx, ?_, ?_, ?_, fun o hd he hl => ?_, Module.onlyHalf_onHalf _ _ _⟩ <;> rw [Module.half_onHalf]
    · exact Half.refuse_fst _ _ _ _ _ _
    · exact Half.refuse_sram _ _ _ _ _ _
    · exact Half.violations_refuse _ _ _ _ _ _
    · exact Half.reg_refuse _ _ _ _ _ _ _ hd he hl

end Sys2Proof.Machine
end

section
/-!
SUPPORT. Registers with sealed fields: which they are, what a sealed write leaves of them, and what the commands behind INK_SCTRL and
PNL_CTRL leave alone.
-/
namespace Sys2Proof.Machine

/-! ## The registers with sealed fields -/

/-- The rows of the register index with RWS fields (R7, R8). -/
def sealedRows : List RegSpec :=
  [⟨0x120014, 0x4, 1, 0x47E0050, 0x0, 0x0, 0x0, 0xFFF007F⟩, ⟨0x41004, 0x40, 48, 0x0, 0x1, 0x0, 0x0, 0xFF00⟩,
   ⟨0x5000C, 0x4, 1, 0x10000, 0x0, 0x0, 0x0, 0x10000⟩, ⟨0x70048, 0x4, 1, 0xFFFFFFFF, 0x0, 0x0, 0x0, 0xFFFFFFFF⟩,
   ⟨0x7004C, 0x4, 1, 0xFFFFFFFF, 0x0, 0x0, 0x0, 0xFFFFFFFF⟩, ⟨0x80000, 0x4, 1, 0x3E8, 0x80000000, 0x0, 0x0, 0xFFFF⟩,
   ⟨0x90000, 0x4, 1, 0x140000, 0x1, 0x0, 0x0, 0xFF0000⟩]

/-- The rows of every block with RWS fields are those. -/
theorem mem_sealedRows (off : Nat) : ∀ r ∈ blockRegs off, r.rws ≠ 0 → r ∈ sealedRows := by
  unfold blockRegs
  split <;> decide

/-- A row found is a row of its list that holds the offset. -/
theorem findReg_some (rows : List RegSpec) (off : Nat) (r : RegSpec) (h : findReg rows off = some r) :
    r ∈ rows ∧ r.base ≤ off ∧ (off - r.base) % r.stride = 0 ∧ (off - r.base) / r.stride < r.count := by
  have hp := List.find?_some h
  simp only [Bool.and_eq_true, decide_eq_true_eq] at hp
  obtain ⟨⟨hb, hm⟩, hc⟩ := hp
  exact ⟨List.mem_of_find?_eq_some h, hb, hm, hc⟩

/-- In a row with RWS fields no bit is RW too, and none is W1C or W1S. -/
theorem sealedRows_apart : ∀ r ∈ sealedRows, r.rw &&& r.rws = 0 ∧ r.w1c = 0 ∧ r.w1s = 0 := by decide

/-- A register with RWS fields is INK_SCTRL of a window, PNL_CTRL, a word of CMP_WATCHEN, or one that acts by its access codes alone. -/
theorem sealed_cases (off : Nat) (r : RegSpec) (hr : regSpec off = some r) (hw : r.rws ≠ 0) :
    (off = F.PACE_CTRL_word.off ∨ off = F.FST_SCRUB_word.off ∨ off = F.AGE_CTRL_word.off) ∨
    (off = F.CMP_WATCHEN0_word.off ∨ off = F.CMP_WATCHEN1_word.off) ∧ r.rw = 0 ∨
    (∃ j < 48, off = (F.INK_SCTRL_word j).off) ∧ r.rw = 1 ∧ r.rws = 0xFF00 ∨
    off = F.PNL_CTRL_word.off ∧ r.rw = 1 ∧ r.rws = 0xFF0000 := by
  obtain ⟨hmem, hb, hm, hc⟩ := findReg_some _ _ _ hr
  have single (b : Nat) (h1 : b ≤ off) (h2 : (off - b) / 4 < 1) (h3 : (off - b) % 4 = 0) : off = b := by omega
  have hmem := mem_sealedRows off r hmem hw
  simp only [sealedRows, List.mem_cons, List.not_mem_nil, or_false] at hmem
  rcases hmem with rfl | rfl | rfl | rfl | rfl | rfl | rfl
  · exact .inl (.inl (single _ hb hc hm))
  · dsimp only at hb hm hc
    exact .inr (.inr (.inl ⟨⟨(off - 0x41004) / 0x40, hc, by simp only [F.INK_SCTRL_word]; omega⟩, rfl, rfl⟩))
  · exact .inl (.inr (.inl (single _ hb hc hm)))
  · exact .inr (.inl ⟨.inl (single _ hb hc hm), rfl⟩)
  · exact .inr (.inl ⟨.inr (single _ hb hc hm), rfl⟩)
  · exact .inl (.inr (.inr (single _ hb hc hm)))
  · exact .inr (.inr (.inr ⟨single _ hb hc hm, rfl, rfl⟩))

/-- A register with RWS fields has no bit that is RW too, and none of W1C or W1S. -/
theorem sealed_apart (off : Nat) (r : RegSpec) (hr : regSpec off = some r) (hw : r.rws ≠ 0) :
    r.rw &&& r.rws = 0 ∧ r.w1c = 0 ∧ r.w1s = 0 :=
  sealedRows_apart r (mem_sealedRows off r (findReg_some _ _ _ hr).1 hw)

/-! ## Words of a sealed write -/

/-- A word that takes its bits under a mask from another reads as before under a mask apart from it. -/
theorem and_maskedWrite_apart (old v m n : Word) (h : m &&& n = 0) : ((old &&& ~~~m) ||| (v &&& m)) &&& n = old &&& n := by
  ext i hi
  have hb : (m &&& n)[i] = false := by rw [h]; simp
  simp only [BitVec.getElem_and, BitVec.getElem_or, BitVec.getElem_not] at hb ⊢
  revert hb
  cases old[i] <;> cases v[i] <;> cases m[i] <;> cases n[i] <;> decide

/-- Under the mask itself it reads as the other. -/
theorem and_maskedWrite_same (old v m : Word) : ((old &&& ~~~m) ||| (v &&& m)) &&& m = v &&& m := by
  ext i hi
  simp only [BitVec.getElem_and, BitVec.getElem_or, BitVec.getElem_not]
  cases old[i] <;> cases v[i] <;> cases m[i] <;> decide

/-- Sealed, a register without W1C and W1S bits takes its RW bits and keeps the rest (R6, R7). -/
theorem RegSpec.written_sealed (r : RegSpec) (old v : Word) (hc : r.w1c = 0) (hs : r.w1s = 0) :
    r.written true old v = (old &&& ~~~r.rw) ||| (v &&& r.rw) := by
  unfold RegSpec.written
  have zero : (0 : Word) = 0#32 := rfl
  simp only [hc, hs, zero, if_true, BitVec.or_zero, BitVec.and_zero, BitVec.not_zero, BitVec.and_allOnes]

/-- The bits of a word with one bit replaced. -/
theorem getElem_putFlag (w : Word) (lo : Nat) (b : Bool) (hlo : lo < 32) (i : Nat) (hi : i < 32) :
    (putFlag w lo b)[i] = if i = lo then b else w[i] := by
  have bitEq (x : Word) : x[i] = (bitsAt x.toNat i 1 == 1) := by
    rw [BitVec.getElem_eq_testBit_toNat, Nat.testBit_eq_decide_div_mod_eq]
    rfl
  unfold putFlag
  rw [bitEq, bitEq w]
  split
  · next h =>
    subst h
    rw [bitsAt_putBits _ _ _ _ (by omega)]
    cases b <;> rfl
  · rw [bitsAt_putBits_other _ _ _ _ _ _ (by omega) (by omega)]

/-- A word with its lowest bit replaced reads as it was under a mask without that bit. -/
theorem putFlag_and_of_even (w m : Word) (b : Bool) (hm : m[0] = false) : putFlag w 0 b &&& m = w &&& m := by
  ext i hi
  simp only [BitVec.getElem_and, getElem_putFlag w 0 b (by decide) i hi]
  split
  · next h => subst h; simp [hm]
  · rfl

/-- A word given the lowest bit of another agrees with it there. -/
theorem putFlag_and_one (w v : Word) : putFlag w 0 (bitAt v.toNat 0) &&& 1 = v &&& 1 := by
  have low : bitAt v.toNat 0 = v[0] := by
    rw [BitVec.getElem_eq_testBit_toNat, Nat.testBit_eq_decide_div_mod_eq]
    rfl
  ext i hi
  simp only [BitVec.getElem_and, getElem_putFlag w 0 _ (by decide) i hi]
  split
  · next h => subst h; rw [low]
  · next h => simp [BitVec.getElem_one, h]

/-- A word given the lowest bit that it has is itself. -/
theorem putFlag_self (w : Word) : putFlag w 0 (bitAt w.toNat 0) = w := by
  ext i hi
  rw [getElem_putFlag w 0 _ (by decide) i hi]
  split
  · next h =>
    subst h
    rw [BitVec.getElem_eq_testBit_toNat, Nat.testBit_eq_decide_div_mod_eq]
    rfl
  · rfl

/-! ## A half after a sealed write -/

/-- Half `k` is what R7 leaves of half `h` of a write `v` to a register with RWS fields, and is in its mode. -/
structure Half.SealedWrite (h k : Half) (off : Nat) (r : RegSpec) (v : Word) : Prop where
  rws : k.reg off &&& r.rws = h.reg off &&& r.rws
  rw : k.reg off &&& r.rw = v &&& r.rw
  tally : k.get F.SYS_SEALTALLY_COUNT = satAdd 16 (h.get F.SYS_SEALTALLY_COUNT) 1
  mode : k.mode = h.mode

/-- Neither the sealed-write tally nor RST_STATE holds RWS fields. -/
theorem sealed_off_ne (off : Nat) (r : RegSpec) (hr : regSpec off = some r) (hw : r.rws ≠ 0) :
    off ≠ F.SYS_SEALTALLY_word.off ∧ off ≠ F.RST_STATE_word.off := by
  have unsealed (o : Nat) (ho : (regSpec o).all (fun r => r.rws == 0) = true) : off ≠ o := by
    rintro rfl
    rw [hr, Option.all_some] at ho
    exact hw (beq_iff_eq.mp ho)
  exact ⟨unsealed _ (by decide), unsealed _ (by decide)⟩

section Sealed
variable (h : Half) (off : Nat) (r : RegSpec) (v : Word) (hr : regSpec off = some r) (hw : r.rws ≠ 0) (hm : h.mode = modeRunning)
include hr hw hm

/-- A write by the access codes alone does what R7 says. -/
theorem Half.sealedWrite_plainWrite : h.SealedWrite (h.plainWrite off v) off r v := by
  obtain ⟨hd, hc, hs⟩ := sealed_apart off r hr hw
  obtain ⟨ht, hstate⟩ := sealed_off_ne off r hr hw
  have hsealed : h.sealed = true := beq_iff_eq.mpr hm
  have hword : (h.plainWrite off v).reg off = (h.reg off &&& ~~~r.rw) ||| (v &&& r.rw) := by
    rw [Half.reg_plainWrite_same _ _ _ _ hr, hsealed, RegSpec.written_sealed _ _ _ hc hs]
  exact
    { rws := by rw [hword, and_maskedWrite_apart _ _ _ _ hd]
      rw := by rw [hword, and_maskedWrite_same]
      tally := Half.sealTally_plainWrite _ _ _ _ hr hsealed hw ht
      mode := Half.mode_plainWrite _ _ _ _ hr hstate }

/-- A write by the access codes that holds back the lowest bit, the only RW one, and an effect that puts it in and leaves the rest of the
register, the tally and the mode, together do what R7 says. -/
theorem Half.sealedWrite_enable (k : Half) (v' : Word) (hrw : r.rw = 1) (hbit : r.rws[0] = false)
    (hreg : k.reg off = putFlag ((h.plainWrite off v').reg off) 0 (bitAt v.toNat 0))
    (htally : k.reg F.SYS_SEALTALLY_word.off = (h.plainWrite off v').reg F.SYS_SEALTALLY_word.off)
    (hstate : k.reg F.RST_STATE_word.off = (h.plainWrite off v').reg F.RST_STATE_word.off) : h.SealedWrite k off r v :=
  have hx := Half.sealedWrite_plainWrite h off r v' hr hw hm
  { rws := by rw [hreg, putFlag_and_of_even _ _ _ hbit, hx.rws]
    rw := by rw [hreg, hrw, putFlag_and_one]
    tally := (Half.get_congr _ _ F.SYS_SEALTALLY_COUNT htally).trans hx.tally
    mode := (Half.mode_congr _ _ hstate).trans hx.mode }

end Sealed

/-- A one-bit field at the bottom of its register just set: the register's word. -/
theorem Half.reg_setFlag_low (h : Half) (f : Field) (b : Bool) (hl : f.lo = 0) (hw : f.width = 1) :
    (h.setFlag f b).reg f.off = putFlag (h.reg f.off) 0 b := by
  unfold Half.setFlag
  rw [Half.reg_set_same, hl, hw]
  rfl

/-! ## INK_SCTRL.ENABLE -/

/-- Offset `o` is no register that the status of source window `i` changes: INK_SSTAT, its tally of NOSIG entries and the registers of
the engine and ledger blocks. -/
structure OffSource (i o : Nat) : Prop where
  sstat : o ≠ (F.INK_SSTAT_word i).off
  tally : o ≠ (F.INK_STALLY2_word i).off
  irq : o / 0x10000 ≠ 0xE
  ledger : o / 0x10000 ≠ 0x14

section Source
variable (h : Half) (t i o : Nat) (ho : OffSource i o)
include ho

/-- The status of the source shown leaves such a register. -/
theorem Half.reg_showStatus (nosig : Bool) (reason : Nat) : (h.showStatus i nosig reason).reg o = h.reg o := by
  have shown (x : Half) (a b : Nat) : ((x.set (F.INK_SSTAT_REASON i) a).set (F.INK_SSTAT_STATUS i) b).reg o = x.reg o :=
    (Half.reg_set_other _ (F.INK_SSTAT_STATUS i) _ _ ho.sstat).trans (Half.reg_set_other _ (F.INK_SSTAT_REASON i) _ _ ho.sstat)
  unfold Half.showStatus
  dsimp only
  generalize (if nosig = true then 2 else bit (h.flag (F.INK_SSTAT_FROZEN i))) = status
  split
  · exact shown _ _ _
  · rw [Half.reg_signal _ _ _ _ ho.irq, shown]

/-- So does NOSIG followed (R160). -/
theorem Half.reg_followNosig (done : Bool) : (h.followNosig t i done).reg o = h.reg o := by
  have entered (x : Half) : (x.tally (F.INK_STALLY2_NOSIGS i) 1).reg o = x.reg o := Half.reg_set_other _ _ _ _ ho.tally
  unfold Half.followNosig
  split
  · rfl
  · dsimp only
    split
    · split
      · exact Half.reg_showStatus _ _ _ ho _ _
      · rw [Half.reg_fault _ _ _ _ _ _ _ (by decide) ho.irq ho.ledger]
        exact (entered _).trans (Half.reg_showStatus _ _ _ ho _ _)
    · split
      · exact Half.reg_showStatus _ _ _ ho _ _
      · exact Half.reg_showStatus _ _ _ ho _ _

/-- So does a frame discarded without a count. -/
theorem Half.reg_discardFrame_none : (h.discardFrame i none).reg o = h.reg o := by
  unfold Half.discardFrame
  split
  · rfl
  · split
    · rfl
    · exact Half.reg_set_other _ _ _ _ ho.sstat

/-- A write of ENABLE leaves it as the field's setting alone does. -/
theorem Half.reg_sourceEnable (on : Bool) (hs : (h.source i).isSome = true) :
    (h.sourceEnable t i on).reg o = (h.setFlag (F.INK_SCTRL_ENABLE i) on).reg o := by
  obtain ⟨s, hs⟩ := Option.isSome_iff_exists.mp hs
  unfold Half.sourceEnable
  rw [hs]
  dsimp only
  split
  · exact Half.reg_followNosig _ _ _ _ ho _
  · split
    · rw [Half.reg_followNosig _ _ _ _ ho]
      exact Half.reg_discardFrame_none _ _ _ ho
    · rfl

end Source

/-- A write of INK_SCTRL of a window with a source does what R7 says. -/
theorem Half.sealedWrite_writeInk (h : Half) (t j : Nat) (r : RegSpec) (v : Word) (hr : regSpec (F.INK_SCTRL_word j).off = some r)
    (hj : j < 48) (hm : h.mode = modeRunning) (hrw : r.rw = 1) (hrws : r.rws = 0xFF00) (hs : (h.source j).isSome = true) :
    h.SealedWrite (h.writeInk t (F.INK_SCTRL_word j).off v) (F.INK_SCTRL_word j).off r v := by
  have hlen : j < h.sources.length := by
    obtain ⟨s, hs⟩ := Option.isSome_iff_exists.mp hs
    exact (List.getElem?_eq_some_iff.mp hs).1
  have hwin : ((F.INK_SCTRL_word j).off - 0x41000) / 0x40 = j := by simp only [F.INK_SCTRL_word]; omega
  have hoff : ∀ o, o = (F.INK_SCTRL_word j).off ∨ o = F.SYS_SEALTALLY_word.off ∨ o = F.RST_STATE_word.off → OffSource j o := by
    intro o ho
    simp only [F.INK_SCTRL_word, F.SYS_SEALTALLY_word, F.RST_STATE_word] at ho
    exact ⟨by simp only [F.INK_SSTAT_word]; omega, by simp only [F.INK_STALLY2_word]; omega, by omega, by omega⟩
  have hwrite : h.writeInk t (F.INK_SCTRL_word j).off v =
      (h.plainWrite (F.INK_SCTRL_word j).off (h.keepBit (F.INK_SCTRL_word j).off 0 v)).sourceEnable t j (bitAt v.toNat 0) := by
    obtain ⟨s, hs⟩ := Option.isSome_iff_exists.mp hs
    unfold Half.writeInk Half.writeSource
    dsimp only
    rw [hwin, if_neg (by simp only [F.INK_SCTRL_word]; omega), if_neg (by omega), if_pos rfl, hs]
  rw [hwrite]
  generalize hk : h.keepBit (F.INK_SCTRL_word j).off 0 v = v'
  have hs' : ((h.plainWrite (F.INK_SCTRL_word j).off v').source j).isSome = true := by
    have e := congrArg Half.sources (Half.plainWrite_onlyRegs h _ v' _ hr)
    exact (congrArg (fun l => (l[j]?).isSome) e).trans hs
  have hne (o : Nat) (ho : o < 0x41000) : o ≠ (F.INK_SCTRL_ENABLE j).off := by simp only [F.INK_SCTRL_ENABLE]; omega
  refine Half.sealedWrite_enable h _ r v hr (by rw [hrws]; decide) hm _ v' hrw (by simp [hrws]) ?_ ?_ ?_
  · exact (Half.reg_sourceEnable _ _ _ _ (hoff _ (.inl rfl)) _ hs').trans (Half.reg_setFlag_low _ (F.INK_SCTRL_ENABLE j) _ rfl rfl)
  · exact (Half.reg_sourceEnable _ _ _ _ (hoff _ (.inr (.inl rfl))) _ hs').trans (Half.reg_set_other _ _ _ _ (hne _ (by decide)))
  · exact (Half.reg_sourceEnable _ _ _ _ (hoff _ (.inr (.inr rfl))) _ hs').trans (Half.reg_set_other _ _ _ _ (hne _ (by decide)))

end Sys2Proof.Machine
end

section
/-!
SUPPORT. What the panel's push stream and its initialisation leave alone: they change registers of the blocks CMP, AGE, PNL, ENG and
FLT only, and PNL_CTRL not.
-/
namespace Sys2Proof.Machine

/-- Offset `o` is PNL_CTRL, or lies outside the blocks that the push stream and the initialisation of the sub-link change. -/
abbrev OffPanel (o : Nat) : Prop := o = F.PNL_CTRL_word.off ∨
  (o / 0x10000 ≠ 7 ∧ o / 0x10000 ≠ 8 ∧ o / 0x10000 ≠ 9 ∧ o / 0x10000 ≠ 0xE ∧ o / 0x10000 ≠ 0x14)

section Panel
variable (h : Half) (t o : Nat) (ho : OffPanel o)
include ho

/-! ## Fields, faults and signals -/

/-- Such a register is none of the engine block and none of the ledger block. -/
theorem offPanel_blocks : o / 0x10000 ≠ 0xE ∧ o / 0x10000 ≠ 0x14 := by
  rcases ho with rfl | ⟨-, -, -, he, hl⟩
  · decide
  · exact ⟨he, hl⟩

/-- A field of the panel's blocks set leaves it. -/
theorem Half.reg_set_panel (f : Field) (v : Nat) (hf : ¬ OffPanel f.off) : (h.set f v).reg o = h.reg o :=
  Half.reg_set_other _ _ _ _ fun e => hf (e ▸ ho)

theorem Half.reg_tally_panel (f : Field) (n : Nat) (hf : ¬ OffPanel f.off) : (h.tally f n).reg o = h.reg o :=
  Half.reg_set_panel h o ho f _ hf

theorem Half.reg_setBit_panel (f : Field) (i : Nat) (b : Bool) (hf : ¬ OffPanel f.off) : (h.setBit f i b).reg o = h.reg o :=
  Half.reg_set_panel h o ho f _ hf

/-- A fault of the panel leaves it. -/
theorem Half.reg_fault_panel (k u : Nat) (d : List Byte) : (h.fault t clsPnl k u d).reg o = h.reg o :=
  have hb := offPanel_blocks o ho
  Half.reg_fault _ _ _ _ _ _ _ (by decide) hb.1 hb.2

/-- STATE of PNL_STATUS shown leaves it. -/
theorem Half.reg_panelState (n : Nat) : (h.panelState n).reg o = h.reg o := by
  have shown := Half.reg_set_panel h o ho F.PNL_STATUS_STATE n (by decide)
  unfold Half.panelState Half.onPnlStatus Half.signalling
  dsimp only
  split
  · exact shown
  · exact (Half.reg_signal _ _ _ _ (offPanel_blocks o ho).1).trans shown

end Panel

/-! ## Changes that are of no register -/

@[simp] theorem Half.reg_onPanel (h : Half) (f : PanelSt → PanelSt) (o : Nat) : (h.onPanel f).reg o = h.reg o := rfl
@[simp] theorem Half.reg_onLap (h : Half) (f : LapSt → LapSt) (o : Nat) : (h.onLap f).reg o = h.reg o := rfl
@[simp] theorem Half.reg_onPush (h : Half) (f : PushSt → PushSt) (o : Nat) : (h.onPush f).reg o = h.reg o := rfl
@[simp] theorem Half.reg_onActs (h : Half) (f : ActSt → ActSt) (o : Nat) : (h.onActs f).reg o = h.reg o := rfl
@[simp] theorem Half.reg_onLink (h : Half) (f : LinkSt → LinkSt) (o : Nat) : (h.onLink f).reg o = h.reg o := rfl
@[simp] theorem Half.reg_onRegion (h : Half) (i : Nat) (f : RegionSt → RegionSt) (o : Nat) : (h.onRegion i f).reg o = h.reg o := rfl
@[simp] theorem Half.reg_again (h : Half) (i o : Nat) : (h.again i).reg o = h.reg o := rfl
@[simp] theorem Half.reg_watchResult (h : Half) (n r : Nat) (v : Option Nat) (o : Nat) : (h.watchResult n r v).reg o = h.reg o := rfl

/-- A cell given to the panel sub-link changes no register. -/
@[simp] theorem Half.reg_toPanel (h : Half) (c : Cell) (o : Nat) : (h.toPanel c).reg o = h.reg o := by
  unfold Half.toPanel Half.queueOn
  split <;> rfl

/-- A KEEPALIVE changes no register. -/
@[simp] theorem Half.reg_keepalive (h : Half) (t o : Nat) : (h.keepalive t).reg o = h.reg o :=
  Half.reg_toPanel { h with free := h.free + 1 } _ o

/-- Several cells given to the panel sub-link change no register. -/
@[simp] theorem Half.reg_toPanel_foldl (h : Half) (cs : List Cell) (o : Nat) : (cs.foldl Half.toPanel h).reg o = h.reg o :=
  foldl_keeps (fun x => x.reg o) _ (fun x c => Half.reg_toPanel x c o) cs h

/-- A computation taken by the check-value units changes no register. -/
@[simp] theorem Half.reg_cvuTake (h : Half) (point : Nat) (sel : Nat → Nat → Bool) (data : Option (List Byte)) (hall o : Nat) :
    (h.cvuTake point sel data hall).reg o = h.reg o := by
  refine Half.forBelow_keeps (fun x => x.reg o) _ _ (fun x n => ?_) h
  split
  · split <;> rfl
  · rfl

/-- A register that holds the same word on both branches holds it. -/
theorem Half.reg_ite {c : Prop} [Decidable c] {x y : Half} {o : Nat} {w : Word} (hx : x.reg o = w) (hy : y.reg o = w) :
    (if c then x else y).reg o = w := by
  split
  · exact hx
  · exact hy

/-- A COMMIT sent changes no register. -/
@[simp] theorem Half.reg_tryCommit (h : Half) (t : Nat) (late : Bool) (o : Nat) : (h.tryCommit t late).reg o = h.reg o := by
  have sent (x : Half) (lap mask : Nat) (rs : List Nat) : (x.sendCommit lap mask rs).reg o = x.reg o := by
    unfold Half.sendCommit
    rw [Half.reg_toPanel, Half.reg_toPanel]
  unfold Half.tryCommit
  dsimp only
  refine Half.reg_ite (Half.reg_ite rfl ?_) rfl
  rw [Half.reg_onLap]
  exact Half.reg_ite (sent _ _ _ _) rfl

/-- A baton sent changes no register. -/
@[simp] theorem Half.reg_batonNow (h : Half) (t o : Nat) : (h.batonNow t).reg o = h.reg o := by
  have carried (x : Half) : x.sentChanges.reg o = x.reg o := by
    unfold Half.sentChanges
    split
    · rfl
    · split <;> rfl
  unfold Half.batonNow
  split
  · dsimp only
    split
    · exact carried h
    · rw [Half.reg_send, Half.reg_onLink, carried]
  · rfl

/-- A band that is done changes no register. -/
@[simp] theorem Half.reg_bandDone (h : Half) (t : Nat) (late : Bool) (o : Nat) : (h.bandDone t late).reg o = h.reg o := by
  unfold Half.bandDone
  dsimp only
  refine Half.reg_ite ?_ ?_
  · rw [Half.reg_tryCommit, Half.reg_onLap, Half.reg_onPush]
  · rw [Half.reg_batonNow, Half.reg_onLap, Half.reg_onPush]

/-! ## The push stream -/

section Push
variable (h : Half) (t o : Nat) (ho : OffPanel o)
include ho

/-- A skipped watch check leaves such a register. -/
theorem Half.reg_watchSkip (n : Nat) : (h.watchSkip n).reg o = h.reg o := by
  unfold Half.watchSkip
  rw [Half.reg_tally_panel _ _ ho _ _ (by decide), Half.reg_watchResult]

/-- So does the check of one watch rectangle (R227). -/
theorem Half.reg_watchRect (i : Nat) (r : RegionSt) (words : Option (List Nat)) (filled : List (Nat × Nat)) (w : WatchRec) :
    (h.watchRect t i r words filled w).reg o = h.reg o := by
  unfold Half.watchRect
  split
  · dsimp only
    split
    · exact Half.reg_watchSkip _ _ ho _
    · split
      · exact Half.reg_watchSkip _ _ ho _
      · split
        · rw [Half.reg_watchResult, Half.reg_tally_panel _ _ ho _ _ (by decide)]
        · rw [Half.reg_fault_panel _ _ _ ho]
          split
          · rw [Half.reg_setBit_panel _ _ ho _ _ _ (by decide), Half.reg_again, Half.reg_tally_panel _ _ ho _ _ (by decide),
              Half.reg_watchResult, Half.reg_tally_panel _ _ ho _ _ (by decide)]
          · rw [Half.reg_setBit_panel _ _ ho _ _ _ (by decide), Half.reg_again, Half.reg_tally_panel _ _ ho _ _ (by decide),
              Half.reg_watchResult, Half.reg_tally_panel _ _ ho _ _ (by decide)]
  · rfl

/-- So does the check of every rectangle over a region. -/
theorem Half.reg_watchRegion (i : Nat) (words : Option (List Nat)) (filled : List (Nat × Nat)) :
    (h.watchRegion t i words filled).reg o = h.reg o := by
  unfold Half.watchRegion
  split
  · rfl
  · exact foldl_keeps (fun x => x.reg o) _ (fun x w => Half.reg_watchRect x t o ho _ _ _ _ w) _ h

/-- So does the opening of a region (R262). -/
theorem Half.reg_openRegion (i : Nat) (r : RegionSt) (rest : List Nat) : (h.openRegion i r rest).reg o = h.reg o := by
  unfold Half.openRegion
  dsimp only
  rw [Half.reg_onPush, Half.reg_toPanel, Half.reg_set_panel _ _ ho _ _ (by decide)]

/-- So does its closing (R254). -/
theorem Half.reg_closeRegion (c : OpenRegion) (r : RegionSt) : (h.closeRegion t c r).reg o = h.reg o := by
  unfold Half.closeRegion
  dsimp only
  rw [Half.reg_onPush, Half.reg_watchRegion _ _ _ ho, Half.reg_cvuTake, Half.reg_tally_panel _ _ ho _ _ (by decide),
    Half.reg_onRegion, Half.reg_set_panel _ _ ho _ _ (by decide), Half.reg_toPanel]

/-- So does a tile sent (R222, R223). -/
theorem Half.reg_pushTile (c : OpenRegion) (r : RegionSt) : ∀ x ∈ h.pushTile c r, x.reg o = h.reg o := by
  have sent (cells : List Cell) (n : Nat) (f : PushSt → PushSt) :
      (((cells.foldl Half.toPanel h).tally F.CMP_UNDERRUN_TILES n).onPush f).reg o = h.reg o := by
    rw [Half.reg_onPush, Half.reg_tally_panel _ _ ho _ _ (by decide), Half.reg_toPanel_foldl]
  intro x hx
  unfold Half.pushTile at hx
  dsimp only at hx
  split at hx
  · cases hx; exact sent _ _ _
  · split at hx
    · cases hx
    · split at hx
      · cases hx; exact sent _ _ _
      · cases hx; exact sent _ _ _

/-- So does any move of the push stream. -/
theorem Half.reg_pushMove : ∀ x ∈ h.pushMove t, x.reg o = h.reg o := by
  intro x hx
  unfold Half.pushMove at hx
  dsimp only at hx
  split at hx
  · obtain ⟨r, -, hx⟩ := Option.mem_bind_iff.mp hx
    split at hx
    · exact Half.reg_pushTile h o ho _ _ x hx
    · cases hx; exact Half.reg_closeRegion h t o ho _ _
  · obtain ⟨r, -, rfl⟩ := Option.mem_map.mp hx
    exact Half.reg_openRegion h o ho _ _ _
  · cases hx

/-- So does the stream run until it waits. -/
theorem Half.reg_pushRun (n : Nat) : (Half.pushRun n t h).reg o = h.reg o := by
  induction n generalizing h with
  | zero => rfl
  | succ n ih =>
    unfold Half.pushRun
    split
    · next x hx => exact (ih x).trans (Half.reg_pushMove h t o ho x hx)
    · rfl

/-- So does the stream advanced as far as it can. -/
theorem Half.reg_pushAdvance : (h.pushAdvance t).reg o = h.reg o := by
  unfold Half.pushAdvance
  split
  · dsimp only
    split
    · rw [Half.reg_bandDone, Half.reg_pushRun _ _ _ ho]
    · exact Half.reg_pushRun _ _ _ ho _
  · rfl

/-! ## Initialisation of the sub-link -/

/-- The mode in force taken leaves such a register. -/
theorem Half.reg_takeMode (r : ModeRecord) : (h.takeMode r).reg o = h.reg o := by
  refine Half.reg_sets_other _ _ _ ?_
  have apart (f : Field) (hf : ¬ OffPanel f.off) : o ≠ f.off := fun e => hf (e ▸ ho)
  simp only [List.forall_mem_cons]
  exact ⟨apart _ (by decide), apart _ (by decide), apart _ (by decide), apart _ (by decide), apart _ (by decide), apart _ (by decide),
    apart _ (by decide), fun _ h => absurd h List.not_mem_nil⟩

/-- So does a failed initialisation (R259). -/
theorem Half.reg_initFails : (h.initFails t).reg o = h.reg o := by
  unfold Half.initFails
  rw [Half.reg_fault_panel _ _ _ ho, Half.reg_onPanel]

/-- So does the push of the shutter picture. -/
theorem Half.reg_pushShutter : h.pushShutter.reg o = h.reg o := by
  unfold Half.pushShutter
  dsimp only
  rw [Half.reg_onPanel, Half.reg_set_panel _ _ ho _ _ (by decide), Half.reg_toPanel, Half.reg_toPanel_foldl, Half.reg_toPanel,
    Half.reg_set_panel _ _ ho _ _ (by decide)]

/-- So do steps 2 to 4 of R258. -/
theorem Half.reg_panelInit (join : Bool) : (h.panelInit t join).reg o = h.reg o := by
  have talk (x : Half) : (if x.mayTalk t then x.keepalive t else x).reg o = x.reg o := by
    split
    · exact Half.reg_keepalive _ _ _
    · rfl
  unfold Half.panelInit
  split
  · exact Half.reg_initFails _ _ _ ho
  · split
    · cases join with
      | true =>
        simp only [if_true]
        rw [talk, Half.reg_panelState _ _ ho, Half.reg_toPanel, Half.reg_onPanel, Half.reg_takeMode _ _ ho,
          Half.reg_set_panel _ _ ho _ _ (by decide)]
      | false =>
        simp only [Bool.false_eq_true, if_false]
        rw [Half.reg_panelState _ _ ho, Half.reg_pushShutter _ _ ho, talk, Half.reg_panelState _ _ ho, Half.reg_toPanel,
          Half.reg_onPanel, Half.reg_set_panel _ _ ho _ _ (by decide), Half.reg_takeMode _ _ ho]
    · exact Half.reg_initFails _ _ _ ho

/-- So does the initialisation begun where it may be. -/
theorem Half.reg_tryInit : (h.tryInit t).reg o = h.reg o := by
  unfold Half.tryInit
  split
  · exact Half.reg_panelInit _ _ _ ho _
  · rfl

/-- So does PNL_CTRL.REINIT (R274). -/
theorem Half.reg_reinit : (h.reinit t).reg o = h.reg o := by
  unfold Half.reinit
  dsimp only
  split
  · rw [Half.reg_panelInit _ _ _ ho, Half.reg_onPanel]
  · rw [Half.reg_panelState _ _ ho, Half.reg_onPanel]

/-- A write of PNL_CTRL.RUN leaves it as the field's setting alone does. -/
theorem Half.reg_pnlRun (on : Bool) : (h.pnlRun t on).reg o = (h.setFlag F.PNL_CTRL_RUN on).reg o := by
  unfold Half.pnlRun
  dsimp only
  split
  · rw [Half.reg_pushAdvance _ _ _ ho, Half.reg_tryInit _ _ _ ho]
  · rfl

end Push

end Sys2Proof.Machine
end

section
/-! SUPPORT. The statement on registers with sealed fields (R7). -/
namespace Sys2Proof.Machine

/-- What a write of PNL_CTRL leaves of a register that the panel's work does not change: MARGIN and RUN as written. -/
theorem Half.reg_writePnlCtrl (h : Half) (t o : Nat) (v : Word) (ho : OffPanel o) :
    (h.writePnlCtrl t v).reg o = ((h.plainWrite F.PNL_CTRL_word.off (h.keepBit F.PNL_CTRL_word.off 0 v)).setFlag F.PNL_CTRL_RUN
      (bitAt v.toNat 0)).reg o := by
  have ran (x : Half) (on : Bool) : (if on == x.flag F.PNL_CTRL_RUN then x else x.pnlRun t on).reg o =
      (x.setFlag F.PNL_CTRL_RUN on).reg o := by
    split
    · next he =>
      have hbit : x.flag F.PNL_CTRL_RUN = bitAt (x.reg F.PNL_CTRL_word.off).toNat 0 := rfl
      rw [beq_iff_eq.mp he, hbit]
      rcases eq_or_ne o F.PNL_CTRL_word.off with rfl | hne
      · exact ((Half.reg_setFlag_low x F.PNL_CTRL_RUN _ rfl rfl).trans (putFlag_self _)).symm
      · exact (Half.reg_set_other _ F.PNL_CTRL_RUN _ _ hne).symm
    · exact Half.reg_pnlRun _ _ _ ho _
  unfold Half.writePnlCtrl
  dsimp only
  split
  · rw [Half.reg_reinit _ _ _ ho, ran]
  · exact ran _ _

/-- A write of PNL_CTRL does what R7 says. -/
theorem Half.sealedWrite_writePnlCtrl (h : Half) (t : Nat) (r : RegSpec) (v : Word) (hr : regSpec F.PNL_CTRL_word.off = some r)
    (hm : h.mode = modeRunning) (hrw : r.rw = 1) (hrws : r.rws = 0xFF0000) :
    h.SealedWrite (h.writePnlCtrl t v) F.PNL_CTRL_word.off r v := by
  refine Half.sealedWrite_enable h _ r v hr (by rw [hrws]; decide) hm _ (h.keepBit F.PNL_CTRL_word.off 0 v) hrw (by simp [hrws]) ?_ ?_ ?_
  · exact (Half.reg_writePnlCtrl _ _ _ _ (by decide)).trans (Half.reg_setFlag_low _ F.PNL_CTRL_RUN _ rfl rfl)
  · exact (Half.reg_writePnlCtrl _ _ _ _ (by decide)).trans (Half.reg_set_other _ _ _ _ (by decide))
  · exact (Half.reg_writePnlCtrl _ _ _ _ (by decide)).trans (Half.reg_set_other _ _ _ _ (by decide))

/-- A write of a word of CMP_WATCHEN, all of whose bits are sealed, does what R7 says. -/
theorem Half.sealedWrite_writeWatchEn (h : Half) (off dis : Nat) (r : RegSpec) (v : Word) (hr : regSpec off = some r) (hw : r.rws ≠ 0)
    (hm : h.mode = modeRunning) (hrw : r.rw = 0) : h.SealedWrite (h.writeWatchEn off dis v) off r v :=
  have hx := Half.sealedWrite_plainWrite h off r (v &&& ~~~h.reg dis) hr hw hm
  { rws := hx.rws
    rw := hx.rw.trans (by rw [hrw]; exact BitVec.and_zero.trans BitVec.and_zero.symm)
    tally := hx.tally
    mode := hx.mode }

/-- Sealed, every register with RWS fields takes a write as R7 says, and the write changes its half only. -/
theorem Module.writeReg_sealed (m : Module) (t : Nat) (k : HalfId) (master off : Nat) (r : RegSpec) (v : Word)
    (hr : regSpec off = some r) (hw : r.rws ≠ 0) (hm : (m.half k).mode = modeRunning)
    (hsrc : ∀ j, off = (F.INK_SCTRL_word j).off → j < 48 → ((m.half k).source j).isSome = true) :
    ∃ f : Half → Half, m.writeReg t k master off v = m.onHalf k f ∧ (m.half k).SealedWrite (f (m.half k)) off r v := by
  rcases sealed_cases off r hr hw with (rfl | rfl | rfl) | ⟨rfl | rfl, hrw⟩ | ⟨⟨j, hj, rfl⟩, hrw, hrws⟩ | ⟨rfl, hrw, hrws⟩
  · exact ⟨fun x => x.plainWrite _ v, rfl, Half.sealedWrite_plainWrite _ _ _ _ hr hw hm⟩
  · exact ⟨fun x => x.plainWrite _ v, rfl, Half.sealedWrite_plainWrite _ _ _ _ hr hw hm⟩
  · exact ⟨fun x => x.plainWrite _ v, rfl, Half.sealedWrite_plainWrite _ _ _ _ hr hw hm⟩
  · exact ⟨fun x => x.writeWatchEn _ F.CMP_WATCHDIS0_word.off v, rfl, Half.sealedWrite_writeWatchEn _ _ _ _ _ hr hw hm hrw⟩
  · exact ⟨fun x => x.writeWatchEn _ F.CMP_WATCHDIS1_word.off v, rfl, Half.sealedWrite_writeWatchEn _ _ _ _ _ hr hw hm hrw⟩
  · refine ⟨fun x => x.writeInk t (F.INK_SCTRL_word j).off v, ?_, Half.sealedWrite_writeInk _ _ _ _ _ hr hj hm hrw hrws (hsrc j rfl hj)⟩
    have hblk : (F.INK_SCTRL_word j).off / 0x10000 = 4 := by simp only [F.INK_SCTRL_word]; omega
    unfold Module.writeReg
    rw [hblk]
    rfl
  · exact ⟨fun x => x.writePnlCtrl t v, rfl, Half.sealedWrite_writePnlCtrl _ _ _ _ hr hm hrw hrws⟩

/-- Settles O43: the seven registers with sealed fields one by one, each a change of its half. -/
theorem sealedWrites : Obligations.SealedWrites := by
  unfold Obligations.SealedWrites
  intro s i k master off r v hs hwr ha hi hm hr hw hsrc
  obtain ⟨f, hf, hx⟩ := Module.writeReg_sealed s.mod s.now k master off r v hr hw hm hsrc
  refine ⟨_, exec_registerWrite_onHalf s i k master _ v f hs ((Module.wordWrite_reg _ _ _ _ _ _ _ _ hwr ha hi).trans hf) hx.mode,
    ?_, ?_, ?_, Module.onlyHalf_onHalf _ _ _⟩ <;> rw [Module.half_onHalf]
  · exact hx.rws
  · exact hx.rw
  · exact hx.tally

end Sys2Proof.Machine
end

section
/-!
SUPPORT. What the statements on the half link share: interrupt sources that are pending stay so, what a flit at the check-value units
of a half leaves alone, and what a message that has arrived changes.
-/
namespace Sys2Proof.Machine

/-! ## Pending bits -/

/-- Setting a bit of a number sets no other bit, and clears none. -/
theorem bitAt_setBitNat_true (v i j : Nat) : bitAt (setBitNat v i true) j = (decide (j = i) || bitAt v j) := by
  have hbit (w k : Nat) : bitAt w k = (bitsAt w k 1 == 1) := rfl
  have hset : setBitNat v i true = replaceBits v i 1 1 := by
    unfold setBitNat replaceBits
    rw [hbit]
    have := bitsAt_lt v i 1
    rcases (by omega : bitsAt v i 1 = 0 ∨ bitsAt v i 1 = 1) with e | e <;> simp [e]
  rw [hset, hbit, hbit]
  rcases Nat.lt_trichotomy j i with h | rfl | h
  · rw [bitsAt_replaceBits_below _ _ _ _ _ _ h, decide_eq_false (by omega), Bool.false_or]
  · simp [bitsAt_replaceBits]
  · rw [bitsAt_replaceBits_above _ _ _ _ _ _ h, decide_eq_false (by omega), Bool.false_or]

/-- A bit below the width of a field reads in the field as in the number put into it. -/
theorem bitAt_mod_two_pow (v n j : Nat) (hj : j < n) : bitAt (v % 2 ^ n) j = bitAt v j := by
  have htest (w : Nat) : bitAt w j = w.testBit j := (Nat.testBit_eq_decide_div_mod_eq ..).symm
  rw [htest, htest, Nat.testBit_mod_two_pow, decide_eq_true hj, Bool.true_and]

/-- The bit of a field just set is set. -/
theorem Half.getBit_setBit_same (h : Half) (f : Field) (i : Nat) (hf : f.fits) (hi : i < f.width) :
    (h.setBit f i true).getBit f i = true := by
  unfold Half.getBit Half.setBit
  rw [Half.get_set_same _ _ _ hf, bitAt_mod_two_pow _ _ _ hi, bitAt_setBitNat_true, decide_eq_true rfl, Bool.true_or]

/-- A bit of a field that is set stays so when another is. -/
theorem Half.getBit_setBit_stays (h : Half) (f : Field) (i j : Nat) (hf : f.fits) (hj : h.getBit f j = true) :
    (h.setBit f i true).getBit f j = true := by
  have hw : j < f.width := by
    by_contra hge
    have hz : h.get f / 2 ^ j = 0 :=
      Nat.div_eq_of_lt (lt_of_lt_of_le (h.get_lt f) (Nat.pow_le_pow_right (by omega) (by omega)))
    simp [Half.getBit, bitAt, hz] at hj
  unfold Half.getBit Half.setBit
  rw [Half.get_set_same _ _ _ hf, bitAt_mod_two_pow _ _ _ hw, bitAt_setBitNat_true]
  exact Bool.or_eq_true_iff.mpr (.inr hj)

/-- Source `s` is pending at the controller of engine `n`. -/
abbrev Half.pends (h : Half) (n s : Nat) : Prop := h.getBit (F.ENG_IRQPEND_PEND n) s = true

/-- What is pending stays so when a field of another register is set. -/
theorem Half.pends_set (h : Half) (f : Field) (v n s : Nat) (hf : (F.ENG_IRQPEND_PEND n).off ≠ f.off) (hp : h.pends n s) :
    (h.set f v).pends n s := by
  unfold Half.pends Half.getBit at hp ⊢
  rwa [Half.get_congr _ h _ (Half.reg_set_other _ _ _ _ hf)]

/-- An event leaves pending what is. -/
theorem Half.pends_raiseAt (h : Half) (m k n s : Nat) (hp : h.pends n s) : (h.raiseAt m k).pends n s := by
  have apart : (F.ENG_IRQPEND_PEND n).off ≠ (F.ENG_IRQOVR_OVR m).off := by simp only [F.ENG_IRQPEND_PEND, F.ENG_IRQOVR_OVR]; omega
  unfold Half.raiseAt
  split
  · exact Half.pends_set _ _ _ _ _ apart hp
  · rcases eq_or_ne n m with rfl | hne
    · exact Half.getBit_setBit_stays _ _ _ _ (by simp [F.ENG_IRQPEND_PEND]) hp
    · exact Half.pends_set _ _ _ _ _ (by simp only [F.ENG_IRQPEND_PEND]; omega) hp

/-- An event at a controller is pending there. -/
theorem Half.pends_raiseAt_same (h : Half) (n s : Nat) (hs : s < 32) : (h.raiseAt n s).pends n s := by
  have apart : (F.ENG_IRQPEND_PEND n).off ≠ (F.ENG_IRQOVR_OVR n).off := by simp only [F.ENG_IRQPEND_PEND, F.ENG_IRQOVR_OVR]; omega
  unfold Half.raiseAt
  split
  · next hp => exact Half.pends_set _ _ _ _ _ apart hp
  · exact Half.getBit_setBit_same _ _ _ (by simp [F.ENG_IRQPEND_PEND]) hs

/-- An event of a source leaves it pending at the four controllers (R356). -/
theorem Half.pends_raise_same (h : Half) (s : Nat) (hs : s < 32) : ∀ n < 4, (h.raise s).pends n s := by
  have at3 (x : Half) : (x.raiseAt 3 s).pends 3 s := Half.pends_raiseAt_same _ _ _ hs
  intro n hn
  unfold Half.raise
  interval_cases n
  · exact Half.pends_raiseAt _ _ _ _ _ (Half.pends_raiseAt _ _ _ _ _ (Half.pends_raiseAt _ _ _ _ _ (Half.pends_raiseAt_same _ _ _ hs)))
  · exact Half.pends_raiseAt _ _ _ _ _ (Half.pends_raiseAt _ _ _ _ _ (Half.pends_raiseAt_same _ _ _ hs))
  · exact Half.pends_raiseAt _ _ _ _ _ (Half.pends_raiseAt_same _ _ _ hs)
  · exact Half.pends_raiseAt_same _ _ _ hs

/-! ## A flit at the check-value units -/

section Flit
variable (h : Half) (sel cls : Nat) (bs : Option (List Byte))

/-- What does not depend on the units of a half, a flit at them keeps (R333). -/
theorem Half.cvuFlit_keeps {γ : Type} (p : Half → γ)
    (hp : ∀ (x : Half) (f : List CvuSt → List CvuSt), p { x with cvu := f x.cvu } = p x) : p (h.cvuFlit sel cls bs) = p h := by
  unfold Half.cvuFlit Half.cvuTake
  refine Half.forBelow_keeps p _ _ (fun x n => ?_) h
  split
  · split
    · exact hp x fun l => l.modify n _
    · exact hp x fun l => l.modify n _
  · rfl

/-- Such a flit changes nothing but the units. -/
theorem Half.cvuFlit_onlyCvu (c : List CvuSt) : { h.cvuFlit sel cls bs with cvu := c } = { h with cvu := c } :=
  Half.cvuFlit_keeps h sel cls bs (fun x => { x with cvu := c }) fun _ _ => rfl

@[simp] theorem Half.cvuFlit_inReset : (h.cvuFlit sel cls bs).inReset = h.inReset :=
  Half.cvuFlit_keeps h sel cls bs Half.inReset fun _ _ => rfl
@[simp] theorem Half.cvuFlit_link : (h.cvuFlit sel cls bs).link = h.link := Half.cvuFlit_keeps h sel cls bs Half.link fun _ _ => rfl
@[simp] theorem Half.cvuFlit_flt : (h.cvuFlit sel cls bs).flt = h.flt := Half.cvuFlit_keeps h sel cls bs Half.flt fun _ _ => rfl
@[simp] theorem Half.cvuFlit_regs : (h.cvuFlit sel cls bs).regs = h.regs := Half.cvuFlit_keeps h sel cls bs Half.regs fun _ _ => rfl
@[simp] theorem Half.reg_cvuFlit (o : Nat) : (h.cvuFlit sel cls bs).reg o = h.reg o := Half.reg_cvuTake _ _ _ _ _ _
@[simp] theorem Half.get_cvuFlit (f : Field) : (h.cvuFlit sel cls bs).get f = h.get f := Half.get_congr _ _ _ (Half.reg_cvuFlit ..)
@[simp] theorem Half.flag_cvuFlit (f : Field) : (h.cvuFlit sel cls bs).flag f = h.flag f := by simp [Half.flag]

end Flit

/-! ## A message that has arrived -/

section Consumes
variable (m : Module) (h : HalfId) (p : LinkMsg → Bool)

/-- A message that has arrived changes the link and the units of its sender only. -/
theorem Module.consumes_peer (c : List CvuSt) : { (m.consumes h p).half h.peer with cvu := c } =
    { m.half h.peer with link := (m.half h.peer).link.deliver p, cvu := c } := by
  unfold Module.consumes
  rw [Module.half_onHalf]
  dsimp only
  split
  · exact Half.cvuFlit_onlyCvu _ _ _ _ _
  · rfl

@[simp] theorem Module.consumes_peerRegs : ((m.consumes h p).half h.peer).regs = (m.half h.peer).regs :=
  (congrArg Half.regs (m.consumes_peer h p []) :)
@[simp] theorem Module.consumes_half : (m.consumes h p).half h = m.half h := Module.half_onPeer _ _ _
@[simp] theorem Module.consumes_lamp : (m.consumes h p).lamp = m.lamp := Module.onHalf_lamp _ _ _
@[simp] theorem Module.consumes_flash : (m.consumes h p).flash = m.flash := Module.onHalf_flash _ _ _
@[simp] theorem Module.consumes_fuse : (m.consumes h p).fuse = m.fuse := Module.onHalf_fuse _ _ _

end Consumes

end Sys2Proof.Machine
end

section
/-! SUPPORT. The statement on baton silence and the ledger mirror (R16, R356, R420). -/
namespace Sys2Proof.Machine

/-- The last entries of a list are at most so many. -/
theorem lastN_length_le {α : Type} (n : Nat) (l : List α) : (lastN n l).length ≤ n := by
  unfold lastN
  rw [List.length_drop]
  omega

/-- The mirror holds the peer's entry as its newest, shows its number and leaves the half's own ledger (R420). -/
theorem Half.mirrorEntry_does (h : Half) (entry : List Byte) :
    (h.mirrorEntry entry).flt.mirror = lastN 64 (h.flt.mirror ++ [(padTo 48 entry).set 6 ((padTo 48 entry).getD 6 0 ||| 0x10)]) ∧
    (h.mirrorEntry entry).get F.FLT_STATUS_MIRROR = (h.mirrorEntry entry).flt.mirror.length ∧
    (h.mirrorEntry entry).flt.entries = h.flt.entries := by
  refine ⟨rfl, Half.get_set_of_lt _ _ _ (by decide) ?_, rfl⟩
  exact lt_of_le_of_lt (lastN_length_le 64 _) (by decide)

/-- Over a working half link an entry of the peer is taken into the mirror of the half. -/
theorem Module.mirrorReceive_half (m : Module) (h : HalfId) (entry : List Byte) (hok : linkOk (m.half h) (m.half h.peer) = true) :
    (m.mirrorReceive h entry).half h = (m.half h).mirrorEntry entry ∧ (m.mirrorReceive h entry).lamp = m.lamp := by
  unfold Module.mirrorReceive
  rw [if_pos hok]
  simp

/-- A flit at the units of a half leaves the half link as it works. -/
theorem linkOk_cvuFlit (h p : Half) (sel cls : Nat) (bs : Option (List Byte)) : linkOk (h.cvuFlit sel cls bs) p = linkOk h p := by
  unfold linkOk
  simp

/-- A half whose half link works is out of reset. -/
theorem live_of_linkOk (h p : Half) (hok : linkOk h p = true) : h.inReset = false := by
  cases hr : h.inReset with
  | false => rfl
  | true => simp [linkOk, hr] at hok

/-- PEER_UP falls, and a beating lamplighter is asked to reset the peer (R16). -/
theorem Module.batonSilence_does (m : Module) (t : Nat) (h : HalfId) (hr : (m.half h).inReset = false)
    (hb : (m.half h).link.lastBseq ≠ none) (hs : m.lamp.stopped = false) :
    m.batonSilence t h = (m.onHalf h fun x => x.set F.SYS_HALF_PEER_UP 0).onLamp fun l =>
      l.onHalf h fun (y : LampHalf) => { y with request := some (y.request.getD t) } := by
  unfold Module.batonSilence
  simp [hr, hs, Option.isSome_iff_ne_none.mpr hb]

/-- Settles O16: each command is one change of the half or of the lamplighter. -/
theorem silenceAndMirror : Obligations.SilenceAndMirror := by
  unfold Obligations.SilenceAndMirror
  intro s h
  refine ⟨fun hr hb => ⟨?_, fun hs => ?_⟩, fun entry hok => ?_⟩
  · have raised : (s.mod.half h).silence2ms = (s.mod.half h).raise irqNoBaton := by
      unfold Half.silence2ms
      simp [hr, Option.isSome_iff_ne_none.mpr hb]
    refine ⟨_, rfl, rfl, ?_, Module.onlyHalf_onHalf _ _ _⟩
    rw [Module.half_onHalf, raised]
    exact Half.pends_raise_same _ _ (by decide)
  · refine ⟨_, rfl, rfl, ?_⟩
    dsimp only
    rw [Module.batonSilence_does _ _ _ hr hb hs]
    simp only [Module.half_onLamp, Module.half_onHalf, Module.peer_onHalf, Module.onLamp_lamp, Module.onHalf_lamp, Lamp.half_onHalf,
      true_and, and_true]
    exact ⟨Half.get_set_of_lt _ _ _ (by decide) (by decide), rfl, fun o ho => Half.reg_set_other _ _ _ _ ho⟩
  · have live : s.mod.inbound h .status = s.mod.onHalf h fun x => x.cvuFlit 1 (flitClassNum .status) none :=
      Module.onLive_live _ _ _ (live_of_linkOk _ _ hok)
    obtain ⟨hh, hl⟩ := Module.mirrorReceive_half (s.mod.inbound h .status) h entry (by
      rw [live, Module.half_onHalf, Module.peer_onHalf, linkOk_cvuFlit, hok])
    refine ⟨_, rfl, ?_⟩
    dsimp only
    rw [hh, hl, live, Module.half_onHalf, Module.onHalf_lamp]
    obtain ⟨hm, hn, he⟩ := Half.mirrorEntry_does ((s.mod.half h).cvuFlit 1 (flitClassNum .status) none) entry
    rw [Half.cvuFlit_flt] at hm he
    exact ⟨hm, hn, he, rfl⟩

end Sys2Proof.Machine
end

section
/-!
SUPPORT. What stands in a half once it has taken a baton, whatever else the baton's fields do there: the last BSEQ and its instant, the
word SYS_HALF and the pending interrupts.
-/
namespace Sys2Proof.Machine

/-- From `h` to `k` the last baton taken, its instant and SYS_HALF stay, and what is pending at an engine stays pending. -/
structure Half.KeepsBaton (h k : Half) : Prop where
  bseq : k.link.lastBseq = h.link.lastBseq
  instant : k.link.lastAt = h.link.lastAt
  sysHalf : k.reg F.SYS_HALF_word.off = h.reg F.SYS_HALF_word.off
  pending : ∀ n < 4, ∀ s, h.pends n s → k.pends n s

theorem Half.KeepsBaton.refl (h : Half) : h.KeepsBaton h := ⟨rfl, rfl, rfl, fun _ _ _ hp => hp⟩

theorem Half.KeepsBaton.trans {h k l : Half} (hk : h.KeepsBaton k) (kl : k.KeepsBaton l) : h.KeepsBaton l where
  bseq := kl.bseq.trans hk.bseq
  instant := kl.instant.trans hk.instant
  sysHalf := kl.sysHalf.trans hk.sysHalf
  pending n hn s hp := kl.pending n hn s (hk.pending n hn s hp)

/-- A change that touches neither the registers nor the last baton keeps them. -/
theorem Half.KeepsBaton.ofRegs {h k : Half} (hb : k.link.lastBseq = h.link.lastBseq) (hi : k.link.lastAt = h.link.lastAt)
    (hr : ∀ o, k.reg o = h.reg o) : h.KeepsBaton k where
  bseq := hb
  instant := hi
  sysHalf := hr _
  pending n _ s hp := by unfold Half.pends Half.getBit at hp ⊢; rwa [Half.get_congr _ _ _ (hr _)]

/-- What both branches keep, the choice between them keeps. -/
theorem Half.KeepsBaton.ite {c : Prop} [Decidable c] {h x y : Half} (hx : h.KeepsBaton x) (hy : h.KeepsBaton y) :
    h.KeepsBaton (if c then x else y) := by
  split
  · exact hx
  · exact hy

/-- A further change on a condition. -/
theorem Half.KeepsBaton.transIf {c : Prop} [Decidable c] {h k l : Half} (hk : h.KeepsBaton k) (kl : k.KeepsBaton l) :
    h.KeepsBaton (if c then l else k) := .ite (hk.trans kl) hk

/-- What every turn of a fold keeps, the fold keeps. -/
theorem Half.KeepsBaton.foldl {β : Type} (f : Half → β → Half) (l : List β) (hf : ∀ (x : Half), ∀ b ∈ l, x.KeepsBaton (f x b))
    (h : Half) : h.KeepsBaton (l.foldl f h) := by
  induction l generalizing h with
  | nil => exact .refl h
  | cons b rest ih =>
    exact (hf h b List.mem_cons_self).trans (ih (fun x c hc => hf x c (List.mem_cons_of_mem _ hc)) _)

/-- Offset `o` is neither SYS_HALF nor the pending word of an engine. -/
abbrev OffBaton (o : Nat) : Prop := o ≠ F.SYS_HALF_word.off ∧ (o / 0x10000 ≠ 0xE ∨ o % 0x100 ≠ 0x1C)

section Keeps
variable (h : Half)

/-! ## Fields and signals -/

theorem Half.keepsBaton_set (f : Field) (v : Nat) (hf : OffBaton f.off) : h.KeepsBaton (h.set f v) where
  bseq := rfl
  instant := rfl
  sysHalf := Half.reg_set_other _ _ _ _ hf.1.symm
  pending n hn s := by
    refine Half.pends_set _ _ _ _ _ fun e => ?_
    obtain ⟨-, hf⟩ := e ▸ hf
    simp only [F.ENG_IRQPEND_PEND] at hf
    omega

theorem Half.keepsBaton_tally (f : Field) (n : Nat) (hf : OffBaton f.off) : h.KeepsBaton (h.tally f n) := h.keepsBaton_set f _ hf

theorem Half.keepsBaton_sets (l : List (Field × Nat)) (hl : ∀ c ∈ l, OffBaton c.1.off) : h.KeepsBaton (h.sets l) := by
  induction l generalizing h with
  | nil => exact .refl h
  | cons c rest ih =>
    exact (h.keepsBaton_set c.1 c.2 (hl c List.mem_cons_self)).trans (ih _ fun d hd => hl d (List.mem_cons_of_mem _ hd))

theorem Half.keepsBaton_raiseAt (n s : Nat) (hn : n < 4) : h.KeepsBaton (h.raiseAt n s) where
  bseq := by rw [Half.raiseAt_link]
  instant := by rw [Half.raiseAt_link]
  sysHalf := Half.reg_raiseAt _ _ _ _ hn (by decide)
  pending _ _ _ hp := Half.pends_raiseAt _ _ _ _ _ hp

theorem Half.keepsBaton_raise (s : Nat) : h.KeepsBaton (h.raise s) :=
  (h.keepsBaton_raiseAt 0 s (by decide)).trans <| (Half.keepsBaton_raiseAt _ 1 s (by decide)).trans <|
    (Half.keepsBaton_raiseAt _ 2 s (by decide)).trans (Half.keepsBaton_raiseAt _ 3 s (by decide))

theorem Half.keepsBaton_note (c : Nat) (d : List Byte) : h.KeepsBaton (h.note c d) := .ofRegs rfl rfl fun _ => rfl

theorem Half.keepsBaton_send (x : LinkMsg) : h.KeepsBaton (h.send x) := by
  unfold Half.send
  exact .ite (.refl h) (.ofRegs rfl rfl fun _ => rfl)

theorem Half.keepsBaton_signal (s off : Nat) : h.KeepsBaton (h.signal s off) := by
  unfold Half.signal
  exact .ite ((h.keepsBaton_raise s).trans (Half.keepsBaton_note _ _ _)) (h.keepsBaton_raise s)

theorem Half.keepsBaton_signalling (s off : Nat) (f : Half → Half) (hf : h.KeepsBaton (f h)) :
    h.KeepsBaton (h.signalling s off f) := by
  unfold Half.signalling
  exact .ite hf (hf.trans (Half.keepsBaton_signal _ _ _))

theorem Half.keepsBaton_roleChange (n m : Nat) (hn : n < 4) : h.KeepsBaton (h.roleChange n m) :=
  (h.keepsBaton_raiseAt n _ hn).trans (Half.keepsBaton_note _ _ _)

theorem Half.keepsBaton_writeEntry (e : Nat → List Byte) (c : Nat) (hc : 1 ≤ c ∧ c ≤ 16) : h.KeepsBaton (h.writeEntry e c) := by
  have counter : OffBaton (classField c).off := by
    have := classField_block c hc
    exact ⟨by simp only [F.SYS_HALF_word]; omega, .inl (by omega)⟩
  have entered (x : Half) (f : LedgerSt) : x.KeepsBaton { x with flt := f } := .ofRegs rfl rfl fun _ => rfl
  have wrapped : h.KeepsBaton (if h.flt.losesUnread then h.set F.FLT_STATUS_WRAPPED 1 else h) :=
    .transIf (.refl h) (h.keepsBaton_set _ _ (by decide))
  unfold Half.writeEntry
  exact wrapped.trans <| (entered _ _).trans <|
    (Half.keepsBaton_set _ F.FLT_HEAD_SEQ _ (by decide)).trans <| (Half.keepsBaton_set _ F.FLT_STATUS_NEXT _ (by decide)).trans <|
    (Half.keepsBaton_tally _ _ _ counter).trans <| (Half.keepsBaton_send _ _).trans <| (Half.keepsBaton_raise _ _).trans
    (Half.keepsBaton_note _ _ _)

theorem Half.keepsBaton_fault (t c k u : Nat) (d : List Byte) (hc : 1 ≤ c ∧ c ≤ 16) : h.KeepsBaton (h.fault t c k u d) := by
  unfold Half.fault
  exact h.keepsBaton_writeEntry _ _ hc

/-! ## Parts of a half that are neither registers nor the link -/

theorem Half.keepsBaton_onActs (f : ActSt → ActSt) : h.KeepsBaton (h.onActs f) := .ofRegs rfl rfl fun _ => rfl
theorem Half.keepsBaton_onLap (f : LapSt → LapSt) : h.KeepsBaton (h.onLap f) := .ofRegs rfl rfl fun _ => rfl
theorem Half.keepsBaton_onPace (f : PaceSt → PaceSt) : h.KeepsBaton (h.onPace f) := .ofRegs rfl rfl fun _ => rfl
theorem Half.keepsBaton_onTime (f : TimeSt → TimeSt) : h.KeepsBaton (h.onTime f) := .ofRegs rfl rfl fun _ => rfl

theorem Half.keepsBaton_toPanel (c : Cell) : h.KeepsBaton (h.toPanel c) := by
  unfold Half.toPanel Half.queueOn
  split
  · exact .ofRegs rfl rfl fun _ => rfl
  · exact .refl h

theorem Half.keepsBaton_sendCommit (lap mask : Nat) (rs : List Nat) : h.KeepsBaton (h.sendCommit lap mask rs) :=
  (h.keepsBaton_toPanel _).trans (Half.keepsBaton_toPanel _ _)

theorem Half.keepsBaton_tryCommit (t : Nat) (late : Bool) : h.KeepsBaton (h.tryCommit t late) := by
  unfold Half.tryCommit
  refine .ite (.ite (.refl h) ?_) (.refl h)
  exact .trans (.ite (h.keepsBaton_sendCommit _ _ _) (.refl h)) (Half.keepsBaton_onLap _ _)

/-! ## Scenes and graphics (R174, R188, R213) -/

theorem Half.keepsBaton_showPending : h.KeepsBaton h.showPending := by
  unfold Half.showPending
  dsimp only
  split
  · refine h.keepsBaton_sets _ ?_
    simp only [List.forall_mem_cons]
    exact ⟨by decide, by decide, by decide, fun _ hc => absurd hc List.not_mem_nil⟩
  · exact h.keepsBaton_set _ _ (by decide)

/-- The word of a graphic layer is none of those. -/
theorem offBaton_glayer (g : Nat) (hg : g < 8) : OffBaton (F.CMP_GLAYER_word g).off := by
  simp only [OffBaton, F.CMP_GLAYER_word, F.SYS_HALF_word]
  omega

theorem Half.keepsBaton_enterScene (n : Nat) : h.KeepsBaton (h.enterScene n) := by
  unfold Half.enterScene
  refine (h.keepsBaton_set F.RBK_SCENE_CURRENT n (by decide)).trans ?_
  unfold Half.graphicDefaults
  split
  · refine Half.KeepsBaton.foldl _ _ (fun x g hg => x.keepsBaton_sets _ ?_) _
    have off := offBaton_glayer g (List.mem_range.mp hg)
    simp only [List.forall_mem_cons]
    exact ⟨off, off, off, off, fun _ hc => absurd hc List.not_mem_nil⟩
  · exact .refl _

theorem Half.keepsBaton_applyG (g : GChange) (hg : g.layer < 8) : h.KeepsBaton (h.applyG g) :=
  have off := offBaton_glayer g.layer hg
  .trans (.ite (h.keepsBaton_set (F.CMP_GLAYER_STATE g.layer) _ off) (.refl h))
    (.ite (Half.keepsBaton_set _ (F.CMP_GLAYER_ALPHA g.layer) _ off) (.refl _))

/-! ## The fields of a baton (R362, R363) -/

theorem Half.keepsBaton_batonScene (b : Baton) (first : Bool) : h.KeepsBaton (h.batonScene b first) :=
  .trans (.ite ((h.keepsBaton_onActs _).trans (Half.keepsBaton_showPending _)) (.refl h))
    (.ite (Half.keepsBaton_enterScene _ _) (.refl _))

theorem Half.keepsBaton_batonGraphic (b : Baton) (g : GChange) : h.KeepsBaton (Half.batonGraphic b h g) := by
  unfold Half.batonGraphic
  split
  · exact .refl h
  · next hg =>
    have layer : g.layer < 8 := Nat.lt_of_not_le fun e => hg (by simp [e])
    exact .ite (.ite (h.keepsBaton_applyG g layer) (.refl h)) (.ite (h.keepsBaton_onActs _) (.refl h))

theorem Half.keepsBaton_peerCauses (lap : Nat) (pace mem : Bool) : h.KeepsBaton (h.peerCauses lap pace mem) := by
  unfold Half.peerCauses
  refine .ite (.refl h) (.trans (h.keepsBaton_signalling _ _ _ ?_) (Half.keepsBaton_onPace _ _))
  exact (h.keepsBaton_set F.PACE_SHED_PEERPACE _ (by decide)).trans (Half.keepsBaton_set _ F.PACE_SHED_PEERMEM _ (by decide))

theorem Half.keepsBaton_batonCommit (t : Nat) (b : Baton) : h.KeepsBaton (h.batonCommit t b) := by
  unfold Half.batonCommit
  exact .ite (.ite ((h.keepsBaton_onLap _).trans (Half.keepsBaton_sendCommit _ _ _ _)) (h.keepsBaton_onLap _)) (.refl h)

theorem Half.keepsBaton_batonTake (b : Baton) : h.KeepsBaton (h.batonTake b) := by
  refine Half.KeepsBaton.foldl _ _ (fun x n hn => ?_) h
  have hn : n < 4 := by simp only [List.mem_cons, List.not_mem_nil, or_false] at hn; omega
  have changed (v : Nat) : x.KeepsBaton ((x.set (F.ENG_STATE_TWIN n) v).roleChange n n) :=
    .trans (x.keepsBaton_set _ _ (by simp only [OffBaton, F.ENG_STATE_TWIN, F.SYS_HALF_word]; omega))
      (Half.keepsBaton_roleChange _ _ _ hn)
  exact .ite (changed 1) (.ite (changed 0) (.refl x))

theorem Half.keepsBaton_batonReturn (b : Baton) : h.KeepsBaton (h.batonReturn b) := by
  unfold Half.batonReturn
  exact .ite (.ofRegs rfl rfl fun _ => rfl) (.refl h)

theorem Half.keepsBaton_batonJoining (b : Baton) (was : Bool) : h.KeepsBaton (h.batonJoining b was) := by
  unfold Half.batonJoining
  exact .ite (h.keepsBaton_onActs _) (.refl h)

/-! ## Time fed by the peer (R316) -/

theorem Half.keepsBaton_timeStatus (lb : Nat) : h.KeepsBaton (h.timeStatus lb) := by
  unfold Half.timeStatus
  refine h.keepsBaton_signalling _ _ _ (h.keepsBaton_sets _ ?_)
  simp only [List.forall_mem_cons]
  exact ⟨by decide, by decide, by decide, by decide, by decide, by decide, by decide, by decide, by decide, by decide, by decide,
    fun _ hc => absurd hc List.not_mem_nil⟩

theorem Half.keepsBaton_switchRef (t : Nat) (d : Domain) : h.KeepsBaton (h.switchRef t d) :=
  (h.keepsBaton_onTime _).trans <| (Half.keepsBaton_tally _ F.TIM_TALLY_SWITCHES _ (by decide)).trans <|
    (Half.keepsBaton_timeStatus _ _).trans (Half.keepsBaton_fault _ _ _ _ _ _ (by decide))

theorem Half.keepsBaton_loseDomain (t : Nat) (d : Domain) : h.KeepsBaton (h.loseDomain t d) := by
  have lost : OffBaton (lostTally d).off := by cases d <;> decide
  unfold Half.loseDomain
  exact .transIf ((h.keepsBaton_onTime _).trans <| (Half.keepsBaton_tally _ _ _ lost).trans <|
    (Half.keepsBaton_timeStatus _ _).trans (Half.keepsBaton_fault _ _ _ _ _ _ (by decide))) (Half.keepsBaton_switchRef _ _ _)

theorem Half.keepsBaton_refeed (p : Half) (t : Nat) (d : Domain) : h.KeepsBaton (h.refeed p t d) := by
  unfold Half.refeed
  exact .ite (.ite ((h.keepsBaton_onTime _).trans (Half.keepsBaton_timeStatus _ _)) (h.keepsBaton_loseDomain t d)) (.refl h)

/-! ## A baton taken -/

/-- A half that takes a baton holds it as the last one, with PEER_UP set and source 1 pending. -/
structure Half.Heard (k : Half) (t bseq : Nat) : Prop where
  bseq : k.link.lastBseq = some bseq
  instant : k.link.lastAt = some t
  peerUp : k.get F.SYS_HALF_PEER_UP = 1
  pending : ∀ n < 4, k.pends n irqBaton

theorem Half.Heard.keeps {k l : Half} {t bseq : Nat} (hk : k.Heard t bseq) (kl : k.KeepsBaton l) : l.Heard t bseq where
  bseq := kl.bseq.trans hk.bseq
  instant := kl.instant.trans hk.instant
  peerUp := (Half.get_congr _ _ F.SYS_HALF_PEER_UP kl.sysHalf).trans hk.peerUp
  pending n hn := kl.pending n hn _ (hk.pending n hn)

theorem Half.heard_acceptBaton (t : Nat) (b : Baton) : (h.acceptBaton t b).Heard t b.bseq := by
  have before : ((h.onLink fun l => l.accept t b).set F.SYS_HALF_PEER_UP 1).KeepsBaton (h.acceptBaton t b) :=
    (Half.keepsBaton_batonScene _ _ _).trans <| (Half.KeepsBaton.foldl _ _ (fun x g _ => x.keepsBaton_batonGraphic b g) _).trans <|
      (Half.keepsBaton_peerCauses _ _ _ _).trans <| (Half.keepsBaton_batonCommit _ _ _).trans <|
      (Half.keepsBaton_batonTake _ _).trans <| (Half.keepsBaton_batonReturn _ _).trans <|
      (Half.keepsBaton_batonJoining _ _ _).trans <| (Half.keepsBaton_tryCommit _ _ _).trans (Half.keepsBaton_raise _ _)
  exact
    { bseq := before.bseq
      instant := before.instant
      peerUp := (Half.get_congr _ _ F.SYS_HALF_PEER_UP before.sysHalf).trans (Half.get_set_of_lt _ _ _ (by decide) (by decide))
      pending := Half.pends_raise_same _ _ (by decide) }

end Keeps

end Sys2Proof.Machine
end

section
/-! SUPPORT. The statement on flits and batons (R13, R15, R362). -/
namespace Sys2Proof.Machine

/-! ## Flits (R13, R15) -/

/-- A flit passes the units of the half that it reaches (R333). -/
abbrev Module.passes (m : Module) (h : HalfId) (f : Flit) : Module :=
  m.onHalf h fun x => x.cvuFlit 1 (flitClassNum f.cls) (some (padTo 62 f.bytes))

section Flit
variable (m : Module) (t : Nat) (h : HalfId) (f : Flit)

/-- Nothing reaches a half in reset. -/
theorem Module.flitReceive_reset (hr : (m.half h).inReset = true) : m.flitReceive t h f = m := by
  unfold Module.flitReceive
  rw [if_pos hr]

/-- A flit whose CRC fails is asked for again. -/
theorem Module.flitReceive_bad (hr : (m.half h).inReset = false) (hc : flitCrcOk f = false) :
    m.flitReceive t h f = ((m.passes h f).onHalf h fun x => x.flitResend t).onLive h.peer fun x => x.send (.resend f.cls) := by
  unfold Module.flitReceive
  simp [hr, hc]

/-- A good flit of another class than baton ends the wait for it. -/
theorem Module.flitReceive_other (hr : (m.half h).inReset = false) (hc : flitCrcOk f = true) (hb : f.cls ≠ .baton) :
    m.flitReceive t h f = (m.passes h f).consumes h fun y => y == .resend f.cls := by
  unfold Module.flitReceive
  rw [hr, if_neg (by decide), if_pos hc]
  dsimp only
  split
  · exact absurd ‹_› hb
  · rfl

/-- A good baton flit ends the wait for it and is a baton received. -/
theorem Module.flitReceive_baton (hr : (m.half h).inReset = false) (hc : flitCrcOk f = true) (hb : f.cls = .baton) :
    m.flitReceive t h f =
      ((m.passes h f).consumes h fun y => y == .resend f.cls).batonReceive t h (Baton.parse (f.bytes.drop 6)) := by
  unfold Module.flitReceive
  rw [hr, if_neg (by decide), if_pos hc]
  dsimp only
  split
  · rfl
  · exact absurd hb ‹_›

end Flit

/-- The first resend within 1 ms is counted, and the link does not fail (R15). -/
theorem Half.flitResend_first (h : Half) (t : Nat) (hn : h.link.resendAt = []) :
    h.flitResend t = (h.onLink fun (l : LinkSt) => { l with resendAt := [t] }).tally F.LNK_TALLY_RESENDS 1 := by
  unfold Half.flitResend
  rw [hn]
  exact if_neg fun e => absurd e.1 (by simp)

/-- To a peer out of reset a message is given. -/
theorem Half.send_toLive (h : Half) (x : LinkMsg) (hp : h.flag F.LNK_STATUS_PEER_RESET = false) :
    h.send x = h.onLink fun (l : LinkSt) => { l with out := l.out ++ [x] } := by
  unfold Half.send
  rw [hp]
  rfl

/-- The first flit within 1 ms whose CRC fails: the half counts it, and its peer is given the request to send it again. -/
theorem Module.flitReceive_firstBad (m : Module) (t : Nat) (h : HalfId) (f : Flit) (hr : (m.half h).inReset = false)
    (hc : flitCrcOk f = false) (hn : (m.half h).link.resendAt = []) (hp : (m.half h.peer).inReset = false)
    (hs : (m.half h.peer).flag F.LNK_STATUS_PEER_RESET = false) :
    (m.flitReceive t h f).half h =
      (((m.passes h f).half h).onLink fun (l : LinkSt) => { l with resendAt := [t] }).tally F.LNK_TALLY_RESENDS 1 ∧
    (m.flitReceive t h f).half h.peer = (m.half h.peer).onLink (fun (l : LinkSt) => { l with out := l.out ++ [.resend f.cls] }) ∧
    (m.flitReceive t h f).lamp = m.lamp := by
  rw [Module.flitReceive_bad _ _ _ _ hr hc, Module.onLive_live _ _ _ (by rw [Module.peer_onHalf, Module.peer_onHalf, hp])]
  refine ⟨?_, ?_, by simp⟩
  · rw [Module.half_onPeer, Module.half_onHalf, Half.flitResend_first _ _ (by rw [Module.half_onHalf, Half.cvuFlit_link, hn])]
  · rw [Module.half_onHalf, Module.peer_onHalf, Module.peer_onHalf, Half.send_toLive _ _ hs]

/-! ## Batons sent (R362) -/

/-- The link of a half once it has sent a baton flit: BSEQ steps, and the flit waits unless the peer is in reset. -/
def LinkSt.sends (l : LinkSt) (t : Nat) (b : Baton) (peerReset : Bool) : LinkSt :=
  { l with bseq := (l.bseq + 1) % 2 ^ 32, sent := some (t, b), out := if peerReset then l.out else l.out ++ [.baton b] }

/-- A half that may send changes its link so, and notes which graphic changes have gone. -/
theorem Half.batonNow_sends (h : Half) (t : Nat) (hm : h.mayBaton t = true) : ∃ f,
    h.batonNow t = (h.onActs f).onLink fun l => l.sends t h.baton (h.flag F.LNK_STATUS_PEER_RESET) := by
  have carried : ∃ f, h.sentChanges = h.onActs f := by
    unfold Half.sentChanges
    split
    · exact ⟨_, rfl⟩
    · split
      · exact ⟨fun a => a, rfl⟩
      · exact ⟨_, rfl⟩
  obtain ⟨f, hf⟩ := carried
  refine ⟨f, ?_⟩
  unfold Half.batonNow LinkSt.sends
  rw [if_pos hm, hf]
  cases hp : h.flag F.LNK_STATUS_PEER_RESET with
  | true => rfl
  | false => exact Half.send_toLive _ _ hp

/-- A half that may not send stays as it is. -/
theorem Half.batonNow_idle (h : Half) (t : Nat) (hm : h.mayBaton t = false) : h.batonNow t = h := by
  unfold Half.batonNow
  rw [hm]
  rfl

/-- A half changed into itself is no change. -/
theorem Module.onHalf_same (m : Module) (h : HalfId) (f : Half → Half) (hf : f (m.half h) = m.half h) : m.onHalf h f = m := by
  unfold Module.onHalf
  rw [hf]
  cases h <;> rfl

/-- BATON_SEND is the sending of a baton by its half when one is due. -/
theorem exec_batonSend (s : State) (h : HalfId) (u : Nat) (hu : u = max s.now (s.mod.half h).batonDue) :
    exec (.batonSend h) s = .next { s with now := u, mod := s.mod.onHalf h fun x => x.batonNow u } := by
  subst hu
  rfl

/-! ## Batons received (R362) -/

/-- A half in reset takes no baton. -/
theorem Half.takesBaton_reset (h : Half) (b : Baton) (hr : h.inReset = true) : h.takesBaton b = false := by
  unfold Half.takesBaton
  rw [hr]
  rfl

/-- A half that takes a baton is out of reset. -/
theorem Half.live_of_takesBaton (h : Half) (b : Baton) (ht : h.takesBaton b = true) : h.inReset = false :=
  Bool.eq_false_of_not_eq_true fun hr => by simp [Half.takesBaton_reset h b hr] at ht

/-- A half that takes a baton has heard it, and its peer's exchange has begun. -/
theorem Module.batonReceive_taken (m : Module) (t : Nat) (h : HalfId) (b : Baton) (ht : (m.half h).takesBaton b = true) :
    ((m.batonReceive t h b).half h).Heard t b.bseq ∧ ((m.batonReceive t h b).half h.peer).link.exchanged = true ∧
    ((m.batonReceive t h b).half h.peer).regs = (m.half h.peer).regs ∧ (m.batonReceive t h b).lamp = m.lamp ∧
    (m.batonReceive t h b).flash = m.flash ∧ (m.batonReceive t h b).fuse = m.fuse := by
  unfold Module.batonReceive
  dsimp only
  rw [if_pos ht]
  refine ⟨?_, ?_, ?_, by simp, by simp, by simp⟩
  · rw [Module.half_setPeer, Module.half_setHalf]
    exact ((Half.heard_acceptBaton _ t b).keeps (Half.keepsBaton_refeed _ _ t .a)).keeps (Half.keepsBaton_refeed _ _ t .b)
  · rw [Module.half_setHalf]
    rfl
  · rw [Module.half_setHalf]
    exact Module.consumes_peerRegs _ _ _

/-- A baton that is not taken leaves the half and the lamplighter. -/
theorem Module.batonReceive_refused (m : Module) (t : Nat) (h : HalfId) (b : Baton) (ht : (m.half h).takesBaton b = false) :
    (m.batonReceive t h b).half h = m.half h ∧ (m.batonReceive t h b).lamp = m.lamp := by
  unfold Module.batonReceive
  dsimp only
  rw [ht, if_neg (by decide)]
  exact ⟨Module.consumes_half _ _ _, Module.consumes_lamp _ _ _⟩

/-- From `m` to `m'` a flit has come to half `h`: of the half only the units differ, and the peer's registers stay. -/
structure Module.FlitCame (m m' : Module) (h : HalfId) : Prop where
  half : { m'.half h with cvu := (m.half h).cvu } = m.half h
  peerRegs : (m'.half h.peer).regs = (m.half h.peer).regs
  lamp : m'.lamp = m.lamp
  flash : m'.flash = m.flash
  fuse : m'.fuse = m.fuse

/-- The half takes the same batons as before. -/
theorem Module.FlitCame.takesBaton {m m' : Module} {h : HalfId} (hm : m.FlitCame m' h) (b : Baton) :
    (m'.half h).takesBaton b = (m.half h).takesBaton b :=
  (congrArg (fun x => x.takesBaton b) hm.half :)

/-- Command `c` brings half `h` the baton `b`: alone, or in a good flit. -/
abbrev BringsBaton (h : HalfId) (b : Baton) (c : Instr) : Prop :=
  c = .batonReceive h b ∨ ∃ f : Flit, c = .flitReceive h f ∧ flitCrcOk f = true ∧ f.cls = .baton ∧ Baton.parse (f.bytes.drop 6) = b

section Brings
variable (s : State) (h : HalfId) (b : Baton) (c : Instr) (hc : BringsBaton h b c)
include hc

/-- At a half out of reset it means the reception of the baton after its flit. -/
theorem exec_bringsBaton_live (hr : (s.mod.half h).inReset = false) :
    ∃ m, s.mod.FlitCame m h ∧ exec c s = .next { s with mod := m.batonReceive s.now h b } := by
  rcases hc with rfl | ⟨f, rfl, hok, hb, rfl⟩
  · refine ⟨s.mod.inbound h .baton, ?_, rfl⟩
    rw [show s.mod.inbound h .baton = s.mod.onHalf h fun x => x.cvuFlit 1 0 none from Module.onLive_live _ _ _ hr]
    exact { half := by rw [Module.half_onHalf, Half.cvuFlit_onlyCvu], peerRegs := by rw [Module.peer_onHalf], lamp := by simp,
            flash := by simp, fuse := by simp }
  · refine ⟨(s.mod.passes h f).consumes h fun y => y == .resend f.cls, ?_, ?_⟩
    · exact { half := by rw [Module.consumes_half, Module.half_onHalf, Half.cvuFlit_onlyCvu]
              peerRegs := by rw [Module.consumes_peerRegs, Module.peer_onHalf]
              lamp := by simp, flash := by simp, fuse := by simp }
    · rw [← Module.flitReceive_baton _ s.now _ _ hr hok hb]
      rfl

/-- At a half in reset it changes neither the half nor the lamplighter. -/
theorem exec_bringsBaton_reset (hr : (s.mod.half h).inReset = true) :
    ∃ m : Module, exec c s = .next { s with mod := m } ∧ m.half h = s.mod.half h ∧ m.lamp = s.mod.lamp := by
  rcases hc with rfl | ⟨f, rfl, -⟩
  · refine ⟨(s.mod.inbound h .baton).batonReceive s.now h b, rfl, ?_⟩
    rw [show s.mod.inbound h .baton = s.mod from Module.onLive_reset _ _ _ hr]
    exact Module.batonReceive_refused _ _ _ _ (Half.takesBaton_reset _ _ hr)
  · refine ⟨s.mod.flitReceive s.now h f, rfl, ?_⟩
    rw [Module.flitReceive_reset _ _ _ _ hr]
    exact ⟨rfl, rfl⟩

end Brings

/-! ## The statement -/

/-- Settles O15: each flit and baton by the one change it means, and a baton taken by what each of its fields keeps. -/
theorem flitsAndBatons : Obligations.FlitsAndBatons := by
  unfold Obligations.FlitsAndBatons
  refine ⟨fun s h f hr => ⟨fun hc hn hp hf => ?_, fun hc hb => ?_⟩, fun s h u hu => ⟨fun hm => ?_, fun hm => ?_⟩,
    fun s h b c hc => ⟨fun ht => ?_, fun ht => ?_⟩⟩
  · obtain ⟨hh, hk, hl⟩ := Module.flitReceive_firstBad s.mod s.now h f hr hc hn hp hf
    refine ⟨{ s with mod := s.mod.flitReceive s.now h f }, rfl, ?_⟩
    dsimp only
    rw [hh, hk, hl, Module.half_onHalf]
    refine ⟨?_, ?_, rfl, fun o ho => ?_, rfl, rfl⟩
    · rw [Half.get_tally_same _ _ _ (by decide)]
      exact congrArg (satAdd _ · 1) (Half.get_cvuFlit _ _ _ _ _)
    · exact congrArg (fun l : LinkSt => { l with resendAt := [s.now] }) (Half.cvuFlit_link _ _ _ _)
    · exact (Half.reg_set_other _ F.LNK_TALLY_RESENDS _ _ ho).trans (Half.reg_cvuFlit _ _ _ _ _)
  · refine ⟨{ s with mod := s.mod.flitReceive s.now h f }, rfl, ?_⟩
    dsimp only
    rw [Module.flitReceive_other _ _ _ _ hr hc hb]
    refine ⟨?_, ?_, by simp, by simp, by simp⟩
    · rw [Module.consumes_half, Module.half_onHalf, Half.cvuFlit_onlyCvu]
    · rw [Module.consumes_peer, Module.peer_onHalf]
  · obtain ⟨f, hf⟩ := Half.batonNow_sends (s.mod.half h) u hm
    refine ⟨_, exec_batonSend s h u hu, rfl, ?_⟩
    dsimp only
    rw [Module.half_onHalf, hf]
    exact ⟨rfl, rfl, rfl, rfl, Module.onlyHalf_onHalf _ _ _⟩
  · have same : s.mod.onHalf h (fun x => x.batonNow u) = s.mod := Module.onHalf_same _ _ _ (Half.batonNow_idle _ _ hm)
    have later : max s.now u = u := by omega
    rw [State.idlesTo, exec_batonSend s h u hu, same, later]
  · obtain ⟨m, hm, he⟩ := exec_bringsBaton_live s h b c hc (Half.live_of_takesBaton _ _ ht)
    obtain ⟨heard, hx, hp, hl, hfl, hfu⟩ := Module.batonReceive_taken m s.now h b ((hm.takesBaton b).trans ht)
    exact ⟨_, he, heard.bseq, heard.instant, heard.peerUp, heard.pending, hx, hp.trans hm.peerRegs, hl.trans hm.lamp,
      hfl.trans hm.flash, hfu.trans hm.fuse⟩
  · cases hr : (s.mod.half h).inReset with
    | true =>
      obtain ⟨m, he, hh, hl⟩ := exec_bringsBaton_reset s h b c hc hr
      exact ⟨_, he, by rw [hh], hl⟩
    | false =>
      obtain ⟨m, hm, he⟩ := exec_bringsBaton_live s h b c hc hr
      obtain ⟨hh, hl⟩ := Module.batonReceive_refused m s.now h b ((hm.takesBaton b).trans ht)
      exact ⟨_, he, by rw [hh, hm.half], hl.trans hm.lamp⟩

end Sys2Proof.Machine
end

section
/-!
SUPPORT. A reset of the whole module, a request for one, and its end.
-/
namespace Sys2Proof.Machine

/-! ## A reset of the whole module (R49, R50) -/

@[simp] theorem Module.intoReset_inReset (m : Module) (t : Nat) (sc : Scope) (cs : List Nat) (p : LampPhase) (k : HalfId) :
    ((m.intoReset t sc cs p).half k).inReset = true := by
  cases k <;> exact Half.intoReset_inReset _ _ _ _ _

@[simp] theorem Module.intoReset_fsCount (m : Module) (t : Nat) (sc : Scope) (cs : List Nat) (p : LampPhase) :
    (m.intoReset t sc cs p).lamp.fsCount = m.lamp.fsCount := Lamp.liveLow_fsCount _
@[simp] theorem Module.intoReset_tripped (m : Module) (t : Nat) (sc : Scope) (cs : List Nat) (p : LampPhase) :
    (m.intoReset t sc cs p).lamp.tripped = m.lamp.tripped := Lamp.liveLow_tripped _
@[simp] theorem Module.intoReset_temps (m : Module) (t : Nat) (sc : Scope) (cs : List Nat) (p : LampPhase) :
    (m.intoReset t sc cs p).lamp.temps = m.lamp.temps := Lamp.liveLow_temps _
@[simp] theorem Module.intoReset_resetNLow (m : Module) (t : Nat) (sc : Scope) (cs : List Nat) (p : LampPhase) :
    (m.intoReset t sc cs p).lamp.resetNLow = m.lamp.resetNLow := Lamp.liveLow_resetNLow _

/-- A request for a module reset, the first of its sample period, outside a start, is applied and noted. -/
theorem Module.requestReset_fresh (m : Module) (t : Nat) (sc : Scope) (cs : List Nat) (p : LampPhase) (hs : m.lamp.stopped = false)
    (hp : m.lamp.phase.inStart = false) (hu : m.unasked t) :
    m.requestReset t sc cs p = (m.applyReset t sc cs p).noteReset t sc cs (m.lateTime t cs) := by
  unfold Module.requestReset
  rw [hu, hs, hp]
  rfl

/-- Both halves of the module are in reset and the lamplighter holds them in phase `p`; of what it notes of temperature and RESET_N
nothing differs from `m`. -/
structure Module.HeldFrom (m m' : Module) (p : LampPhase) : Prop where
  half0 : m'.half0.inReset = true
  half1 : m'.half1.inReset = true
  phase : m'.lamp.phase = p
  tripped : m'.lamp.tripped = m.lamp.tripped
  temps : m'.lamp.temps = m.lamp.temps
  resetNLow : m'.lamp.resetNLow = m.lamp.resetNLow
  flash : m'.flash = m.flash
  fuse : m'.fuse = m.fuse

/-- A request for a module reset that holds the halves does so. -/
theorem Module.requestReset_holds (m : Module) (t : Nat) (sc : Scope) (cs : List Nat) (p : LampPhase) (hs : m.lamp.stopped = false)
    (hp : m.lamp.phase.inStart = false) (hu : m.unasked t) (hh : p ≠ .released) : m.HeldFrom (m.requestReset t sc cs p) p := by
  have he : m.applyReset t sc cs p = m.intoReset t sc cs p := by
    unfold Module.applyReset
    exact if_neg (by simpa using hh)
  rw [Module.requestReset_fresh m t sc cs p hs hp hu, he]
  exact { half0 := Module.intoReset_inReset m t sc cs p .h0
          half1 := Module.intoReset_inReset m t sc cs p .h1
          phase := rfl
          tripped := Module.intoReset_tripped m t sc cs p
          temps := Module.intoReset_temps m t sc cs p
          resetNLow := Module.intoReset_resetNLow m t sc cs p
          flash := rfl
          fuse := rfl }

/-! ## The end of a reset (R38, R60) -/

/-- Both halves are out of reset in mode START, and the lamplighter has released them; else it is as in `m`. -/
structure Module.StartedFrom (m m' : Module) : Prop where
  half0 : m'.half0.inReset = false
  half1 : m'.half1.inReset = false
  mode0 : m'.half0.mode = modeStart
  mode1 : m'.half1.mode = modeStart
  phase : m'.lamp.phase = .released
  attempts : m'.lamp.attempts = m.lamp.attempts
  tripped : m'.lamp.tripped = m.lamp.tripped
  resetNLow : m'.lamp.resetNLow = m.lamp.resetNLow
  flash : m'.flash = m.flash
  fuse : m'.fuse = m.fuse

/-- Where nothing holds the halves, the end of their reset starts them. -/
theorem Module.letGo_free (m : Module) (t : Nat) (hf : m.freeToGo) : m.StartedFrom (m.letGo t) := by
  obtain ⟨ht, hn⟩ := hf
  have he : m.letGo t = m.releaseBoth t := by
    unfold Module.letGo
    rw [ht, hn]
    rfl
  rw [he]
  exact { half0 := Half.release_inReset _ _ _ _
          half1 := Half.release_inReset _ _ _ _
          mode0 := Half.release_mode _ _ _ _ (by decide)
          mode1 := Half.release_mode _ _ _ _ (by decide)
          phase := rfl, attempts := rfl, tripped := rfl, resetNLow := rfl, flash := rfl, fuse := rfl }

/-- Where a thermal trip stands, the lamplighter holds them for it (R45). -/
theorem Module.letGo_tripped (m : Module) (t : Nat) (ht : m.lamp.tripped = true) : m.letGo t = m.onLamp fun l => l.enter t .heldTrip := by
  unfold Module.letGo
  exact if_pos ht

/-- Where RESET_N alone is low, it holds them for that (R52). -/
theorem Module.letGo_resetN (m : Module) (t : Nat) (ht : m.lamp.tripped = false) (hn : m.lamp.resetNLow = true) :
    m.letGo t = m.onLamp fun l => l.enter t .heldResetN := by
  unfold Module.letGo
  rw [ht, hn]
  rfl

end Sys2Proof.Machine
end

section
/-!
SUPPORT. The statement on power-on (R38 to R41, R50).
-/
namespace Sys2Proof.Machine

/-- After a power-on reset PWR_EN_RAISE raises PWR_EN. -/
theorem Module.pwrEnRaise_off (m : Module) (t : Nat) (hp : m.lamp.phase = .off) (ha : m.lamp.attempts = 0) :
    m.pwrEnRaise t = m.onLamp fun l => l.raisePower t := if_pos ⟨hp, ha⟩

/-- After one or two failed attempts PWR_RETRY raises it. -/
theorem Module.pwrRetry_off (m : Module) (t : Nat) (hp : m.lamp.phase = .off) (h1 : 1 ≤ m.lamp.attempts) (h3 : m.lamp.attempts < 3) :
    m.pwrRetry t = m.onLamp fun l => l.raisePower t := if_pos ⟨hp, h1, h3⟩

/-- The module whose PWR_GOOD is released: what lets its halves go. -/
def Module.powerGood (m : Module) : Module :=
  { m with lamp := { m.lamp with pwrGood := true, attempts := 0, outLast := 0, outActed := 0 } }

/-- PWR_GOOD released while it is waited for ends the reset. -/
theorem Module.pwrGoodRise_waiting (m : Module) (t : Nat) (hp : m.lamp.phase = .waitGood) : m.pwrGoodRise t = m.powerGood.letGo t :=
  if_pos hp

/-- The module whose failed attempt at PWR_GOOD is recorded as a false start (R41, R63). -/
def Module.failedPower (m : Module) (t : Nat) : Module := (m.lampFault t clsPwr 2 0xFF []).falseStart t 4

/-- It counts one more false start, to at most 15. -/
theorem Module.failedPower_fsCount (m : Module) (t : Nat) : (m.failedPower t).lamp.fsCount = min (m.lamp.fsCount + 1) 15 := rfl

/-- PWR_GOOD not released in time resets the module and lowers PWR_EN. -/
theorem Module.pwrGoodTimeout_waiting (m : Module) (t : Nat) (hp : m.lamp.phase = .waitGood) :
    m.pwrGoodTimeout t = ((m.failedPower t).intoReset t .cold [4] (if 3 ≤ m.lamp.attempts + 1 then .waitWake else .off)).onLamp
      fun (l : Lamp) => { l with pwrEn := false, attempts := m.lamp.attempts + 1 } :=
  if_pos hp

/-- Settles O1: each command in the phase that it belongs to, by what the lamplighter does there. -/
theorem powerUp : Obligations.PowerUp := by
  unfold Obligations.PowerUp
  refine ⟨fun s => ⟨?rise, ?low, fun hp ha => ?raise, fun hp h1 h3 => ?retry⟩,
    fun s hp => ⟨fun hf => ?good, fun ht => ?tripped, fun ht hn => ?resetN, ?timeout⟩⟩
  case rise => exact ⟨_, rfl, rfl, rfl, rfl, rfl, rfl, rfl, rfl⟩
  case low => exact ⟨_, rfl, rfl, rfl, rfl, rfl, rfl, rfl, rfl⟩
  case raise =>
    have hend : s.phaseEnd .off (10 * msNs) = s.mod.lamp.phaseAt + 10000000 := if_pos hp
    refine ⟨{ s with now := max s.now (s.phaseEnd .off (10 * msNs)),
                     mod := s.mod.pwrEnRaise (max s.now (s.phaseEnd .off (10 * msNs))) }, rfl, ?_⟩
    dsimp only
    rw [hend, Module.pwrEnRaise_off _ _ hp ha]
    exact ⟨rfl, rfl, rfl, rfl, rfl, rfl, rfl⟩
  case retry =>
    have hend : s.phaseEnd .off secNs = s.mod.lamp.phaseAt + 1000000000 := if_pos hp
    refine ⟨{ s with now := max s.now (s.phaseEnd .off secNs), mod := s.mod.pwrRetry (max s.now (s.phaseEnd .off secNs)) }, rfl, ?_⟩
    dsimp only
    rw [hend, Module.pwrRetry_off _ _ hp h1 h3]
    exact ⟨rfl, rfl, rfl, rfl, rfl, rfl, rfl, rfl⟩
  case good =>
    have hg := Module.letGo_free s.mod.powerGood s.now hf
    refine ⟨{ s with mod := s.mod.pwrGoodRise s.now }, rfl, ?_⟩
    dsimp only
    rw [Module.pwrGoodRise_waiting _ _ hp]
    exact ⟨hg.half0, hg.half1, hg.mode0, hg.mode1, hg.phase, hg.attempts, hg.flash, hg.fuse⟩
  case tripped =>
    refine ⟨{ s with mod := s.mod.pwrGoodRise s.now }, rfl, ?_⟩
    dsimp only
    rw [Module.pwrGoodRise_waiting _ _ hp, Module.letGo_tripped s.mod.powerGood _ ht]
    exact ⟨rfl, rfl, rfl, rfl, rfl, rfl⟩
  case resetN =>
    refine ⟨{ s with mod := s.mod.pwrGoodRise s.now }, rfl, ?_⟩
    dsimp only
    rw [Module.pwrGoodRise_waiting _ _ hp, Module.letGo_resetN s.mod.powerGood _ ht hn]
    exact ⟨rfl, rfl, rfl, rfl, rfl, rfl⟩
  case timeout =>
    have hend : s.phaseEnd .waitGood (100 * msNs) = s.mod.lamp.phaseAt + 100000000 := if_pos hp
    refine ⟨{ s with now := max s.now (s.phaseEnd .waitGood (100 * msNs)),
                     mod := s.mod.pwrGoodTimeout (max s.now (s.phaseEnd .waitGood (100 * msNs))) }, rfl, ?_⟩
    dsimp only
    rw [hend, Module.pwrGoodTimeout_waiting _ _ hp]
    refine ⟨rfl, rfl, rfl, ?_, Half.intoReset_inReset _ _ _ _ _, Half.intoReset_inReset _ _ _ _ _,
      rfl, rfl, rfl⟩
    rw [Module.onLamp_lamp, Module.intoReset_fsCount]
    exact Module.failedPower_fsCount _ _

end Sys2Proof.Machine
end

section
/-!
SUPPORT. The statement on supply samples (R42).
-/
namespace Sys2Proof.Machine

/-- Bits of which none is taken add nothing. -/
theorem foldl_bits_none (p : Nat → Bool) (l : List Nat) (b : Nat) (hp : ∀ i ∈ l, p i = false) :
    l.foldl (fun b i => if p i then b + 2 ^ i else b) b = b := by
  induction l with
  | nil => rfl
  | cons i rest ih =>
    rw [List.foldl_cons, hp i List.mem_cons_self, if_neg Bool.false_ne_true]
    exact ih fun j hj => hp j (List.mem_cons_of_mem _ hj)

/-- Where the lowest bit alone is taken the sum is 1. -/
theorem foldl_bits_lowest (p : Nat → Bool) (n : Nat) (h0 : p 0 = true) (hp : ∀ i, i ≠ 0 → p i = false) :
    (List.range (n + 1)).foldl (fun b i => if p i then b + 2 ^ i else b) 0 = 1 := by
  rw [List.range_succ_eq_map, List.foldl_cons, h0, if_pos rfl, foldl_bits_none]
  · rfl
  · intro i hi
    obtain ⟨j, -, rfl⟩ := List.mem_map.mp hi
    exact hp _ (Nat.succ_ne_zero j)

/-- With PWR_GOOD high and every supply in its window nothing is out. -/
theorem outBits_good (mv : List Nat) (hi : ∀ i < 9, supplyOut mv i = false) : outBits mv true = 0 := by
  have empty : (List.range 9).filter (supplyOut mv) = [] :=
    List.filter_eq_nil_iff.mpr fun i hm => by rw [hi i (List.mem_range.mp hm)]; decide
  unfold outBits
  rw [empty]
  rfl

/-- With VCORE0 alone outside its window, bit 0 is. -/
theorem outBits_vcore0 (mv : List Nat) (h0 : supplyOut mv 0 = true) (hi : ∀ i < 9, i ≠ 0 → supplyOut mv i = false) :
    outBits mv true = 1 := by
  have one : (List.range 9).filter (supplyOut mv) = [0] := by
    rw [List.range_succ_eq_map, List.filter_cons_of_pos h0, List.filter_eq_nil_iff.mpr]
    intro i hm
    obtain ⟨j, hj, rfl⟩ := List.mem_map.mp hm
    rw [hi _ (Nat.succ_lt_succ (List.mem_range.mp hj)) (Nat.succ_ne_zero j)]
    decide
  unfold outBits
  rw [one]
  rfl

/-- Of 0 no bit is set, and of 1 the lowest alone. -/
theorem bitAt_zero (i : Nat) : bitAt 0 i = false := by simp [bitAt]
theorem bitAt_one (i : Nat) (hi : i ≠ 0) : bitAt 1 i = false := by
  unfold bitAt
  rw [Nat.div_eq_of_lt (Nat.one_lt_two_pow hi)]
  rfl

/-- The lamplighter after a sample, with the supplies that it found out of their windows and those that it has acted on. -/
def Lamp.sampled (l : Lamp) (t : Nat) (mv : List Nat) (temps : List Int) (out done : Nat) : Lamp :=
  { l with
    mv := mv
    temps := temps
    due := { l.due with supply := t + msNs }
    outLast := out
    outActed := done
    h0 := vcoreSince l.h0 t (supplyOut mv 0)
    h1 := vcoreSince l.h1 t (supplyOut mv 1) }

/-- A sample that finds no supply out is noted and nothing else. -/
theorem Module.supplySample_good (m : Module) (t : Nat) (mv : List Nat) (temps : List Int) (hi : ∀ i < 9, supplyOut mv i = false) :
    m.supplySample t mv true temps = { m with lamp := m.lamp.sampled t mv temps 0 0 } := by
  have out : (if m.lamp.phase.powered then outBits mv true else 0) = 0 := by rw [outBits_good mv hi, ite_self]
  have twice : (List.range 11).foldl (fun b i => if bitAt 0 i && bitAt m.lamp.outLast i then b + 2 ^ i else b) 0 = 0 :=
    foldl_bits_none _ _ _ fun i _ => by rw [bitAt_zero, Bool.false_and]
  have acts : (List.range 11).foldl (fun b i => if bitAt 0 i && !bitAt m.lamp.outActed i then b + 2 ^ i else b) 0 = 0 :=
    foldl_bits_none _ _ _ fun i _ => by rw [bitAt_zero, Bool.false_and]
  have done : (if m.half0.inReset then setBitNat 0 8 false else 0) = 0 := ite_self _
  unfold Module.supplySample
  dsimp only
  rw [out, twice, done, acts]
  rfl

/-- A second sample running with VCORE0 alone out acts on that supply. -/
theorem Module.supplySample_vcore0 (m : Module) (t : Nat) (mv : List Nat) (temps : List Int) (hp : m.lamp.phase = .running)
    (hr : m.half0.inReset = false) (h0 : supplyOut mv 0 = true) (hi : ∀ i < 9, i ≠ 0 → supplyOut mv i = false)
    (hl : bitAt m.lamp.outLast 0 = true) (ha : bitAt m.lamp.outActed 0 = false) :
    m.supplySample t mv true temps =
      Module.actOnSupplies { m with lamp := m.lamp.sampled t mv temps 1 1 } t mv true 1 1 := by
  have out : (if m.lamp.phase.powered then outBits mv true else 0) = 1 := by rw [hp, outBits_vcore0 mv h0 hi]; rfl
  have twice : (List.range 11).foldl (fun b i => if bitAt 1 i && bitAt m.lamp.outLast i then b + 2 ^ i else b) 0 = 1 :=
    foldl_bits_lowest _ 10 (by rw [hl]; rfl) fun i hi => by rw [bitAt_one i hi, Bool.false_and]
  have acts : (List.range 11).foldl (fun b i => if bitAt 1 i && !bitAt m.lamp.outActed i then b + 2 ^ i else b) 0 = 1 :=
    foldl_bits_lowest _ 10 (by rw [ha]; rfl) fun i hi => by rw [bitAt_one i hi, Bool.false_and]
  unfold Module.supplySample
  dsimp only
  rw [out, twice, hr, if_neg Bool.false_ne_true, acts]
  exact if_neg (by decide)

/-- To act on VCORE0 alone is to record its fault and ask for the reset of half 0 (R42). -/
theorem Module.actOnSupplies_vcore0 (m : Module) (t : Nat) (mv : List Nat) : m.actOnSupplies t mv true 1 1 =
    (m.lampFault t clsPwr 1 0 (leBytes 4 (mv.getD 0 0))).requestHalfReset t .h0 [9] .vcore := rfl

/-- The reset of a half asked for while both are out of reset, outside a start and first in its sample period: the half is in reset with
its hold, and its peer, out of reset, sees it there. -/
theorem Module.requestHalfReset_does (m : Module) (t : Nat) (h : HalfId) (cs : List Nat) (hold : HalfHold)
    (hs : m.lamp.stopped = false) (h1 : (m.half h).inReset = false) (h2 : (m.half h.peer).inReset = false)
    (hp : m.lamp.phase.inStart = false) (ha : m.unasked t) :
    ((m.requestHalfReset t h cs hold).half h).inReset = true ∧
    ((m.requestHalfReset t h cs hold).lamp.half h).hold = hold ∧
    ((m.requestHalfReset t h cs hold).half h.peer).inReset = false ∧
    ((m.requestHalfReset t h cs hold).half h.peer).get F.LNK_STATUS_PEER_RESET = 1 := by
  obtain ⟨hin, hpeer, hhold, -⟩ := Module.applyHalfReset_halves m t h cs hold
  rw [Module.requestHalfReset_applied m t h cs hold hs h1 h2 hp (by rw [ha]; rfl)]
  simp only [Module.noteHalf_half, Module.noteHalf_lampHalf, hpeer, Half.peerEntersReset_inReset]
  exact ⟨hin, hhold, h2, Half.peerEntersReset_shows _ h2⟩

/-- In a running module a half held for its VCORE is released once that supply is back. -/
theorem Module.vcoreRelease_running (m : Module) (t : Nat) (h : HalfId) (a : Nat) (hp : m.lamp.phase = .running)
    (hs : m.lamp.stopped = false) (hh : (m.lamp.half h).hold = .vcore) (hv : (m.lamp.half h).vcoreOk = some a) :
    m.vcoreRelease t h = m.releaseHalf t h := by
  have hok : (m.lamp.half h).vcoreOk.isSome = true := by rw [hv]; rfl
  unfold Module.vcoreRelease
  rw [if_pos ⟨hh, hs, hok⟩, if_neg (by rw [hp]; decide)]

/-- Settles O2: a sample by the supplies that it finds out, and the release of a half held for its own supply. -/
theorem supplySamples : Obligations.SupplySamples := by
  unfold Obligations.SupplySamples
  refine ⟨fun s mv temps hi => ?good, fun s mv temps hp hs hu hr0 hr1 h0 hi hl ha => ?vcore, fun s h a hp hs hr hh hv => ?release⟩
  case good =>
    refine ⟨{ s with now := max s.now s.mod.lamp.due.supply, mod := s.mod.supplySample (max s.now s.mod.lamp.due.supply) mv true temps },
      rfl, ?_⟩
    dsimp only
    rw [Module.supplySample_good _ _ _ _ hi]
    exact ⟨rfl, rfl, rfl, rfl, rfl, rfl⟩
  case vcore =>
    refine ⟨{ s with now := max s.now s.mod.lamp.due.supply, mod := s.mod.supplySample (max s.now s.mod.lamp.due.supply) mv true temps },
      rfl, ?_⟩
    dsimp only
    rw [Module.supplySample_vcore0 _ _ _ _ hp hr0 h0 hi hl ha, Module.actOnSupplies_vcore0]
    refine Module.requestHalfReset_does _ _ .h0 _ _ hs ?_ ?_ ?_ hu
    · exact (Module.lampFault_inReset _ _ _ _ _ _ .h0).trans hr0
    · exact (Module.lampFault_inReset _ _ _ _ _ _ .h1).trans hr1
    · exact congrArg LampPhase.inStart hp
  case release =>
    have hend : ((s.mod.lamp.half h).vcoreOk.map fun a => a + 100 * msNs).getD 0 = a + 100000000 := by rw [hv]; rfl
    refine ⟨{ s with now := max s.now (((s.mod.lamp.half h).vcoreOk.map fun a => a + 100 * msNs).getD 0),
                     mod := s.mod.vcoreRelease (max s.now (((s.mod.lamp.half h).vcoreOk.map fun a => a + 100 * msNs).getD 0)) h },
      rfl, ?_⟩
    dsimp only
    rw [hend, Module.vcoreRelease_running _ _ _ _ hp hs hh hv]
    obtain ⟨hin, hmode, hhold, hpeer, -⟩ := Module.releaseHalf_does s.mod (max s.now (a + 100000000)) h modeHalfStart hr (by rw [hp]; rfl)
      (by decide)
    exact ⟨rfl, hin, hmode, hhold, hpeer⟩

end Sys2Proof.Machine
end

section
/-!
SUPPORT. The statement on temperature and RESET_N (R45, R52, R369).
-/
namespace Sys2Proof.Machine

/-- The module that has seen a sensor at 112 °C or above. -/
def Module.overheated (m : Module) (t : Nat) (temps : List Int) : Module :=
  Module.lampFault { m with lamp := { m.lamp with temps := temps, tripped := true } } t clsPwr 3 0xFF []

/-- In a running module a sensor at 112 °C or above asks for the reset of the module. -/
theorem Module.thermalTrip_hot (m : Module) (t : Nat) (temps : List Int) (hp : m.lamp.phase = .running) (hx : ∃ x ∈ temps, 112 ≤ x) :
    m.thermalTrip t temps = (m.overheated t temps).requestReset t .cold [3] .heldTrip := by
  have hot : (temps.any fun x => decide (112 ≤ x)) = true := by simpa using hx
  unfold Module.thermalTrip
  rw [hp, hot]
  rfl

/-- Above 95 °C the release of a trip changes nothing. -/
theorem Module.tripRelease_hot (m : Module) (t : Nat) (temps : List Int) (hx : ∃ x ∈ temps, 95 < x) : m.tripRelease t temps = m := by
  refine if_neg fun h => ?_
  obtain ⟨x, hm, hx⟩ := hx
  have hle : x ≤ 95 := by simpa using List.all_eq_true.mp h.2 x hm
  omega

/-- The module whose trip stands no more. -/
def Module.cooled (m : Module) (temps : List Int) : Module := { m with lamp := { m.lamp with temps := temps, tripped := false } }

/-- With every sensor at 95 °C or below, the module held for a trip is let go. -/
theorem Module.tripRelease_cool (m : Module) (t : Nat) (temps : List Int) (hp : m.lamp.phase = .heldTrip) (ht : m.lamp.tripped = true)
    (hx : ∀ x ∈ temps, x ≤ 95) : m.tripRelease t temps = (m.cooled temps).letGo t := by
  have cool : (temps.all fun x => decide (x ≤ 95)) = true := by simpa using hx
  exact (if_pos ⟨ht, cool⟩).trans (if_pos hp)

/-- The module whose RESET_N is low, or high. -/
def Module.resetPin (m : Module) (low : Bool) : Module := { m with lamp := { m.lamp with resetNLow := low } }

/-- RESET_N sampled low in a module with VAON, its lamplighter beating, by the phase. -/
theorem Module.resetNAssert_eq (m : Module) (t : Nat) (hs : m.lamp.stopped = false) (hp : (m.lamp.phase == .noVaon) = false) :
    m.resetNAssert t = if m.lamp.phase.asleep || m.lamp.phase == .restEntry then (m.resetPin true).wakeEvent t 3
      else if m.lamp.phase.powered && m.lamp.phase != .heldTrip && m.lamp.phase != .heldResetN then
        (m.resetPin true).requestReset t .warm [5] .heldResetN
      else m.resetPin true := by
  unfold Module.resetNAssert
  rw [hs, hp]
  rfl

/-- In a running module it asks for the reset of the module. -/
theorem Module.resetNAssert_running (m : Module) (t : Nat) (hs : m.lamp.stopped = false) (hp : m.lamp.phase = .running) :
    m.resetNAssert t = (m.resetPin true).requestReset t .warm [5] .heldResetN := by
  rw [Module.resetNAssert_eq m t hs (by rw [hp]; rfl), hp, if_neg (by decide), if_pos (by decide)]

/-- At rest it wakes the module with code 3. -/
theorem Module.resetNAssert_rest (m : Module) (t : Nat) (hs : m.lamp.stopped = false) (hp : m.lamp.phase = .rest) :
    m.resetNAssert t = (m.resetPin true).wake t 3 := by
  have asleep : (m.resetPin true).lamp.phase.asleep = true := congrArg LampPhase.asleep hp
  rw [Module.resetNAssert_eq m t hs (by rw [hp]; rfl), hp, if_pos (by decide)]
  exact if_pos asleep

/-- RESET_N high again lets the halves that it holds go. -/
theorem Module.resetNRelease_held (m : Module) (t : Nat) (hs : m.lamp.stopped = false) (hp : m.lamp.phase = .heldResetN) :
    m.resetNRelease t = (m.resetPin false).letGo t := by
  unfold Module.resetNRelease
  rw [hs]
  exact if_pos hp

/-- Settles O3: a trip and RESET_N each ask for the reset of the module, and each end lets it go. -/
theorem tripAndResetPin : Obligations.TripAndResetPin := by
  unfold Obligations.TripAndResetPin
  intro s hs
  refine ⟨fun temps hp hu hx => ?trip, fun temps hx => ?hot, fun temps hp ht hx hn => ?cool, fun temps hp ht hx hn => ?coolHeld,
    fun hp hu => ?assert, fun hp => ?wake, fun hp ht => ?release⟩
  case trip =>
    have hh := Module.requestReset_holds (s.mod.overheated s.now temps) s.now .cold [3] .heldTrip hs (congrArg LampPhase.inStart hp) hu
      (by decide)
    refine ⟨{ s with mod := s.mod.thermalTrip s.now temps }, rfl, ?_⟩
    dsimp only
    rw [Module.thermalTrip_hot _ _ _ hp hx]
    exact ⟨hh.half0, hh.half1, hh.phase, hh.tripped, hh.temps, hh.flash, hh.fuse⟩
  case hot =>
    show Host.Outcome.next { s with mod := s.mod.tripRelease s.now temps } = _
    rw [Module.tripRelease_hot _ _ _ hx]
  case cool =>
    have hg := Module.letGo_free (s.mod.cooled temps) s.now ⟨rfl, hn⟩
    refine ⟨{ s with mod := s.mod.tripRelease s.now temps }, rfl, ?_⟩
    dsimp only
    rw [Module.tripRelease_cool _ _ _ hp ht hx]
    exact ⟨hg.half0, hg.half1, hg.mode0, hg.mode1, hg.phase, hg.tripped⟩
  case coolHeld =>
    refine ⟨{ s with mod := s.mod.tripRelease s.now temps }, rfl, ?_⟩
    dsimp only
    rw [Module.tripRelease_cool _ _ _ hp ht hx, Module.letGo_resetN (s.mod.cooled temps) _ rfl hn]
    exact ⟨rfl, rfl, rfl, rfl, rfl⟩
  case assert =>
    have hh := Module.requestReset_holds (s.mod.resetPin true) s.now .warm [5] .heldResetN hs (congrArg LampPhase.inStart hp) hu
      (by decide)
    refine ⟨{ s with mod := s.mod.resetNAssert s.now }, rfl, ?_⟩
    dsimp only
    rw [Module.resetNAssert_running _ _ hs hp]
    exact ⟨hh.half0, hh.half1, hh.phase, hh.resetNLow, hh.flash, hh.fuse⟩
  case wake =>
    refine ⟨{ s with mod := s.mod.resetNAssert s.now }, rfl, ?_⟩
    dsimp only
    rw [Module.resetNAssert_rest _ _ hs hp]
    exact ⟨rfl, rfl, Lamp.get_set_of_lt _ _ _ (by decide) (by decide), rfl, rfl⟩
  case release =>
    have hg := Module.letGo_free (s.mod.resetPin false) s.now ⟨ht, rfl⟩
    refine ⟨{ s with mod := s.mod.resetNRelease s.now }, rfl, ?_⟩
    dsimp only
    rw [Module.resetNRelease_held _ _ hs hp]
    exact ⟨hg.half0, hg.half1, hg.mode0, hg.mode1, hg.phase, hg.resetNLow⟩

end Sys2Proof.Machine
end

section
/-!
SUPPORT. What the report of a link means to the registers: a link that goes down or comes up changes none of the RST, LDR and LANE blocks.
-/
namespace Sys2Proof.Machine

/-- Offset `o` lies in the RST, LDR or LANE block. -/
abbrev OffLinks (o : Nat) : Prop := 0x10000 ≤ o ∧ o < 0x40000

/-- Such a register is none of the panel's. -/
theorem OffLinks.offPanel {o : Nat} (ho : OffLinks o) : OffPanel o :=
  .inr ⟨by omega, by omega, by omega, by omega, by omega⟩

/-- It is none of a source window's. -/
theorem OffLinks.offSource {o : Nat} (ho : OffLinks o) (i : Nat) : OffSource i o :=
  ⟨by simp only [F.INK_SSTAT_word]; omega, by simp only [F.INK_STALLY2_word]; omega, by omega, by omega⟩

/-! ## Changes that are of no register -/

@[simp] theorem Half.reg_onRot (h : Half) (r : Nat) (side : Side) (f : RotSt → RotSt) (o : Nat) : (h.onRot r side f).reg o = h.reg o := rfl
@[simp] theorem Half.reg_noteWhole (h : Half) (t r o : Nat) : (h.noteWhole t r).reg o = h.reg o := rfl
@[simp] theorem Half.reg_cutSegment (h : Half) (t r : Nat) (side : Side) (o : Nat) : (h.cutSegment t r side).reg o = h.reg o := rfl
@[simp] theorem Half.reg_serve (h : Half) (r : Nat) (side : Side) (c : Cell) (o : Nat) : (h.serve r side c).reg o = h.reg o := by
  unfold Half.serve
  split <;> rfl
@[simp] theorem Half.reg_sendTo (h : Half) (r s : Nat) (c : Cell) (o : Nat) : (h.sendTo r s c).reg o = h.reg o :=
  Half.reg_serve _ _ _ _ _

section Links
variable (h : Half) (t o : Nat) (ho : OffLinks o)
include ho

/-! ## The panel's sub-link -/

/-- LANESUP and UNHEALTHY followed leave such a register. -/
theorem Half.reg_panelHealth : (h.panelHealth t).reg o = h.reg o := by
  have shown (v : Nat) (b : Bool) : ((h.set F.PNL_STATUS_LANESUP v).setFlag F.PNL_STATUS_UNHEALTHY b).reg o = h.reg o :=
    (Half.reg_set_panel _ _ ho.offPanel F.PNL_STATUS_UNHEALTHY _ (by decide)).trans
      (Half.reg_set_panel _ _ ho.offPanel F.PNL_STATUS_LANESUP _ (by decide))
  unfold Half.panelHealth Half.onPnlStatus Half.signalling
  dsimp only
  refine Half.reg_ite (shown _ _) ?_
  rw [Half.reg_signal _ _ _ _ (offPanel_blocks o ho.offPanel).1, shown]

/-- So does the panel link that goes down (R258). -/
theorem Half.reg_panelLinkDown : (h.panelLinkDown t).reg o = h.reg o := by
  unfold Half.panelLinkDown
  rw [Half.reg_panelHealth _ _ _ ho, Half.reg_panelState _ _ ho.offPanel, Half.reg_onPanel]

/-- So does the panel link that comes up. -/
theorem Half.reg_panelLinkUp : (h.panelLinkUp t).reg o = h.reg o := by
  unfold Half.panelLinkUp
  rw [Half.reg_panelHealth _ _ _ ho, Half.reg_panelState _ _ ho.offPanel, Half.reg_onPanel]

/-! ## Sources -/

/-- So does NOSIG followed at every source. -/
theorem Half.reg_followAllNosig : (h.followAllNosig t).reg o = h.reg o :=
  foldl_keeps (fun x => x.reg o) _ (fun x i => Half.reg_followNosig x t i o (ho.offSource i) false) _ h

/-- So does a frame discarded and counted. -/
theorem Half.reg_discardFrame_counted (i : Nat) : (h.discardFrame i (some (F.INK_STALLY0_INCOMPLETE i))).reg o = h.reg o := by
  have counted (x : Half) : (x.tally (F.INK_STALLY0_INCOMPLETE i) 1).reg o = x.reg o :=
    Half.reg_set_other _ _ _ _ (by simp only [F.INK_STALLY0_INCOMPLETE]; omega)
  unfold Half.discardFrame
  split
  · rfl
  · split
    · rfl
    · exact (counted _).trans (Half.reg_set_other _ _ _ _ (ho.offSource i).sstat)

/-- So does the loss of sources (R152, R160). -/
theorem Half.reg_sourcesLost (hit : SourceRec → Bool) : (h.sourcesLost t hit).reg o = h.reg o := by
  refine foldl_keeps (fun x => x.reg o) _ (fun x i => ?_) _ h
  split
  · rfl
  · exact Half.reg_ite ((Half.reg_followNosig _ _ _ _ (ho.offSource i) _).trans (Half.reg_discardFrame_counted _ _ ho _)) rfl

/-! ## Rings -/

/-- So does a segment that breaks (R297). -/
theorem Half.reg_breakSegment (r : Nat) (side : Side) : (h.breakSegment t r side).reg o = h.reg o := by
  unfold Half.breakSegment Half.ringStopsCopy
  refine Half.reg_ite ?_ rfl
  rw [Half.reg_sourcesLost _ _ _ ho, Half.reg_onRot, Half.reg_cutSegment]

/-- So does a ring link that goes down. -/
theorem Half.reg_ringLinkDown (r : Nat) (side : Side) : (h.ringLinkDown t r side).reg o = h.reg o := by
  unfold Half.ringLinkDown Half.ringStopsCopy
  rw [Half.reg_noteWhole, Half.reg_sourcesLost _ _ _ ho, Half.reg_breakSegment _ _ _ ho]

/-- So does a ring that enters a state. -/
theorem Half.reg_ringEnter (r s : Nat) : (h.ringEnter r s).reg o = h.reg o := by
  have entered : (h.set (F.RNG_STATE_STATE r) s).reg o = h.reg o :=
    Half.reg_set_other _ _ _ _ (by simp only [F.RNG_STATE_STATE]; omega)
  have signalled (off : Nat) : ((h.set (F.RNG_STATE_STATE r) s).signal irqRing off).reg o = h.reg o :=
    (Half.reg_signal _ _ _ _ (offPanel_blocks o ho.offPanel).1).trans entered
  unfold Half.ringEnter Half.onRingRegs
  exact Half.reg_ite (signalled _) (Half.reg_ite (signalled _) entered)

/-- So does a JOIN tried (R294). -/
theorem Half.reg_tryJoin (r : Nat) : (h.tryJoin r).reg o = h.reg o := by
  unfold Half.tryJoin
  dsimp only
  split
  · refine Half.reg_ite ?_ rfl
    rw [Half.reg_sendTo, Half.reg_ringEnter _ _ ho]
  · rfl

/-! ## Links -/

/-- So does a link that goes down. -/
theorem Half.reg_linkGoesDown (l : Nat) : (h.linkGoesDown t l).reg o = h.reg o := by
  unfold Half.linkGoesDown
  dsimp only
  rw [Half.reg_followAllNosig _ _ _ ho]
  refine Half.reg_ite (Half.reg_panelLinkDown _ _ _ ho) ?_
  split
  · exact Half.reg_ringLinkDown _ _ _ ho _ _
  · exact Half.reg_sourcesLost _ _ _ ho _

/-- So does a link that comes up. -/
theorem Half.reg_linkComesUp (l : Nat) : (h.linkComesUp t l).reg o = h.reg o := by
  have followed := Half.reg_followAllNosig h t o ho
  unfold Half.linkComesUp
  dsimp only
  refine Half.reg_ite ((Half.reg_panelLinkUp _ _ _ ho).trans followed) ?_
  split
  · rw [Half.reg_tryJoin _ _ ho, Half.reg_noteWhole, followed]
  · exact followed

/-- What a half does of the report of a link leaves it as the report does. -/
theorem Half.reg_reporting (k : Half) (l : Nat) (hr : h.inReset = false) :
    (h.reporting t (k.linkReport t l)).reg o = (k.linkReport t l).1.reg o := by
  unfold Half.reporting
  rw [hr, if_neg Bool.false_ne_true]
  unfold Half.linkReport Half.linkEvents
  dsimp only
  split
  · rfl
  · split
    · exact Half.reg_linkComesUp _ _ _ ho _
    · split
      · rfl
      · exact Half.reg_linkGoesDown _ _ _ ho _

end Links

/-- The overrun flag of a lane is the highest bit of its word, so every field below the highest bit of a register reads as before in a
link's report (R135). -/
theorem Half.get_linkReport (h : Half) (t l : Nat) (f : Field) (ho : OffLinks f.off) (hf : f.lo + f.width ≤ 31) :
    (h.linkReport t l).1.get f = h.get f := by
  have flagged (x : Half) (q : Nat) : (x.set (F.LANE_STATUS_OVR q) 1).get f = x.get f :=
    Half.get_set_other _ _ _ _ (Nat.le_refl 32) (.inr (.inl hf))
  have xovr (x : Half) (g : Field) (hg : g.off = F.SYS_XOVR_word.off) : (x.set g 1).get f = x.get f :=
    Half.get_congr _ _ _ (Half.reg_set_other _ _ _ _ (by rw [hg]; simp only [F.SYS_XOVR_word]; omega))
  have overrun (x : Half) : (x.downOverrun l).get f = x.get f := by
    unfold Half.downOverrun
    split
    · exact xovr _ F.SYS_XOVR_PNL rfl
    · exact (flagged _ _).trans (xovr _ F.SYS_XOVR_LANE rfl)
  unfold Half.linkReport
  dsimp only
  split
  · rfl
  · split
    · rfl
    · split
      · exact overrun _
      · rfl

/-- Such a field reads as before once a half has taken the report of a lane's link. -/
theorem Half.get_laneReporting (h k : Half) (t p : Nat) (f : Field) (hr : h.inReset = false) (ho : OffLinks f.off)
    (hf : f.lo + f.width ≤ 31) : (h.reporting t (k.laneReport t p)).get f = k.get f := by
  unfold Half.laneReport
  split
  · next l _ => exact (Half.get_congr _ _ _ (Half.reg_reporting _ _ _ ho _ _ hr)).trans (Half.get_linkReport _ _ _ _ ho hf)
  · unfold Half.reporting
    rw [hr]
    rfl

/-- A lane whose link stands as it has reported has nothing to report. -/
theorem Half.laneReporting_same (h k : Half) (t p : Nat) (hr : h.inReset = false)
    (hl : ∀ l, k.linkOf p = some l → (k.run l).up = k.linkUp l) : h.reporting t (k.laneReport t p) = k := by
  have same : k.laneReport t p = (k, []) := by
    unfold Half.laneReport
    split
    · next l hl' =>
      exact if_pos (by rw [hl l hl']; exact beq_self_eq_true _)
    · rfl
  rw [same]
  unfold Half.reporting
  rw [hr]
  rfl

end Sys2Proof.Machine
end

section
/-!
SUPPORT. Writes of LANE_CTRL (R34, R105, R111, R120): a write of one field by its stages, and what each stage leaves of the lane.
-/
namespace Sys2Proof.Machine

/-! ## Fields of a lane -/

/-- Fields whose bits lie one below the other share none, whatever their registers. -/
theorem apart_of_below {f g : Field} (h : (f.lo + f.width).ble g.lo = true) : f.apart g := .inr (.inr (Nat.le_of_ble_eq_true h))
theorem apart_of_above {f g : Field} (h : (g.lo + g.width).ble f.lo = true) : f.apart g := .inr (.inl (Nat.le_of_ble_eq_true h))

/-- A field lies within a word when its bits do. -/
theorem Field.fits_of_ble {f : Field} (h : (f.lo + f.width).ble 32 = true) : f.fits := Nat.le_of_ble_eq_true h

/-- LANE_CTRL of a lane is LANE_STATUS of none. -/
theorem laneCtrl_ne_laneStatus (p q : Nat) : (F.LANE_CTRL_word p).off ≠ (F.LANE_STATUS_word q).off := by
  simp only [F.LANE_CTRL_word, F.LANE_STATUS_word]
  omega

/-- The state of a lane lies among the registers that no report of a link changes; so do the fields of LANE_CTRL. -/
theorem offLinks_laneWord (p : Nat) (hp : p < 24) : OffLinks (F.LANE_CTRL_word p).off ∧ OffLinks (F.LANE_STATUS_word p).off := by
  simp only [OffLinks, F.LANE_CTRL_word, F.LANE_STATUS_word]
  omega

/-- Offset `o` is no register that a write of LANE_CTRL of lane `p` changes by itself: LANE_CTRL, LANE_STATUS and LANE_SDI of the lane and
SYS_XOVR. -/
structure OffLane (p o : Nat) : Prop where
  ctrl : o ≠ (F.LANE_CTRL_word p).off
  status : o ≠ (F.LANE_STATUS_word p).off
  sdi : o ≠ (F.LANE_SDI_word p).off
  xovr : o ≠ F.SYS_XOVR_word.off

/-- A register of the RST block is such a register. -/
theorem offLane_rst (p o : Nat) (ho : o / 0x10000 = 1) : OffLane p o := by
  constructor <;> simp only [F.LANE_CTRL_word, F.LANE_STATUS_word, F.LANE_SDI_word, F.SYS_XOVR_word] <;> omega

/-- So is LANE_PATTERN. -/
theorem offLane_pattern (p : Nat) : OffLane p (F.LANE_PATTERN_word p).off := by
  constructor <;> simp only [F.LANE_PATTERN_word, F.LANE_CTRL_word, F.LANE_STATUS_word, F.LANE_SDI_word, F.SYS_XOVR_word] <;> omega

/-! ## The word that writes one field -/

/-- The access codes of LANE_CTRL: OPEN, MAPOUT, TXIDLE and ENABLE are RW. -/
theorem regSpec_laneCtrl : ∀ p < 24, regSpec (F.LANE_CTRL_word p).off = some ⟨0x30000, 0x800, 24, 0x0, 0x903, 0x0, 0x0, 0x0⟩ := by
  decide

/-- A bit of a word. -/
theorem bitAt_toNat (w : Word) (i : Nat) (hi : i < 32) : bitAt w.toNat i = w[i] := by
  rw [BitVec.getElem_eq_testBit_toNat, Nat.testBit_eq_decide_div_mod_eq]
  rfl

/-- The word that writes one bit of LANE_CTRL: that bit is as asked, the RW fields are as they stand and RETRY is 0. -/
def Half.laneCtrlWord (h : Half) (p lo : Nat) (on : Bool) : Word := putBits (h.heldWord (F.LANE_CTRL_word p).off) lo 1 (bit on)

theorem Half.bitAt_laneCtrlWord (h : Half) (p lo : Nat) (on : Bool) (hp : p < 24) (hlo : lo < 32) (i : Nat) (hi : i < 32) :
    bitAt (h.laneCtrlWord p lo on).toNat i =
      if i = lo then on else bitAt (h.reg (F.LANE_CTRL_word p).off).toNat i && bitAt 0x903 i := by
  have held : h.heldWord (F.LANE_CTRL_word p).off = h.reg (F.LANE_CTRL_word p).off &&& 0x903#32 := by
    unfold Half.heldWord
    rw [regSpec_laneCtrl p hp]
    rfl
  have mask : (0x903#32)[i] = bitAt 0x903 i := (bitAt_toNat _ _ hi).symm
  have put := getElem_putFlag (h.heldWord (F.LANE_CTRL_word p).off) lo on hlo i hi
  unfold putFlag at put
  unfold Half.laneCtrlWord
  rw [bitAt_toNat _ _ hi, put, held, BitVec.getElem_and, mask, bitAt_toNat _ _ hi]

/-! ## The stages of a write -/

/-- TXIDLE and OPEN written: OPEN stands on a west port only, and without it the pair closes (R120). -/
def Half.pairWritten (h : Half) (p : Nat) (idle opened : Bool) : Half :=
  let h1 := (h.setFlag (F.LANE_CTRL_TXIDLE p) idle).setFlag (F.LANE_CTRL_OPEN p) opened
  if opened then h1 else h1.set (F.LANE_STATUS_BYPASS p) 0

/-- ENABLE written over what it was (R105). -/
def Half.enableWritten (h : Half) (t p : Nat) (was on : Bool) : Half :=
  if on && !was then h.laneEnable t p else if !on && was then h.laneDisable p else h

/-- MAPOUT written: set, it maps an enabled lane out (R111). -/
def Half.mapoutWritten (h : Half) (t p : Nat) (enabled out : Bool) : Half :=
  let h1 := h.setFlag (F.LANE_CTRL_MAPOUT p) out
  if out && enabled && h1.laneState p != lsMappedOut then h1.mapOut t p none else h1

/-- RETRY written (R111). -/
def Half.retryWritten (h : Half) (t p : Nat) (retry : Bool) : Half := if retry then h.retryLane t p else h

/-- The port is a west port of the first ring. -/
def isWest (p : Nat) : Bool := decide (16 ≤ p) && decide (p < 20)

/-- The half after a write of LANE_CTRL, before the report of the lane's link. -/
def Half.laneWritten (h : Half) (t p : Nat) (v : Word) : Half :=
  (((h.pairWritten p (bitAt v.toNat 1) (bitAt v.toNat 11 && isWest p)).enableWritten t p (h.flag (F.LANE_CTRL_ENABLE p))
    (bitAt v.toNat 0)).mapoutWritten t p (bitAt v.toNat 0) (bitAt v.toNat 8)).retryWritten t p (bitAt v.toNat 7)

/-- A write of LANE_CTRL is its four stages and the report. -/
theorem Half.laneCtrl_eq (h : Half) (t p : Nat) (v : Word) : h.laneCtrl t p v = (h.laneWritten t p v).laneReport t p := rfl

/-- TXIDLE and OPEN as they stand. -/
def Half.pairHeld (h : Half) (p : Nat) : Half :=
  h.pairWritten p (h.flag (F.LANE_CTRL_TXIDLE p)) (h.flag (F.LANE_CTRL_OPEN p) && isWest p)

section Written
variable (h : Half) (t p : Nat) (hp : p < 24)
include hp

/-- The stages of a write of one bit of LANE_CTRL. -/
theorem Half.laneWritten_bit (lo : Nat) (on : Bool) (hlo : lo < 32) : h.laneWritten t p (h.laneCtrlWord p lo on) =
    (((h.pairWritten p (if lo = 1 then on else h.flag (F.LANE_CTRL_TXIDLE p))
        ((if lo = 11 then on else h.flag (F.LANE_CTRL_OPEN p)) && isWest p)).enableWritten t p (h.flag (F.LANE_CTRL_ENABLE p))
      (if lo = 0 then on else h.flag (F.LANE_CTRL_ENABLE p))).mapoutWritten t p
        (if lo = 0 then on else h.flag (F.LANE_CTRL_ENABLE p)) (if lo = 8 then on else h.flag (F.LANE_CTRL_MAPOUT p))).retryWritten t p
          (if lo = 7 then on else false) := by
  have field (i : Nat) (hi : i < 32) (hm : bitAt 0x903 i = true) : bitAt (h.laneCtrlWord p lo on).toNat i =
      if lo = i then on else bitAt (h.reg (F.LANE_CTRL_word p).off).toNat i := by
    rw [Half.bitAt_laneCtrlWord h p lo on hp hlo i hi, hm, Bool.and_true]
    simp only [eq_comm]
  have retry : bitAt (h.laneCtrlWord p lo on).toNat 7 = if lo = 7 then on else false := by
    rw [Half.bitAt_laneCtrlWord h p lo on hp hlo 7 (by decide), show bitAt 0x903 7 = false from rfl, Bool.and_false]
    simp only [eq_comm]
  unfold Half.laneWritten
  rw [field 0 (by decide) rfl, field 1 (by decide) rfl, field 8 (by decide) rfl, field 11 (by decide) rfl, retry]
  rfl

end Written

/-! ## What the stages leave alone -/

section Stages
variable (h : Half) (t p : Nat)

/-- A lane that begins its work changes its state and no other register. -/
theorem Half.reg_laneBegin (o : Nat) (ho : o ≠ (F.LANE_STATUS_word p).off) : (h.laneBegin t p).reg o = h.reg o := by
  have entered (x : Half) (s : Nat) : (x.laneEnter p s).reg o = x.reg o := Half.reg_set_other _ _ _ _ ho
  unfold Half.laneBegin
  exact Half.reg_ite (entered (h.onRx p _) lsPattern) (Half.reg_ite (entered (h.onRx p _) lsSdiHunt) (entered (h.onRx p _) lsCdr))

/-- It begins in its first state. -/
theorem Half.laneState_laneBegin : (h.laneBegin t p).laneState p = h.firstState p := by
  have entered (x : Half) (s : Nat) (hs : s < 16) : (x.laneEnter p s).laneState p = s :=
    Half.get_set_of_lt _ (F.LANE_STATUS_STATE p) _ (Field.fits_of_ble rfl) hs
  unfold Half.laneBegin Half.firstState
  by_cases hg : h.flag (F.LANE_PATTERN_GENEN p) = true
  · rw [if_pos hg, if_pos hg]
    exact entered (h.onRx p _) lsPattern (by decide)
  · rw [if_neg hg, if_neg hg]
    by_cases hr : (h.portRec p).role = 2
    · rw [if_pos hr, if_pos hr]
      exact entered (h.onRx p _) lsSdiHunt (by decide)
    · rw [if_neg hr, if_neg hr]
      exact entered (h.onRx p _) lsCdr (by decide)

/-- The first state of a lane is that of its port's role and its generator. -/
theorem Half.firstState_congr (k : Half) (hr : k.reg (F.LANE_PATTERN_word p).off = h.reg (F.LANE_PATTERN_word p).off)
    (hp : k.port.ports = h.port.ports) : k.firstState p = h.firstState p := by
  have flag : k.flag (F.LANE_PATTERN_GENEN p) = h.flag (F.LANE_PATTERN_GENEN p) := congrArg (· == 1) (Half.get_congr _ _ _ hr)
  unfold Half.firstState Half.portRec
  rw [flag, hp]

/-- Whether its clock has qualified is told by RST_QUAL. -/
theorem Half.clocked_congr (k : Half) (hr : k.reg F.RST_QUAL_word.off = h.reg F.RST_QUAL_word.off) : k.clocked p = h.clocked p :=
  congrArg (bitAt · (p / 4)) (Half.get_congr _ _ F.RST_QUAL_PORTPLL hr)

/-- A count of a lane's island changes the overrun flags only (R136). -/
theorem Half.reg_laneCount (code n o : Nat) (ho : o ≠ (F.LANE_STATUS_word p).off) (hx : o ≠ F.SYS_XOVR_word.off) :
    (h.laneCount p code n).reg o = h.reg o := by
  unfold Half.laneCount
  dsimp only
  refine Half.reg_ite ?_ rfl
  exact (Half.reg_set_other _ F.SYS_XOVR_LANE _ _ hx).trans (Half.reg_set_other _ (F.LANE_STATUS_OVR p) _ _ ho)

/-- It leaves the state of the lane. -/
theorem Half.laneState_laneCount (code n : Nat) : (h.laneCount p code n).laneState p = h.laneState p := by
  have flagged (x : Half) : ((x.set (F.LANE_STATUS_OVR p) 1).set F.SYS_XOVR_LANE 1).laneState p = x.laneState p :=
    (Half.get_set_other _ _ _ _ (by decide) (.inl (by simp only [F.SYS_XOVR_LANE, F.LANE_STATUS_STATE]; omega))).trans
      (Half.get_set_other _ _ _ _ (Field.fits_of_ble rfl) (apart_of_above rfl))
  unfold Half.laneCount
  dsimp only
  split
  · exact flagged _
  · rfl

/-- A lane mapped out without a fault changes LANE_STATUS and SYS_XOVR only. -/
theorem Half.reg_mapOut_none (o : Nat) (ho : o ≠ (F.LANE_STATUS_word p).off) (hx : o ≠ F.SYS_XOVR_word.off) :
    (h.mapOut t p none).reg o = h.reg o :=
  (Half.reg_laneCount _ _ _ _ _ ho hx).trans (Half.reg_set_other (h.onRx p _) (F.LANE_STATUS_STATE p) _ _ ho)

/-- It is in MAPPED_OUT. -/
theorem Half.laneState_mapOut_none : (h.mapOut t p none).laneState p = lsMappedOut :=
  (Half.laneState_laneCount _ _ _ _).trans
    (Half.get_set_of_lt (h.onRx p _) (F.LANE_STATUS_STATE p) _ (Field.fits_of_ble rfl) (show lsMappedOut < 16 by decide))

/-- TXIDLE and OPEN written change LANE_CTRL and LANE_STATUS only. -/
theorem Half.reg_pairWritten (idle opened : Bool) (o : Nat) (hc : o ≠ (F.LANE_CTRL_word p).off) (hs : o ≠ (F.LANE_STATUS_word p).off) :
    (h.pairWritten p idle opened).reg o = h.reg o := by
  have written : ((h.setFlag (F.LANE_CTRL_TXIDLE p) idle).setFlag (F.LANE_CTRL_OPEN p) opened).reg o = h.reg o :=
    (Half.reg_set_other _ (F.LANE_CTRL_OPEN p) _ _ hc).trans (Half.reg_set_other _ (F.LANE_CTRL_TXIDLE p) _ _ hc)
  unfold Half.pairWritten
  exact Half.reg_ite written ((Half.reg_set_other _ (F.LANE_STATUS_BYPASS p) _ _ hs).trans written)

/-- They leave the state of every lane. -/
theorem Half.laneState_pairWritten (idle opened : Bool) (q : Nat) : (h.pairWritten p idle opened).laneState q = h.laneState q := by
  have hne : (F.LANE_STATUS_word q).off ≠ (F.LANE_CTRL_word p).off := (laneCtrl_ne_laneStatus p q).symm
  have written : ((h.setFlag (F.LANE_CTRL_TXIDLE p) idle).setFlag (F.LANE_CTRL_OPEN p) opened).laneState q = h.laneState q :=
    Half.get_congr _ _ _ ((Half.reg_set_other _ (F.LANE_CTRL_OPEN p) _ _ hne).trans
      (Half.reg_set_other _ (F.LANE_CTRL_TXIDLE p) _ _ hne))
  unfold Half.pairWritten
  dsimp only
  split
  · exact written
  · exact (Half.get_set_other _ _ _ _ (Field.fits_of_ble rfl) (apart_of_above rfl)).trans written

/-- They are of no other part of the half. -/
theorem Half.pairWritten_onlyRegs (idle opened : Bool) : { h.pairWritten p idle opened with regs := h.regs } = h := by
  unfold Half.pairWritten
  dsimp only
  split <;> rfl

/-- What a write of LANE_CTRL changes of the registers, before the report of the link. -/
theorem Half.reg_laneWritten (v : Word) (o : Nat) (ho : OffLane p o) : (h.laneWritten t p v).reg o = h.reg o := by
  have begun (x : Half) : (x.laneBegin t p).reg o = x.reg o := Half.reg_laneBegin x t p o ho.status
  have enabled (x : Half) : (x.laneEnable t p).reg o = x.reg o := by
    have set1 : ((x.onLane p fun (y : Lane) => { Lane.reset with pass := y.pass }).set (F.LANE_CTRL_ENABLE p) 1).reg o = x.reg o :=
      Half.reg_set_other _ _ _ _ ho.ctrl
    exact Half.reg_ite ((begun _).trans set1) set1
  have disabled (x : Half) : (x.laneDisable p).reg o = x.reg o :=
    (Half.reg_set_other _ (F.LANE_STATUS_RATE p) _ _ ho.status).trans ((Half.reg_set_other _ (F.LANE_SDI_LOCK p) _ _ ho.sdi).trans
      ((Half.reg_set_other _ (F.LANE_STATUS_STATE p) _ _ ho.status).trans
        (Half.reg_set_other (x.onLane p _) (F.LANE_CTRL_ENABLE p) _ _ ho.ctrl)))
  have switched (x : Half) (was on : Bool) : (x.enableWritten t p was on).reg o = x.reg o :=
    Half.reg_ite (enabled x) (Half.reg_ite (disabled x) rfl)
  have out (x : Half) (b : Bool) : (x.setFlag (F.LANE_CTRL_MAPOUT p) b).reg o = x.reg o := Half.reg_set_other _ _ _ _ ho.ctrl
  have mapped (x : Half) (e b : Bool) : (x.mapoutWritten t p e b).reg o = x.reg o :=
    Half.reg_ite ((Half.reg_mapOut_none _ t p _ ho.status ho.xovr).trans (out x b)) (out x b)
  have retried (x : Half) (b : Bool) : (x.retryWritten t p b).reg o = x.reg o :=
    Half.reg_ite (Half.reg_ite (begun x) rfl) rfl
  unfold Half.laneWritten
  rw [retried, mapped, switched, Half.reg_pairWritten _ _ _ _ _ ho.ctrl ho.status]

end Stages
end Sys2Proof.Machine
end

section
/-! SUPPORT. The statement on writes of LANE_CTRL (R34, R105, R111, R120). -/
namespace Sys2Proof.Machine

/-! ## The command -/

/-- What a write of one bit of LANE_CTRL makes of a half. -/
def Half.laneCommand (h : Half) (t p lo : Nat) (on : Bool) : Half := h.reporting t (h.laneCtrl t p (h.laneCtrlWord p lo on))

/-- A write in the LANE block is one of its half. -/
theorem Module.writeReg_lane (m : Module) (t : Nat) (k : HalfId) (master off : Nat) (v : Word) (hb : off / 0x10000 = 3) :
    m.writeReg t k master off v = m.onHalf k fun x => x.writeLane t off v := by
  unfold Module.writeReg
  rw [hb]
  rfl

/-- A write of LANE_CTRL of a lane is one of that lane. -/
theorem Half.writeLane_ctrl (h : Half) (t p : Nat) (v : Word) (hp : p < 24) :
    h.writeLane t (F.LANE_CTRL_word p).off v = h.reporting t (h.laneCtrl t p v) := by
  have hq : ((F.LANE_CTRL_word p).off - 0x30000) / 0x800 = p := by simp only [F.LANE_CTRL_word]; omega
  unfold Half.writeLane
  dsimp only
  rw [hq, if_neg (by omega), if_pos rfl]

section Command
variable (x : Half) (t p lo : Nat) (on : Bool) (hp : p < 24) (hr : x.inReset = false)
include hr

/-- A field below the highest bit of a register that no report of a link changes is as the write leaves it. -/
theorem Half.get_laneCommand (f : Field) (ho : OffLinks f.off) (hf : f.lo + f.width ≤ 31) :
    (x.laneCommand t p lo on).get f = (x.laneWritten t p (x.laneCtrlWord p lo on)).get f :=
  Half.get_laneReporting _ _ _ _ _ hr ho hf

include hp in
/-- So are the state of the lane and ENABLE and MAPOUT. -/
theorem Half.lane_laneCommand :
    (x.laneCommand t p lo on).laneState p = (x.laneWritten t p (x.laneCtrlWord p lo on)).laneState p ∧
    (x.laneCommand t p lo on).get (F.LANE_CTRL_ENABLE p) = (x.laneWritten t p (x.laneCtrlWord p lo on)).get (F.LANE_CTRL_ENABLE p) ∧
    (x.laneCommand t p lo on).get (F.LANE_CTRL_MAPOUT p) = (x.laneWritten t p (x.laneCtrlWord p lo on)).get (F.LANE_CTRL_MAPOUT p) := by
  obtain ⟨hc, hs⟩ := offLinks_laneWord p hp
  exact ⟨Half.get_laneCommand x t p lo on hr (F.LANE_STATUS_STATE p) hs (Nat.le_of_ble_eq_true rfl),
    Half.get_laneCommand x t p lo on hr (F.LANE_CTRL_ENABLE p) hc (Nat.le_of_ble_eq_true rfl),
    Half.get_laneCommand x t p lo on hr (F.LANE_CTRL_MAPOUT p) hc (Nat.le_of_ble_eq_true rfl)⟩

/-- The mode stays. -/
theorem Half.mode_laneCommand : (x.laneCommand t p lo on).mode = x.mode :=
  (Half.get_laneCommand x t p lo on hr F.RST_STATE_MODE (by decide) (by decide)).trans
    (Half.mode_congr _ _ (Half.reg_laneWritten _ _ _ _ _ (offLane_rst _ _ (by decide))))

end Command

/-- A granted write of one bit of LANE_CTRL is a change of its half. -/
theorem Module.fieldWrite_laneCtrl (m : Module) (t : Nat) (h : HalfId) (p master lo : Nat) (on : Bool) (hp : p < 24)
    (hg : m.grants h master (F.LANE_CTRL_word p).off) :
    m.fieldWrite t h master ⟨(F.LANE_CTRL_word p).off, lo, 1⟩ (bit on) = m.onHalf h fun x => x.laneCommand t p lo on := by
  have hb : (F.LANE_CTRL_word p).off / 0x10000 = 3 := by simp only [F.LANE_CTRL_word]; omega
  unfold Module.fieldWrite
  rw [Module.regWrite_granted _ _ _ _ _ _ hg, Module.writeReg_lane _ _ _ _ _ _ hb]
  exact congrArg (m.setHalf h) (Half.writeLane_ctrl _ _ _ _ hp)

/-- With no start in progress, a command that writes one bit of LANE_CTRL does that and nothing else. -/
theorem State.laneField_laneCtrl (s : State) (h : HalfId) (p master lo : Nat) (f : Nat → Field) (on : Bool)
    (hf : f p = ⟨(F.LANE_CTRL_word p).off, lo, 1⟩) (hs : s.mod.settled) (hp : p < 24)
    (hg : s.mod.grants h master (F.LANE_CTRL_word p).off) (hr : (s.mod.half h).inReset = false) :
    s.laneField h p master f (bit on) = .next { s with mod := s.mod.onHalf h fun x => x.laneCommand s.now p lo on } := by
  have settled := Module.settled_onHalf s.mod h (fun x => x.laneCommand s.now p lo on) hs (Half.mode_laneCommand _ _ _ _ _ hr)
  unfold State.laneField
  rw [State.act_eq, decide_eq_true hp, Module.given_true, hf, Module.fieldWrite_laneCtrl _ _ _ _ _ _ _ hp hg,
    Module.advance_settled _ _ settled]

/-! ## Writes that leave the lane in its state -/

/-- The half with TXIDLE, OPEN and MAPOUT of a lane written and nothing done about them. -/
def Half.laneNoted (h : Half) (p : Nat) (idle opened out : Bool) : Half :=
  (h.pairWritten p idle opened).setFlag (F.LANE_CTRL_MAPOUT p) out

section Noted
variable (h : Half) (p : Nat) (idle opened out : Bool)

/-- Every lane is in its state. -/
theorem Half.laneState_laneNoted (q : Nat) : (h.laneNoted p idle opened out).laneState q = h.laneState q :=
  (Half.get_congr _ _ (F.LANE_STATUS_STATE q) (Half.reg_set_other _ (F.LANE_CTRL_MAPOUT p) _ _ (laneCtrl_ne_laneStatus p q).symm)).trans
    (Half.laneState_pairWritten _ _ _ _ _)

/-- Only LANE_CTRL and LANE_STATUS of the lane change. -/
theorem Half.onlyRegs_laneNoted : h.onlyRegs (h.laneNoted p idle opened out)
    (fun o => o = (F.LANE_CTRL_word p).off ∨ o = (F.LANE_STATUS_word p).off) := by
  refine ⟨Half.pairWritten_onlyRegs h p idle opened, fun o ho => ?_⟩
  obtain ⟨hc, hs⟩ := not_or.mp ho
  exact (Half.reg_set_other _ (F.LANE_CTRL_MAPOUT p) _ _ hc).trans (Half.reg_pairWritten _ _ _ _ _ hc hs)

/-- The ports and their links are as they were. -/
theorem Half.port_laneNoted : (h.laneNoted p idle opened out).port = h.port :=
  (congrArg Half.port (Half.pairWritten_onlyRegs h p idle opened) :)

/-- MAPOUT, OPEN and TXIDLE read as written; without OPEN the pair is closed. -/
theorem Half.fields_laneNoted : (h.laneNoted p idle opened out).get (F.LANE_CTRL_MAPOUT p) = bit out ∧
    (h.laneNoted p idle opened out).get (F.LANE_CTRL_OPEN p) = bit opened ∧
    (h.laneNoted p idle opened out).get (F.LANE_CTRL_TXIDLE p) = bit idle ∧
    (opened = false → (h.laneNoted p idle opened out).get (F.LANE_STATUS_BYPASS p) = 0) := by
  have hne := laneCtrl_ne_laneStatus p p
  have bypass (x : Half) (f : Field) (hf : f.off = (F.LANE_CTRL_word p).off) : (x.set (F.LANE_STATUS_BYPASS p) 0).get f = x.get f :=
    Half.get_congr _ _ _ (Half.reg_set_other _ (F.LANE_STATUS_BYPASS p) _ _ (by rw [hf]; exact hne))
  have closed (f : Field) (hf : f.off = (F.LANE_CTRL_word p).off) : (h.pairWritten p idle opened).get f =
      ((h.setFlag (F.LANE_CTRL_TXIDLE p) idle).setFlag (F.LANE_CTRL_OPEN p) opened).get f := by
    unfold Half.pairWritten
    dsimp only
    split
    · rfl
    · exact bypass _ f hf
  refine ⟨Half.get_setFlag_same _ _ _ (Field.fits_of_ble rfl) rfl, ?_, ?_, fun hopen => ?_⟩
  · exact (Half.get_setFlag_other _ _ _ _ (Field.fits_of_ble rfl) (apart_of_below rfl)).trans
      ((closed (F.LANE_CTRL_OPEN p) rfl).trans (Half.get_setFlag_same _ _ _ (Field.fits_of_ble rfl) rfl))
  · exact (Half.get_setFlag_other _ _ _ _ (Field.fits_of_ble rfl) (apart_of_above rfl)).trans
      ((closed (F.LANE_CTRL_TXIDLE p) rfl).trans ((Half.get_setFlag_other _ _ _ _ (Field.fits_of_ble rfl) (apart_of_above rfl)).trans
        (Half.get_setFlag_same _ _ _ (Field.fits_of_ble rfl) rfl)))
  · subst hopen
    have shut : (h.pairWritten p idle false).get (F.LANE_STATUS_BYPASS p) = 0 :=
      Half.get_set_of_lt _ (F.LANE_STATUS_BYPASS p) _ (Field.fits_of_ble rfl) (Nat.two_pow_pos _)
    exact (Half.get_congr _ _ (F.LANE_STATUS_BYPASS p) (Half.reg_set_other _ (F.LANE_CTRL_MAPOUT p) _ _ hne.symm)).trans shut

end Noted

/-- A link is up or down by the states of its lanes. -/
theorem Half.linkUp_congr (h k : Half) (l : Nat) (hp : k.port = h.port) (hs : ∀ q, k.laneState q = h.laneState q) :
    k.linkUp l = h.linkUp l := by
  have record : k.linkRec l = h.linkRec l := by unfold Half.linkRec Half.portRec; rw [hp]
  unfold Half.linkUp Half.upLanes
  simp only [record, hs]

/-- Where the lane's link stands as it has reported, such a write has nothing to report. -/
theorem Half.laneCommand_noted (x : Half) (t p lo : Nat) (on idle opened out : Bool) (hr : x.inReset = false)
    (hl : ∀ l, x.linkOf p = some l → (x.run l).up = x.linkUp l)
    (hw : x.laneWritten t p (x.laneCtrlWord p lo on) = x.laneNoted p idle opened out) :
    x.laneCommand t p lo on = x.laneNoted p idle opened out := by
  have port := Half.port_laneNoted x p idle opened out
  unfold Half.laneCommand
  rw [Half.laneCtrl_eq, hw]
  refine Half.laneReporting_same _ _ _ _ hr fun l hk => ?_
  rw [Half.linkUp_congr x _ l port (Half.laneState_laneNoted x p idle opened out)]
  unfold Half.run
  rw [port]
  refine hl l ?_
  unfold Half.linkOf Half.portRec at hk ⊢
  rwa [port] at hk

/-! ## What each command writes -/

section Writes
variable (x : Half) (t p : Nat) (hp : p < 24)
include hp

/-- ENABLE raised. -/
theorem Half.laneWritten_enable (he : x.flag (F.LANE_CTRL_ENABLE p) = false) (hm : x.flag (F.LANE_CTRL_MAPOUT p) = false) :
    x.laneWritten t p (x.laneCtrlWord p 0 true) = ((x.pairHeld p).laneEnable t p).setFlag (F.LANE_CTRL_MAPOUT p) false := by
  rw [Half.laneWritten_bit _ _ _ hp _ _ (by decide), he, hm]
  rfl

/-- ENABLE lowered. -/
theorem Half.laneWritten_disable (he : x.flag (F.LANE_CTRL_ENABLE p) = true) (hm : x.flag (F.LANE_CTRL_MAPOUT p) = false) :
    x.laneWritten t p (x.laneCtrlWord p 0 false) = ((x.pairHeld p).laneDisable p).setFlag (F.LANE_CTRL_MAPOUT p) false := by
  rw [Half.laneWritten_bit _ _ _ hp _ _ (by decide), he, hm]
  rfl

/-- MAPOUT set on an enabled lane that is not in MAPPED_OUT. -/
theorem Half.laneWritten_mapout (he : x.flag (F.LANE_CTRL_ENABLE p) = true) (hs : x.laneState p ≠ lsMappedOut) :
    x.laneWritten t p (x.laneCtrlWord p 8 true) = ((x.pairHeld p).setFlag (F.LANE_CTRL_MAPOUT p) true).mapOut t p none := by
  have elsewhere : (((x.pairHeld p).setFlag (F.LANE_CTRL_MAPOUT p) true).laneState p != lsMappedOut) = true :=
    bne_iff_ne.mpr fun e => hs ((Half.laneState_laneNoted x p _ _ true p).symm.trans e)
  rw [Half.laneWritten_bit _ _ _ hp _ _ (by decide), he]
  exact if_pos elsewhere

/-- MAPOUT cleared. -/
theorem Half.laneWritten_mapout_clear : x.laneWritten t p (x.laneCtrlWord p 8 false) =
    x.laneNoted p (x.flag (F.LANE_CTRL_TXIDLE p)) (x.flag (F.LANE_CTRL_OPEN p) && isWest p) false := by
  rw [Half.laneWritten_bit _ _ _ hp _ _ (by decide)]
  cases he : x.flag (F.LANE_CTRL_ENABLE p) <;> rfl

/-- RETRY. -/
theorem Half.laneWritten_retry (hm : x.flag (F.LANE_CTRL_MAPOUT p) = false) : x.laneWritten t p (x.laneCtrlWord p 7 true) =
    (x.laneNoted p (x.flag (F.LANE_CTRL_TXIDLE p)) (x.flag (F.LANE_CTRL_OPEN p) && isWest p) false).retryLane t p := by
  rw [Half.laneWritten_bit _ _ _ hp _ _ (by decide), hm]
  cases he : x.flag (F.LANE_CTRL_ENABLE p) <;> rfl

/-- OPEN. -/
theorem Half.laneWritten_open (on : Bool) (hm : x.flag (F.LANE_CTRL_MAPOUT p) = false) : x.laneWritten t p (x.laneCtrlWord p 11 on) =
    x.laneNoted p (x.flag (F.LANE_CTRL_TXIDLE p)) (on && isWest p) false := by
  rw [Half.laneWritten_bit _ _ _ hp _ _ (by decide), hm]
  cases he : x.flag (F.LANE_CTRL_ENABLE p) <;> rfl

/-- TXIDLE. -/
theorem Half.laneWritten_txidle (on : Bool) (hm : x.flag (F.LANE_CTRL_MAPOUT p) = false) : x.laneWritten t p (x.laneCtrlWord p 1 on) =
    x.laneNoted p on (x.flag (F.LANE_CTRL_OPEN p) && isWest p) false := by
  rw [Half.laneWritten_bit _ _ _ hp _ _ (by decide), hm]
  cases he : x.flag (F.LANE_CTRL_ENABLE p) <;> rfl

end Writes

/-! ## What the commands that move the lane leave of it -/

section Moves
variable (x : Half) (t p : Nat)

/-- MAPOUT written leaves the state of the lane and ENABLE. -/
theorem Half.lane_setMapout (b : Bool) : (x.setFlag (F.LANE_CTRL_MAPOUT p) b).laneState p = x.laneState p ∧
    (x.setFlag (F.LANE_CTRL_MAPOUT p) b).get (F.LANE_CTRL_ENABLE p) = x.get (F.LANE_CTRL_ENABLE p) :=
  ⟨Half.get_setFlag_other _ _ (F.LANE_STATUS_STATE p) _ (Field.fits_of_ble rfl) (.inl (laneCtrl_ne_laneStatus p p)),
    Half.get_setFlag_other _ _ _ _ (Field.fits_of_ble rfl) (apart_of_above rfl)⟩

/-- The lane enabled with fresh transmitter and receiver, before it begins. -/
def Half.laneFresh (x : Half) (p : Nat) : Half :=
  (x.onLane p fun (y : Lane) => { Lane.reset with pass := y.pass }).set (F.LANE_CTRL_ENABLE p) 1

/-- Of the registers LANE_CTRL alone differs then. -/
theorem Half.reg_laneFresh (o : Nat) (ho : o ≠ (F.LANE_CTRL_word p).off) : (x.laneFresh p).reg o = x.reg o :=
  Half.reg_set_other _ _ _ _ ho

/-- It begins at once where its clock has qualified. -/
theorem Half.laneEnable_eq : x.laneEnable t p = if (x.laneFresh p).clocked p then (x.laneFresh p).laneBegin t p else x.laneFresh p := rfl

/-- Enabled, the lane begins in its first state, or waits for its clock in the state that it has. -/
theorem Half.lane_laneEnable : (x.laneEnable t p).get (F.LANE_CTRL_ENABLE p) = 1 ∧
    (x.laneEnable t p).laneState p = if x.clocked p then x.firstState p else x.laneState p := by
  have enabled : (x.laneFresh p).get (F.LANE_CTRL_ENABLE p) = 1 :=
    Half.get_set_of_lt _ (F.LANE_CTRL_ENABLE p) _ (Field.fits_of_ble rfl) (show 1 < 2 by decide)
  have clocked := Half.clocked_congr x p _ (Half.reg_laneFresh x p _ (offLane_rst p _ (by decide)).ctrl)
  have first := Half.firstState_congr x p _ (Half.reg_laneFresh x p _ (offLane_pattern p).ctrl) rfl
  have state : (x.laneFresh p).laneState p = x.laneState p :=
    Half.get_congr _ _ (F.LANE_STATUS_STATE p) (Half.reg_laneFresh x p _ (laneCtrl_ne_laneStatus p p).symm)
  rw [Half.laneEnable_eq, clocked]
  split
  · exact ⟨(Half.get_congr _ _ (F.LANE_CTRL_ENABLE p) (Half.reg_laneBegin _ _ _ _ (laneCtrl_ne_laneStatus p p))).trans enabled,
      (Half.laneState_laneBegin _ _ _).trans first⟩
  · exact ⟨enabled, state⟩

/-- Disabled, it is OFF. -/
theorem Half.lane_laneDisable : (x.laneDisable p).get (F.LANE_CTRL_ENABLE p) = 0 ∧ (x.laneDisable p).laneState p = lsOff := by
  have other (y : Half) (f g : Field) (v : Nat) (hg : g.off ≠ f.off) : (y.set f v).get g = y.get g :=
    Half.get_congr _ _ _ (Half.reg_set_other _ _ _ _ hg)
  have hsdi : (F.LANE_CTRL_word p).off ≠ (F.LANE_SDI_word p).off ∧ (F.LANE_STATUS_word p).off ≠ (F.LANE_SDI_word p).off := by
    simp only [F.LANE_SDI_word, F.LANE_STATUS_word, F.LANE_CTRL_word]
    omega
  have hne := laneCtrl_ne_laneStatus p p
  constructor
  · exact (other _ (F.LANE_STATUS_RATE p) (F.LANE_CTRL_ENABLE p) _ hne).trans
      ((other _ (F.LANE_SDI_LOCK p) (F.LANE_CTRL_ENABLE p) _ hsdi.1).trans
      ((other _ (F.LANE_STATUS_STATE p) (F.LANE_CTRL_ENABLE p) _ hne).trans
        (Half.get_set_of_lt (x.onLane p _) (F.LANE_CTRL_ENABLE p) _ (Field.fits_of_ble rfl) (Nat.two_pow_pos _))))
  · exact (Half.get_set_other _ (F.LANE_STATUS_RATE p) (F.LANE_STATUS_STATE p) _ (Field.fits_of_ble rfl) (apart_of_above rfl)).trans
      ((other _ (F.LANE_SDI_LOCK p) (F.LANE_STATUS_STATE p) _ hsdi.2).trans
        (Half.get_set_of_lt _ (F.LANE_STATUS_STATE p) _ (Field.fits_of_ble rfl) (Nat.two_pow_pos _)))

end Moves

/-- A half whose TXIDLE and OPEN are as they stand is clocked, and begins its lanes, as it was. -/
theorem Half.begins_pairWritten (x : Half) (p : Nat) (idle opened : Bool) :
    (x.pairWritten p idle opened).clocked p = x.clocked p ∧ (x.pairWritten p idle opened).firstState p = x.firstState p := by
  have hq := offLane_rst p F.RST_QUAL_word.off (by decide)
  have hg := offLane_pattern p
  exact ⟨Half.clocked_congr _ _ _ (Half.reg_pairWritten _ _ _ _ _ hq.ctrl hq.status),
    Half.firstState_congr _ _ _ (Half.reg_pairWritten _ _ _ _ _ hg.ctrl hg.status)
      (congrArg (fun h => h.port.ports) (Half.pairWritten_onlyRegs x p idle opened))⟩

/-- A one-bit field that reads 0 is a flag that is clear, and one that reads 1 a flag that is set. -/
theorem Half.flag_of_get_zero (h : Half) (f : Field) (hf : h.get f = 0) : h.flag f = false := by unfold Half.flag; rw [hf]; rfl
theorem Half.flag_of_get_one (h : Half) (f : Field) (hf : h.get f = 1) : h.flag f = true := by unfold Half.flag; rw [hf]; rfl

/-- RETRY of a clocked lane in MAPPED_OUT, MAPOUT being clear, begins its first state. -/
theorem Half.laneState_retry (x : Half) (t p : Nat) (idle opened : Bool) (hs : x.laneState p = lsMappedOut) (hc : x.clocked p = true) :
    ((x.laneNoted p idle opened false).retryLane t p).laneState p = x.firstState p := by
  have hq := offLane_rst p F.RST_QUAL_word.off (by decide)
  obtain ⟨-, kept⟩ := Half.onlyRegs_laneNoted x p idle opened false
  obtain ⟨hout, -⟩ := Half.fields_laneNoted x p idle opened false
  have state := (Half.laneState_laneNoted x p idle opened false p).trans hs
  have clocked := (Half.clocked_congr x p _ (kept _ (not_or.mpr ⟨hq.ctrl, hq.status⟩))).trans hc
  have begun : (x.laneNoted p idle opened false).retryLane t p = (x.laneNoted p idle opened false).laneBegin t p :=
    if_pos ⟨state, Half.flag_of_get_zero _ _ hout, clocked⟩
  rw [begun, Half.laneState_laneBegin]
  exact Half.firstState_congr _ _ _ (kept _ (not_or.mpr ⟨(offLane_pattern p).ctrl, (offLane_pattern p).status⟩))
    (congrArg PortSt.ports (Half.port_laneNoted x p idle opened false))

/-! ## The statement -/

/-- Settles O19: a write of one bit of LANE_CTRL by its stages; three of the commands leave every lane in its state, so that no link has
anything to report, and after the others no report changes the lane. -/
theorem laneControl : Obligations.LaneControl := by
  unfold Obligations.LaneControl
  intro s h p master hs hp hg hr hl
  have only (lo : Nat) (on : Bool) := Module.onlyHalf_onHalf s.mod h fun x => x.laneCommand s.now p lo on
  have does (f : Nat → Field) (lo : Nat) (on : Bool) (hf : f p = ⟨(F.LANE_CTRL_word p).off, lo, 1⟩) :=
    State.laneField_laneCtrl s h p master lo f on hf hs hp hg hr
  generalize hx : s.mod.half h = x at hr hl ⊢
  have half (lo : Nat) (on : Bool) : (s.mod.onHalf h fun x => x.laneCommand s.now p lo on).half h = x.laneCommand s.now p lo on := by
    rw [Module.half_onHalf, hx]
  refine ⟨fun _ => ?clear, fun hm => ⟨fun he => ?enable, fun he => ?disable, fun he hst => ?mapout, fun hst hc => ?retry,
    fun on hw he => ?opened, fun on => ?txidle⟩⟩
  case clear =>
    refine ⟨_, does F.LANE_CTRL_MAPOUT 8 false rfl, ?_⟩
    rw [half, Half.laneCommand_noted _ _ _ _ _ _ _ _ hr hl (Half.laneWritten_mapout_clear x s.now p hp)]
    obtain ⟨hout, -⟩ := Half.fields_laneNoted x p (x.flag (F.LANE_CTRL_TXIDLE p)) (x.flag (F.LANE_CTRL_OPEN p) && isWest p) false
    exact ⟨hout, Half.laneState_laneNoted _ _ _ _ _ _, Half.onlyRegs_laneNoted _ _ _ _ _, only 8 false⟩
  case enable =>
    obtain ⟨hstate, henable, -⟩ := Half.lane_laneCommand x s.now p 0 true hp hr
    rw [Half.laneWritten_enable x s.now p hp (Half.flag_of_get_zero _ _ he) (Half.flag_of_get_zero _ _ hm)] at hstate henable
    obtain ⟨kstate, kenable⟩ := Half.lane_setMapout ((x.pairHeld p).laneEnable s.now p) p false
    obtain ⟨lenable, lstate⟩ := Half.lane_laneEnable (x.pairHeld p) s.now p
    obtain ⟨clocked, first⟩ := Half.begins_pairWritten x p (x.flag (F.LANE_CTRL_TXIDLE p)) (x.flag (F.LANE_CTRL_OPEN p) && isWest p)
    have state : (x.pairHeld p).laneState p = x.laneState p := Half.laneState_pairWritten _ _ _ _ _
    refine ⟨_, does F.LANE_CTRL_ENABLE 0 true rfl, ?_⟩
    rw [half, hstate, kstate, lstate, henable, kenable, lenable, state]
    exact ⟨rfl, by rw [← clocked, ← first]; rfl, only 0 true⟩
  case disable =>
    obtain ⟨hstate, henable, -⟩ := Half.lane_laneCommand x s.now p 0 false hp hr
    rw [Half.laneWritten_disable x s.now p hp (Half.flag_of_get_one _ _ he) (Half.flag_of_get_zero _ _ hm)] at hstate henable
    obtain ⟨kstate, kenable⟩ := Half.lane_setMapout ((x.pairHeld p).laneDisable p) p false
    obtain ⟨lenable, lstate⟩ := Half.lane_laneDisable (x.pairHeld p) p
    refine ⟨_, does F.LANE_CTRL_ENABLE 0 false rfl, ?_⟩
    rw [half, hstate, kstate, lstate, henable, kenable, lenable]
    exact ⟨rfl, rfl, only 0 false⟩
  case mapout =>
    have elsewhere : x.laneState p ≠ lsMappedOut := fun e => absurd (e ▸ hst) (by decide)
    obtain ⟨hstate, -, hout⟩ := Half.lane_laneCommand x s.now p 8 true hp hr
    rw [Half.laneWritten_mapout x s.now p hp (Half.flag_of_get_one _ _ he) elsewhere] at hstate hout
    have hctrl : ((x.pairHeld p).setFlag (F.LANE_CTRL_MAPOUT p) true).get (F.LANE_CTRL_MAPOUT p) = 1 :=
      Half.get_setFlag_same _ _ _ (Field.fits_of_ble rfl) rfl
    have kept := Half.reg_mapOut_none ((x.pairHeld p).setFlag (F.LANE_CTRL_MAPOUT p) true) s.now p _ (laneCtrl_ne_laneStatus p p)
      (by simp only [F.LANE_CTRL_word, F.SYS_XOVR_word]; omega)
    refine ⟨_, does F.LANE_CTRL_MAPOUT 8 true rfl, ?_⟩
    rw [half, hstate, hout]
    exact ⟨(Half.get_congr _ _ (F.LANE_CTRL_MAPOUT p) kept).trans hctrl, Half.laneState_mapOut_none _ _ _, only 8 true⟩
  case retry =>
    obtain ⟨hstate, -⟩ := Half.lane_laneCommand x s.now p 7 true hp hr
    rw [Half.laneWritten_retry x s.now p hp (Half.flag_of_get_zero _ _ hm)] at hstate
    refine ⟨_, does F.LANE_CTRL_RETRY 7 true rfl, ?_⟩
    rw [half, hstate]
    exact ⟨Half.laneState_retry _ _ _ _ _ hst hc, only 7 true⟩
  case opened =>
    have west : isWest p = true := by simp [isWest, hw, he]
    have written := Half.laneWritten_open x s.now p hp on (Half.flag_of_get_zero _ _ hm)
    rw [west, Bool.and_true] at written
    obtain ⟨-, hopen, -, hclosed⟩ := Half.fields_laneNoted x p (x.flag (F.LANE_CTRL_TXIDLE p)) on false
    refine ⟨_, does F.LANE_CTRL_OPEN 11 on rfl, ?_⟩
    rw [half, Half.laneCommand_noted _ _ _ _ _ _ _ _ hr hl written]
    exact ⟨hopen, hclosed, Half.laneState_laneNoted _ _ _ _ _ _, Half.onlyRegs_laneNoted _ _ _ _ _, only 11 on⟩
  case txidle =>
    have written := Half.laneWritten_txidle x s.now p hp on (Half.flag_of_get_zero _ _ hm)
    obtain ⟨-, -, hidle, -⟩ := Half.fields_laneNoted x p on (x.flag (F.LANE_CTRL_OPEN p) && isWest p) false
    refine ⟨_, does F.LANE_CTRL_TXIDLE 1 on rfl, ?_⟩
    rw [half, Half.laneCommand_noted _ _ _ _ _ _ _ _ hr hl written]
    exact ⟨hidle, Half.onlyRegs_laneNoted _ _ _ _ _, only 1 on⟩

end Sys2Proof.Machine
end

section
/-!
SUPPORT. The state after power-on (R50, R51).
-/
namespace Sys2Proof.Machine

/-- A register of a half after power-on, RST_CAUSE apart, reads as an unlisted one. -/
theorem Half.reg_poweredOn (h : HalfId) (o : Nat) (ho : o ≠ F.RST_CAUSE_word.off) : (Half.poweredOn h).reg o = resetWord h o := by
  show sparseGet (resetWord h) [(F.RST_CAUSE_word.off, 0x01000002)] o = _
  rw [sparseGet, if_neg ho, sparseGet, ite_self]

/-- Where the halves do not differ an unlisted register reads the reset value of its row. -/
theorem resetWord_of_regSpec (h : HalfId) (o : Nat) (r : RegSpec) (hr : regSpec o = some r)
    (hs : h = .h0 ∨ (o ≠ 4 ∧ (o < 0x50010 ∨ 0x5001C < o))) : resetWord h o = r.reset := by
  have same4 : ¬ (h = .h1 ∧ o = 0x4) := by
    rintro ⟨rfl, rfl⟩
    simp at hs
  have sameFst : ¬ (h = .h1 ∧ 0x50010 ≤ o ∧ o ≤ 0x5001C) := by
    rintro ⟨rfl, hlo, hhi⟩
    obtain h | ⟨-, hout⟩ := hs
    · cases h
    · omega
  rw [resetWord, if_neg same4, if_neg sameFst, hr]

/-- The halves of the module after power-on. -/
theorem Module.half_reset (h : HalfId) : Module.reset.half h = Half.poweredOn h := by cases h <;> rfl

/-- The memories of a half after power-on are in canonical form. -/
theorem Half.wf_poweredOn (h : HalfId) : (Half.poweredOn h).wf := ⟨rfl, rfl, by cases h <;> decide⟩

/-- Settles O57: the state after power-on, part by part. -/
theorem resetState : Obligations.ResetState := by
  unfold Obligations.ResetState
  refine ⟨rfl, rfl, rfl, rfl, rfl, fun h o r hr hc hs => ?regs, fun h => ?cause, fun o r hr => ?lamp, fun h a => ?mems, ?wf, ?fuse⟩
  case regs =>
    show (Module.reset.half h).reg o = r.reset
    rw [Module.half_reset, Half.reg_poweredOn h o hc, resetWord_of_regSpec h o r hr hs]
  case cause => cases h <;> decide
  case lamp =>
    show lampResetWord o = r.reset
    rw [lampResetWord, hr]
  case mems => cases h <;> exact ⟨rfl, rfl⟩
  case wf => exact ⟨Half.wf_poweredOn .h0, Half.wf_poweredOn .h1, rfl, rfl⟩
  case fuse =>
    intro d hd
    cases hd

end Sys2Proof.Machine
end

section
/-!
SUPPORT. A reset of the whole module that lets its halves go at once (R49, R54), and the commands of RST_CMD (R54, R61, R65).
-/
namespace Sys2Proof.Machine

/-! ## A module reset that releases -/

@[simp] theorem Module.intoReset_attempts (m : Module) (t : Nat) (sc : Scope) (cs : List Nat) (p : LampPhase) :
    (m.intoReset t sc cs p).lamp.attempts = m.lamp.attempts := Lamp.liveLow_attempts _

/-- LAST of RST_CAUSE in each half after a reset of the module for one cause (R51). -/
theorem Module.intoReset_last (m : Module) (t : Nat) (sc : Scope) (c : Nat) (p : LampPhase) (k : HalfId)
    (hc : c < 2 ^ F.RST_CAUSE_LAST.width) : ((m.intoReset t sc [c] p).half k).get F.RST_CAUSE_LAST = c := by
  cases k <;> exact Half.intoReset_last _ _ _ _ _ hc

/-- The end of a module reset leaves LAST of RST_CAUSE. -/
theorem Module.letGo_last (m : Module) (t : Nat) (k : HalfId) :
    ((m.letGo t).half k).get F.RST_CAUSE_LAST = (m.half k).get F.RST_CAUSE_LAST := by
  unfold Module.letGo Module.releaseBoth
  split
  · rw [Module.half_onLamp]
  · split
    · rw [Module.half_onLamp]
    · rw [Module.half_onLamp, Module.half_onBoth, Half.release_last]

section Released
variable (m : Module) (t : Nat) (sc : Scope) (hs : m.lamp.stopped = false) (hp : m.lamp.phase.inStart = false) (hu : m.unasked t)
include hs hp hu

/-- A request for a module reset that holds nothing, the first of its sample period, outside a start, starts the module anew. -/
theorem Module.requestReset_starts (cs : List Nat) (hf : m.freeToGo) : m.StartedFrom (m.requestReset t sc cs .released) := by
  obtain ⟨ht, hn⟩ := hf
  have hg := Module.letGo_free (m.intoReset t sc cs .released) t
    ⟨(Module.intoReset_tripped m t sc cs _).trans ht, (Module.intoReset_resetNLow m t sc cs _).trans hn⟩
  rw [Module.requestReset_fresh m t sc cs .released hs hp hu]
  exact { half0 := hg.half0, half1 := hg.half1, mode0 := hg.mode0, mode1 := hg.mode1, phase := hg.phase
          attempts := hg.attempts.trans (Module.intoReset_attempts m t sc cs _)
          tripped := hg.tripped.trans (Module.intoReset_tripped m t sc cs _)
          resetNLow := hg.resetNLow.trans (Module.intoReset_resetNLow m t sc cs _)
          flash := hg.flash, fuse := hg.fuse }

/-- Its cause stands in LAST of RST_CAUSE of each half. -/
theorem Module.requestReset_last (c : Nat) (k : HalfId) (hc : c < 2 ^ F.RST_CAUSE_LAST.width) :
    ((m.requestReset t sc [c] .released).half k).get F.RST_CAUSE_LAST = c := by
  rw [Module.requestReset_fresh m t sc [c] .released hs hp hu]
  show (((((m.intoReset t sc [c] .released).letGo t).noteReset t sc [c] _).half k).get F.RST_CAUSE_LAST) = c
  unfold Module.noteReset
  rw [Module.half_onLamp, Module.letGo_last, Module.intoReset_last m t sc c _ k hc]

end Released

/-! ## A half reset -/

/-- LAST of RST_CAUSE after a request for a half reset that is applied. -/
theorem Module.requestHalfReset_last (m : Module) (t : Nat) (h : HalfId) (c : Nat) (hold : HalfHold) (hs : m.lamp.stopped = false)
    (h1 : (m.half h).inReset = false) (h2 : (m.half h.peer).inReset = false) (hp : m.lamp.phase.inStart = false) (hu : m.unasked t)
    (hc : c < 2 ^ F.RST_CAUSE_LAST.width) : ((m.requestHalfReset t h [c] hold).half h).get F.RST_CAUSE_LAST = c := by
  rw [Module.requestHalfReset_applied m t h [c] hold hs h1 h2 hp (by rw [hu]; rfl), Module.noteHalf_half]
  exact Module.applyHalfReset_last m t h c hold hc

/-! ## RST_CMD -/

/-- The word that a row of RST_CMD writes. -/
def rstWord (key : Byte) (i : Nat) : Word := BitVec.ofNat 32 (key.toNat * 2 ^ 24 + 2 ^ i)

/-- Its key byte. -/
theorem rstWord_key (key : Byte) (i : Nat) (hi : i < 4) : bitsAt (rstWord key i).toNat 24 8 = key.toNat := by
  have hk := key.isLt
  have hb : 2 ^ i ≤ 2 ^ 3 := Nat.pow_le_pow_right (by decide) (by omega)
  unfold rstWord bitsAt
  rw [BitVec.toNat_ofNat]
  generalize 2 ^ i = b at hb ⊢
  omega

/-- A write in the RST block goes by that block's rules. -/
theorem Module.writeReg_rst (m : Module) (t : Nat) (k : HalfId) (master off : Nat) (v : Word) (hb : off / 0x10000 = 1) :
    m.writeReg t k master off v = m.writeRst t k master off v := by
  unfold Module.writeReg
  rw [hb]
  rfl

/-- A granted write of RST_CMD does what the command means. -/
theorem Module.rstWrite_granted (m : Module) (t : Nat) (h : HalfId) (master : Nat) (key : Byte) (i : Nat)
    (hg : m.grants h master F.RST_CMD_word.off) : m.rstWrite t h master key i = m.rstCmd t h master (rstWord key i) := by
  unfold Module.rstWrite
  rw [Module.regWrite_granted m t h master _ _ hg, Module.writeReg_rst _ _ _ _ _ _ (by decide), ← rstWord]
  exact if_pos rfl

/-- Without its key it only records the write (R54). -/
theorem Module.rstWrite_keyless (m : Module) (t : Nat) (h : HalfId) (master : Nat) (key : Byte) (i : Nat) (hi : i < 4)
    (hg : m.grants h master F.RST_CMD_word.off) (hk : key ≠ 0x5A) : ∃ d : List Byte,
    m.rstWrite t h master key i = m.onHalf h fun x => x.fault t clsHost 1 master d := by
  have other : bitsAt (rstWord key i).toNat 24 8 ≠ 0x5A := by
    rw [rstWord_key key i hi]
    exact fun e => hk (BitVec.eq_of_toNat_eq e)
  rw [Module.rstWrite_granted m t h master key i hg]
  exact ⟨_, if_pos other⟩

/-- A fault is one entry of the ledger more. -/
theorem Half.fault_seq (h : Half) (t c k u : Nat) (d : List Byte) :
    (h.fault t c k u d).get F.FLT_HEAD_SEQ = (h.get F.FLT_HEAD_SEQ + 1) % 2 ^ 32 := by
  unfold Half.fault
  exact Half.writeEntry_seq _ _ _

/-- So the half stays as it is in reset or out of it, and its ledger gains one entry. -/
theorem Module.rstWrite_records (m : Module) (t : Nat) (h : HalfId) (master : Nat) (key : Byte) (i : Nat) (hi : i < 4)
    (hg : m.grants h master F.RST_CMD_word.off) (hk : key ≠ 0x5A) :
    ((m.rstWrite t h master key i).half h).inReset = (m.half h).inReset ∧
    ((m.rstWrite t h master key i).half h).get F.FLT_HEAD_SEQ = ((m.half h).get F.FLT_HEAD_SEQ + 1) % 2 ^ 32 ∧
    m.onlyHalf (m.rstWrite t h master key i) h := by
  obtain ⟨d, hd⟩ := Module.rstWrite_keyless m t h master key i hi hg hk
  rw [hd, Module.half_onHalf]
  exact ⟨Half.fault_inReset _ _ _ _ _ _, Half.fault_seq _ _ _ _ _ _, Module.onlyHalf_onHalf _ _ _⟩

/-- The cause of a reset that RST_CMD asks for (R51). -/
def rstCause (master : Nat) : Nat := if master = mService then 11 else 10

theorem rstCause_lt (master : Nat) : rstCause master < 2 ^ F.RST_CAUSE_LAST.width := by
  unfold rstCause
  split <;> decide

section Keyed
variable (m : Module) (t : Nat) (h : HalfId) (master : Nat) (hg : m.grants h master F.RST_CMD_word.off)

/-- With its key a write of RST_CMD clears counts by bits 2 and 3 and asks for a reset by bits 0 and 1. -/
theorem Module.rstCmd_keyed (v : Word) (hk : bitsAt v.toNat 24 8 = 0x5A) : m.rstCmd t h master v =
    if bitAt v.toNat 0 then (m.clearCounts t master v.toNat).requestReset t .warm [rstCause master] .released
    else if bitAt v.toNat 1 then (m.clearCounts t master v.toNat).requestHalfReset t h [rstCause master] .brief
    else m.clearCounts t master v.toNat := if_neg (not_not_intro hk)

/-- Without bits 2 and 3 no count is cleared. -/
theorem Module.clearCounts_none (v : Nat) (h2 : bitAt v 2 = false) (h3 : bitAt v 3 = false) : m.clearCounts t master v = m := by
  unfold Module.clearCounts
  rw [h2, h3]
  exact ite_self m

include hg

/-- RESTART asks for a warm reset of the module. -/
theorem Module.rstWrite_restart : m.rstWrite t h master 0x5A 0 = m.requestReset t .warm [rstCause master] .released := by
  rw [Module.rstWrite_granted m t h master _ _ hg, Module.rstCmd_keyed _ _ _ _ _ (by decide), if_pos (by decide),
    Module.clearCounts_none _ _ _ _ (by decide) (by decide)]

/-- RESET_HALF asks for a reset of the half. -/
theorem Module.rstWrite_resetHalf : m.rstWrite t h master 0x5A 1 = m.requestHalfReset t h [rstCause master] .brief := by
  rw [Module.rstWrite_granted m t h master _ _ hg, Module.rstCmd_keyed _ _ _ _ _ (by decide), if_neg (by decide), if_pos (by decide),
    Module.clearCounts_none _ _ _ _ (by decide) (by decide)]

/-- CLEAR_FS and CLEAR_HALFFS clear counts. -/
theorem Module.rstWrite_clears (i : Nat) (hi : i = 2 ∨ i = 3) :
    m.rstWrite t h master 0x5A i = m.clearCounts t master (rstWord 0x5A i).toNat := by
  rw [Module.rstWrite_granted m t h master _ _ hg]
  obtain rfl | rfl := hi <;>
    rw [Module.rstCmd_keyed _ _ _ _ _ (by decide), if_neg (by decide), if_neg (by decide)]

end Keyed

/-- Through the service port CLEAR_FS clears the false-start count (R65). -/
theorem Module.clearCounts_fs (m : Module) (t : Nat) (hs : m.lamp.stopped = false) :
    m.clearCounts t mService (rstWord 0x5A 2).toNat = m.onLamp fun (l : Lamp) => { l with fsCount := 0 } := by
  unfold Module.clearCounts
  dsimp only
  rw [if_pos ⟨rfl, hs⟩, if_pos (by decide), if_neg (by decide)]

/-- The counts of the halves cleared (R61). -/
def Lamp.halvesCleared (l : Lamp) : Lamp := { l with h0 := { l.h0 with falseStarts := 0 }, h1 := { l.h1 with falseStarts := 0 } }

/-- CLEAR_HALFFS clears the counts of the halves and releases none that is not held for them (R61). -/
theorem Module.clearCounts_halffs (m : Module) (t : Nat) (hs : m.lamp.stopped = false) (h0 : m.lamp.h0.hold ≠ .falseStarts)
    (h1 : m.lamp.h1.hold ≠ .falseStarts) :
    m.clearCounts t mService (rstWord 0x5A 3).toNat = m.onLamp Lamp.halvesCleared := by
  have none0 : (if m.lamp.h0.hold = .falseStarts then (m.onLamp Lamp.halvesCleared).releaseHalf t .h0
      else m.onLamp Lamp.halvesCleared) = m.onLamp Lamp.halvesCleared := if_neg h0
  have clears : m.clearHalfFs t = m.onLamp Lamp.halvesCleared := by
    have none1 : (m.onLamp Lamp.halvesCleared).lamp.h1.hold ≠ .falseStarts := h1
    unfold Module.clearHalfFs
    dsimp only
    exact (congrArg (fun x : Module => if x.lamp.h1.hold = .falseStarts then x.releaseHalf t .h1 else x) none0).trans (if_neg none1)
  unfold Module.clearCounts
  dsimp only
  rw [if_pos ⟨rfl, hs⟩, if_neg (by decide), if_pos (by decide), clears]

/-- Any other master clears nothing. -/
theorem Module.clearCounts_other (m : Module) (t master v : Nat) (hm : master ≠ mService) : m.clearCounts t master v = m :=
  if_neg fun e => hm e.1

/-- The four commands are writes of RST_CMD. -/
theorem exec_restart (s : State) (h : HalfId) (master : Nat) (key : Byte) :
    exec (.restart h master key) s = .next { s with mod := s.mod.rstWrite s.now h master key 0 } := rfl
theorem exec_resetHalf (s : State) (h : HalfId) (master : Nat) (key : Byte) :
    exec (.resetHalf h master key) s = .next { s with mod := s.mod.rstWrite s.now h master key 1 } := rfl
theorem exec_clearFs (s : State) (h : HalfId) (master : Nat) (key : Byte) :
    exec (.clearFs h master key) s = .next { s with mod := s.mod.rstWrite s.now h master key 2 } := rfl
theorem exec_clearHalffs (s : State) (h : HalfId) (master : Nat) (key : Byte) :
    exec (.clearHalffs h master key) s = .next { s with mod := s.mod.rstWrite s.now h master key 3 } := rfl

/-- Settles O4: each command of RST_CMD by what its write asks for. -/
theorem resetCommands : Obligations.ResetCommands := by
  unfold Obligations.ResetCommands
  refine ⟨fun s h master key hg hp hs hu => ⟨?restart, ?resetHalf, fun hk => ?keyless⟩,
    fun s h master hg hs => ⟨?service, fun hm => ?other⟩⟩
  case restart =>
    rintro rfl hf
    have quiet := congrArg LampPhase.inStart hp
    have hg' := Module.requestReset_starts s.mod s.now .warm hs quiet hu [rstCause master] hf
    refine ⟨_, exec_restart s h master _, ?_⟩
    dsimp only
    rw [Module.rstWrite_restart _ _ _ _ hg]
    exact ⟨hg'.half0, hg'.half1, hg'.mode0, hg'.mode1, hg'.phase,
      Module.requestReset_last s.mod s.now .warm hs quiet hu _ h (rstCause_lt master), hg'.flash, hg'.fuse⟩
  case resetHalf =>
    rintro rfl h1 h2
    have quiet := congrArg LampPhase.inStart hp
    obtain ⟨hin, hhold, hout, hshows⟩ := Module.requestHalfReset_does s.mod s.now h [rstCause master] .brief hs h1 h2 quiet hu
    refine ⟨_, exec_resetHalf s h master _, ?_⟩
    dsimp only
    rw [Module.rstWrite_resetHalf _ _ _ _ hg]
    refine ⟨hin, hhold, Module.requestHalfReset_last s.mod s.now h _ .brief hs h1 h2 quiet hu (rstCause_lt master), hout, hshows, ?_⟩
    rw [Module.requestHalfReset_applied _ _ _ _ _ hs h1 h2 quiet (by rw [hu]; rfl), Module.noteHalf_phase]
    obtain ⟨-, -, -, hphase, -⟩ := Module.applyHalfReset_halves s.mod s.now h [rstCause master] .brief
    exact hphase.trans hp
  case keyless =>
    have recorded (i : Nat) (hi : i < 4) := Module.rstWrite_records s.mod s.now h master key i hi hg hk
    exact ⟨⟨_, exec_restart s h master key, recorded 0 (by decide)⟩, ⟨_, exec_resetHalf s h master key, recorded 1 (by decide)⟩⟩
  case service =>
    rintro rfl
    refine ⟨?_, fun h0 h1 => ?_⟩
    · rw [exec_clearFs, Module.rstWrite_clears _ _ _ _ hg 2 (.inl rfl), Module.clearCounts_fs _ _ hs]
      rfl
    · rw [exec_clearHalffs, Module.rstWrite_clears _ _ _ _ hg 3 (.inr rfl), Module.clearCounts_halffs _ _ hs h0 h1]
      rfl
  case other =>
    constructor
    · rw [exec_clearFs, Module.rstWrite_clears _ _ _ _ hg 2 (.inl rfl), Module.clearCounts_other _ _ _ _ hm]
    · rw [exec_clearHalffs, Module.rstWrite_clears _ _ _ _ hg 3 (.inr rfl), Module.clearCounts_other _ _ _ _ hm]

end Sys2Proof.Machine
end

section
/-!
SUPPORT. The watchdogs and the requests that the lamplighter grants (R16, R53, R364, R365).
-/
namespace Sys2Proof.Machine

/-! ## The steward watchdog -/

/-- A granted write of RST_WDOG.KICK kicks the watchdog. -/
theorem Module.kick_granted (m : Module) (t : Nat) (h : HalfId) (master : Nat) (hg : m.grants h master F.RST_WDOG_word.off) :
    m.fieldOnly t h master F.RST_WDOG_KICK 1 = m.onHalf h fun x => x.kickDog t master := by
  have other : F.RST_WDOG_KICK.off ≠ F.RST_CMD_word.off := by decide
  have written := Module.regWrite_granted m t h master F.RST_WDOG_KICK.off (putBits 0 F.RST_WDOG_KICK.lo F.RST_WDOG_KICK.width 1) hg
  unfold Module.fieldOnly
  rw [written, Module.writeReg_rst _ _ _ _ _ _ (by decide)]
  unfold Module.writeRst
  rw [if_neg other, if_pos (show F.RST_WDOG_KICK.off = F.RST_WDOG_word.off from rfl), if_pos (by decide)]

theorem exec_kick (s : State) (h : HalfId) (master : Nat) :
    exec (.kick h master) s = .next { s with mod := s.mod.fieldOnly s.now h master F.RST_WDOG_KICK 1 } := rfl

section Expiry
variable (m : Module) (t : Nat) (h : HalfId) (hr : (m.half h).inReset = false) (ha : (m.half h).flag F.RST_WDOG_ARMED = true)
  (hl : (m.half h).flag F.ENG_SUPV_LMPSTOP = false)
include hr ha hl

/-- An armed watchdog that runs out asks for a reset of its half, while the lamplighter beats and no request of the half is pending. -/
theorem Module.stewardWatchdog_half (hx : (m.half h).flag F.SYS_HALF_ALONE = false) (hq : (m.lamp.half h).request = none) :
    m.stewardWatchdog t h = m.requestHalfReset t h [7] .brief := by
  unfold Module.stewardWatchdog
  dsimp only
  rw [hr, ha, hl, hx, hq]
  rfl

/-- That of a half that runs alone asks for a warm reset of the module. -/
theorem Module.stewardWatchdog_alone (hx : (m.half h).flag F.SYS_HALF_ALONE = true) :
    m.stewardWatchdog t h = m.requestReset t .warm [7] .released := by
  unfold Module.stewardWatchdog
  dsimp only
  rw [hr, ha, hl, hx]
  rfl

end Expiry

/-! ## What the lamplighter keeps of the halves at a half reset -/

/-- A half reset that is applied is noted for its half and leaves what is kept of the other. -/
theorem Module.requestHalfReset_lampHalf (m : Module) (t : Nat) (h : HalfId) (cs : List Nat) (hold : HalfHold)
    (hs : m.lamp.stopped = false) (h1 : (m.half h).inReset = false) (h2 : (m.half h.peer).inReset = false)
    (hp : m.lamp.phase.inStart = false) (hu : m.unasked t) :
    (m.requestHalfReset t h cs hold).lamp.half h = (m.lamp.half h).intoReset t hold ∧
    (m.requestHalfReset t h cs hold).lamp.half h.peer = m.lamp.half h.peer := by
  rw [Module.requestHalfReset_applied m t h cs hold hs h1 h2 hp (by rw [hu]; rfl)]
  simp only [Module.noteHalf_lampHalf]
  unfold Module.applyHalfReset
  dsimp only
  rw [Module.onHalf_lamp, Module.onHalf_lamp]
  cases h <;> exact ⟨by simp [Lamp.half, Lamp.onHalf], by simp [Lamp.half, Lamp.onHalf, HalfId.peer]⟩

/-! ## PEER_RESET_GRANT -/

/-- Of the two halves each is a given one or its peer. -/
theorem HalfId.eq_or_eq_peer (h k : HalfId) : k = h ∨ k = h.peer := by
  cases h <;> cases k <;> decide

/-- The lamplighter with both requests forgotten. -/
def Lamp.unrequested (l : Lamp) : Lamp := { l with h0 := { l.h0 with request := none }, h1 := { l.h1 with request := none } }

/-- The module whose lamplighter grants a request of half `h`: requests forgotten and the fault of the link recorded (R16). -/
def Module.granting (m : Module) (t : Nat) (h : HalfId) : Module :=
  (m.onLamp Lamp.unrequested).lampFault t clsLink 2 0 ((m.half h).wordBytes F.LNK_STATUS_word.off)

/-- A half that asks and goes first is granted the reset of its peer. -/
theorem Module.grant_asked (m : Module) (t : Nat) (h : HalfId) (hs : m.lamp.stopped = false)
    (hq : (m.lamp.half h).request.isSome = true) (hr : (m.half h).inReset = false) (hf : h = .h1 → m.lamp.h0.request = none) :
    m.grant t h = (m.granting t h).requestHalfReset t h.peer [8] .brief := by
  have first : (h == .h1 && ((m.lamp.half .h0).request.isSome && !(m.half .h0).inReset)) = false := by
    cases h
    · rfl
    · have none0 : (m.lamp.half .h0).request = none := hf rfl
      rw [none0]
      rfl
  have goes : (m.lamp.stopped || !((m.lamp.half h).request.isSome && !(m.half h).inReset) ||
      (h == .h1 && ((m.lamp.half .h0).request.isSome && !(m.half .h0).inReset))) ≠ true := by
    rw [first, hs, hq, hr]
    decide
  exact if_neg goes

/-- The grant leaves neither half with a request. -/
theorem Module.granting_request (m : Module) (t : Nat) (h k : HalfId) : ((m.granting t h).lamp.half k).request = none := by
  cases k <;> rfl

/-- It neither resets nor releases a half. -/
theorem Module.granting_inReset (m : Module) (t : Nat) (h k : HalfId) : ((m.granting t h).half k).inReset = (m.half k).inReset := by
  unfold Module.granting
  rw [Module.lampFault_inReset, Module.half_onLamp]

/-- Settles O5: each watchdog and each grant by the reset that it asks for. -/
theorem watchdogs : Obligations.Watchdogs := by
  unfold Obligations.Watchdogs
  refine ⟨fun s h => ⟨fun master hg hm ha => ?kick, fun master hg hm => ?stray, fun hr ha hl hp hs h2 hu => ⟨fun hx hq => ?half, fun hx hf => ?alone⟩⟩,
    fun s hp hs hr0 hr1 => ⟨fun h a hq hf hu => ?grant, fun u h6 hf hu hu' => ?lamp⟩⟩
  case kick =>
    have kicks : (s.mod.half h).kickDog s.now master =
        { s.mod.half h with starter := { (s.mod.half h).starter with wdogAt := s.now } } := if_pos ⟨hm, ha⟩
    rw [exec_kick, Module.kick_granted _ _ _ _ hg, Module.onHalf, kicks]
  case stray =>
    have stays : (s.mod.half h).kickDog s.now master = s.mod.half h := if_neg fun e => hm e.1
    rw [exec_kick, Module.kick_granted _ _ _ _ hg, Module.onHalf_same _ _ (fun x => x.kickDog s.now master) stays]
  case half =>
    have quiet := congrArg LampPhase.inStart hp
    obtain ⟨hin, -, hout, hshows⟩ := Module.requestHalfReset_does s.mod _ h [7] .brief hs hr h2 quiet hu
    refine ⟨{ s with now := max s.now ((s.mod.half h).starter.wdogAt + 20 * msNs),
                     mod := s.mod.stewardWatchdog (max s.now ((s.mod.half h).starter.wdogAt + 20 * msNs)) h }, rfl, ?_⟩
    dsimp only
    rw [Module.stewardWatchdog_half _ _ _ hr ha hl hx hq]
    exact ⟨rfl, hin, Module.requestHalfReset_last s.mod _ h 7 .brief hs hr h2 quiet hu (by decide), hout, hshows⟩
  case alone =>
    have hg := Module.requestReset_starts s.mod _ .warm hs (congrArg LampPhase.inStart hp) hu [7] hf
    refine ⟨{ s with now := max s.now ((s.mod.half h).starter.wdogAt + 20 * msNs),
                     mod := s.mod.stewardWatchdog (max s.now ((s.mod.half h).starter.wdogAt + 20 * msNs)) h }, rfl, ?_⟩
    dsimp only
    rw [Module.stewardWatchdog_alone _ _ _ hr ha hl hx]
    exact ⟨hg.half0, hg.half1, hg.mode0, hg.mode1, hg.phase⟩
  case grant =>
    have live (k : HalfId) : (s.mod.half k).inReset = false := by cases k <;> assumption
    have quiet : (s.mod.granting (if h = .h1 then max s.now (a + 2000000) else s.now) h).lamp.phase.inStart = false := congrArg LampPhase.inStart hp
    generalize hu' : (if h = .h1 then max s.now (a + 2000000) else s.now) = u at hu quiet ⊢
    have due : exec (.peerResetGrant h) s = .next { s with now := u, mod := s.mod.grant u h } := by
      subst hu'
      cases h
      · show Host.Outcome.next { s with now := max s.now 0, mod := s.mod.grant (max s.now 0) .h0 } = _
        rw [Nat.max_zero]
        rfl
      · show execPeerResetGrant .h1 s = _
        unfold execPeerResetGrant
        rw [hq]
        rfl
    have live' (k : HalfId) : ((s.mod.granting u h).half k).inReset = false := (Module.granting_inReset _ _ _ _).trans (live k)
    have back : ((s.mod.granting u h).half h.peer.peer).inReset = false := live' _
    obtain ⟨hin, -, hout, hshows⟩ := Module.requestHalfReset_does (s.mod.granting u h) u h.peer [8] .brief hs (live' _) back quiet hu
    obtain ⟨hreset, hkept⟩ := Module.requestHalfReset_lampHalf (s.mod.granting u h) u h.peer [8] .brief hs (live' _) back quiet hu
    refine ⟨_, due, ?_⟩
    dsimp only
    rw [Module.grant_asked _ _ _ hs (by rw [hq]; rfl) (live h) hf]
    have asks (k : HalfId) : (((s.mod.granting u h).requestHalfReset u h.peer [8] .brief).lamp.half k).request = none := by
      obtain rfl | rfl := HalfId.eq_or_eq_peer h k
      · rw [HalfId.peer_peer] at hkept
        rw [hkept, Module.granting_request]
      · rw [hreset]
        rfl
    rw [HalfId.peer_peer] at hout hshows
    exact ⟨hin, Module.requestHalfReset_last _ u h.peer 8 .brief hs (live' _) back quiet hu (by decide), hout, hshows, asks .h0, asks .h1, rfl⟩
  case lamp =>
    have hg := Module.requestReset_starts s.mod u .warm hs (congrArg LampPhase.inStart hp) hu [6] hf
    have last := fun k => Module.requestReset_last s.mod u .warm hs (congrArg LampPhase.inStart hp) hu 6 k (by decide)
    have expires : s.mod.lampWatchdog u = s.mod.requestReset u .warm [6] .released := by
      have watched : (s.mod.half0.dogWatched || s.mod.half1.dogWatched) = true := by
        unfold Half.dogWatched
        rw [hr0, hr1]
        simpa using h6
      refine if_pos ?_
      rw [watched, Lamp.alive, hp, hs]
      rfl
    subst hu'
    refine ⟨{ s with now := max s.now (max (s.mod.watchedKick .h0) (s.mod.watchedKick .h1) + 50 * msNs),
                     mod := s.mod.lampWatchdog (max s.now (max (s.mod.watchedKick .h0) (s.mod.watchedKick .h1) + 50 * msNs)) }, rfl, rfl, ?_⟩
    dsimp only
    rw [show 50 * msNs = 50000000 from rfl, expires]
    exact ⟨hg.half0, hg.half1, hg.mode0, hg.mode1, hg.phase, last .h0, last .h1⟩

end Sys2Proof.Machine
end

section
/-!
SUPPORT. Block resets (R67 to R69).
-/
namespace Sys2Proof.Machine

/-! ## RST_BLKRST -/

/-- A granted write of RST_BLKRST asks for the blocks that it names. -/
theorem Module.blkrst_granted (m : Module) (t : Nat) (h : HalfId) (master blocks : Nat) (hg : m.grants h master F.RST_BLKRST_word.off) :
    m.fieldOnly t h master F.RST_BLKRST_word blocks = m.onHalf h fun x => x.askBlocks blocks := by
  have named : (putBits 0 F.RST_BLKRST_word.lo F.RST_BLKRST_word.width blocks).toNat = blocks % 2 ^ 32 := by
    simp [putBits, F.RST_BLKRST_word, bitsAt]
  have low (x : Half) : x.askBlocks (blocks % 2 ^ 32) = x.askBlocks blocks := by
    have : blocks % 2 ^ 32 % 1024 = blocks % 1024 := by omega
    unfold Half.askBlocks
    rw [this]
  unfold Module.fieldOnly
  rw [Module.regWrite_granted m t h master _ _ hg, Module.writeReg_rst _ _ _ _ _ _ (by decide)]
  unfold Module.writeRst
  rw [if_neg (by decide), if_neg (by decide), if_pos rfl, named]
  exact congrArg (m.setHalf h) (low _)

section Ask
variable (x : Half) (blocks : Nat)

/-- While a block reset runs it is answered BUSY. -/
theorem Half.askBlocks_busy (hi : x.starter.isolated ≠ 0) : x.askBlocks blocks = x.set F.RST_BLKSTAT_RESULT blkBusy := if_pos hi

/-- Else the blocks that are not idle are answered NOT_IDLE. -/
theorem Half.askBlocks_notIdle (hi : x.starter.isolated = 0) (hb : blocks % 1024 ≠ 0)
    (hn : blocks % 1024 - (blocks % 1024 &&& x.idleMask) ≠ 0) : x.askBlocks blocks =
      (x.set F.RST_BLKSTAT_NOTIDLE (blocks % 1024 - (blocks % 1024 &&& x.idleMask))).set F.RST_BLKSTAT_RESULT blkNotIdle := by
  unfold Half.askBlocks
  dsimp only
  rw [if_neg (not_not_intro hi), if_neg hb, if_pos hn]

/-- And idle blocks are isolated. -/
theorem Half.askBlocks_idle (hi : x.starter.isolated = 0) (hb : blocks % 1024 ≠ 0)
    (hn : blocks % 1024 &&& x.idleMask = blocks % 1024) : x.askBlocks blocks =
      Half.set { x with starter := { x.starter with isolated := blocks % 1024 } } F.RST_BLKRST_BLOCKS (blocks % 1024) := by
  unfold Half.askBlocks
  dsimp only
  rw [if_neg (not_not_intro hi), if_neg hb, hn, Nat.sub_self, if_neg (not_not_intro rfl)]

end Ask

/-! ## BLOCK_RESET_COMPLETE -/

section Keeps
variable {γ : Type} (p : Half → γ) (hreg : ∀ x o w, p (Half.setReg x o w) = p x) (heng : ∀ x n f, p (Half.onEngine x n f) = p x)
include hreg

/-- What writes of registers keep, the fields returning to their reset values keep. -/
theorem Half.resetFields_keeps (h : Half) (b : Nat) : p (h.resetFields b) = p h := by
  refine foldl_keeps p _ (fun x c => ?_) _ h
  split
  · rfl
  · exact hreg _ _ _

include heng

/-- What changes of an engine keep besides, an engine that begins keeps. -/
theorem Half.engineBegins_keeps (h : Half) (t n : Nat) (back : Bool) : p (h.engineBegins t n back) = p h := by
  unfold Half.engineBegins
  split
  · rfl
  · exact (hreg _ _ _).trans (heng _ _ _)

/-- So does a block that is reset, -/
theorem Half.resetBlock_keeps (h : Half) (t b : Nat) : p (h.resetBlock t b) = p h := by
  have fields := Half.resetFields_keeps p hreg h b
  unfold Half.resetBlock
  dsimp only
  split
  · unfold Half.engineAgain
    exact (Half.engineBegins_keeps p hreg heng _ _ _ _).trans ((hreg _ _ _).trans ((heng _ _ _).trans fields))
  · exact fields

/-- and so do all that a request names. -/
theorem Half.resetBlocks_keep (h : Half) (t req : Nat) :
    p ((List.range 10).foldl (fun (h : Half) b => if bitAt req b then h.resetBlock t b else h) h) = p h := by
  refine foldl_keeps p _ (fun x b => ?_) _ h
  split
  · exact Half.resetBlock_keeps p hreg heng _ _ _
  · rfl

end Keeps

/-- The block reset in progress completes with result DONE, and keeps the memories. -/
theorem Half.blocksDone_does (h : Half) (t : Nat) (hi : h.starter.isolated ≠ 0) :
    (h.blocksDone t).starter.isolated = 0 ∧ (h.blocksDone t).get F.RST_BLKSTAT_RESULT = blkDone ∧
    (h.blocksDone t).get F.RST_BLKRST_BLOCKS = 0 ∧ (h.blocksDone t).fst = h.fst ∧ (h.blocksDone t).sram = h.sram := by
  unfold Half.blocksDone
  dsimp only
  rw [if_neg hi]
  refine ⟨rfl, Half.get_set_of_lt _ _ _ (by decide) (by decide), ?_, ?_, ?_⟩
  · rw [Half.get_set_other _ _ _ _ (by decide) (by decide)]
    exact Half.get_set_of_lt _ _ _ (by decide) (by decide)
  · exact Half.resetBlocks_keep Half.fst (fun _ _ _ => rfl) (fun _ _ _ => rfl) h t _
  · exact Half.resetBlocks_keep Half.sram (fun _ _ _ => rfl) (fun _ _ _ => rfl) h t _

/-- With no write waiting at its blocks it changes its half alone. -/
theorem Module.blocksDone_none (m : Module) (t : Nat) (h : HalfId) (hw : (m.half h).starter.waiting = []) :
    m.blocksDone t h = m.onHalf h fun x => { x.blocksDone t with starter := { (x.blocksDone t).starter with waiting := [] } } := by
  unfold Module.blocksDone
  rw [hw]
  rfl

theorem exec_blkrst (s : State) (h : HalfId) (master blocks : Nat) :
    exec (.blkrst h master blocks) s = .next { s with mod := s.mod.fieldOnly s.now h master F.RST_BLKRST_word blocks } := rfl

/-- Settles O6: what a write of RST_BLKRST asks for, by the blocks that are idle, and the end of a block reset. -/
theorem blockResets : Obligations.BlockResets := by
  unfold Obligations.BlockResets
  refine fun s h master blocks => ⟨fun hg => ⟨fun hi => ?busy, fun hi hb hn => ?notIdle, fun hi hb hn => ?idle⟩, fun hr hi hw => ?done⟩
  case busy =>
    rw [exec_blkrst, Module.blkrst_granted _ _ _ _ _ hg, Module.onHalf, Half.askBlocks_busy _ _ hi]
  case notIdle =>
    rw [exec_blkrst, Module.blkrst_granted _ _ _ _ _ hg, Module.onHalf, Half.askBlocks_notIdle _ _ hi hb hn]
  case idle =>
    refine ⟨_, exec_blkrst s h master blocks, ?_⟩
    dsimp only
    rw [Module.blkrst_granted _ _ _ _ _ hg, Module.half_onHalf, Half.askBlocks_idle _ _ hi hb hn]
    exact ⟨rfl, Half.get_set_of_lt _ _ _ (by decide) (Nat.mod_lt _ (by decide)), rfl, Module.onlyHalf_onHalf _ _ _⟩
  case done =>
    have ends : exec (.blockResetComplete h) s = .next { s with mod := s.mod.blocksDone s.now h } := by
      show Host.Outcome.next { s with mod := s.mod.given (!(s.mod.half h).inReset) fun m => m.blocksDone s.now h } = _
      rw [hr]
      rfl
    obtain ⟨hisolated, hresult, hblocks, hfst, hsram⟩ := Half.blocksDone_does (s.mod.half h) s.now hi
    refine ⟨_, ends, ?_⟩
    dsimp only
    rw [Module.blocksDone_none _ _ _ hw, Module.half_onHalf]
    exact ⟨hisolated, hresult, hblocks, hfst, hsram, Module.onlyHalf_onHalf _ _ _⟩

end Sys2Proof.Machine
end

section
/-!
SUPPORT. False starts of a module start: its limits, their hold and their count (R60, R62 to R65).
-/
namespace Sys2Proof.Machine

/-- A start that has ended as a false start with a cause: one more is counted, to at most 15, and the lamplighter holds both halves in
reset. -/
structure Module.FalselyStarted (m m' : Module) (cause : Nat) : Prop where
  phase : m'.lamp.phase = .heldFalse
  fsCount : m'.lamp.fsCount = min (m.lamp.fsCount + 1) 15
  halves : ∀ h, (m'.half h).inReset = true ∧ (m'.half h).get F.RST_CAUSE_LAST = cause
  flash : m'.flash = m.flash
  fuse : m'.fuse = m.fuse

/-- A false start of the loader is one (R63, R64). -/
theorem Module.loadFalseStart_does (m : Module) (t c : Nat) (hc : c < 2 ^ F.RST_CAUSE_LAST.width) :
    m.FalselyStarted (m.loadFalseStart t c) c where
  phase := rfl
  fsCount := Module.intoReset_fsCount (m.falseStart t c) t .warm [c] .heldFalse
  halves h := ⟨Module.intoReset_inReset _ _ _ _ _ h, Module.intoReset_last _ _ _ _ _ h hc⟩
  flash := rfl
  fuse := rfl

/-- Before the end of step 3 the limit of steps 1 to 3 ends the start so. -/
theorem Module.steps13Limit_early (m : Module) (t : Nat) (hp : m.lamp.phase = .starting) (h3 : m.half0.step < 3) :
    m.steps13Limit t = m.loadFalseStart t 12 := if_pos ⟨congrArg LampPhase.inStart hp, h3⟩

/-- Once step 4 has ended the start limit does. -/
theorem Module.startLimit_late (m : Module) (t a : Nat) (hp : m.lamp.phase = .starting) (ha : m.lamp.step4At = some a) :
    m.startLimit t = m.loadFalseStart t 12 := if_pos ⟨hp, congrArg Option.isSome ha⟩

/-- In step 4 the load limit does, with the loader's result. -/
theorem Module.loadLimitExpire_step4 (m : Module) (t : Nat) (hp : m.lamp.phase = .starting) (h3 : m.half0.step = 3) :
    m.loadLimitExpire t = (m.ldr [(F.LDR_STATUS_RESULT, ldTimeout), (F.LDR_STATUS_STATE, ldsFailed)]).loadFalseStart t 12 :=
  (if_pos hp).trans (if_pos h3)

/-- Settles O11: each limit in its step, the end of the hold, and the count. -/
theorem startLimits : Obligations.StartLimits := by
  unfold Obligations.StartLimits
  refine fun s => ⟨fun hp h3 => ?steps13, fun a hp ha => ?start, fun hp h3 => ?load, fun hp hf => ?holdEnd, fun hp => ?clear,
    fun hp => ?keep⟩
  case steps13 =>
    have hl := Module.loadFalseStart_does s.mod (max s.now (s.mod.lamp.startAt + secNs)) 12 (by decide)
    refine ⟨{ s with now := max s.now (s.mod.lamp.startAt + secNs), mod := s.mod.steps13Limit (max s.now (s.mod.lamp.startAt + secNs)) },
      rfl, rfl, ?_⟩
    dsimp only
    rw [Module.steps13Limit_early _ _ hp h3]
    exact ⟨hl.phase, hl.fsCount, hl.halves, hl.flash, hl.fuse⟩
  case start =>
    have hend : (s.mod.lamp.step4At.map fun a => a + 4 * secNs).getD 0 = a + 4000000000 := by rw [ha]; rfl
    have hl := Module.loadFalseStart_does s.mod (max s.now (a + 4000000000)) 12 (by decide)
    refine ⟨{ s with now := max s.now ((s.mod.lamp.step4At.map fun a => a + 4 * secNs).getD 0),
                     mod := s.mod.startLimit (max s.now ((s.mod.lamp.step4At.map fun a => a + 4 * secNs).getD 0)) }, rfl, ?_⟩
    dsimp only
    rw [hend, Module.startLimit_late _ _ _ hp ha]
    exact ⟨rfl, hl.phase, hl.fsCount, hl.halves, hl.flash, hl.fuse⟩
  case load =>
    have hl := Module.loadFalseStart_does (s.mod.ldr [(F.LDR_STATUS_RESULT, ldTimeout), (F.LDR_STATUS_STATE, ldsFailed)])
      (max s.now s.mod.loadLimitAt) 12 (by decide)
    refine ⟨{ s with now := max s.now s.mod.loadLimitAt, mod := s.mod.loadLimitExpire (max s.now s.mod.loadLimitAt) }, rfl, rfl, ?_⟩
    dsimp only
    rw [Module.loadLimitExpire_step4 _ _ hp h3]
    exact ⟨hl.phase, hl.fsCount, hl.halves, hl.flash, hl.fuse⟩
  case holdEnd =>
    have hend : s.phaseEnd .heldFalse secNs = s.mod.lamp.phaseAt + 1000000000 := if_pos hp
    have ends (t : Nat) : s.mod.falseHoldEnd t = s.mod.letGo t := if_pos hp
    have hg := Module.letGo_free s.mod (max s.now (s.mod.lamp.phaseAt + 1000000000)) hf
    refine ⟨{ s with now := max s.now (s.phaseEnd .heldFalse secNs), mod := s.mod.falseHoldEnd (max s.now (s.phaseEnd .heldFalse secNs)) },
      rfl, ?_⟩
    dsimp only
    rw [hend, ends]
    refine ⟨rfl, hg.phase, fun h => ?_⟩
    cases h
    · exact ⟨hg.half0, hg.mode0⟩
    · exact ⟨hg.half1, hg.mode1⟩
  case clear =>
    show Host.Outcome.next { s with now := max s.now (s.mod.lamp.runningAt + 60 * secNs), mod := s.mod.clearCount } = _
    have clears : s.mod.clearCount = s.mod.onLamp fun (l : Lamp) => { l with fsCount := 0 } := if_pos hp
    rw [clears]
    rfl
  case keep =>
    show Host.Outcome.next { s with now := max s.now (s.mod.lamp.runningAt + 60 * secNs), mod := s.mod.clearCount } = _
    have keeps : s.mod.clearCount = s.mod := if_neg hp
    rw [keeps]
    rfl

end Sys2Proof.Machine
end

section
/-!
SUPPORT. Half starts in a running module (R61).
-/
namespace Sys2Proof.Machine

/-- A half start past step 4 that exchanges no batons is a half false start at its limit. -/
theorem Module.halfStartLimit_silent (m : Module) (t : Nat) (h : HalfId) (hr : (m.half h).inReset = false)
    (hm : (m.half h).mode = modeHalfStart) (h4 : 4 ≤ (m.half h).step) (hx : (m.half h).link.exchanged = false) :
    m.halfStartLimit t h = m.halfFalseStart t h := by
  unfold Module.halfStartLimit
  dsimp only
  rw [hr, hm, hx, decide_eq_true h4]
  rfl

/-- The module whose lamplighter has counted one more half false start of half `h`. -/
def Module.countedHalf (m : Module) (h : HalfId) : Module :=
  m.onLamp fun l => l.onHalf h fun (x : LampHalf) => { x with falseStarts := min 3 ((m.lamp.half h).falseStarts + 1) }

/-- The hold of a half false start: the third one stands until the counts are cleared. -/
def Module.falseHold (m : Module) (h : HalfId) : HalfHold := if 3 ≤ (m.lamp.half h).falseStarts + 1 then .falseStarts else .brief

/-- A half false start is counted and asks for a half reset; a half held for it is shown to its peer. -/
theorem Module.halfFalseStart_eq (m : Module) (t : Nat) (h : HalfId) : m.halfFalseStart t h =
    if (((m.countedHalf h).requestHalfReset t h [15] (m.falseHold h)).lamp.half h).hold = .falseStarts then
      ((m.countedHalf h).requestHalfReset t h [15] (m.falseHold h)).onLive h.peer fun x => x.set F.RST_STATE_PEERHELD 1
    else (m.countedHalf h).requestHalfReset t h [15] (m.falseHold h) := rfl

section FalseStart
variable (m : Module) (t : Nat) (h : HalfId) (hp : m.lamp.phase = .running) (hs : m.lamp.stopped = false)
  (hr : (m.half h).inReset = false) (h2 : (m.half h.peer).inReset = false) (hu : m.unasked t)
include hp hs hr h2 hu

/-- In a running module it puts the half into reset with cause 15, and its hold by the count. -/
theorem Module.halfFalseStart_does : ((m.halfFalseStart t h).half h).inReset = true ∧
    ((m.halfFalseStart t h).half h).get F.RST_CAUSE_LAST = 15 ∧
    ((m.halfFalseStart t h).lamp.half h).falseStarts = min 3 ((m.lamp.half h).falseStarts + 1) ∧
    ((m.halfFalseStart t h).lamp.half h).hold = m.falseHold h ∧
    (3 ≤ (m.lamp.half h).falseStarts + 1 → ((m.halfFalseStart t h).half h.peer).get F.RST_STATE_PEERHELD = 1) := by
  have live (k : HalfId) : (m.countedHalf h).half k = m.half k := Module.half_onLamp _ _ _
  have hs' : (m.countedHalf h).lamp.stopped = false := (Lamp.onHalf_stopped _ _ _).trans hs
  have hp' : (m.countedHalf h).lamp.phase.inStart = false := (congrArg LampPhase.inStart ((Lamp.onHalf_phase _ _ _).trans hp))
  have hu' : (m.countedHalf h).unasked t := by
    unfold Module.unasked Lamp.askedAt Module.countedHalf
    rw [Module.onLamp_lamp, Lamp.onHalf_asked]
    exact hu
  have hr' : ((m.countedHalf h).half h).inReset = false := by rw [live]; exact hr
  have h2' : ((m.countedHalf h).half h.peer).inReset = false := by rw [live]; exact h2
  obtain ⟨hin, hhold, hout, -⟩ := Module.requestHalfReset_does (m.countedHalf h) t h [15] (m.falseHold h) hs' hr' h2' hp' hu'
  obtain ⟨hreset, -⟩ := Module.requestHalfReset_lampHalf (m.countedHalf h) t h [15] (m.falseHold h) hs' hr' h2' hp' hu'
  have last := Module.requestHalfReset_last (m.countedHalf h) t h 15 (m.falseHold h) hs' hr' h2' hp' hu' (by decide)
  have count : (((m.countedHalf h).requestHalfReset t h [15] (m.falseHold h)).lamp.half h).falseStarts =
      min 3 ((m.lamp.half h).falseStarts + 1) := by
    rw [hreset]
    unfold Module.countedHalf
    rw [Module.onLamp_lamp, Lamp.half_onHalf]
    rfl
  rw [Module.halfFalseStart_eq, hhold]
  by_cases h3 : 3 ≤ (m.lamp.half h).falseStarts + 1
  · have held : m.falseHold h = .falseStarts := if_pos h3
    rw [if_pos held, Module.onLive_live _ _ _ hout, Module.half_onPeer, Module.half_onHalf, Module.onHalf_lamp]
    exact ⟨hin, last, count, hhold, fun _ => Half.get_set_of_lt _ _ _ (by decide) (by decide)⟩
  · have brief : m.falseHold h = .brief := if_neg h3
    rw [if_neg (by rw [brief]; decide)]
    exact ⟨hin, last, count, hhold, fun e => absurd e h3⟩

end FalseStart

/-- Settles O14: the end of a brief reset, the limit of a half start and the end of its count. -/
theorem halfStarts : Obligations.HalfStarts := by
  unfold Obligations.HalfStarts
  refine fun s h hp hs => ⟨fun hr hh => ?release, fun hr hm h4 hx h2 hu => ?limit, fun hr hx hx' => ?clear⟩
  case release =>
    obtain ⟨hin, hmode, hhold, hpeer, -⟩ := Module.releaseHalf_does s.mod (max s.now ((s.mod.lamp.half h).resetAt + 1000000)) h
      modeHalfStart hr (by rw [hp]; rfl) (by decide)
    have ends : exec (.halfResetRelease h) s = .next { s with
        now := max s.now ((s.mod.lamp.half h).resetAt + 1000000)
        mod := s.mod.releaseHalf (max s.now ((s.mod.lamp.half h).resetAt + 1000000)) h } := by
      have due : (if (s.mod.lamp.half h).hold = .brief then (s.mod.lamp.half h).resetAt + msNs else 0) =
          (s.mod.lamp.half h).resetAt + 1000000 := if_pos hh
      have releases (t : Nat) : s.mod.halfResetRelease t h = s.mod.releaseHalf t h := if_pos ⟨hh, hs⟩
      show execHalfResetRelease h s = _
      unfold execHalfResetRelease
      rw [State.actAt_eq, due, releases]
    exact ⟨_, ends, rfl, hin, hmode, hhold, hpeer⟩
  case limit =>
    obtain ⟨hin, hlast, hcount, hhold, hheld⟩ := Module.halfFalseStart_does s.mod _ h hp hs hr h2 hu
    refine ⟨{ s with now := max s.now ((s.mod.half h).starter.step4At + 4 * secNs),
                     mod := s.mod.halfStartLimit (max s.now ((s.mod.half h).starter.step4At + 4 * secNs)) h }, rfl, rfl, ?_⟩
    dsimp only
    rw [Module.halfStartLimit_silent _ _ _ hr hm h4 hx]
    exact ⟨hin, hlast, hcount, hhold, hheld⟩
  case clear =>
    have due : (s.mod.half h).link.exchangedAt + 60 * secNs ≤ max s.now ((s.mod.half h).link.exchangedAt + 60 * secNs) := le_max_right _ _
    have clears : s.mod.halfFsClear (max s.now ((s.mod.half h).link.exchangedAt + 60 * secNs)) h =
        s.mod.onLamp fun l => l.onHalf h fun (y : LampHalf) => { y with falseStarts := 0 } := by
      refine if_pos ?_
      rw [hr, hx, hx', decide_eq_true due]
      rfl
    refine ⟨{ s with now := max s.now ((s.mod.half h).link.exchangedAt + 60 * secNs),
                     mod := s.mod.halfFsClear (max s.now ((s.mod.half h).link.exchangedAt + 60 * secNs)) h }, rfl, rfl, ?_⟩
    dsimp only
    rw [clears]
    cases h <;> exact ⟨rfl, rfl, rfl, rfl, rfl, rfl⟩

end Sys2Proof.Machine
end

section
/-!
SUPPORT. Step 1 of a module start (R55 to R58, R64, R66).
-/
namespace Sys2Proof.Machine

/-! ## The strap -/

/-- One measurement whose codes spread little is taken at the first try (R57). -/
theorem strapMeasure_steady (codes : List Nat) (hc : codeSpread codes ≤ 16) : strapMeasure [codes] = (1, codes, false) := by
  unfold strapMeasure
  simp [List.findIdx?_cons, hc]

/-- The index that a measurement chooses (R57). -/
def strapOf (codes : List Nat) : Nat := strapTaken (strapIndex (codeMean codes))

/-- RST_STRAP of a half after one measurement. -/
def Half.strapped (h : Half) (codes : List Nat) : Half :=
  h.sets [(F.RST_STRAP_CODE, codeMean codes), (F.RST_STRAP_SPREAD, codeSpread codes), (F.RST_STRAP_TRIES, 1), (F.RST_STRAP_INDEX, strapOf codes)]

/-- The module with both halves in a mode at the end of step 1, after one measurement. -/
def Module.enters (m : Module) (t : Nat) (codes : List Nat) (mode : Nat) (p : LampPhase) : Module :=
  (((m.onLamp fun (l : Lamp) => { l with strap := strapOf codes }).onBoth fun h => h.strapped codes).onBoth
    fun h => h.enterMode t mode).onLamp fun l => l.enter t p

/-- Step 1 with one steady measurement: the count and the index choose what follows. -/
theorem Module.start_steady (m : Module) (t : Nat) (codes : List Nat) (hp : m.lamp.phase = .released) (hc : codeSpread codes ≤ 16) :
    m.start t [codes] = if 3 ≤ m.lamp.fsCount ∨ strapOf codes = 0 then m.enters t codes modeRecovery .recovery
      else if strapOf codes = 12 then m.enters t codes modeLaneTest .laneTest else m.enters t codes modeStart .starting := by
  unfold Module.start
  dsimp only
  rw [if_neg (not_not_intro hp), strapMeasure_steady codes hc]
  rfl

/-! ## What a half shows then -/

section Entered
variable (h : Half) (t mode : Nat) (codes : List Nat)

/-- A field of a register that no step of a start writes. -/
theorem Half.get_endStep_other (n : Nat) (f : Field) (hf : f.off < 0x10040) (ha : F.RST_STATE_STEP.apart f) :
    (h.endStep t n).get f = h.get f := by
  unfold Half.endStep
  rw [Half.get_set_other _ _ _ _ (by simp [F.RST_STEPTIME_MS]) (.inl (by simp only [F.RST_STEPTIME_MS]; omega)),
    Half.get_set_other _ _ _ _ (by decide) ha]

/-- The step just ended shows. -/
theorem Half.step_endStep (n : Nat) (hn : n < 16) : (h.endStep t n).step = n := by
  unfold Half.endStep Half.step
  rw [Half.get_set_other _ _ _ _ (by simp [F.RST_STEPTIME_MS]) (.inl (by simp only [F.RST_STEPTIME_MS, F.RST_STATE_STEP]; omega))]
  exact Half.get_set_of_lt _ _ _ (by decide) hn

/-- A half that enters a mode is in it, with step 1 done. -/
theorem Half.enterMode_shows (hm : mode < 16) : (h.enterMode t mode).mode = mode ∧ (h.enterMode t mode).step = 1 := by
  refine ⟨?_, Half.step_endStep _ _ _ (by decide)⟩
  unfold Half.enterMode
  rw [Half.endStep_mode]
  exact Half.get_set_of_lt _ _ _ (by decide) hm

/-- Fields outside RST_STATE and the step times stay. -/
theorem Half.get_enterMode (f : Field) (hf : f.off < 0x10040) (ho : f.off ≠ F.RST_STATE_word.off) :
    (h.enterMode t mode).get f = h.get f := by
  unfold Half.enterMode
  rw [Half.get_endStep_other _ _ _ _ hf (.inl ho.symm), Half.get_set_other _ F.RST_STATE_MODE _ _ (by decide) (.inl ho.symm)]

/-- TRIES and INDEX of the measurement show. -/
theorem Half.strapped_shows : (h.strapped codes).get F.RST_STRAP_TRIES = 1 ∧
    (h.strapped codes).get F.RST_STRAP_INDEX = strapOf codes % 16 := by
  refine ⟨?_, Half.get_set_same _ _ _ (by decide)⟩
  show (Half.set _ F.RST_STRAP_INDEX _).get _ = _
  rw [Half.get_set_other _ _ _ _ (by decide) (by decide)]
  exact Half.get_set_of_lt _ _ _ (by decide) (by decide)

/-- A field outside RST_STRAP stays. -/
theorem Half.get_strapped (f : Field) (hf : f.off ≠ F.RST_STRAP_word.off) : (h.strapped codes).get f = h.get f := by
  refine Half.get_congr _ _ _ (Half.reg_sets_other h _ _ ?_)
  simpa [F.RST_STRAP_word, F.RST_STRAP_CODE, F.RST_STRAP_SPREAD, F.RST_STRAP_TRIES, F.RST_STRAP_INDEX] using hf

end Entered

/-! ## What the module then does -/

section Enters
variable (m : Module) (t : Nat) (codes : List Nat) (mode : Nat) (p : LampPhase)

/-- Each half of a module that has ended step 1. -/
theorem Module.half_enters (k : HalfId) : (m.enters t codes mode p).half k = ((m.half k).strapped codes).enterMode t mode := by
  unfold Module.enters
  rw [Module.half_onLamp, Module.half_onBoth, Module.half_onBoth, Module.half_onLamp]

/-- It is in reset or out of it as before. -/
theorem Module.inReset_enters (k : HalfId) : ((m.enters t codes mode p).half k).inReset = (m.half k).inReset := by
  rw [Module.half_enters]
  unfold Half.enterMode Half.endStep Half.strapped
  rw [Half.set_inReset, Half.set_inReset, Half.set_inReset, Half.sets_keeps Half.inReset fun x f v => Half.set_inReset x f v]

/-- It shows its mode, step 1 and the strap. -/
theorem Module.enters_shows (hm : mode < 16) (k : HalfId) : ((m.enters t codes mode p).half k).mode = mode ∧
    ((m.enters t codes mode p).half k).step = 1 ∧ ((m.enters t codes mode p).half k).get F.RST_STRAP_TRIES = 1 ∧
    ((m.enters t codes mode p).half k).get F.RST_STRAP_INDEX = strapOf codes % 16 := by
  rw [Module.half_enters]
  obtain ⟨hmode, hstep⟩ := Half.enterMode_shows ((m.half k).strapped codes) t mode hm
  obtain ⟨htries, hindex⟩ := Half.strapped_shows (m.half k) codes
  refine ⟨hmode, hstep, ?_, ?_⟩
  · rw [Half.get_enterMode _ _ _ _ (by decide) (by decide), htries]
  · rw [Half.get_enterMode _ _ _ _ (by decide) (by decide), hindex]

/-- In recovery mode nothing goes on. -/
theorem Module.advance_recovery : (m.enters t codes modeRecovery .recovery).advance t = m.enters t codes modeRecovery .recovery := by
  refine Module.advance_fixed _ t (Module.laneTestStep_none _ _ ?_) (Module.startStep_none _ _ ?_) fun k => Module.halfStep_none _ _ k ?_
  · show LampPhase.recovery ≠ .laneTest
    decide
  · show LampPhase.recovery ≠ .starting
    decide
  · obtain ⟨hmode, -⟩ := Module.enters_shows m t codes modeRecovery .recovery (by decide) k
    rw [hmode]
    decide

/-- Both halves out of reset and in mode START are taken through the steps. -/
theorem Module.starters_both (hr : ∀ k, (m.half k).inReset = false) (hm : ∀ k, (m.half k).mode = modeStart) :
    m.starters = [.h0, .h1] := by
  have both (k : HalfId) : (!(m.half k).inReset && (m.half k).mode == modeStart) = true := by
    rw [hr, hm]
    rfl
  unfold Module.starters
  rw [List.filter_eq_self]
  exact fun k _ => both k

/-- A start whose half 0 has no clock waits in step 2. -/
theorem Module.advance_starting (h0 : m.half0.inReset = false) (h1 : m.half1.inReset = false) (hq : m.half0.flag F.RST_QUAL_TIME = false) :
    (m.enters t codes modeStart .starting).advance t = m.enters t codes modeStart .starting := by
  have shows := Module.enters_shows m t codes modeStart .starting (by decide)
  have live (k : HalfId) : ((m.enters t codes modeStart .starting).half k).inReset = false := by
    rw [Module.inReset_enters]
    cases k
    · exact h0
    · exact h1
  have both := Module.starters_both (m.enters t codes modeStart .starting) live fun k => (shows k).1
  have unclocked : ((m.enters t codes modeStart .starting).half .h0).islandsDone = false := by
    have hf : ((m.enters t codes modeStart .starting).half .h0).flag F.RST_QUAL_TIME = false := by
      rw [Module.half_enters, Half.flag, Half.get_enterMode _ _ _ _ (by decide) (by decide), Half.get_strapped _ _ _ (by decide)]
      exact hq
    unfold Half.islandsDone
    rw [hf]
    rfl
  refine Module.advance_fixed _ t (Module.laneTestStep_none _ _ ?_) (Module.startStep_waits _ t .h0 [.h1] both ?_)
    fun k => Module.halfStep_none _ _ k ?_
  · show LampPhase.starting ≠ .laneTest
    decide
  · obtain ⟨-, hstep, -⟩ := shows .h0
    rw [both, hstep]
    exact Bool.and_eq_false_iff.mpr (.inl unclocked)
  · obtain ⟨hmode, -⟩ := shows k
    rw [hmode]
    decide

end Enters

/-- Settles O9: the count and the index choose recovery mode or the start, which waits for its clocks. -/
theorem stepOneOfAStart : Obligations.StepOneOfAStart := by
  unfold Obligations.StepOneOfAStart
  refine fun s codes hp h0 h1 hq hc => ⟨fun hrec => ?recovery, fun hfs hne h12 => ?start⟩
  case recovery =>
    have enters : s.mod.start s.now [codes] = s.mod.enters s.now codes modeRecovery .recovery :=
      (Module.start_steady _ _ _ hp hc).trans (if_pos hrec)
    refine ⟨{ s with mod := (s.mod.start s.now [codes]).advance s.now }, rfl, ?_⟩
    dsimp only
    rw [enters, Module.advance_recovery]
    refine ⟨rfl, fun k => ?_⟩
    obtain ⟨hmode, hstep, htries, -⟩ := Module.enters_shows s.mod s.now codes modeRecovery .recovery (by decide) k
    exact ⟨hmode, hstep, htries⟩
  case start =>
    have enters : s.mod.start s.now [codes] = s.mod.enters s.now codes modeStart .starting :=
      (Module.start_steady _ _ _ hp hc).trans ((if_neg fun e => e.elim (Nat.not_le.mpr hfs) hne).trans (if_neg h12))
    refine ⟨{ s with mod := (s.mod.start s.now [codes]).advance s.now }, rfl, ?_⟩
    dsimp only
    rw [enters, Module.advance_starting _ _ _ h0 h1 hq]
    refine ⟨rfl, rfl, fun k => ?_⟩
    obtain ⟨hmode, hstep, -, hindex⟩ := Module.enters_shows s.mod s.now codes modeStart .starting (by decide) k
    exact ⟨hmode, hstep, hindex⟩

end Sys2Proof.Machine
end

section
/-!
SUPPORT. A module start whose engines have no program (R354): the first beat that ends step 6 is asked of the engine alone, so an engine
that has beaten before and does not begin anew lets the start pass step 6 at once.
-/
namespace Sys2Proof.Machine

/-- A half in step 5 of a module start, its islands qualified: no engine has a program, and each is marked as having beaten. -/
def Half.beatenBefore (id : HalfId) (trained : Option Nat) : Half :=
  let x := (Half.reset id).sets [(F.RST_STATE_STEP, 4), (F.RST_QUAL_TIME, 1), (F.RST_QUAL_QSPI, 1), (F.RST_QUAL_PHY, 255)]
  { x with
    inReset := false
    starter := { x.starter with trained := trained }
    engines := List.replicate 4 { Engine.reset with beaten := true } }

/-- The start of two such halves, of which half 0 has ended its training with every channel. -/
def State.beatenBefore : State :=
  { now := 0, pending := [], mod := { Module.reset with
      half0 := Half.beatenBefore .h0 (some 255), half1 := Half.beatenBefore .h1 none, lamp := { Lamp.reset with phase := .starting } } }

/-- When the training of half 1 ends as well, the start goes on to the end of step 8. -/
theorem State.beatenBefore_step : ((State.beatenBefore.mod.trainingDone State.beatenBefore.now .h1 255).half .h0).step = 8 := by decide +kernel

theorem exec_trainingDone (s : State) (h : HalfId) (passed : Nat) :
    exec (.trainingDone h passed) s = .next { s with mod := s.mod.trainingDone s.now h passed } := rfl

/-- What the statement says of step 5: once the training of half 1 ends as that of half 0 has, with every channel, step 5 is the last
one done. -/
theorem step5_of_startStepsEnd (claim : Obligations.StartStepsEnd) (s : State) (hr : (s.mod.half .h1).inReset = false)
    (ht : (s.mod.half .h1).starter.trained = none) (hi : (s.mod.half .h1).islandsDone = true) (hp : s.mod.lamp.phase = .starting)
    (hs : s.mod.starters = [.h0, .h1]) (hw : ∀ k, (s.mod.half k).step = 4 ∧ (s.mod.half k).store.out = 0)
    (h0 : (s.mod.half .h0).starter.trained = some 255) : ((s.mod.trainingDone s.now .h1 255).half .h0).step = 5 := by
  obtain ⟨training, -⟩ := claim s
  obtain ⟨-, -, ends⟩ := training .h1 255 hr ht hi
  obtain ⟨t, next, -, -, -, shows⟩ := ends hp hs hw rfl h0
  obtain ⟨step5, -⟩ := shows .h0
  rw [exec_trainingDone] at next
  rw [← Host.Outcome.next.inj next] at step5
  exact step5

/-- Refutes O13: the start of `State.beatenBefore` meets the premises of step 5, and the end of its training leaves step 8 done, not
step 5. -/
theorem not_startStepsEnd : ¬ Obligations.StartStepsEnd := by
  intro claim
  have waits (k : HalfId) : (State.beatenBefore.mod.half k).step = 4 ∧ (State.beatenBefore.mod.half k).store.out = 0 := by
    cases k <;> decide +kernel
  have step5 := step5_of_startStepsEnd claim State.beatenBefore rfl rfl (by decide +kernel) rfl (by decide +kernel) waits rfl
  rw [State.beatenBefore_step] at step5
  exact absurd step5 (by decide)

end Sys2Proof.Machine
end

section
/-!
SUPPORT. Islands that qualify and islands that lose their clock (R59, R95, R307): what each does to its lanes, one at a time.
-/
namespace Sys2Proof.Machine

/-! ## A bit of a field cleared -/

/-- A bit cleared in a number is clear. -/
theorem bitAt_setBitNat_false (v i : Nat) : bitAt (setBitNat v i false) i = false := by
  have hbit (w k : Nat) : bitAt w k = (bitsAt w k 1 == 1) := rfl
  have hset : setBitNat v i false = replaceBits v i 1 0 := by
    unfold setBitNat replaceBits
    rw [hbit]
    have := bitsAt_lt v i 1
    rcases (by omega : bitsAt v i 1 = 0 ∨ bitsAt v i 1 = 1) with e | e <;> simp [e]
  rw [hset, hbit, bitsAt_replaceBits]
  rfl

/-- The bit of a field just cleared is clear. -/
theorem Half.getBit_clearBit_same (h : Half) (f : Field) (i : Nat) (hf : f.fits) (hi : i < f.width) :
    (h.setBit f i false).getBit f i = false := by
  unfold Half.getBit Half.setBit
  rw [Half.get_set_same _ _ _ hf, bitAt_mod_two_pow _ _ _ hi, bitAt_setBitNat_false]

/-- A half of which one field is set differs in that register alone. -/
theorem Half.onlyRegs_set (h : Half) (f : Field) (v : Nat) : h.onlyRegs (h.set f v) fun o => o = f.off :=
  ⟨rfl, fun _ ho => Half.reg_set_other _ _ _ _ ho⟩

/-! ## Turns that each change one lane -/

/-- A fold whose turn for `q` gives `s` the value `e`, and whose other turns leave both, gives `e` where `q` has a turn. -/
theorem foldl_apart {α γ : Type} (f : α → Nat → α) (s e : α → γ) (q : Nat) (hq : ∀ a, s (f a q) = e a)
    (ho : ∀ a p, q ≠ p → s (f a p) = s a ∧ e (f a p) = e a) (l : List Nat) (hl : l.Nodup) (a : α) :
    s (l.foldl f a) = if q ∈ l then e a else s a := by
  induction l generalizing a with
  | nil => rfl
  | cons p rest ih =>
    obtain ⟨hp, hrest⟩ := List.nodup_cons.mp hl
    rw [List.foldl_cons, ih hrest]
    by_cases hqp : q = p
    · subst hqp
      rw [if_neg hp, if_pos List.mem_cons_self, hq]
    · obtain ⟨hs, he⟩ := ho a p hqp
      rw [hs, he]
      simp only [List.mem_cons, hqp, false_or]

/-- The ports of a group. -/
def groupPorts (g : Nat) : List Nat := [4 * g, 4 * g + 1, 4 * g + 2, 4 * g + 3]

theorem nodup_groupPorts (g : Nat) : (groupPorts g).Nodup := by simp [groupPorts]

theorem mem_groupPorts (g q : Nat) : q ∈ groupPorts g ↔ q / 4 = g := by
  simp only [groupPorts, List.mem_cons, List.not_mem_nil, or_false]
  omega

/-- The words of different lanes are different registers. -/
theorem laneStatus_ne (p q : Nat) (h : q ≠ p) : (F.LANE_STATUS_word q).off ≠ (F.LANE_STATUS_word p).off := by
  simp only [F.LANE_STATUS_word]
  omega

theorem lanePattern_ne_laneStatus (p q : Nat) : (F.LANE_PATTERN_word q).off ≠ (F.LANE_STATUS_word p).off := by
  simp only [F.LANE_PATTERN_word, F.LANE_STATUS_word]
  omega

/-! ## The lanes of a group whose clock has qualified -/

/-- One lane of the group: it begins where it waits for its clock, and tries again where it is mapped out. -/
def Half.laneClocked (h : Half) (t p : Nat) : Half :=
  if h.flag (F.LANE_CTRL_ENABLE p) && h.laneState p == lsOff then h.laneBegin t p else h.retryLane t p

theorem Half.groupClocked_eq (h : Half) (t g : Nat) :
    h.groupClocked t g = (groupPorts g).foldl (fun (h : Half) p => h.laneClocked t p) h := rfl

/-- A lane whose clock has qualified begins. -/
abbrev Half.begins (h : Half) (p : Nat) : Prop :=
  (h.flag (F.LANE_CTRL_ENABLE p) = true ∧ h.laneState p = lsOff) ∨
    (h.laneState p = lsMappedOut ∧ h.flag (F.LANE_CTRL_MAPOUT p) = false ∧ h.clocked p = true)

section Clocked
variable (h : Half) (t p : Nat)

/-- The lane is in its first state where it begins, and stays where it does not. -/
theorem Half.laneState_laneClocked : (h.laneClocked t p).laneState p = if h.begins p then h.firstState p else h.laneState p := by
  unfold Half.laneClocked
  by_cases hw : h.flag (F.LANE_CTRL_ENABLE p) = true ∧ h.laneState p = lsOff
  · rw [if_pos (by simpa using hw), if_pos (.inl hw), Half.laneState_laneBegin]
  · rw [if_neg (by simpa using hw)]
    unfold Half.retryLane
    by_cases hm : h.laneState p = lsMappedOut ∧ h.flag (F.LANE_CTRL_MAPOUT p) = false ∧ h.clocked p = true
    · rw [if_pos hm, if_pos (.inr hm), Half.laneState_laneBegin]
    · rw [if_neg hm, if_neg (not_or.mpr ⟨hw, hm⟩)]

/-- No other register changes, -/
theorem Half.reg_laneClocked (o : Nat) (ho : o ≠ (F.LANE_STATUS_word p).off) : (h.laneClocked t p).reg o = h.reg o := by
  unfold Half.laneClocked Half.retryLane
  exact Half.reg_ite (Half.reg_laneBegin _ _ _ _ ho) (Half.reg_ite (Half.reg_laneBegin _ _ _ _ ho) rfl)

/-- nor the roles of the ports, -/
theorem Half.ports_laneClocked : (h.laneClocked t p).port.ports = h.port.ports := by
  have begun : (h.laneBegin t p).port.ports = h.port.ports := by
    unfold Half.laneBegin
    split
    · rfl
    · split <;> rfl
  unfold Half.laneClocked Half.retryLane
  split
  · exact begun
  · split
    · exact begun
    · rfl

/-- so another lane begins as before. -/
theorem Half.lane_laneClocked_other (q : Nat) (hq : q ≠ p) : (h.laneClocked t p).laneState q = h.laneState q ∧
    (if (h.laneClocked t p).begins q then (h.laneClocked t p).firstState q else (h.laneClocked t p).laneState q) =
      if h.begins q then h.firstState q else h.laneState q := by
  have state : (h.laneClocked t p).laneState q = h.laneState q :=
    Half.get_congr _ _ _ (Half.reg_laneClocked h t p _ (laneStatus_ne p q hq))
  have control (f : Field) (hf : f.off = (F.LANE_CTRL_word q).off) : (h.laneClocked t p).flag f = h.flag f :=
    congrArg (· == 1) (Half.get_congr _ _ _ (Half.reg_laneClocked h t p _ (hf ▸ laneCtrl_ne_laneStatus q p)))
  have clock : (h.laneClocked t p).clocked q = h.clocked q :=
    Half.clocked_congr _ _ _ (Half.reg_laneClocked h t p _ (by simp only [F.RST_QUAL_word, F.LANE_STATUS_word]; omega))
  have first : (h.laneClocked t p).firstState q = h.firstState q :=
    Half.firstState_congr _ _ _ (Half.reg_laneClocked h t p _ (lanePattern_ne_laneStatus p q)) (Half.ports_laneClocked h t p)
  have begins : (h.laneClocked t p).begins q ↔ h.begins q := by
    unfold Half.begins
    rw [state, control (F.LANE_CTRL_ENABLE q) rfl, control (F.LANE_CTRL_MAPOUT q) rfl, clock]
  exact ⟨state, if_congr begins first state⟩

end Clocked

/-- The lanes of the group that wait for the clock begin, and no others. -/
theorem Half.laneState_groupClocked (h : Half) (t g q : Nat) : (h.groupClocked t g).laneState q =
    if q / 4 = g then (if h.begins q then h.firstState q else h.laneState q) else h.laneState q := by
  rw [Half.groupClocked_eq, foldl_apart (fun (h : Half) p => h.laneClocked t p) (fun x => x.laneState q)
    (fun x => if x.begins q then x.firstState q else x.laneState q) q (fun x => Half.laneState_laneClocked x t q)
    (fun x p hp => Half.lane_laneClocked_other x t p q hp) _ (nodup_groupPorts g)]
  simp only [mem_groupPorts]

/-- A group whose clock qualifies: the bit of its clock is no register of its lanes. -/
theorem Half.laneState_portQualified (x : Half) (t g p : Nat) (hg : g < 6) :
    ((x.setBit F.RST_QUAL_PORTPLL g true).groupClocked t g).laneState p =
      if p / 4 = g ∧ ((x.flag (F.LANE_CTRL_ENABLE p) = true ∧ x.laneState p = lsOff) ∨
        (x.flag (F.LANE_CTRL_MAPOUT p) = false ∧ x.laneState p = lsMappedOut))
      then x.firstState p else x.laneState p := by
  have reg (o : Nat) (ho : 0x30000 ≤ o) : (x.setBit F.RST_QUAL_PORTPLL g true).reg o = x.reg o :=
    Half.reg_set_other _ _ _ _ (by simp only [F.RST_QUAL_PORTPLL]; omega)
  have lane (f : Field) (ho : 0x30000 ≤ f.off) : (x.setBit F.RST_QUAL_PORTPLL g true).get f = x.get f :=
    Half.get_congr _ _ _ (reg _ ho)
  have state : (x.setBit F.RST_QUAL_PORTPLL g true).laneState p = x.laneState p :=
    lane _ (by simp only [F.LANE_STATUS_STATE]; omega)
  have start : (x.setBit F.RST_QUAL_PORTPLL g true).firstState p = x.firstState p :=
    Half.firstState_congr _ _ _ (reg _ (by simp only [F.LANE_PATTERN_word]; omega)) rfl
  have clocked (hp : p / 4 = g) : (x.setBit F.RST_QUAL_PORTPLL g true).clocked p = true := by
    unfold Half.clocked
    rw [hp]
    exact Half.getBit_setBit_same _ _ _ (by decide) hg
  have enable : (x.setBit F.RST_QUAL_PORTPLL g true).flag (F.LANE_CTRL_ENABLE p) = x.flag (F.LANE_CTRL_ENABLE p) :=
    congrArg (· == 1) (lane _ (by simp only [F.LANE_CTRL_ENABLE]; omega))
  have mapOut : (x.setBit F.RST_QUAL_PORTPLL g true).flag (F.LANE_CTRL_MAPOUT p) = x.flag (F.LANE_CTRL_MAPOUT p) :=
    congrArg (· == 1) (lane _ (by simp only [F.LANE_CTRL_MAPOUT]; omega))
  rw [Half.laneState_groupClocked]
  by_cases hp : p / 4 = g
  · rw [if_pos hp]
    refine if_congr ?_ start state
    unfold Half.begins
    rw [state, enable, mapOut, clocked hp]
    simp only [hp, true_and, and_comm]
  · rw [if_neg hp, if_neg fun e => hp e.1, state]

/-- Outside the LANE block no register changes. -/
theorem Half.reg_groupClocked (h : Half) (t g o : Nat) (hg : g < 6) (ho : o / 0x10000 ≠ 3) : (h.groupClocked t g).reg o = h.reg o := by
  have other (x : Half) (k : Nat) (hk : k < 4) : (x.laneClocked t (4 * g + k)).reg o = x.reg o :=
    Half.reg_laneClocked _ _ _ _ (by simp only [F.LANE_STATUS_word]; omega)
  show ((((h.laneClocked t (4 * g + 0)).laneClocked t (4 * g + 1)).laneClocked t (4 * g + 2)).laneClocked t (4 * g + 3)).reg o = _
  rw [other _ 3 (by decide), other _ 2 (by decide), other _ 1 (by decide), other _ 0 (by decide)]

/-! ## The lanes of a group whose clock is lost -/

/-- One lane of the group: at work, it is mapped out. -/
def Half.laneLost (h : Half) (t p : Nat) : Half :=
  if h.laneState p = lsOff ∨ h.laneState p = lsMappedOut then h else (h.isleReset p).mapOut t p none

theorem Half.groupLost_eq (h : Half) (t g : Nat) :
    h.groupLost t g = (groupPorts g).foldl (fun (h : Half) p => h.laneLost t p) h := rfl

/-- The lane is in MAPPED_OUT, unless it is OFF. -/
theorem Half.laneState_laneLost (h : Half) (t p : Nat) :
    (h.laneLost t p).laneState p = if h.laneState p ≠ lsOff then lsMappedOut else h.laneState p := by
  unfold Half.laneLost
  by_cases h0 : h.laneState p = lsOff
  · rw [if_pos (.inl h0), if_neg (not_not_intro h0)]
  · rw [if_pos h0]
    by_cases hm : h.laneState p = lsMappedOut
    · rw [if_pos (.inr hm), hm]
    · rw [if_neg (not_or.mpr ⟨h0, hm⟩), Half.laneState_mapOut_none]

/-- Besides its state only the counts of discarded cells and of overruns change. -/
theorem Half.reg_laneLost (h : Half) (t p o : Nat) (ho : o ≠ (F.LANE_STATUS_word p).off) (hs : 0x10000 ≤ o) :
    (h.laneLost t p).reg o = h.reg o := by
  have counted : (h.isleReset p).reg o = h.reg o :=
    Half.reg_set_other _ F.SYS_XDISC_COUNT _ _ (by simp only [F.SYS_XDISC_COUNT]; omega)
  unfold Half.laneLost
  exact Half.reg_ite rfl ((Half.reg_mapOut_none _ _ _ _ ho (by simp only [F.SYS_XOVR_word]; omega)).trans counted)

/-- The lanes of the group that are at work are mapped out, and no others. -/
theorem Half.laneState_groupLost (h : Half) (t g q : Nat) : (h.groupLost t g).laneState q =
    if q / 4 = g ∧ h.laneState q ≠ lsOff then lsMappedOut else h.laneState q := by
  have other (x : Half) (p : Nat) (hp : q ≠ p) : (x.laneLost t p).laneState q = x.laneState q :=
    Half.get_congr _ _ _ (Half.reg_laneLost x t p _ (laneStatus_ne p q hp) (by simp only [F.LANE_STATUS_STATE]; omega))
  rw [Half.groupLost_eq, foldl_apart (fun (h : Half) p => h.laneLost t p) (fun x => x.laneState q)
    (fun x => if x.laneState q ≠ lsOff then lsMappedOut else x.laneState q) q (fun x => Half.laneState_laneLost x t q)
    (fun x p hp => ⟨other x p hp, by rw [other x p hp]⟩) _ (nodup_groupPorts g)]
  simp only [mem_groupPorts, ite_and]

/-- No register of the RST block changes. -/
theorem Half.reg_groupLost (h : Half) (t g o : Nat) (ho : o / 0x10000 = 1) : (h.groupLost t g).reg o = h.reg o := by
  rw [Half.groupLost_eq]
  exact foldl_keeps (fun x => x.reg o) _
    (fun x p => Half.reg_laneLost x t p o (by simp only [F.LANE_STATUS_word]; omega) (by omega)) _ h

/-- The reports of the links change no field below the highest bit of a register of the RST, LDR and LANE blocks. -/
theorem Half.get_reportAll (h : Half) (t : Nat) (f : Field) (ho : OffLinks f.off) (hf : f.lo + f.width ≤ 31) :
    (h.reportAll t).get f = h.get f := by
  refine foldl_keeps (fun x => x.get f) _ (fun x p => ?_) _ h
  by_cases hr : x.inReset = true
  · exact congrArg (Half.get · f) (if_pos hr)
  · exact Half.get_laneReporting _ _ _ _ _ (by simpa using hr) ho hf

/-! ## ISLAND_QUALIFIED -/

/-- Where no half makes a half start the local base counts from the first release of a time island (R307). -/
theorem Half.epochFrom_eq (h : Half) (t : Nat) (peer : Option Nat) (hm : h.mode ≠ modeHalfStart) :
    h.epochFrom t peer = { h with epoch := some (h.epoch.getD (peer.getD t)) } := by
  unfold Half.epochFrom
  split
  case h_1 e hn => rw [if_neg hm, hn]; rfl
  case h_2 hn => rw [hn]; rfl
  case h_3 e p hn => rw [hn, Option.getD_some, ← hn]

section Qualify
variable (h : Half) (t : Nat) (peer : Option Nat)

/-- The time island sets its bit and the local base, and no other register. -/
theorem Half.qualify_time (hm : h.mode ≠ modeHalfStart) : h.qualify t peer .time =
    { h.set F.RST_QUAL_TIME 1 with epoch := some (h.epoch.getD (peer.getD t)) } := by
  have mode : (h.set F.RST_QUAL_TIME 1).mode = h.mode := Half.get_set_other _ _ _ _ (by decide) (by decide)
  exact Half.epochFrom_eq _ _ _ (mode ▸ hm)

variable (hq : h.flag F.RST_QUAL_TIME = true)
include hq

/-- Every other island follows the time island. -/
theorem Half.qualify_qspi : h.qualify t peer .qspi = h.set F.RST_QUAL_QSPI 1 := if_pos hq

theorem Half.qualify_phy (c : Nat) (hc : c < 8) : h.qualify t peer (.phy c) = h.setBit F.RST_QUAL_PHY c true :=
  if_pos (by rw [hq, decide_eq_true hc]; rfl)

theorem Half.qualify_portPll (g : Nat) (hg : g < 6) :
    h.qualify t peer (.portPll g) = (h.setBit F.RST_QUAL_PORTPLL g true).groupClocked t g :=
  if_pos (by rw [hq, decide_eq_true hg]; rfl)

end Qualify

section Settled
variable (s : State) (h : HalfId) (hs : s.mod.settled) (hw : s.mod.lamp.pass.waiting = none) (hr : (s.mod.half h).inReset = false)

include hs in
/-- In a settled module no half makes a half start. -/
theorem Module.settled_mode : (s.mod.half h).mode ≠ modeHalfStart := by
  obtain ⟨-, h0, h1⟩ := hs
  cases h
  · exact h0
  · exact h1

include hs hw hr in
/-- An island that qualifies in a running module changes its half, and nothing else where that half keeps its mode. -/
theorem exec_islandQualified (hn : (s.mod.half h).step ≠ 0) (i : Island) (x : Half)
    (hx : (s.mod.half h).qualify s.now (s.mod.half h.peer).epoch i = x)
    (hm : x.mode = (s.mod.half h).mode) : exec (.islandQualified h i) s = .next { s with mod := s.mod.setHalf h x } := by
  have qualifies : s.mod.qualifies h i = true := by
    unfold Module.qualifies
    dsimp only
    rw [if_neg (fun e => e.elim (fun e => by rw [hr] at e; cases e) fun e => hn e.1), if_neg (by rw [hs.1]; decide)]
  have ready : (s.mod.setHalf h x).passReady s.now = s.mod.setHalf h x := by
    unfold Module.passReady
    rw [Module.setHalf_lamp, hw]
  have settled : (s.mod.setHalf h x).settled := Module.settled_onHalf s.mod h (fun _ => x) hs hm
  show Host.Outcome.next { s with mod := s.mod.given (s.mod.qualifies h i) fun m =>
    ((m.onHalf h fun y => y.qualify s.now (m.half h.peer).epoch i).passReady s.now).advance s.now } = _
  rw [qualifies, Module.given_true, Module.onHalf, hx, ready, Module.advance_settled _ _ settled]

end Settled

/-! ## LOSS_OF_CLOCK -/

/-- What a half records of the loss of REFCLK (R54). -/
def Half.refclkGone (x : Half) (t : Nat) : Half :=
  ((x.set F.RST_QUALFAIL_TIME 1).set F.RST_QUAL_TIME 0).fault t clsTime 3 2 (x.wordBytes F.TIM_STATUS_word.off)

/-- A port clock lost in its group. -/
def Half.portClockGone (x : Half) (t g : Nat) : Half :=
  (((x.setBit F.RST_QUALFAIL_PORTPLL g true).setBit F.RST_QUAL_PORTPLL g false).groupLost t g).reportAll t

section Lost
variable (m : Module) (t : Nat) (h : HalfId) (hr : (m.half h).inReset = false)
include hr

/-- The loss of REFCLK asks for a warm reset of the module. -/
theorem Module.clockLost_time (hq : (m.half h).flag F.RST_QUAL_TIME = true) :
    m.clockLost t h .time = (m.onHalf h fun x => x.refclkGone t).requestReset t .warm [14] .released := by
  unfold Module.clockLost
  dsimp only
  rw [if_neg (by rw [hr]; decide)]
  exact if_pos hq

theorem Module.clockLost_qspi (hq : (m.half h).flag F.RST_QUAL_QSPI = true) :
    m.clockLost t h .qspi = m.onHalf h fun x => (x.set F.RST_QUALFAIL_QSPI 1).set F.RST_QUAL_QSPI 0 := by
  unfold Module.clockLost
  dsimp only
  rw [if_neg (by rw [hr]; decide)]
  exact if_pos hq

theorem Module.clockLost_portPll (g : Nat) (hg : g < 6) (hq : (m.half h).getBit F.RST_QUAL_PORTPLL g = true) :
    m.clockLost t h (.portPll g) = m.onHalf h fun x => x.portClockGone t g := by
  unfold Module.clockLost
  dsimp only
  rw [if_neg (by rw [hr]; decide)]
  exact if_pos (by rw [hq, decide_eq_true hg]; rfl)

end Lost

/-- A port clock that is lost leaves its bit clear, its failure noted and its lanes at work mapped out. -/
theorem Half.portClockGone_does (x : Half) (t g : Nat) (hg : g < 6) :
    (x.portClockGone t g).getBit F.RST_QUAL_PORTPLL g = false ∧ (x.portClockGone t g).getBit F.RST_QUALFAIL_PORTPLL g = true ∧
    ∀ p < 24, (x.portClockGone t g).laneState p = if p / 4 = g ∧ x.laneState p ≠ lsOff then lsMappedOut else x.laneState p := by
  have shown (f : Field) (ho : f.off / 0x10000 = 1) (hf : f.lo + f.width ≤ 31) : (x.portClockGone t g).get f =
      ((x.setBit F.RST_QUALFAIL_PORTPLL g true).setBit F.RST_QUAL_PORTPLL g false).get f :=
    (Half.get_reportAll _ _ _ ⟨by omega, by omega⟩ hf).trans (Half.get_congr _ _ _ (Half.reg_groupLost _ _ _ _ ho))
  refine ⟨?_, ?_, fun p hp => ?_⟩
  · rw [Half.getBit, shown _ (by decide) (by decide)]
    exact Half.getBit_clearBit_same _ _ _ (by decide) hg
  · rw [Half.getBit, shown _ (by decide) (by decide), Half.get_setBit_other _ _ _ _ _ (by decide) (by decide)]
    exact Half.getBit_setBit_same _ _ _ (by decide) hg
  · have state : ((x.setBit F.RST_QUALFAIL_PORTPLL g true).setBit F.RST_QUAL_PORTPLL g false).laneState p = x.laneState p := by
      have apart (f : Field) (hf : f.off / 0x10000 = 1) : f.apart (F.LANE_STATUS_STATE p) :=
        .inl (by simp only [F.LANE_STATUS_STATE]; omega)
      unfold Half.laneState
      rw [Half.get_setBit_other _ _ _ _ _ (by decide) (apart _ (by decide)), Half.get_setBit_other _ _ _ _ _ (by decide) (apart _ (by decide))]
    have reported := Half.get_reportAll (((x.setBit F.RST_QUALFAIL_PORTPLL g true).setBit F.RST_QUAL_PORTPLL g false).groupLost t g) t
      (F.LANE_STATUS_STATE p) (offLinks_laneWord p hp).2 (Nat.le_of_ble_eq_true rfl)
    rw [← state]
    exact reported.trans (Half.laneState_groupLost _ _ _ _)

/-- Settles O10: each island that qualifies, and each clock that is lost. -/
theorem islands : Obligations.Islands := by
  unfold Obligations.Islands
  refine fun s h hs hw hr hn => ⟨?time, fun hq => ⟨?qspi, fun g hg => ?port, fun g hg hb => ?portLost, fun c hc => ?phy, fun hst hf hu => ?timeLost⟩,
    fun hb => ?qspiLost⟩
  case time =>
    have mode : ({ (s.mod.half h).set F.RST_QUAL_TIME 1 with
        epoch := some ((s.mod.half h).epoch.getD ((s.mod.half h.peer).epoch.getD s.now)) } : Half).mode = (s.mod.half h).mode :=
      Half.get_set_other (s.mod.half h) F.RST_QUAL_TIME F.RST_STATE_MODE 1 (by decide) (by decide)
    refine ⟨_, exec_islandQualified s h hs hw hr hn .time _ (Half.qualify_time _ _ _ (Module.settled_mode s h hs)) mode, ?_⟩
    dsimp only
    rw [Module.half_setHalf]
    exact ⟨Half.get_set_of_lt (s.mod.half h) F.RST_QUAL_TIME 1 (by decide) (by decide), rfl, Module.onlyHalf_onHalf s.mod h fun _ => _⟩
  case qspi =>
    refine ⟨_, exec_islandQualified s h hs hw hr hn .qspi _ (Half.qualify_qspi _ _ _ hq)
      (Half.get_set_other _ _ _ _ (by decide) (by decide)), ?_⟩
    dsimp only
    rw [Module.half_setHalf]
    exact ⟨Half.get_set_of_lt _ _ _ (by decide) (by decide), Half.onlyRegs_set _ _ _, Module.onlyHalf_onHalf s.mod h fun _ => _⟩
  case phy =>
    refine ⟨_, exec_islandQualified s h hs hw hr hn (.phy c) _ (Half.qualify_phy _ _ _ hq c hc)
      (Half.get_setBit_other _ _ _ _ _ (by decide) (by decide)), ?_⟩
    dsimp only
    rw [Module.half_setHalf]
    exact ⟨Half.getBit_setBit_same _ _ _ (by decide) hc, Half.onlyRegs_set _ _ _, Module.onlyHalf_onHalf s.mod h fun _ => _⟩
  case port =>
    have reg (o : Nat) (ho : o / 0x10000 ≠ 3) : (((s.mod.half h).setBit F.RST_QUAL_PORTPLL g true).groupClocked s.now g).reg o =
        ((s.mod.half h).setBit F.RST_QUAL_PORTPLL g true).reg o := Half.reg_groupClocked _ _ _ _ hg ho
    have mode : (((s.mod.half h).setBit F.RST_QUAL_PORTPLL g true).groupClocked s.now g).mode = (s.mod.half h).mode :=
      (Half.mode_congr _ _ (reg _ (by decide))).trans (Half.get_setBit_other _ _ _ _ _ (by decide) (by decide))
    refine ⟨_, exec_islandQualified s h hs hw hr hn (.portPll g) _ (Half.qualify_portPll _ _ _ hq g hg) mode, ?_⟩
    dsimp only
    rw [Module.half_setHalf]
    refine ⟨?_, fun p _ => Half.laneState_portQualified _ _ _ _ hg, fun o ho hl => ?_, Module.onlyHalf_onHalf s.mod h fun _ => _⟩
    · rw [Half.getBit, Half.get_congr _ _ F.RST_QUAL_PORTPLL (reg _ (by decide))]
      exact Half.getBit_setBit_same _ _ _ (by decide) hg
    · exact (reg o hl).trans (Half.reg_set_other _ F.RST_QUAL_PORTPLL _ _ ho)
  case portLost =>
    obtain ⟨hclear, hfail, hlanes⟩ := Half.portClockGone_does (s.mod.half h) s.now g hg
    refine ⟨{ s with mod := s.mod.clockLost s.now h (.portPll g) }, rfl, ?_⟩
    dsimp only
    rw [Module.clockLost_portPll _ _ _ hr g hg hb, Module.half_onHalf]
    exact ⟨hclear, hfail, hlanes, Module.onlyHalf_onHalf _ _ _⟩
  case timeLost =>
    have hl : (s.mod.onHalf h fun x => x.refclkGone s.now).lamp = s.mod.lamp := Module.onHalf_lamp _ _ _
    have stopped : (s.mod.onHalf h fun x => x.refclkGone s.now).lamp.stopped = false := by rw [hl, hst]
    have quiet : (s.mod.onHalf h fun x => x.refclkGone s.now).lamp.phase.inStart = false := by rw [hl, hs.1]; rfl
    have unasked : (s.mod.onHalf h fun x => x.refclkGone s.now).unasked s.now := by rwa [Module.unasked, hl]
    have free : (s.mod.onHalf h fun x => x.refclkGone s.now).freeToGo := by rwa [Module.freeToGo, hl]
    have starts := Module.requestReset_starts _ s.now .warm stopped quiet unasked [14] free
    refine ⟨{ s with mod := s.mod.clockLost s.now h .time }, rfl, ?_⟩
    dsimp only
    rw [Module.clockLost_time _ _ _ hr hq]
    exact ⟨starts.half0, starts.half1, starts.mode0, starts.mode1, starts.phase,
      Module.requestReset_last _ _ _ stopped quiet unasked 14 h (by decide)⟩
  case qspiLost =>
    refine ⟨{ s with mod := s.mod.clockLost s.now h .qspi }, rfl, ?_⟩
    dsimp only
    rw [Module.clockLost_qspi _ _ _ hr hb, Module.half_onHalf]
    refine ⟨Half.get_set_of_lt _ _ _ (by decide) (by decide), ?_, ⟨rfl, fun o ho => ?_⟩, Module.onlyHalf_onHalf _ _ _⟩
    · rw [Half.get_set_other _ _ _ _ (by decide) (by decide)]
      exact Half.get_set_of_lt _ _ _ (by decide) (by decide)
    · obtain ⟨hqual, hfail⟩ := not_or.mp ho
      rw [Half.reg_set_other _ F.RST_QUAL_QSPI _ _ hqual, Half.reg_set_other _ F.RST_QUALFAIL_QSPI _ _ hfail]

end Sys2Proof.Machine
end

section
/-!
SUPPORT. The key fuse through every operation on the module (R80, R387). Each operation is made of changes of a half, of the lamplighter and
of the flash, so each leaves the fuse; a FUSE frame alone writes it.
-/
namespace Sys2Proof.Machine

/-- What every turn of a fold leaves of the fuse, the fold leaves. -/
@[simp] theorem Module.foldl_fuse {β : Type} (f : Module → β → Module) (l : List β) (m : Module)
    (hf : ∀ (x : Module) b, (f x b).fuse = x.fuse) : (l.foldl f m).fuse = m.fuse := foldl_keeps Module.fuse f hf l m

@[simp] theorem Module.ite_fuse (c : Prop) [Decidable c] (x y : Module) : (if c then x else y).fuse = if c then x.fuse else y.fuse :=
  apply_ite _ _ _ _

@[simp] theorem Module.given_fuse (m : Module) (ok : Bool) (f : Module → Module) (hf : ∀ x : Module, (f x).fuse = x.fuse) :
    (m.given ok f).fuse = m.fuse := by
  unfold Module.given
  split <;> simp [hf]

section Kept
variable (m : Module) (t : Nat) (h : HalfId)

/-! ## Checked accesses -/

@[simp] theorem Module.checked_fuse (issuer a z master kind) (f : Module → Module) (hf : ∀ x : Module, (f x).fuse = x.fuse) :
    (m.checked t issuer a z master kind f).fuse = m.fuse := by
  unfold Module.checked
  split <;> simp [hf]

@[simp] theorem Module.checkedReg_fuse (off master) (f : Module → Module) (hf : ∀ x : Module, (f x).fuse = x.fuse) :
    (m.checkedReg t h off master f).fuse = m.fuse := Module.checked_fuse _ _ _ _ _ _ _ _ hf

/-! ## Intake -/

@[simp] theorem Module.writeTile_fuse (i tile payload) : (m.writeTile t h i tile payload).fuse = m.fuse := by
  unfold Module.writeTile; dsimp only; (repeat' split) <;> simp
@[simp] theorem Module.sdiRows_fuse (i row lines) : (m.sdiRows t h i row lines).fuse = m.fuse := by unfold Module.sdiRows; split <;> simp
@[simp] theorem Module.sdiComplete_fuse (i picture) : (m.sdiComplete t h i picture).fuse = m.fuse := by
  unfold Module.sdiComplete; split <;> simp
@[simp] theorem Module.placeCell_fuse (i c) : (m.placeCell t h i c).fuse = m.fuse := by unfold Module.placeCell; (repeat' split) <;> simp
@[simp] theorem Module.sourceCell_fuse (i s c stamp) : (m.sourceCell t h i s c stamp).fuse = m.fuse := by
  unfold Module.sourceCell; (repeat' split) <;> simp
@[simp] theorem Module.tileCell_fuse (src c stamp) : (m.tileCell t h src c stamp).fuse = m.fuse := by
  unfold Module.tileCell; dsimp only; (repeat' split) <;> simp
@[simp] theorem Module.publishRow_fuse (i row lines) : (m.publishRow t h i row lines).fuse = m.fuse := by
  unfold Module.publishRow; dsimp only; split <;> simp

/-! ## Laps -/

@[simp] theorem Module.meetsError_fuse (e) : (m.meetsError t e).fuse = m.fuse := by simp [Module.meetsError]
@[simp] theorem Module.composeRead_fuse (a n) : (m.composeRead t a n).1.fuse = m.fuse := by
  unfold Module.composeRead; dsimp only; (repeat' split) <;> simp
@[simp] theorem Module.readPalette_fuse (g) : (m.readPalette t h g).fuse = m.fuse := by
  unfold Module.readPalette; dsimp only; (repeat' split) <;> simp
@[simp] theorem Module.lapGo_fuse : (m.lapGo t h).fuse = m.fuse := by simp [Module.lapGo]
@[simp] theorem Module.handOver_fuse (lb) : (m.handOver lb h).fuse = m.fuse := by simp [Module.handOver]
@[simp] theorem Module.lapBoundary_fuse (stamp) : (m.lapBoundary t h stamp).1.fuse = m.fuse := by
  unfold Module.lapBoundary; dsimp only; (repeat' split) <;> simp
@[simp] theorem Module.afterLatch_fuse (f) : (m.afterLatch t h f).fuse = m.fuse := by simp [Module.afterLatch]
@[simp] theorem Module.fetchRead_fuse (f corr bad) : (m.fetchRead t h f corr bad).1.fuse = m.fuse := by
  unfold Module.fetchRead; dsimp only; (repeat' split) <;> simp
@[simp] theorem Module.fetchComplete_fuse (tag corr bad) : (m.fetchComplete t h tag corr bad).fuse = m.fuse := by
  unfold Module.fetchComplete; dsimp only; (repeat' split) <;> simp
@[simp] theorem Module.dropFlights_fuse (o c) : (m.dropFlights o c).fuse = m.fuse := by
  refine Module.foldl_fuse _ _ _ fun x k => ?_
  dsimp only
  split <;> simp

/-! ## Rings -/

@[simp] theorem Module.ringLapStart_fuse (r) : (m.ringLapStart t h r).fuse = m.fuse := by simp [Module.ringLapStart]
@[simp] theorem Module.lapstart_fuse (r from_ c) : (m.lapstart t h r from_ c).fuse = m.fuse := by simp [Module.lapstart]
@[simp] theorem Module.ringCell_fuse (r from_ pos c stamp) : (m.ringCell t h r from_ pos c stamp).1.fuse = m.fuse := by
  unfold Module.ringCell; dsimp only; (repeat' split) <;> simp

/-! ## Host -/

@[simp] theorem Module.toService_fuse (kind body) : (m.toService kind body).fuse = m.fuse := by simp [Module.toService]
@[simp] theorem Module.giveRsp_fuse (c) : (m.giveRsp h c).fuse = m.fuse := by simp [Module.giveRsp]
@[simp] theorem Module.deliver_fuse (who c) : (m.deliver h who c).fuse = m.fuse := by
  unfold Module.deliver; dsimp only; (repeat' split) <;> simp
@[simp] theorem Module.answer_fuse (who c) : (m.answer h who c).fuse = m.fuse := by simp [Module.answer]
@[simp] theorem Module.complete_fuse (who tag opcode len payload status flags rest) :
    (m.complete h who tag opcode len payload status flags rest).fuse = m.fuse := by
  simp [Module.complete]
@[simp] theorem Module.finish_fuse (f) : (m.finish f).fuse = m.fuse := by unfold Module.finish; split <;> simp
@[simp] theorem Module.finishAll_fuse (fs) : (m.finishAll fs).fuse = m.fuse := by simp [Module.finishAll]
@[simp] theorem Module.flushEvents_fuse : (m.flushEvents t h).fuse = m.fuse := by simp [Module.flushEvents]
@[simp] theorem Module.esend_fuse (n) : (m.esend h n).fuse = m.fuse := by unfold Module.esend; dsimp only; (repeat' split) <;> simp

/-! ## Batons and flits -/

@[simp] theorem Module.inbound_fuse (c) : (m.inbound h c).fuse = m.fuse := by simp [Module.inbound]
@[simp] theorem Module.batonSend_fuse : (m.batonSend t h).fuse = m.fuse := by simp [Module.batonSend]
@[simp] theorem Module.batonReceive_fuse (b) : (m.batonReceive t h b).fuse = m.fuse := by simp [Module.batonReceive]
@[simp] theorem Module.batonSilence_fuse : (m.batonSilence t h).fuse = m.fuse := by simp [Module.batonSilence]
@[simp] theorem Module.flitReceive_fuse (f) : (m.flitReceive t h f).fuse = m.fuse := by unfold Module.flitReceive; (repeat' split) <;> simp
@[simp] theorem Module.mirrorReceive_fuse (entry) : (m.mirrorReceive h entry).fuse = m.fuse := by simp [Module.mirrorReceive]

/-! ## Resets -/

@[simp] theorem Module.flushRecs_fuse : (m.flushRecs t h).fuse = m.fuse := by simp [Module.flushRecs]
@[simp] theorem Module.intoReset_fuse (scope causes p) : (m.intoReset t scope causes p).fuse = m.fuse := rfl

@[simp] theorem Module.releaseBoth_fuse : (m.releaseBoth t).fuse = m.fuse := by simp [Module.releaseBoth]
@[simp] theorem Module.falseStart_fuse (cause) : (m.falseStart t cause).fuse = m.fuse := by simp [Module.falseStart]
@[simp] theorem Module.letGo_fuse : (m.letGo t).fuse = m.fuse := by simp [Module.letGo]
@[simp] theorem Module.applyReset_fuse (scope causes p) : (m.applyReset t scope causes p).fuse = m.fuse := by simp [Module.applyReset]
@[simp] theorem Module.noteReset_fuse (scope causes late) : (m.noteReset t scope causes late).fuse = m.fuse := by simp [Module.noteReset]
@[simp] theorem Module.requestReset_fuse (scope causes p) : (m.requestReset t scope causes p).fuse = m.fuse := by
  unfold Module.requestReset
  dsimp only
  split
  · rfl
  · split
    · repeat' split
      all_goals simp
    · rw [Module.noteReset_fuse, Module.applyReset_fuse, Module.foldl_fuse _ _ _ fun _ _ => Module.onHalf_fuse _ _ _]
      split <;> simp

@[simp] theorem Module.applyHalfReset_fuse (causes hold) : (m.applyHalfReset t h causes hold).fuse = m.fuse :=
  (Module.onHalf_fuse _ _ _).trans (Module.onHalf_fuse _ _ _)

@[simp] theorem Module.warmInstead_fuse (causes hold) : (m.warmInstead t h causes hold).fuse = m.fuse := by simp [Module.warmInstead]
@[simp] theorem Module.requestHalfReset_fuse (causes hold) : (m.requestHalfReset t h causes hold).fuse = m.fuse := by
  unfold Module.requestHalfReset; dsimp only; (repeat' split) <;> simp

/-! ## Touch -/

@[simp] theorem Module.putReport_fuse (bytes) : (m.putReport t bytes).fuse = m.fuse := by
  unfold Module.putReport; dsimp only; (repeat' split) <;> simp
@[simp] theorem Module.report_fuse (frame stop r s last) : (m.report t frame stop r s last).fuse = m.fuse := by simp [Module.report]
@[simp] theorem Module.resyncRing_fuse : (m.resyncRing t).fuse = m.fuse := by unfold Module.resyncRing; dsimp only; split <;> simp
@[simp] theorem Module.finishFrame_fuse (out) : (m.finishFrame t out).fuse = m.fuse := by
  unfold Module.finishFrame; dsimp only; split <;> simp
@[simp] theorem Module.mirrorStatus_fuse : (m.mirrorStatus t h).fuse = m.fuse := by unfold Module.mirrorStatus; dsimp only; split <;> simp
@[simp] theorem Module.loseContacts_fuse : (m.loseContacts t).fuse = m.fuse := by unfold Module.loseContacts; dsimp only; split <;> simp
@[simp] theorem Module.scan_fuse (on) : (m.scan t on).fuse = m.fuse := by simp [Module.scan]
@[simp] theorem Module.touchSupplyStop_fuse : (m.touchSupplyStop t).fuse = m.fuse := by simp [Module.touchSupplyStop]
@[simp] theorem Module.runningFrame_fuse (c x frame stop) : (m.runningFrame t c x frame stop).fuse = m.fuse := by simp [Module.runningFrame]
@[simp] theorem Module.touchFrame_fuse (samples selfRaw rowSelf colSelf stamp) :
    (m.touchFrame t samples selfRaw rowSelf colSelf stamp).fuse = m.fuse := by
  unfold Module.touchFrame; dsimp only; (repeat' split) <;> simp

/-! ## Power -/

@[simp] theorem Module.lampReset_fuse (p) : (m.lampReset t p).fuse = m.fuse := by simp [Module.lampReset]
@[simp] theorem Module.vaonLow_fuse : (m.vaonLow t).fuse = m.fuse := by simp [Module.vaonLow]
@[simp] theorem Module.vaonRise_fuse : (m.vaonRise t).fuse = m.fuse := by simp [Module.vaonRise]
@[simp] theorem Module.pwrEnRaise_fuse : (m.pwrEnRaise t).fuse = m.fuse := by simp [Module.pwrEnRaise]
@[simp] theorem Module.wake_fuse (code) : (m.wake t code).fuse = m.fuse := by simp [Module.wake]
@[simp] theorem Module.wakeEvent_fuse (code) : (m.wakeEvent t code).fuse = m.fuse := by simp [Module.wakeEvent]
@[simp] theorem Module.pwrGoodRise_fuse : (m.pwrGoodRise t).fuse = m.fuse := by simp [Module.pwrGoodRise]
@[simp] theorem Module.pwrGoodTimeout_fuse : (m.pwrGoodTimeout t).fuse = m.fuse := by simp [Module.pwrGoodTimeout]
@[simp] theorem Module.pwrRetry_fuse : (m.pwrRetry t).fuse = m.fuse := by simp [Module.pwrRetry]
@[simp] theorem Module.supplyReset_fuse (unit mv good) : (m.supplyReset t unit mv good).fuse = m.fuse := by simp [Module.supplyReset]
@[simp] theorem Module.actOnSupplies_fuse (mv good twice acts) : (m.actOnSupplies t mv good twice acts).fuse = m.fuse := by
  unfold Module.actOnSupplies; dsimp only; (repeat' split) <;> simp
@[simp] theorem Module.supplySample_fuse (mv good temps) : (m.supplySample t mv good temps).fuse = m.fuse := by simp [Module.supplySample]
@[simp] theorem Module.thermalTrip_fuse (temps) : (m.thermalTrip t temps).fuse = m.fuse := by simp [Module.thermalTrip]
@[simp] theorem Module.tripRelease_fuse (temps) : (m.tripRelease t temps).fuse = m.fuse := by simp [Module.tripRelease]
@[simp] theorem Module.resetNAssert_fuse : (m.resetNAssert t).fuse = m.fuse := by simp [Module.resetNAssert]
@[simp] theorem Module.resetNRelease_fuse : (m.resetNRelease t).fuse = m.fuse := by simp [Module.resetNRelease]
@[simp] theorem Module.falseHoldEnd_fuse : (m.falseHoldEnd t).fuse = m.fuse := by simp [Module.falseHoldEnd]
@[simp] theorem Module.clearCount_fuse : (m.clearCount).fuse = m.fuse := by simp [Module.clearCount]
@[simp] theorem Module.releaseHalf_fuse : (m.releaseHalf t h).fuse = m.fuse := by unfold Module.releaseHalf; split <;> simp
@[simp] theorem Module.halfResetRelease_fuse : (m.halfResetRelease t h).fuse = m.fuse := by simp [Module.halfResetRelease]
@[simp] theorem Module.vcoreRelease_fuse : (m.vcoreRelease t h).fuse = m.fuse := by simp [Module.vcoreRelease]
@[simp] theorem Module.halfFalseStart_fuse : (m.halfFalseStart t h).fuse = m.fuse := by simp [Module.halfFalseStart]
@[simp] theorem Module.clearHalfFs_fuse : (m.clearHalfFs t).fuse = m.fuse := by
  unfold Module.clearHalfFs; dsimp only; (repeat' split) <;> simp
@[simp] theorem Module.enterRest_fuse : (m.enterRest t).fuse = m.fuse := by simp [Module.enterRest]
@[simp] theorem Module.restPowerOff_fuse : (m.restPowerOff t).fuse = m.fuse := by
  unfold Module.restPowerOff; dsimp only; (repeat' split) <;> simp
@[simp] theorem Module.wakeTimer_fuse : (m.wakeTimer t).fuse = m.fuse := by simp [Module.wakeTimer]

/-! ## Keys -/

@[simp] theorem Module.keyEvent_fuse (w) : (m.keyEvent w).fuse = m.fuse := by simp [Module.keyEvent]
@[simp] theorem Module.chatterSample_fuse (k x) : (m.chatterSample t k x).fuse = m.fuse := by simp [Module.chatterSample]
@[simp] theorem Module.keyTransition_fuse (k x) : (m.keyTransition t k x).fuse = m.fuse := by simp [Module.keyTransition]
@[simp] theorem Module.keyStep_fuse (k high) : (m.keyStep t k high).fuse = m.fuse := by simp [Module.keyStep]
@[simp] theorem Module.keySample_fuse (levels) : (m.keySample t levels).fuse = m.fuse := by simp [Module.keySample]
@[simp] theorem Module.keyStuck_fuse (k) : (m.keyStuck t k).fuse = m.fuse := by simp [Module.keyStuck]
@[simp] theorem Module.restScan_fuse (codes) : (m.restScan t codes).fuse = m.fuse := by
  unfold Module.restScan
  split
  · dsimp only
    split
    · rfl
    · split
      · rw [Module.wakeEvent_fuse]
      · rfl
  · rfl

/-! ## Supervision -/

@[simp] theorem Module.beat_fuse (n) : (m.beat t h n).fuse = m.fuse := by simp [Module.beat]
@[simp] theorem Module.holdOwn_fuse : (m.holdOwn t h).fuse = m.fuse := by simp [Module.holdOwn]
@[simp] theorem Module.stewardWatchdog_fuse : (m.stewardWatchdog t h).fuse = m.fuse := by simp [Module.stewardWatchdog]
@[simp] theorem Module.grant_fuse : (m.grant t h).fuse = m.fuse := by simp [Module.grant]
@[simp] theorem Module.lampWatchdog_fuse : (m.lampWatchdog t).fuse = m.fuse := by simp [Module.lampWatchdog]
@[simp] theorem Module.sampleHold_fuse : (m.sampleHold t h).fuse = m.fuse := by simp [Module.sampleHold]
@[simp] theorem Module.sampleLive_fuse : (m.sampleLive t).fuse = m.fuse := by simp [Module.sampleLive]
@[simp] theorem Module.lampSample_fuse : (m.lampSample t).fuse = m.fuse := by
  unfold Module.lampSample
  split
  · rw [Module.onLamp_fuse, Module.sampleLive_fuse, Module.sampleHold_fuse, Module.sampleHold_fuse]
  · rfl

@[simp] theorem Module.healthToggle_fuse : (m.healthToggle t h).fuse = m.fuse := by simp [Module.healthToggle]
@[simp] theorem Module.bypassClose_fuse (k) : (m.bypassClose h k).fuse = m.fuse := by simp [Module.bypassClose]
@[simp] theorem Module.clearGrant_fuse (c) : (m.clearGrant h c).fuse = m.fuse := by unfold Module.clearGrant; split <;> simp
@[simp] theorem Module.heartStop_fuse : (m.heartStop t h).fuse = m.fuse := by simp [Module.heartStop]
@[simp] theorem Module.restWrite_fuse (master v) : (m.restWrite t h master v).fuse = m.fuse := by simp [Module.restWrite]
@[simp] theorem Module.clearCounts_fuse (master v) : (m.clearCounts t master v).fuse = m.fuse := by simp [Module.clearCounts]
@[simp] theorem Module.rstCmd_fuse (master v) : (m.rstCmd t h master v).fuse = m.fuse := by simp [Module.rstCmd]

/-! ## Selections -/

@[simp] theorem Module.shareMode_fuse (w) : (m.shareMode w).fuse = m.fuse := by simp [Module.shareMode]
@[simp] theorem Module.decided_fuse (w c r) : (m.decided w c r).fuse = m.fuse := by simp [Module.decided]
@[simp] theorem Module.select_fuse (c o) : (m.select h c o).fuse = m.fuse := by unfold Module.select; (repeat' split) <;> simp
@[simp] theorem Module.selectAt_fuse (c wall expiry o) : (m.selectAt t h c wall expiry o).fuse = m.fuse := by
  unfold Module.selectAt; (repeat' split) <;> simp
@[simp] theorem Module.selectReg_fuse (c) : (m.selectReg h c).fuse = m.fuse := by simp [Module.selectReg]

/-! ## Registers -/

@[simp] theorem Module.writeRst_fuse (master off v) : (m.writeRst t h master off v).fuse = m.fuse := by simp [Module.writeRst]
@[simp] theorem Module.writeEng_fuse (master off v) : (m.writeEng t h master off v).fuse = m.fuse := by simp [Module.writeEng]
@[simp] theorem Module.writeHst_fuse (off v) : (m.writeHst h off v).fuse = m.fuse := by simp [Module.writeHst]
@[simp] theorem Module.writeReg_fuse (master off v) : (m.writeReg t h master off v).fuse = m.fuse := by
  unfold Module.writeReg; split <;> simp
@[simp] theorem Module.putReg_fuse (master off v) : (m.putReg t h master off v).fuse = m.fuse := by simp [Module.putReg]
@[simp] theorem Module.writeLamp_fuse (master off v) : (m.writeLamp t h master off v).fuse = m.fuse := by
  unfold Module.writeLamp; (repeat' split) <;> simp
@[simp] theorem Module.blocksDone_fuse : (m.blocksDone t h).fuse = m.fuse := by simp [Module.blocksDone]
@[simp] theorem Module.awaitBlock_fuse (off) : (m.awaitBlock t h off).fuse = m.fuse := by simp [Module.awaitBlock]
@[simp] theorem Module.readAt_fuse (a n) : (m.readAt t a n).2.fuse = m.fuse := by unfold Module.readAt; split <;> simp
@[simp] theorem Module.writeAt_fuse (issuer master a n v) : (m.writeAt t issuer master a n v).fuse = m.fuse := by
  unfold Module.writeAt; split <;> simp

/-! ## Requests -/

@[simp] theorem Module.answerNow_fuse (q r status) : (m.answerNow h q r status).fuse = m.fuse := by simp [Module.answerNow]
@[simp] theorem Module.readWords_fuse (n a) : (Module.readWords t n a m).2.fuse = m.fuse := by
  induction n generalizing a m with
  | zero => rfl
  | succ n ih => exact (ih _ _).trans (Module.readAt_fuse _ _ _ _)

@[simp] theorem Module.writeWords_fuse (issuer master n a bs) :
    (Module.writeWords t issuer master n a bs m).fuse = m.fuse := by
  induction n generalizing a bs m with
  | zero => rfl
  | succ n ih => exact (ih _ _ _).trans (Module.writeAt_fuse _ _ _ _ _ _ _)

@[simp] theorem Module.replaced_fuse (a n) : (m.replaced a n).fuse = m.fuse := by unfold Module.replaced; split <;> simp
@[simp] theorem Module.doAccess_fuse (master r) : (m.doAccess t h master r).2.fuse = m.fuse := by unfold Module.doAccess; split <;> simp
@[simp] theorem Module.accessReq_fuse (x q r) : (m.accessReq t h x q r).fuse = m.fuse := by
  unfold Module.accessReq; dsimp only; (repeat' split) <;> simp
@[simp] theorem Module.subscribeReq_fuse (q r) : (m.subscribeReq h q r).fuse = m.fuse := by unfold Module.subscribeReq; split <;> simp
@[simp] theorem Module.runReq_fuse (x q r) : (m.runReq t h x q r).fuse = m.fuse := by unfold Module.runReq; split <;> simp
@[simp] theorem Module.request_fuse (q r) : (m.request t h q r).fuse = m.fuse := by
  unfold Module.request; dsimp only; (repeat' split) <;> simp
@[simp] theorem Module.cellRequest_fuse (q r) : (m.cellRequest t h q r).fuse = m.fuse := by simp [Module.cellRequest]
@[simp] theorem Module.requestBy_fuse (q r) : (m.requestBy t h q r).fuse = m.fuse := by simp [Module.requestBy]
@[simp] theorem Module.cellRsp_fuse (c) : (m.cellRsp h c).fuse = m.fuse := by simp [Module.cellRsp]
@[simp] theorem Module.noRoute_fuse (c) : (m.noRoute h c).fuse = m.fuse := by simp [Module.noRoute]
@[simp] theorem Module.addressed_fuse (c) : (m.addressed t h c).fuse = m.fuse := by simp [Module.addressed]
@[simp] theorem Module.mgmtCell_fuse (r crcOk c) : (m.mgmtCell t h r crcOk c).fuse = m.fuse := by
  unfold Module.mgmtCell; dsimp only; (repeat' split) <;> simp
@[simp] theorem Module.serviceReq_fuse (r) : (m.serviceReq t r).fuse = m.fuse := by
  unfold Module.serviceReq; dsimp only; (repeat' split) <;> simp

/-! ## The loader -/

@[simp] theorem Module.ldr_fuse (fs) : (m.ldr fs).fuse = m.fuse := by simp [Module.ldr]
@[simp] theorem Module.slotFailure_fuse (slot code type ofs) : (m.slotFailure slot code type ofs).fuse = m.fuse := by
  simp [Module.slotFailure]
@[simp] theorem Module.loadFalseStart_fuse (cause) : (m.loadFalseStart t cause).fuse = m.fuse := by simp [Module.loadFalseStart]
@[simp] theorem Module.beginLoad_fuse (l) : (m.beginLoad t h l).fuse = m.fuse := by simp [Module.beginLoad]
@[simp] theorem Module.loaderPoint_fuse (type bytes) : (m.loaderPoint type bytes).fuse = m.fuse := by simp [Module.loaderPoint]
@[simp] theorem Module.headerPoint_fuse (base) : (m.headerPoint base).fuse = m.fuse := by simp [Module.headerPoint]
@[simp] theorem Module.readSlot_fuse (slotSize slot) : (m.readSlot slotSize slot).1.fuse = m.fuse := by
  unfold Module.readSlot; dsimp only; (repeat' split) <;> simp
@[simp] theorem Module.noteKey_fuse : (m.noteKey t).fuse = m.fuse := by simp [Module.noteKey]
@[simp] theorem Module.chooseSlot_fuse : (m.chooseSlot t).fuse = m.fuse := by unfold Module.chooseSlot; dsimp only; (repeat' split) <;> simp
@[simp] theorem Module.halfLoadEnds_fuse (result) : (m.halfLoadEnds result).fuse = m.fuse := by simp [Module.halfLoadEnds]
@[simp] theorem Module.halfLoadFails_fuse (result) : (m.halfLoadFails t h result).fuse = m.fuse := by simp [Module.halfLoadFails]
@[simp] theorem Module.halfHeaders_fuse : (m.halfHeaders t h).fuse = m.fuse := by
  unfold Module.halfHeaders; dsimp only; (repeat' split) <;> simp
@[simp] theorem Module.headersRead_fuse (sfdp) : (m.headersRead t sfdp).fuse = m.fuse := by simp [Module.headersRead]
@[simp] theorem Module.place_fuse (l : LoadSt) (half f) : (m.place l h half f).fuse = m.fuse :=
  Module.foldl_fuse _ _ _ fun x k => by split <;> simp

/-- A section is placed where its content reads as one; the fuse stays if it does in what the content gives. -/
theorem fuse_of_map {α : Type} {m : Module} {o : Option α} {f : α → Module × LoadSt} {r : Module × LoadSt}
    (hf : ∀ x, (f x).1.fuse = m.fuse) (hr : o.map f = some r) : r.1.fuse = m.fuse := by
  obtain ⟨x, -, rfl⟩ := Option.map_eq_some_iff.mp hr
  exact hf x

theorem Module.placeWords_fuse (l s) (r : Module × LoadSt) (hr : m.placeWords t l h s = some r) : r.1.fuse = m.fuse := by
  unfold Module.placeWords at hr
  repeat' split at hr
  iterate 6 exact fuse_of_map (fun _ => by simp) hr
  cases hr
  rfl

theorem Module.placePicture_fuse (l s) (r : Module × LoadSt) (hr : m.placePicture l h s = some r) : r.1.fuse = m.fuse := by
  unfold Module.placePicture at hr
  split at hr
  · exact fuse_of_map (fun _ => rfl) hr
  split at hr
  · obtain ⟨a, -, ha⟩ := Option.bind_eq_some_iff.mp hr
    obtain ⟨-, ha⟩ := Option.ite_none_right_eq_some.mp ha
    cases ha
    exact Module.place_fuse _ _ _ _ _
  repeat' split at hr
  all_goals exact fuse_of_map (fun _ => by simp) hr

theorem Module.placeSection_fuse (l s) (r : Module × LoadSt) (hr : m.placeSection t l h s = some r) : r.1.fuse = m.fuse := by
  unfold Module.placeSection at hr
  repeat' split at hr
  iterate 5 exact congrArg (fun x => x.1.fuse) (Option.some.inj hr).symm
  · exact fuse_of_map (fun _ => by simp) hr
  · exact m.placePicture_fuse _ _ _ _ hr
  · exact m.placeWords_fuse _ _ _ _ _ hr

@[simp] theorem Module.loadFails_fuse (l code type ofs) : (m.loadFails t h l code type ofs).fuse = m.fuse := by
  unfold Module.loadFails; (repeat' split) <;> simp
@[simp] theorem Module.loadLimitExpire_fuse : (m.loadLimitExpire t).fuse = m.fuse := by simp [Module.loadLimitExpire]
@[simp] theorem Module.endLoad_fuse (l es) : (m.endLoad t h l es).fuse = m.fuse := by
  unfold Module.endLoad; dsimp only; (repeat' split) <;> simp
@[simp] theorem Module.sectionArrival_fuse : (m.sectionArrival t).fuse = m.fuse := by
  unfold Module.sectionArrival
  split
  · rfl
  dsimp only
  split
  · simp
  split
  · rfl
  split
  · simp
  split
  · simp
  · next hp =>
    have placed := Module.placeSection_fuse _ _ _ _ _ _ hp
    simpa using placed

/-! ## Starts -/

@[simp] theorem Module.start_fuse (codes) : (m.start t codes).fuse = m.fuse := by simp [Module.start]
@[simp] theorem Module.refclkLost_fuse : (m.refclkLost t h).fuse = m.fuse := by
  unfold Module.refclkLost; dsimp only; (repeat' split) <;> simp
@[simp] theorem Module.clockLost_fuse (i) : (m.clockLost t h i).fuse = m.fuse := by unfold Module.clockLost; split <;> simp
@[simp] theorem Module.each_fuse (hs f) : (m.each hs f).fuse = m.fuse :=
  Module.foldl_fuse _ _ _ fun _ _ => Module.onHalf_fuse _ _ _

@[simp] theorem Module.declareRunning_fuse (hs) : (m.declareRunning t hs).fuse = m.fuse := by simp [Module.declareRunning]
@[simp] theorem Module.holdShort_fuse (hs) : (m.holdShort t hs).fuse = m.fuse := by unfold Module.holdShort; dsimp only; split <;> simp
@[simp] theorem Module.afterStep_fuse (hs k) : (m.afterStep t hs k).fuse = m.fuse := by unfold Module.afterStep; split <;> simp
@[simp] theorem Module.startStep_fuse : (m.startStep t).fuse = m.fuse := by unfold Module.startStep; dsimp only; split <;> simp
@[simp] theorem Module.afterHalfStep_fuse (k) : (m.afterHalfStep t h k).fuse = m.fuse := by unfold Module.afterHalfStep; split <;> simp
@[simp] theorem Module.halfStep_fuse : (m.halfStep t h).fuse = m.fuse := by simp [Module.halfStep]
@[simp] theorem Module.laneTestStep_fuse : (m.laneTestStep t).fuse = m.fuse := by simp [Module.laneTestStep]
@[simp] theorem Module.advance_fuse : (m.advance t).fuse = m.fuse := by simp [Module.advance]
@[simp] theorem Module.markStep_fuse (n) : (m.markStep t h n).fuse = m.fuse := by simp [Module.markStep]
@[simp] theorem Module.stepTimeout_fuse (n) : (m.stepTimeout t n).fuse = m.fuse := by simp [Module.stepTimeout]
@[simp] theorem Module.steps13Limit_fuse : (m.steps13Limit t).fuse = m.fuse := by simp [Module.steps13Limit]
@[simp] theorem Module.startLimit_fuse : (m.startLimit t).fuse = m.fuse := by simp [Module.startLimit]
@[simp] theorem Module.halfStartLimit_fuse : (m.halfStartLimit t h).fuse = m.fuse := by simp [Module.halfStartLimit]
@[simp] theorem Module.halfFsClear_fuse : (m.halfFsClear t h).fuse = m.fuse := by simp [Module.halfFsClear]
@[simp] theorem Module.trainingDone_fuse (passed) : (m.trainingDone t h passed).fuse = m.fuse := by simp [Module.trainingDone]

/-! ## Cells and reports -/

@[simp] theorem Module.finishing_fuse (w) : (m.finishing h w).fuse = m.fuse := by simp [Module.finishing]
@[simp] theorem Module.firstFlip_fuse (flipped) : (m.firstFlip t h flipped).fuse = m.fuse := by simp [Module.firstFlip]
@[simp] theorem Module.lendReport_fuse (f c tb) : (m.lendReport t h f c tb).fuse = m.fuse := by simp [Module.lendReport]
@[simp] theorem Module.afterReport_fuse (f c stamp) : (m.afterReport t h f c stamp).fuse = m.fuse := by simp [Module.afterReport]
@[simp] theorem Module.blanking_fuse (f c stamp) : (m.blanking t h f c stamp).fuse = m.fuse := by simp [Module.blanking]
@[simp] theorem Module.kaecho_fuse (f token stamp) : (m.kaecho t h f token stamp).fuse = m.fuse := by simp [Module.kaecho]
@[simp] theorem Module.lapTick_fuse (stamp) : (m.lapTick t h stamp).fuse = m.fuse := by simp [Module.lapTick]
@[simp] theorem Module.modeTimeout_fuse : (m.modeTimeout t h).fuse = m.fuse := by simp [Module.modeTimeout]
@[simp] theorem Module.panelCell_fuse (c stamp) : (m.panelCell t h c stamp).fuse = m.fuse := by
  unfold Module.panelCell; (repeat' split) <;> simp
@[simp] theorem Module.delayCell_fuse (r side c stamp) : (m.delayCell h r side c stamp).fuse = m.fuse := by
  unfold Module.delayCell; split <;> simp
@[simp] theorem Module.takenCell_fuse (r side stamp c) : (m.takenCell t h r side stamp c).fuse = m.fuse := by
  unfold Module.takenCell; (repeat' split) <;> simp
@[simp] theorem Module.ringLinkCell_fuse (r side pos c stamp) : (m.ringLinkCell t h r side pos c stamp).fuse = m.fuse := by
  simp [Module.ringLinkCell]
@[simp] theorem Module.nativeCell_fuse (l c stamp) : (m.nativeCell t h l c stamp).fuse = m.fuse := by
  unfold Module.nativeCell; dsimp only; split <;> simp
@[simp] theorem Module.linkCell_fuse (l pos c stamp) : (m.linkCell t h l pos c stamp).fuse = m.fuse := by
  unfold Module.linkCell; (repeat' split) <;> simp
@[simp] theorem Module.ringPoint_fuse (l lseq c) : (m.ringPoint h l lseq c).fuse = m.fuse := by simp [Module.ringPoint]
@[simp] theorem Module.laneEvent_fuse (e) : (m.laneEvent t h e).fuse = m.fuse := by
  cases e <;> simp [Module.laneEvent]

@[simp] theorem Module.ports_fuse (f) : (m.ports t h f).fuse = m.fuse := by simp [Module.ports]

/-! ## Engines -/

/-- The module after an access of an engine. -/
def EngAccess.after : EngAccess → Module
  | .ok _ m => m
  | .misaligned m => m
  | .denied _ _ m => m

@[simp] theorem Module.engCheck_fuse (n a bytes kind) :
    (m.engCheck t h n a bytes kind).after.fuse = m.fuse := by
  unfold Module.engCheck
  dsimp only
  repeat' split
  all_goals simp [EngAccess.after]

@[simp] theorem Module.engRead_fuse (n a bytes kind) :
    (m.engRead t h n a bytes kind).after.fuse = m.fuse := by
  have hc := m.engCheck_fuse t h n a bytes kind
  unfold Module.engRead
  cases hx : m.engCheck t h n a bytes kind <;> rw [hx] at hc
  · dsimp only
    split
    · exact hc
    · exact (Module.readAt_fuse _ _ _ _).trans hc
  · exact hc
  · exact hc

@[simp] theorem Module.engParcel_fuse (n pc) :
    (m.engParcel t h n pc).after.fuse = m.fuse := by
  unfold Module.engParcel
  split
  · exact m.engRead_fuse _ _ _ _ _ _
  · have hr := m.engRead_fuse t h n (pc - pc % 4) 4 .fetch
    cases hx : m.engRead t h n (pc - pc % 4) 4 .fetch <;> rw [hx] at hr <;> exact hr

@[simp] theorem Module.engFault_fuse (n cause a) (r : EngAccess) :
    (m.engFault t h n cause a r).fuse = r.after.fuse := by
  cases r <;> simp [Module.engFault, EngAccess.after]

@[simp] theorem Module.execLoadRv_fuse (n next bytes sign rd a) : (m.execLoadRv t h n next bytes sign rd a).fuse = m.fuse := by
  have hr := m.engRead_fuse t h n a bytes .read
  unfold Module.execLoadRv
  split
  · next hx =>
    rw [hx] at hr
    exact (Module.onHalf_fuse _ _ _).trans hr
  · exact (Module.engFault_fuse _ _ _ _ _ _ _).trans hr

@[simp] theorem Module.execStoreRv_fuse (n next bytes a v) : (m.execStoreRv t h n next bytes a v).fuse = m.fuse := by
  have hc := m.engCheck_fuse t h n a bytes .write
  unfold Module.execStoreRv
  split
  · next hx =>
    rw [hx] at hc
    dsimp only
    split
    · exact (Module.onHalf_fuse _ _ _).trans ((Module.onHalf_fuse _ _ _).trans hc)
    · exact (Module.writeAt_fuse _ _ _ _ _ _ _).trans ((Module.onHalf_fuse _ _ _).trans hc)
  · exact (Module.engFault_fuse _ _ _ _ _ _ _).trans hc

@[simp] theorem Module.engExec_fuse (n len raw i) : (m.engExec t h n len raw i).fuse = m.fuse := by
  unfold Module.engExec; dsimp only; (repeat' split) <;> simp
@[simp] theorem Module.engFetch_fuse (n) : (m.engFetch t h n).fuse = m.fuse := by
  have hp := m.engParcel_fuse t h n ((m.half h).engine n).pc.toNat
  unfold Module.engFetch
  dsimp only
  split
  · next lo m1 hx =>
    rw [hx] at hp
    have hq := m1.engParcel_fuse t h n ((((m.half h).engine n).pc.toNat + 2) % 2 ^ 32)
    split
    · exact (Module.engExec_fuse _ _ _ _ _ _ _).trans hp
    · split
      · next hy =>
        rw [hy] at hq
        exact (Module.engExec_fuse _ _ _ _ _ _ _).trans (hq.trans hp)
      · exact (Module.engFault_fuse _ _ _ _ _ _ _).trans (hq.trans hp)
  · exact (Module.engFault_fuse _ _ _ _ _ _ _).trans hp

@[simp] theorem Module.engStep_fuse (n) : (m.engStep t h n).fuse = m.fuse := by simp [Module.engStep]
@[simp] theorem Module.engTimer_fuse (n) : (m.engTimer t h n).fuse = m.fuse := by simp [Module.engTimer]

/-! ## The service port -/

@[simp] theorem Module.onHolder_fuse (f) : (m.onHolder f).fuse = m.fuse := by simp [Module.onHolder]
@[simp] theorem Module.exchange_fuse (rack resend) : (m.exchange rack resend).fuse = m.fuse := by simp [Module.exchange]
@[simp] theorem Module.reply_fuse (kind result data) : (m.reply kind result data).fuse = m.fuse := by simp [Module.reply]
@[simp] theorem Module.onPass_fuse (f) : (m.onPass f).fuse = m.fuse := by simp [Module.onPass]
@[simp] theorem Module.passRun_fuse (p status) : (m.passRun t p status).fuse = m.fuse := by
  unfold Module.passRun; dsimp only; (repeat' split) <;> simp
@[simp] theorem Module.passLearn_fuse (p status) : (m.passLearn t p status).fuse = m.fuse := by
  unfold Module.passLearn; (repeat' split) <;> simp
@[simp] theorem Module.passFrame_fuse (p status) : (m.passFrame t p status).fuse = m.fuse := by simp [Module.passFrame]
@[simp] theorem Module.passReady_fuse : (m.passReady t).fuse = m.fuse := by unfold Module.passReady; split <;> simp
@[simp] theorem Module.passNoClock_fuse : (m.passNoClock).fuse = m.fuse := by simp [Module.passNoClock]
@[simp] theorem Module.flashPoll_fuse (status) : (m.flashPoll t status).fuse = m.fuse := by unfold Module.flashPoll; split <;> simp
@[simp] theorem Module.passCmd_fuse (op addr n data status sfdp) : (m.passCmd t op addr n data status sfdp).fuse = m.fuse := by
  simp [Module.passCmd]
@[simp] theorem Module.i2cRead_fuse (n) : (m.i2cRead n).fuse = m.fuse := by simp [Module.i2cRead]

/-! ## Register writes with rows of their own -/

@[simp] theorem Module.regWrite_fuse (master off v) : (m.regWrite t h master off v).fuse = m.fuse := by simp [Module.regWrite]
@[simp] theorem Module.fieldWrite_fuse (master f v) : (m.fieldWrite t h master f v).fuse = m.fuse := by simp [Module.fieldWrite]
@[simp] theorem Module.fieldOnly_fuse (master f v) : (m.fieldOnly t h master f v).fuse = m.fuse := by simp [Module.fieldOnly]
@[simp] theorem Module.wordAccess_fuse (issuer master a kind) (f : Module → Module) (hf : ∀ x : Module, (f x).fuse = x.fuse) :
    (m.wordAccess t issuer master a kind f).fuse = m.fuse := by
  refine Module.given_fuse _ _ _ fun x => Module.checked_fuse _ _ _ _ _ _ _ _ fun y => ?_
  split <;> simp [hf]

@[simp] theorem Module.wordRead_fuse (issuer master a) : (m.wordRead t issuer master a).fuse = m.fuse := by simp [Module.wordRead]
@[simp] theorem Module.wordWrite_fuse (issuer master a v) : (m.wordWrite t issuer master a v).fuse = m.fuse := by simp [Module.wordWrite]

/-! ## Writes of RST_CMD and TIM_GMCMD -/

@[simp] theorem Module.rstWrite_fuse (master key bitNo) : (m.rstWrite t h master key bitNo).fuse = m.fuse := by simp [Module.rstWrite]
@[simp] theorem Module.gmWrite_fuse (master d step) : (m.gmWrite t h master d step).fuse = m.fuse := by simp [Module.gmWrite]
@[simp] theorem Module.served_fuse (f : Module → Module) (hf : ∀ x : Module, (f x).fuse = x.fuse) : (m.served f).fuse = m.fuse :=
  Module.given_fuse _ _ _ hf

end Kept

/-! ## The step that programs it -/

/-- From `m` to `m'` the key fuse stays, or it was blank, the module is in recovery mode and it now holds a digest of 32 bytes that are not
all zero. -/
def Module.fuseStep (m m' : Module) : Prop := m'.fuse = m.fuse ∨
  (m.fuse = none ∧ m.lamp.phase = .recovery ∧ ∃ d, m'.fuse = some d ∧ d.length = 32 ∧ d ≠ List.replicate 32 0)

/-- What comes before, leaving the fuse and the phase, does not matter. -/
theorem Module.fuseStep.after {m x m' : Module} (hs : x.fuseStep m') (hf : x.fuse = m.fuse) (hp : x.lamp.phase = m.lamp.phase) :
    m.fuseStep m' := by
  unfold Module.fuseStep at *
  rwa [← hf, ← hp]

/-- Nor does what follows, leaving the fuse. -/
theorem Module.fuseStep.before {m x m' : Module} (hs : m.fuseStep x) (hf : m'.fuse = x.fuse) : m.fuseStep m' := by
  unfold Module.fuseStep at *
  rwa [hf]

/-- A FUSE frame programs a blank fuse in recovery mode, with a digest of 32 bytes; one of zeros leaves it blank (R80, R387). -/
theorem Module.fuseFrame_fuseStep (m : Module) (digest magic : List Byte) : m.fuseStep (m.fuseFrame digest magic) := by
  have replied (x : Module) (result : Nat) (hx : x.fuse = m.fuse) : m.fuseStep (x.reply 3 result []) := .inl ((x.reply_fuse _ _ _).trans hx)
  unfold Module.fuseFrame
  dsimp only
  split
  · exact replied m _ rfl
  split
  · exact .inl rfl
  split
  · exact replied m _ rfl
  split
  · exact replied m _ rfl
  next hphase _ hform hblank =>
    have blank : m.fuse = none := Option.not_isSome_iff_eq_none.mp hblank
    by_cases hz : digest = List.replicate 32 0
    · rw [if_pos hz]
      exact replied _ _ blank.symm
    · rw [if_neg hz]
      obtain ⟨hlen, -⟩ := not_or.mp hform
      exact .inr ⟨blank, not_not.mp hphase, digest, Module.reply_fuse _ _ _ _, not_not.mp hlen, hz⟩

/-- So does an exchange on the service port: of its payloads only that of a FUSE frame reaches the fuse. -/
theorem Module.svcFrame_fuseStep (m : Module) (t : Nat) (bs : List Byte) : m.fuseStep (m.svcFrame t bs) := by
  have exchanged (rack : Nat) (resend : Bool) : (m.exchange rack resend).lamp.phase = m.lamp.phase :=
    congrArg Lamp.phase (Module.onLive_lamp _ _ _)
  unfold Module.svcFrame
  dsimp only
  split
  · exact .inl (by simp)
  · exact .inl (by simp)
  split
  · exact .inl rfl
  split
  · exact .inl (by simp)
  · exact .inl (by simp)
  · exact (Module.fuseFrame_fuseStep _ _ _).after (Module.exchange_fuse _ _ _) (exchanged _ _)
  · exact .inl (by simp)

/-- Every command leaves the fuse or programs it so; only FUSE and SVC_FRAME can program it. -/
theorem exec_fuseStep (i : Instr) (s t : State) (h : exec i s = .next t) : s.mod.fuseStep t.mod := by
  cases i
  case fuse digest magic =>
    cases h
    dsimp only [Module.served, Module.given]
    split
    · exact Module.fuseFrame_fuseStep _ _ _
    · exact .inl rfl
  case svcFrame bytes =>
    cases h
    exact (s.mod.svcFrame_fuseStep s.now bytes).before (by simp)
  case i2cPointerWrite bytes =>
    cases h
    exact .inl (Module.given_fuse _ _ _ fun x => Module.onLamp_fuse x _)
  all_goals
    cases h
    exact .inl (by simp)

/-- Settles O60: a step idles or takes the command at the front of the queue, and every command leaves the fuse or programs a blank one in
recovery mode. -/
theorem keyFuseKept : Obligations.KeyFuseKept := by
  unfold Obligations.KeyFuseKept
  intro s t h
  have hs : s.mod.fuseStep t.mod := by
    unfold step at h
    split at h
    · cases h
      exact .inl rfl
    · next c rest _ => exact exec_fuseStep c { s with pending := rest } t h
  obtain hk | ⟨hb, hp, d, hd, hlen, hz⟩ := hs
  · exact ⟨fun d hd => hk.trans hd, fun hn => absurd hk hn, fun hok d hd => hok d (hk.symm.trans hd)⟩
  · refine ⟨fun e he => ?_, fun _ => ⟨hb, hp⟩, fun _ e he => ?_⟩
    · rw [hb] at he
      cases he
    · obtain rfl := Option.some.inj (hd.symm.trans he)
      exact ⟨hlen, hz⟩

end Sys2Proof.Machine
end

section
/-!
SUPPORT. The loader in step 3 (R70, R81): what reading the slots leaves, which slot is chosen, and the start that then goes on.
-/
namespace Sys2Proof.Machine

/-- A number read from so many bytes. -/
theorem leAt_lt (bs : List Byte) (k n : Nat) : leAt bs k n < 256 ^ n := by
  have hlen : (sliceBytes bs k n).length = n := by
    simp only [sliceBytes, List.length_append, List.length_replicate, List.length_take, List.length_drop]
    omega
  unfold leAt
  rw [← leBytes_leVal (sliceBytes bs k n), leVal_leBytes, hlen]
  exact Nat.mod_lt _ (by positivity)

/-! ## What the loader leaves of a half -/

/-- From `h` to `k` the reset, the image and the registers of the first two blocks stay. -/
structure Half.LoaderKeeps (h k : Half) : Prop where
  inReset : k.inReset = h.inReset
  image : k.image = h.image
  regs : ∀ o < 0x20000, k.reg o = h.reg o

theorem Half.LoaderKeeps.refl (h : Half) : h.LoaderKeeps h := ⟨rfl, rfl, fun _ _ => rfl⟩

theorem Half.LoaderKeeps.trans {h k l : Half} (hk : h.LoaderKeeps k) (kl : k.LoaderKeeps l) : h.LoaderKeeps l :=
  ⟨kl.inReset.trans hk.inReset, kl.image.trans hk.image, fun o ho => (kl.regs o ho).trans (hk.regs o ho)⟩

/-- A field of those registers reads as before. -/
theorem Half.LoaderKeeps.get {h k : Half} (hk : h.LoaderKeeps k) (f : Field) (hf : f.off < 0x20000) : k.get f = h.get f :=
  Half.get_congr _ _ _ (hk.regs _ hf)

/-- Fields above those registers may be set. -/
theorem Half.loaderKeeps_sets (h : Half) (fs : List (Field × Nat)) (hf : ∀ c ∈ fs, 0x20000 ≤ c.1.off) :
    h.LoaderKeeps (h.sets fs) where
  inReset := Half.sets_keeps Half.inReset (fun _ _ _ => rfl) h fs
  image := Half.sets_keeps Half.image (fun _ _ _ => rfl) h fs
  regs o ho := Half.reg_sets_other h fs o fun c hc => Nat.ne_of_lt (Nat.lt_of_lt_of_le ho (hf c hc))

theorem Half.loaderKeeps_fault (h : Half) (t c k u : Nat) (d : List Byte) (hc : 1 ≤ c ∧ c ≤ 16) : h.LoaderKeeps (h.fault t c k u d) where
  inReset := Half.fault_inReset ..
  image := Half.fault_image ..
  regs o ho := Half.reg_fault h t c k u d o hc (by omega) (by omega)

/-- What does not depend on the units of a half, a computation taken by them keeps (R333). -/
theorem Half.cvuTake_keeps {γ : Type} (p : Half → γ)
    (hp : ∀ (x : Half) (f : List CvuSt → List CvuSt), p { x with cvu := f x.cvu } = p x)
    (h : Half) (point : Nat) (sel : Nat → Nat → Bool) (data : Option (List Byte)) (hall : Nat) :
    p (h.cvuTake point sel data hall) = p h := by
  refine Half.forBelow_keeps p _ _ (fun x n => ?_) h
  split
  · split
    · exact hp x fun l => l.modify n _
    · exact hp x fun l => l.modify n _
  · rfl

/-- Bytes that pass the LOADER point of a half. -/
def Half.loaderTake (h : Half) (type : Nat) (bytes : List Byte) : Half := h.cvuTake 8 (fun _ f => f == 0 || f == type) (some bytes) 0

/-- They change nothing but its check-value units. -/
theorem Half.loaderTake_keeps {γ : Type} (p : Half → γ)
    (hp : ∀ (x : Half) (f : List CvuSt → List CvuSt), p { x with cvu := f x.cvu } = p x) (h : Half) (type : Nat) (bytes : List Byte) :
    p (h.loaderTake type bytes) = p h := Half.cvuTake_keeps p hp _ _ _ _ _

theorem Half.loaderKeeps_loaderTake (h : Half) (type : Nat) (bytes : List Byte) : h.LoaderKeeps (h.loaderTake type bytes) where
  inReset := Half.loaderTake_keeps Half.inReset (fun _ _ => rfl) _ _ _
  image := Half.loaderTake_keeps Half.image (fun _ _ => rfl) _ _ _
  regs o _ := Half.loaderTake_keeps (fun x => x.reg o) (fun _ _ => rfl) _ _ _

/-! ## What it leaves of the module -/

/-- From `m` to `m'` the lamplighter, the flash and the key fuse stay, and of each half what the loader leaves. -/
structure Module.LoaderKeeps (m m' : Module) : Prop where
  lamp : m'.lamp = m.lamp
  flash : m'.flash = m.flash
  fuse : m'.fuse = m.fuse
  half : ∀ h, (m.half h).LoaderKeeps (m'.half h)

theorem Module.LoaderKeeps.refl (m : Module) : m.LoaderKeeps m := ⟨rfl, rfl, rfl, fun _ => .refl _⟩

theorem Module.LoaderKeeps.trans {m x y : Module} (mx : m.LoaderKeeps x) (xy : x.LoaderKeeps y) : m.LoaderKeeps y :=
  ⟨xy.lamp.trans mx.lamp, xy.flash.trans mx.flash, xy.fuse.trans mx.fuse, fun h => (mx.half h).trans (xy.half h)⟩

section Keeps
variable (m : Module)

theorem Module.loaderKeeps_onHalf (h : HalfId) (f : Half → Half) (hf : (m.half h).LoaderKeeps (f (m.half h))) :
    m.LoaderKeeps (m.onHalf h f) where
  lamp := Module.onHalf_lamp ..
  flash := Module.onHalf_flash ..
  fuse := Module.onHalf_fuse ..
  half k := by
    cases h <;> cases k
    · exact hf
    · exact .refl _
    · exact .refl _
    · exact hf

theorem Module.loaderKeeps_onBoth (f : Half → Half) (hf : ∀ x, Half.LoaderKeeps x (f x)) : m.LoaderKeeps (m.onBoth f) :=
  ⟨rfl, rfl, rfl, fun h => by rw [Module.half_onBoth]; exact hf _⟩

theorem Module.loaderKeeps_ldr (fs : List (Field × Nat)) (hf : ∀ c ∈ fs, 0x20000 ≤ c.1.off) : m.LoaderKeeps (m.ldr fs) := by
  refine m.loaderKeeps_onBoth _ fun x => ?_
  split
  · exact .refl x
  · exact x.loaderKeeps_sets fs hf

theorem Module.loaderKeeps_loaderPoint (type : Nat) (bytes : List Byte) : m.LoaderKeeps (m.loaderPoint type bytes) := by
  unfold Module.loaderPoint Module.onLive
  split
  · exact .refl m
  · exact m.loaderKeeps_onHalf _ _ (Half.loaderKeeps_loaderTake _ type bytes)

theorem Module.loaderKeeps_headerPoint (base : Nat) : m.LoaderKeeps (m.headerPoint base) :=
  (m.loaderKeeps_loaderPoint _ _).trans (Module.loaderKeeps_loaderPoint _ _ _)

theorem Module.loaderKeeps_noteKey (t : Nat) : m.LoaderKeeps (m.noteKey t) := by
  unfold Module.noteKey
  split
  · exact m.loaderKeeps_ldr _ (by simp [F.LDR_STATUS_KEY])
  · refine (m.loaderKeeps_ldr _ (by simp [F.LDR_STATUS_KEY])).trans (Module.loaderKeeps_onBoth _ _ fun x => ?_)
    split
    · exact .refl x
    · exact x.loaderKeeps_fault _ _ _ _ _ (by decide)

theorem slotCodeField_off (slot : Nat) : (slotCodeField slot).off = 0x20004 := by
  unfold slotCodeField
  split <;> rfl

/-- The register in which the serial of a slot shows. -/
def serialField (slot : Nat) : Field := if slot = 2 then F.LDR_SERIALB_SERIAL else F.LDR_SERIALA_SERIAL

theorem serialField_off (slot : Nat) : 0x20000 ≤ (serialField slot).off := by
  unfold serialField
  split <;> decide

end Keeps

/-! ## Step 3 of a slot -/

/-- A slot that the strap permits passes step 3 (R81). -/
def Module.slotPasses (m : Module) (size slot : Nat) : Bool := (strapSlots m.lamp.strap).contains slot &&
  (m.flash.slotFail m.fuse (slotBase size slot) size m.lamp.strap (m.half0.get F.SYS_ID_MAJOR)).isNone

/-- The serial in its header. -/
def Module.slotSerial (m : Module) (size slot : Nat) : Nat := leAt (m.flash.read (slotBase size slot) 64) 8 4

/-- Of two slots the one with the higher serial, and of equal ones slot A. -/
def Module.slotChosen (m : Module) (size : Nat) : Nat :=
  if m.slotPasses size 1 && m.slotPasses size 2 then (if m.slotSerial size 1 < m.slotSerial size 2 then 2 else 1)
  else if m.slotPasses size 1 then 1 else 2

section Slots
variable {m x : Module} (hk : m.LoaderKeeps x) (size slot : Nat)
include hk

/-- Both are of what the loader leaves. -/
theorem Module.LoaderKeeps.slotPasses : x.slotPasses size slot = m.slotPasses size slot := by
  have major : x.half0.get F.SYS_ID_MAJOR = m.half0.get F.SYS_ID_MAJOR := (hk.half .h0).get _ (by decide)
  unfold Module.slotPasses
  rw [hk.lamp, hk.flash, hk.fuse, major]

theorem Module.LoaderKeeps.slotSerial : x.slotSerial size slot = m.slotSerial size slot := by
  unfold Module.slotSerial
  rw [hk.flash]

end Slots

section ReadSlot
variable (m : Module) (size slot : Nat)

/-- A slot that the strap does not permit is not read. -/
theorem Module.readSlot_eq : m.readSlot size slot = if (strapSlots m.lamp.strap).contains slot then
    match m.flash.slotFail m.fuse (slotBase size slot) size m.lamp.strap (m.half0.get F.SYS_ID_MAJOR) with
    | some e => (((m.headerPoint (slotBase size slot)).ldr [(serialField slot, m.slotSerial size slot)]).slotFailure slot e.1 0 e.2, false)
    | none =>
      (((m.headerPoint (slotBase size slot)).ldr [(serialField slot, m.slotSerial size slot)]).ldr [(slotCodeField slot, ldOk)], true)
    else (m, false) := rfl

theorem Module.readSlot_passes : (m.readSlot size slot).2 = m.slotPasses size slot := by
  rw [Module.readSlot_eq]
  unfold Module.slotPasses
  split
  · next hc =>
    rw [hc]
    split <;> simp [*]
  · next hc =>
    rw [Bool.eq_false_of_not_eq_true hc]
    rfl

theorem Module.loaderKeeps_readSlot : m.LoaderKeeps (m.readSlot size slot).1 := by
  have serial := (m.loaderKeeps_headerPoint (slotBase size slot)).trans
    (Module.loaderKeeps_ldr _ [(serialField slot, m.slotSerial size slot)] (by simp [serialField_off]))
  rw [Module.readSlot_eq]
  split
  · split
    · exact serial.trans (Module.loaderKeeps_ldr _ _ (by simp [slotCodeField_off, F.LDR_FAIL_TYPE, F.LDR_FAILOFS_OFFSET]))
    · exact serial.trans (Module.loaderKeeps_ldr _ _ (by simp [slotCodeField_off]))
  · exact .refl m

/-- What reading a slot that passes leaves. -/
def Module.slotRead (m : Module) (size slot : Nat) : Module :=
  ((m.headerPoint (slotBase size slot)).ldr [(serialField slot, m.slotSerial size slot)]).ldr [(slotCodeField slot, ldOk)]

theorem Module.readSlot_passing (hp : m.slotPasses size slot = true) : (m.readSlot size slot).1 = m.slotRead size slot := by
  obtain ⟨hc, hf⟩ := Bool.and_eq_true_iff.mp hp
  rw [Module.readSlot_eq, if_pos hc, Option.isNone_iff_eq_none.mp hf]
  rfl

/-! ## The serials in the registers -/

/-- Fields set in a half out of reset. -/
theorem Module.half_ldr (h : HalfId) (fs : List (Field × Nat)) (hr : (m.half h).inReset = false) :
    (m.ldr fs).half h = (m.half h).sets fs := by
  unfold Module.ldr
  rw [Module.half_onBoth, hr]
  rfl

end ReadSlot

section Live
variable (m : Module) (h0 : m.half0.inReset = false)
include h0

theorem Module.holder_live : m.holder = .h0 := by
  unfold Module.holder
  rw [h0]
  rfl

/-- With half 0 out of reset what the loader reads passes its LOADER point. -/
theorem Module.loaderPoint_live (type : Nat) (bytes : List Byte) :
    m.loaderPoint type bytes = m.onHalf .h0 fun x => x.loaderTake type bytes := by
  unfold Module.loaderPoint
  rw [m.holder_live h0]
  exact Module.onLive_live _ _ _ h0

theorem Module.get_headerPoint (base : Nat) (f : Field) : ((m.headerPoint base).half .h0).get f = (m.half .h0).get f := by
  have point (x : Module) (hx : x.half0.inReset = false) (type : Nat) (bytes : List Byte) :
      ((x.loaderPoint type bytes).half .h0).get f = (x.half .h0).get f := by
    rw [x.loaderPoint_live hx, Module.half_onHalf]
    exact Half.loaderTake_keeps (fun y => y.get f) (fun _ _ => rfl) _ _ _
  have live := ((m.loaderKeeps_loaderPoint 0 (m.flash.read base 60)).half .h0).inReset.trans h0
  exact (point _ live _ _).trans (point m h0 _ _)

theorem Module.half_slotRead (size slot : Nat) : (m.slotRead size slot).half .h0 =
    (((m.headerPoint (slotBase size slot)).half .h0).set (serialField slot) (m.slotSerial size slot)).set (slotCodeField slot) ldOk := by
  have live := ((m.loaderKeeps_headerPoint (slotBase size slot)).half .h0).inReset.trans h0
  unfold Module.slotRead
  rw [Module.half_ldr, Module.half_ldr _ _ _ live]
  · rfl
  · rw [Module.half_ldr _ _ _ live]
    exact live

/-- The serial of a slot that passes shows. -/
theorem Module.serial_slotRead (size slot : Nat) : ((m.slotRead size slot).half .h0).get (serialField slot) = m.slotSerial size slot := by
  have bound : m.slotSerial size slot < 256 ^ 4 := leAt_lt _ _ _
  rw [m.half_slotRead h0]
  unfold slotCodeField serialField
  split
  · rw [Half.get_set_other _ _ _ _ (by decide) (by decide)]
    exact Half.get_set_of_lt _ _ _ (by decide) bound
  · rw [Half.get_set_other _ _ _ _ (by decide) (by decide)]
    exact Half.get_set_of_lt _ _ _ (by decide) bound

/-- Reading slot B leaves the serial of slot A. -/
theorem Module.serialA_slotRead (size : Nat) :
    ((m.slotRead size 2).half .h0).get F.LDR_SERIALA_SERIAL = (m.half .h0).get F.LDR_SERIALA_SERIAL := by
  rw [m.half_slotRead h0, Half.get_set_other _ _ _ _ (by decide) (by decide), Half.get_set_other _ _ _ _ (by decide) (by decide)]
  exact m.get_headerPoint h0 _ _

end Live

/-! ## The choice of a slot -/

/-- The module with the headers of both slots read. -/
def Module.slotsRead (m : Module) (z : Sfdp) : Module :=
  (((m.ldr ((F.LDR_STATUS_STATE, ldsHeaders) :: sfdpFields z)).readSlot (sfdpSlotSize z) 1).1.readSlot (sfdpSlotSize z) 2).1.ldr
    [(F.LDR_STATUS_STATE, ldsSignature)]

section Choose
variable (m : Module) (t : Nat) (z : Sfdp)

theorem Module.loaderKeeps_sfdp : m.LoaderKeeps (m.ldr ((F.LDR_STATUS_STATE, ldsHeaders) :: sfdpFields z)) :=
  m.loaderKeeps_ldr _ (by simp [sfdpFields, F.LDR_STATUS_STATE, F.LDR_FLASH_DENSITY, F.LDR_FLASH_ADDR, F.LDR_FLASH_MODE])

theorem Module.loaderKeeps_slotsRead : m.LoaderKeeps (m.slotsRead z) :=
  (m.loaderKeeps_sfdp z).trans <| (Module.loaderKeeps_readSlot _ _ _).trans <| (Module.loaderKeeps_readSlot _ _ _).trans <|
    Module.loaderKeeps_ldr _ _ (by simp [F.LDR_STATUS_STATE])

/-- With both slots passing their serials show. -/
theorem Module.serials_slotsRead (h0 : m.half0.inReset = false) (h1 : m.slotPasses (sfdpSlotSize z) 1 = true)
    (h2 : m.slotPasses (sfdpSlotSize z) 2 = true) :
    ((m.slotsRead z).half .h0).get F.LDR_SERIALA_SERIAL = m.slotSerial (sfdpSlotSize z) 1 ∧
    ((m.slotsRead z).half .h0).get F.LDR_SERIALB_SERIAL = m.slotSerial (sfdpSlotSize z) 2 := by
  have k0 := m.loaderKeeps_sfdp z
  have k1 := k0.trans (Module.loaderKeeps_readSlot _ (sfdpSlotSize z) 1)
  have k2 := k1.trans (Module.loaderKeeps_readSlot _ (sfdpSlotSize z) 2)
  have live0 := (k0.half .h0).inReset.trans h0
  have live1 := (k1.half .h0).inReset.trans h0
  have shown (f : Field) (hf : F.LDR_STATUS_STATE.apart f) : ((m.slotsRead z).half .h0).get f =
      ((Module.slotRead (Module.slotRead (m.ldr ((F.LDR_STATUS_STATE, ldsHeaders) :: sfdpFields z)) (sfdpSlotSize z) 1)
        (sfdpSlotSize z) 2).half .h0).get f := by
    unfold Module.slotsRead
    rw [Module.half_ldr _ _ _ ((k2.half .h0).inReset.trans h0), Module.readSlot_passing _ _ _ ((k1.slotPasses _ _).trans h2),
      Module.readSlot_passing _ _ _ ((k0.slotPasses _ _).trans h1)]
    exact Half.get_set_other _ _ _ _ (by decide) hf
  rw [Module.readSlot_passing _ _ _ ((k0.slotPasses _ _).trans h1)] at k1 live1
  rw [shown _ (by decide), shown _ (by decide)]
  constructor
  · rw [Module.serialA_slotRead _ live1]
    exact (Module.serial_slotRead _ live0 _ 1).trans (k0.slotSerial _ _)
  · exact (Module.serial_slotRead _ live1 _ 2).trans (k1.slotSerial _ _)

/-- The slot not chosen, where it passes too. -/
def Module.slotOther (m : Module) (size : Nat) : Option Nat :=
  if m.slotPasses size 1 && m.slotPasses size 2 then some (3 - m.slotChosen size) else none

theorem Module.slotChosen_lt (m : Module) (size : Nat) : m.slotChosen size < 4 := by
  unfold Module.slotChosen
  split_ifs <;> decide

section Choosing
variable (hz : m.flash.sfdp = some z)
include hz

/-- Step 3 of a module start where no slot passes is a false start of the loader. -/
theorem Module.chooseSlot_none (h1 : m.slotPasses (sfdpSlotSize z) 1 = false) (h2 : m.slotPasses (sfdpSlotSize z) 2 = false) :
    ∃ x, m.LoaderKeeps x ∧ m.chooseSlot t = x.loadFalseStart t 13 := by
  have k0 := m.loaderKeeps_sfdp z
  have k1 := k0.trans (Module.loaderKeeps_readSlot _ (sfdpSlotSize z) 1)
  have kr := m.loaderKeeps_slotsRead z
  unfold Module.chooseSlot
  rw [hz]
  dsimp only
  rw [Module.readSlot_passes, Module.readSlot_passes, k0.slotPasses, k1.slotPasses, ← Module.slotsRead.eq_1 m z, h1, h2]
  exact ⟨_, kr.trans (Module.loaderKeeps_ldr _ _ (by simp [F.LDR_STATUS_RESULT, F.LDR_STATUS_STATE])), rfl⟩

/-- Where one passes it begins the load of the slot chosen. -/
theorem Module.chooseSlot_some (h0 : m.half0.inReset = false)
    (hp : m.slotPasses (sfdpSlotSize z) 1 = true ∨ m.slotPasses (sfdpSlotSize z) 2 = true) :
    m.chooseSlot t = ((m.slotsRead z).noteKey t).beginLoad t .h0
      (LoadSt.start m.flash (sfdpSlotSize z) (m.slotChosen (sfdpSlotSize z)) (m.slotOther (sfdpSlotSize z)) true) := by
  have k0 := m.loaderKeeps_sfdp z
  have k1 := k0.trans (Module.loaderKeeps_readSlot _ (sfdpSlotSize z) 1)
  have kr := m.loaderKeeps_slotsRead z
  have holder := Module.holder_live _ ((kr.half .h0).inReset.trans h0)
  have serials := m.serials_slotsRead z h0
  unfold Module.chooseSlot Module.slotOther Module.slotChosen
  rw [hz]
  dsimp only
  rw [Module.readSlot_passes, Module.readSlot_passes, k0.slotPasses, k1.slotPasses, ← Module.slotsRead.eq_1 m z, holder, kr.flash]
  cases h1 : m.slotPasses (sfdpSlotSize z) 1 <;> cases h2 : m.slotPasses (sfdpSlotSize z) 2
  case false.false => simp [h1, h2] at hp
  case false.true => rfl
  case true.false => rfl
  case true.true =>
    obtain ⟨ha, hb⟩ := serials h1 h2
    simp only [ha, hb, Bool.and_self, if_true]
    by_cases lower : m.slotSerial (sfdpSlotSize z) 1 < m.slotSerial (sfdpSlotSize z) 2
    · simp only [if_pos lower]
    · simp only [if_neg lower]

end Choosing

end Choose

/-! ## The load begins -/

section Begin
variable (m : Module) (t : Nat) (l : LoadSt)

theorem Module.loaderKeeps_beginLoad (h : HalfId) : m.LoaderKeeps (m.beginLoad t h l) := by
  have shown := m.loaderKeeps_ldr [(F.LDR_STATUS_STATE, ldsSections), (F.LDR_STATUS_SLOT, l.slot), (F.LDR_LIMIT_MS, m.limitOf l),
    (F.LDR_STATUS_RESULT, ldOk)] (by simp [F.LDR_STATUS_STATE, F.LDR_STATUS_SLOT, F.LDR_LIMIT_MS, F.LDR_STATUS_RESULT])
  unfold Module.beginLoad
  refine (shown.trans ?_).trans (Module.loaderKeeps_onHalf _ _ _ ⟨rfl, rfl, fun _ _ => rfl⟩)
  split
  · exact Module.loaderKeeps_onBoth _ _ fun x => ⟨rfl, rfl, fun _ _ => rfl⟩
  · exact .refl _

/-- What LDR_STATUS and LDR_LIMIT show of a load begun. -/
def Module.loadShown (m : Module) (l : LoadSt) : List (Field × Nat) :=
  [(F.LDR_STATUS_STATE, ldsSections), (F.LDR_STATUS_SLOT, l.slot), (F.LDR_LIMIT_MS, m.limitOf l), (F.LDR_STATUS_RESULT, ldOk)]

/-- The load of a half and what starts it are no registers. -/
theorem Half.get_loading (x : Half) (load : Option LoadSt) (starter : StarterSt) (f : Field) :
    ({ x with load := load, starter := starter } : Half).get f = x.get f := rfl

section Both
variable (h0 : m.half0.inReset = false) (hb : l.both = true)
include h0 hb

/-- A load of both halves that begins in half 0. -/
theorem Module.half_beginLoad : (m.beginLoad t .h0 l).half .h0 =
    { (m.half .h0).sets (m.loadShown l) with
      load := some l
      starter := { ((m.half .h0).sets (m.loadShown l)).starter with step4From := t } } := by
  unfold Module.beginLoad
  dsimp only
  rw [hb, if_pos rfl, Module.half_onHalf, Module.half_onBoth, ← Module.loadShown.eq_1, Module.half_ldr m .h0 _ h0]

theorem Module.load_beginLoad : ((m.beginLoad t .h0 l).half .h0).load = some l := by rw [m.half_beginLoad t l h0 hb]

theorem Module.get_beginLoad (f : Field) : ((m.beginLoad t .h0 l).half .h0).get f = ((m.half .h0).sets (m.loadShown l)).get f := by
  rw [m.half_beginLoad t l h0 hb]
  exact Half.get_loading _ _ _ _

/-- It shows its slot. -/
theorem Module.slot_beginLoad (hs : l.slot < 4) : ((m.beginLoad t .h0 l).half .h0).get F.LDR_STATUS_SLOT = l.slot := by
  rw [m.get_beginLoad t l h0 hb]
  simp only [Module.loadShown, Half.sets]
  rw [Half.get_set_other _ _ _ _ (by decide) (by decide), Half.get_set_other _ _ _ _ (by decide) (by decide)]
  exact Half.get_set_of_lt _ _ _ (by decide) hs

/-- It shows that sections are being read. -/
theorem Module.state_beginLoad : ((m.beginLoad t .h0 l).half .h0).get F.LDR_STATUS_STATE = ldsSections := by
  rw [m.get_beginLoad t l h0 hb]
  simp only [Module.loadShown, Half.sets]
  rw [Half.get_set_other _ _ _ _ (by decide) (by decide), Half.get_set_other _ _ _ _ (by decide) (by decide),
    Half.get_set_other _ _ _ _ (by decide) (by decide)]
  exact Half.get_set_of_lt _ _ _ (by decide) (by decide)

end Both

end Begin

end Sys2Proof.Machine
end

section
/-!
SUPPORT. A start that goes on by one step, or waits for the end of step 4 (R60).
-/
namespace Sys2Proof.Machine

/-- One step of a module start is done and nothing further goes on. -/
theorem Module.advance_once (m x : Module) (t : Nat) (hl : m.laneTestStep t = m) (hm : m.startStep t = x) (hx : x.startStep t = x)
    (hh : ∀ h, x.halfStep t h = x) : m.advance t = x := by
  unfold Module.advance
  simp only [List.foldl_const, List.length_range]
  rw [hl, Function.iterate_succ_apply (fun m : Module => m.startStep t) 10, hm,
    Function.iterate_fixed (f := fun m : Module => m.startStep t) hx 10,
    Function.iterate_fixed (f := fun m : Module => m.halfStep t .h0) (hh .h0) 5,
    Function.iterate_fixed (f := fun m : Module => m.halfStep t .h1) (hh .h1) 5]

/-- A start in which half 0 has no image. -/
structure Module.Unplaced (m : Module) : Prop where
  phase : m.lamp.phase = .starting
  live : m.half0.inReset = false
  mode : ∀ h, (m.half h).mode = modeStart
  image : m.half0.image = none

section Unplaced
variable {m : Module} (hu : m.Unplaced) (t : Nat)
include hu

/-- What the loader leaves, leaves it so. -/
theorem Module.Unplaced.keep {x : Module} (hk : m.LoaderKeeps x) : x.Unplaced where
  phase := (congrArg Lamp.phase hk.lamp).trans hu.phase
  live := (hk.half .h0).inReset.trans hu.live
  mode h := ((hk.half h).get _ (by decide)).trans (hu.mode h)
  image := (hk.half .h0).image.trans hu.image

/-- It takes no step of lane test. -/
theorem Module.Unplaced.noLaneTest : m.laneTestStep t = m := m.laneTestStep_none t (by rw [hu.phase]; decide)

/-- It takes no step of a half start. -/
theorem Module.Unplaced.noHalfStep (h : HalfId) : m.halfStep t h = m := m.halfStep_none t h (by rw [hu.mode h]; decide)

/-- Half 0 comes first of the halves that it takes through its steps. -/
theorem Module.Unplaced.starters : ∃ rest, m.starters = .h0 :: rest := by
  have starts : (!(m.half .h0).inReset && (m.half .h0).mode == modeStart) = true := by
    rw [hu.mode .h0]
    show (!m.half0.inReset && _) = true
    rw [hu.live]
    rfl
  exact ⟨_, List.filter_cons_of_pos starts⟩

/-- With step 3 done it waits. -/
theorem Module.Unplaced.waits (h3 : m.half0.step = 3) : m.startStep t = m := by
  obtain ⟨rest, hs⟩ := hu.starters
  refine m.startStep_waits t .h0 rest hs ?_
  have unplaced : (m.half .h0).placedDone = false := by
    show (m.half0.image.isSome && _) = false
    rw [hu.image]
    rfl
  show m.stepDone t m.starters (m.half0.step + 1) = false
  rw [h3, hs]
  show ((m.half .h0).placedDone && _) = false
  rw [unplaced]
  rfl

/-- So nothing goes on. -/
theorem Module.Unplaced.advance (h3 : m.half0.step = 3) : m.advance t = m :=
  m.advance_fixed t (hu.noLaneTest t) (hu.waits t h3) (hu.noHalfStep t)

end Unplaced

/-- The module at the end of step 3 of a start of both halves. -/
def Module.loaded (m : Module) (t : Nat) : Module :=
  (m.each [.h0, .h1] fun x => x.endStep t 3).onLamp fun (l : Lamp) => { l with step3At := some t }

theorem Module.half_loaded (m : Module) (t : Nat) (h : HalfId) : (m.loaded t).half h = (m.half h).endStep t 3 := by
  cases h <;> rfl

/-- The end of step 3 leaves the loader's registers. -/
theorem Half.ldr_endStep (h : Half) (t : Nat) (f : Field) (hf : 0x20000 ≤ f.off) : (h.endStep t 3).get f = h.get f := by
  unfold Half.endStep
  rw [Half.get_set_other _ _ _ _ (by decide) (.inl (by simp only [F.RST_STEPTIME_MS]; omega)),
    Half.get_set_other _ _ _ _ (by decide) (.inl (by simp only [F.RST_STATE_STEP]; omega))]

/-- A load begun ends step 3, and the start goes on no further. -/
theorem Module.Unplaced.advance_load {m : Module} (hu : m.Unplaced) (t : Nat) (h1 : m.half1.inReset = false) (h2 : m.half0.step = 2)
    (hl : m.half0.load.isSome = true) : m.advance t = m.loaded t := by
  have live (h : HalfId) : (m.half h).inReset = false := by
    cases h
    · exact hu.live
    · exact h1
  have both := m.starters_both live hu.mode
  have hx : (m.loaded t).Unplaced := {
    phase := hu.phase
    live := hu.live
    mode := fun h => by rw [Module.half_loaded, Half.endStep_mode]; exact hu.mode h
    image := hu.image }
  have hstep : m.startStep t = m.loaded t := by
    unfold Module.startStep
    rw [both]
    dsimp only
    have three : (m.half .h0).step + 1 = 3 := congrArg (· + 1) h2
    rw [three, if_pos]
    · rfl
    · refine ⟨hu.phase, rfl, ?_⟩
      show (m.half0.load.isSome || _ || _) = true
      rw [hl]
      rfl
  have three : (m.loaded t).half0.step = 3 := Half.step_endStep m.half0 t 3 (by decide)
  exact m.advance_once _ t (hu.noLaneTest t) hstep (hx.waits t three) (hx.noHalfStep t)

end Sys2Proof.Machine
end

section
/-!
SUPPORT. SECTION_ARRIVAL of a section that is placed, with a further one to come (R86).
-/
namespace Sys2Proof.Machine

/-- The section of a manifest entry. -/
def Module.sectionOf (m : Module) (l : LoadSt) (e : ManEntry) : Section := m.flash.sect l.base e.ofs e.len

/-- The module with that section read past the LOADER point. -/
def Module.sectionPassed (m : Module) (l : LoadSt) (e : ManEntry) : Module :=
  m.loaderPoint (m.sectionOf l e).type (m.flash.read (l.base + e.ofs) 28 ++ (m.sectionOf l e).payload)

/-- Half 0 loads, and the next section can reach its halves and passes checks 1 to 3. -/
structure Module.Arrives (m : Module) (l : LoadSt) (k : Nat) (e : ManEntry) : Prop where
  load : m.half0.load = some l
  next : m.nextEntry l .h0 (m.loadEntries l) l.next = some (k, e)
  reach : m.forwards l .h0 e = true
  checks : sectionFail (m.sectionOf l e) e l.img.man.roles l.placed = none

section Arrival
variable {m : Module} {l : LoadSt} {k : Nat} {e : ManEntry} (t : Nat)

/-- What its placing gives stays, and the load goes on with the entry behind it. -/
theorem Module.Arrives.places (ha : m.Arrives l k e) {m1 : Module} {l1 : LoadSt}
    (hp : (m.sectionPassed l e).placeSection t l .h0 (m.sectionOf l e) = some (m1, l1))
    (hm : (m1.nextEntry { l1 with next := k + 1 } .h0 (m.loadEntries l) (k + 1)).isSome = true) :
    m.sectionArrival t = m1.onHalf .h0 fun x => { x with load := some { l1 with next := k + 1 } } := by
  have loading : m.loading = some (.h0, l) := by
    unfold Module.loading
    rw [ha.load]
  unfold Module.sectionArrival
  rw [loading]
  dsimp only
  rw [ha.next]
  dsimp only
  rw [if_neg (by rw [ha.reach]; decide), ← Module.sectionOf.eq_1, ha.checks, ← Module.sectionPassed.eq_1, hp]
  exact if_pos hm

/-- A load that is set in half 0 leaves the start as it was. -/
theorem Module.Unplaced.setLoad (hu : m.Unplaced) (load : Option LoadSt) :
    (m.onHalf .h0 fun x => { x with load := load }).Unplaced where
  phase := hu.phase
  live := hu.live
  mode h := by
    cases h
    · exact hu.mode .h0
    · exact hu.mode .h1
  image := hu.image

/-- The next entry is of the flash, and of where the load reads and for which halves. -/
theorem Module.nextEntry_congr {m1 : Module} {l1 : LoadSt} (hf : m1.flash = m.flash) (hb : l1.base = l.base) (hh : l1.both = l.both)
    (h : HalfId) (es : List ManEntry) (n : Nat) : m1.nextEntry l1 h es n = m.nextEntry l h es n := by
  unfold Module.nextEntry Module.concerns
  rw [hf, hb, hh]

/-! ## Sections that change the load alone -/

/-- One of an optional type is passed over. -/
theorem Module.placeSection_optional {x : Section} (hx : bitAt x.type 15 = true) (h : HalfId) : m.placeSection t l h x = some (m, l) :=
  if_pos hx

/-- One that holds scenes gives the image those scenes. -/
theorem Module.placeSection_scenes {x : Section} {p : List Scene × Nat} (hx : x.type = 0x30) (hs : scenesOf x = some p) (h : HalfId) :
    m.placeSection t l h x = some (m, { l with img := { l.img with scenes := p.1, default := p.2 } }) := by
  unfold Module.placeSection Module.placePicture
  simp only [hx, hs]
  rfl

/-- A touch configuration is kept. -/
theorem Module.placeSection_touch {x : Section} {c : TouchConf} (hx : x.type = 0xA0) (hs : touchConfOf x = some c) (h : HalfId) :
    m.placeSection t l h x = some (m, { l with touch := some c }) := by
  unfold Module.placeSection
  simp only [hx, hs]
  rfl

end Arrival

/-- With a further section to come, and the start as it was, that is all that the command does. -/
theorem exec_sectionArrival_places {s : State} {l l1 : LoadSt} {k : Nat} {e : ManEntry} {m1 : Module} (ha : s.mod.Arrives l k e)
    (hp : (s.mod.sectionPassed l e).placeSection s.now l .h0 (s.mod.sectionOf l e) = some (m1, l1))
    (hm : (m1.nextEntry { l1 with next := k + 1 } .h0 (s.mod.loadEntries l) (k + 1)).isSome = true) (hu : m1.Unplaced)
    (h3 : m1.half0.step = 3) : exec .sectionArrival s =
      .next { s with mod := (m1.onHalf .h0 fun x => { x with load := some { l1 with next := k + 1 } }) } := by
  have outcome := (hu.setLoad (some { l1 with next := k + 1 })).advance s.now h3
  rw [← ha.places s.now hp hm] at outcome ⊢
  exact congrArg (fun m => (.next { s with mod := m } : Answer)) outcome

/-- Half 0 goes on loading so, and nothing but its check-value units changes besides. -/
theorem exec_sectionArrival_load (s : State) {l : LoadSt} {k : Nat} {e : ManEntry} (ha : s.mod.Arrives l k e) (hu : s.mod.Unplaced)
    (h3 : s.mod.half0.step = 3) (hm : (s.mod.nextEntry l .h0 (s.mod.loadEntries l) (k + 1)).isSome = true) {l1 : LoadSt}
    (hp : ∀ m : Module, m.placeSection s.now l .h0 (s.mod.sectionOf l e) = some (m, l1)) (hb : l1.base = l.base) (hh : l1.both = l.both) :
    ∃ t, exec .sectionArrival s = .next t ∧
      { t.mod.half0 with cvu := s.mod.half0.cvu } = { s.mod.half0 with load := some { l1 with next := k + 1 } } ∧
      s.mod.onlyHalf t.mod .h0 ∧ t.now = s.now := by
  have keeps : s.mod.LoaderKeeps (s.mod.sectionPassed l e) := s.mod.loaderKeeps_loaderPoint _ _
  have further : ((s.mod.sectionPassed l e).nextEntry { l1 with next := k + 1 } .h0 (s.mod.loadEntries l) (k + 1)).isSome = true :=
    (congrArg Option.isSome (Module.nextEntry_congr keeps.flash hb hh _ _ _)).trans hm
  have three : ((s.mod.sectionPassed l e).half .h0).step = 3 := ((keeps.half .h0).get F.RST_STATE_STEP (by decide)).trans h3
  have passed : s.mod.sectionPassed l e = s.mod.onHalf .h0 fun x => x.loaderTake (s.mod.sectionOf l e).type
      (s.mod.flash.read (l.base + e.ofs) 28 ++ (s.mod.sectionOf l e).payload) := s.mod.loaderPoint_live hu.live _ _
  refine ⟨_, exec_sectionArrival_places ha (hp _) further (hu.keep keeps) three, ?_⟩
  rw [passed]
  exact ⟨Half.loaderTake_keeps (fun x => { x with load := some { l1 with next := k + 1 }, cvu := s.mod.half0.cvu }) (fun _ _ => rfl)
    s.mod.half0 _ _, ⟨rfl, rfl, rfl, rfl⟩, rfl⟩

end Sys2Proof.Machine
end

section
/-!
SUPPORT. IMAGE_HEADERS_READ in step 3 of a module start (R70, R81), and the loader's obligation.
-/
namespace Sys2Proof.Machine

/-- After a false start nothing goes on: the lamplighter holds both halves in reset. -/
theorem Module.FalselyStarted.advance {m m' : Module} {c : Nat} (hf : m.FalselyStarted m' c) (t : Nat) : m'.advance t = m' := by
  refine m'.advance_fixed t (m'.laneTestStep_none t (by rw [hf.phase]; decide)) (m'.startStep_none t (by rw [hf.phase]; decide)) fun h => ?_
  have held : (m'.half h).inReset = true := (hf.halves h).1
  unfold Module.halfStep
  dsimp only
  rw [held]
  rfl

/-- The module with what IMAGE_HEADERS_READ tells of its flash. -/
def Module.withSfdp (m : Module) (sfdp : Option Sfdp) : Module := { m with flash := { m.flash with sfdp := sfdp } }

/-- Step 2 of a start is done and nothing loads yet. -/
structure Module.ReadsHeaders (m : Module) : Prop where
  phase : m.lamp.phase = .starting
  step : m.half0.step = 2
  load : m.half0.load = none

section Headers
variable {s : State} (hr : s.mod.ReadsHeaders)
include hr

theorem exec_imageHeadersRead_start (sfdp : Option Sfdp) : exec (.imageHeadersRead sfdp) s =
    .next { s with mod := (((s.mod.withSfdp sfdp).chooseSlot s.now).advance s.now) } := by
  have chosen : s.mod.headersRead s.now sfdp = (s.mod.withSfdp sfdp).chooseSlot s.now :=
    (if_pos hr.phase).trans (if_pos ⟨hr.step, congrArg Option.isNone hr.load⟩)
  rw [← chosen]
  rfl

/-- The start ends as a false start. -/
theorem exec_imageHeadersRead_fails {sfdp : Option Sfdp} {x : Module} (hx : (s.mod.withSfdp sfdp).LoaderKeeps x)
    (hc : (s.mod.withSfdp sfdp).chooseSlot s.now = x.loadFalseStart s.now 13) :
    ∃ t, exec (.imageHeadersRead sfdp) s = .next t ∧ t.mod.lamp.phase = .heldFalse ∧
      t.mod.lamp.fsCount = min (s.mod.lamp.fsCount + 1) 15 ∧
      (∀ h, (t.mod.half h).inReset = true ∧ (t.mod.half h).get F.RST_CAUSE_LAST = 13) := by
  have falsely := x.loadFalseStart_does s.now 13 (by decide)
  have count : x.lamp.fsCount = s.mod.lamp.fsCount := congrArg Lamp.fsCount hx.lamp
  refine ⟨_, exec_imageHeadersRead_start hr sfdp, ?_⟩
  dsimp only
  rw [hc, falsely.advance, ← count]
  exact ⟨falsely.phase, falsely.fsCount, falsely.halves⟩

/-- Without SFDP it does so. -/
theorem exec_imageHeadersRead_noSfdp : ∃ t, exec (.imageHeadersRead none) s = .next t ∧ t.mod.lamp.phase = .heldFalse ∧
    t.mod.lamp.fsCount = min (s.mod.lamp.fsCount + 1) 15 ∧
    (∀ h, (t.mod.half h).inReset = true ∧ (t.mod.half h).get F.RST_CAUSE_LAST = 13) :=
  exec_imageHeadersRead_fails hr
    (Module.loaderKeeps_ldr _ _ (by simp [F.LDR_SLOTCODE_A, F.LDR_SLOTCODE_B, F.LDR_STATUS_RESULT, F.LDR_STATUS_STATE])) rfl

/-- With it, and a slot that passes, the load of the slot chosen begins and ends step 3. -/
theorem exec_imageHeadersRead_loads (hu : s.mod.Unplaced) (h1 : s.mod.half1.inReset = false) (z : Sfdp)
    (hp : (s.mod.withSfdp (some z)).slotPasses (sfdpSlotSize z) 1 = true ∨
      (s.mod.withSfdp (some z)).slotPasses (sfdpSlotSize z) 2 = true) :
    ∃ t l, exec (.imageHeadersRead (some z)) s = .next t ∧ t.mod.half0.load = some l ∧
      l.slot = (s.mod.withSfdp (some z)).slotChosen (sfdpSlotSize z) ∧
      l.base = slotBase (sfdpSlotSize z) ((s.mod.withSfdp (some z)).slotChosen (sfdpSlotSize z)) ∧
      t.mod.half0.get F.LDR_STATUS_SLOT = (s.mod.withSfdp (some z)).slotChosen (sfdpSlotSize z) ∧
      t.mod.half0.get F.LDR_STATUS_STATE = ldsSections ∧ t.mod.half0.step = 3 ∧
      t.mod.flash.bytes = s.mod.flash.bytes ∧ t.mod.fuse = s.mod.fuse := by
  let m := s.mod.withSfdp (some z)
  let l := LoadSt.start m.flash (sfdpSlotSize z) (m.slotChosen (sfdpSlotSize z)) (m.slotOther (sfdpSlotSize z)) true
  let x := ((m.slotsRead z).noteKey s.now).beginLoad s.now .h0 l
  have hm : m.Unplaced := ⟨hu.phase, hu.live, hu.mode, hu.image⟩
  have read : m.LoaderKeeps ((m.slotsRead z).noteKey s.now) := (m.loaderKeeps_slotsRead z).trans (Module.loaderKeeps_noteKey _ _)
  have keeps : m.LoaderKeeps x := read.trans (Module.loaderKeeps_beginLoad _ _ _ _)
  have live : ((m.slotsRead z).noteKey s.now).half0.inReset = false := (hm.keep read).live
  have load : (x.half .h0).load = some l := Module.load_beginLoad _ _ _ live rfl
  have two : x.half0.step = 2 := ((keeps.half .h0).get F.RST_STATE_STEP (by decide)).trans hr.step
  have begun : m.chooseSlot s.now = x := m.chooseSlot_some s.now z rfl hu.live hp
  have outcome : (m.chooseSlot s.now).advance s.now = x.loaded s.now := by
    rw [begun]
    exact (hm.keep keeps).advance_load s.now ((keeps.half .h1).inReset.trans h1) two (congrArg Option.isSome load)
  refine ⟨{ s with mod := x.loaded s.now }, l, (exec_imageHeadersRead_start hr (some z)).trans
    (congrArg (fun m => (.next { s with mod := m } : Answer)) outcome), load, rfl, rfl, ?slot, ?state, ?step, ?bytes, ?fuse⟩
  case slot =>
    exact (Half.ldr_endStep _ _ _ (by decide)).trans (Module.slot_beginLoad _ _ _ live rfl (m.slotChosen_lt _))
  case state => exact (Half.ldr_endStep _ _ _ (by decide)).trans (Module.state_beginLoad _ _ _ live rfl)
  case step => exact Half.step_endStep _ _ _ (by decide)
  case bytes => exact (congrArg Flash.bytes keeps.flash :)
  case fuse => exact keeps.fuse

end Headers

/-- Settles O12: the headers without SFDP and with it, then a section placed in general, and the three that change the load alone. -/
theorem loaderSteps : Obligations.LoaderSteps := by
  unfold Obligations.LoaderSteps
  intro s hp h0 h1 mode0 mode1 image
  have hu : s.mod.Unplaced := ⟨hp, h0, fun h => by cases h; exacts [mode0, mode1], image⟩
  refine ⟨fun h2 hl => ⟨?noSfdp, fun z => ⟨fun passes => ?loads, fun a b => ?fails⟩⟩, fun l k e h3 hl next reach => ?arrival⟩
  case noSfdp => exact exec_imageHeadersRead_noSfdp ⟨hp, h2, hl⟩
  case loads => exact exec_imageHeadersRead_loads ⟨hp, h2, hl⟩ hu h1 z passes
  case fails =>
    obtain ⟨x, keeps, hc⟩ := (s.mod.withSfdp (some z)).chooseSlot_none s.now z rfl a b
    exact exec_imageHeadersRead_fails ⟨hp, h2, hl⟩ keeps hc
  case arrival =>
    intro x passed gives checks further
    have ha : s.mod.Arrives l k e := ⟨hl, next, reach, checks⟩
    refine ⟨fun m1 l1 hm more phase step live mode unplaced peer => ?placed, fun p type hs => ?scenes, fun c type hc => ?touch,
      fun optional => ?passedOver⟩
    case placed =>
      have hu1 : m1.Unplaced := ⟨phase, live, fun h => by cases h; exacts [mode, peer], unplaced⟩
      exact exec_sectionArrival_places ha hm more hu1 step
    case scenes =>
      exact exec_sectionArrival_load s ha hu h3 further (fun m => m.placeSection_scenes _ type hs _) rfl rfl
    case touch =>
      exact exec_sectionArrival_load s ha hu h3 further (fun m => m.placeSection_touch _ type hc _) rfl rfl
    case passedOver => exact exec_sectionArrival_load s ha hu h3 further (fun m => m.placeSection_optional _ optional _) rfl rfl

end Sys2Proof.Machine
end

section
/-!
SUPPORT. The line code (R99 to R101): what one data bit sends, what a receiver in step with the transmitter takes from it, and the
statement on the line code.
-/
namespace Sys2Proof.Machine

/-! ## The transmitter -/

/-- The line bit of a data bit: the data bit scrambled. -/
def LaneTx.lineBit (x : LaneTx) (d : Bool) : Bool := d != (bitAt x.taps 38 != bitAt x.taps 57)

/-- The line bit is the 24th of its run, and a stuff bit follows it. -/
abbrev LaneTx.Stuffs (x : LaneTx) (d : Bool) : Prop := x.lineBit d = x.runBit ∧ x.runLen = 23

section Bit
variable {x : LaneTx} {d : Bool}

/-- A data bit that is followed by a stuff bit. -/
theorem LaneTx.bit_stuffed (hs : x.Stuffs d) : x.bit d = { x with
    taps := (x.taps * 2 + Sys2Proof.bit (x.lineBit d)) % 2 ^ 58, runBit := !x.lineBit d, runLen := 1,
    line := x.line ++ [x.lineBit d, !x.lineBit d] } := by
  obtain ⟨same, run⟩ := hs
  unfold LaneTx.bit
  exact if_pos (by rw [run]; exact if_pos (beq_iff_eq.mpr same))

/-- A data bit that is not followed by a stuff bit. -/
theorem LaneTx.bit_plain (hs : ¬x.Stuffs d) : x.bit d = { x with
    taps := (x.taps * 2 + Sys2Proof.bit (x.lineBit d)) % 2 ^ 58, runBit := x.lineBit d,
    runLen := if x.lineBit d == x.runBit then x.runLen + 1 else 1, line := x.line ++ [x.lineBit d] } := by
  unfold LaneTx.bit
  refine if_neg fun run => hs ?_
  split at run
  · next same => exact ⟨beq_iff_eq.mp same, by omega⟩
  · exact absurd run (by decide)

end Bit

/-! ## The receiver -/

section Receiver
variable (r : LaneRx)

/-- After 24 identical line bits the receiver takes a stuff bit. -/
theorem LaneRx.bit_stuff (y : Bool) (hr : r.runLen = 24) : r.bit y =
    ({ r with runBit := y, runLen := 1, errNext := r.errNext || (y == r.runBit) }, y == r.runBit) := if_pos hr

/-- Any other line bit is a scrambled data bit: without an error it enters the descrambler, and the buffer if that is full. -/
theorem LaneRx.bit_data (y : Bool) (hr : r.runLen ≠ 24) :
    (r.bit y).2 = false ∧ (r.bit y).1.runBit = y ∧ (r.bit y).1.runLen = (if y == r.runBit then r.runLen + 1 else 1) ∧
    (r.bit y).1.taps = (r.taps * 2 + Sys2Proof.bit y) % 2 ^ 58 ∧ (r.bit y).1.fill = r.fill + 1 ∧
    (r.bit y).1.buf.map (fun b => b.1) =
      r.buf.map (fun b => b.1) ++ [y != (bitAt r.taps 38 != bitAt r.taps 57)].drop (58 - r.fill) := by
  unfold LaneRx.bit
  rw [if_neg hr]
  by_cases hf : r.fill < 58
  · obtain ⟨n, hn⟩ : ∃ n, 58 - r.fill = n + 1 := ⟨57 - r.fill, by omega⟩
    simp [hf, hn]
  · have hn : 58 - r.fill = 0 := by omega
    simp [hf, hn]

/-- Line bits after others. -/
theorem LaneRx.bits_append (v w : List Bool) :
    r.bits (v ++ w) = (((r.bits v).1.bits w).1, (r.bits v).2 + ((r.bits v).1.bits w).2) := by
  induction v generalizing r with
  | nil => simp [LaneRx.bits]
  | cons y v ih => simp [LaneRx.bits, ih]; omega

end Receiver

/-! ## A receiver in step -/

/-- The receiver counts the transmitter's run of identical line bits. -/
structure LaneRx.InStep (r : LaneRx) (x : LaneTx) : Prop where
  runLen : r.runLen = x.runLen
  runBit : r.runBit = x.runBit

/-- As many line bits as the receiver's descrambler has taken, 58 when it is full, are those that the transmitter holds. -/
def LaneRx.Holds (r : LaneRx) (x : LaneTx) : Prop :=
  if 58 ≤ r.fill then r.taps = x.taps else r.taps % 2 ^ r.fill = x.taps % 2 ^ r.fill

/-- Data sent takes transmitter `x` to `y`, sending line bits `w`: a stuff bit in 24 line bits at the most, and every receiver in step
stays in step and takes from them the data once its descrambler is full. -/
structure LaneTx.Carries (x y : LaneTx) (data w : List Bool) : Prop where
  line : y.line = x.line ++ w
  run : y.runLen < 24
  length : data.length ≤ w.length
  stuffs : 24 * (w.length - data.length) + y.runLen ≤ w.length + x.runLen
  errors (r : LaneRx) (hr : r.InStep x) : (r.bits w).2 = 0
  inStep (r : LaneRx) (hr : r.InStep x) : (r.bits w).1.InStep y
  fill (r : LaneRx) (hr : r.InStep x) : (r.bits w).1.fill = r.fill + data.length
  holds (r : LaneRx) (hr : r.InStep x) (ht : r.Holds x) : (r.bits w).1.Holds y
  buf (r : LaneRx) (hr : r.InStep x) (ht : r.Holds x) :
    (r.bits w).1.buf.map (fun b => b.1) = r.buf.map (fun b => b.1) ++ data.drop (58 - r.fill)

/-- No data sends nothing. -/
theorem LaneTx.carries_nil (x : LaneTx) (hx : x.runLen < 24) : x.Carries x [] [] where
  line := by simp
  run := hx
  length := Nat.le_refl _
  stuffs := by simp
  errors _ _ := rfl
  inStep _ hr := hr
  fill _ _ := rfl
  holds _ _ ht := ht
  buf r _ _ := by simp [LaneRx.bits]

/-- Data sent after other data. -/
theorem LaneTx.Carries.append {x y z : LaneTx} {a b v w : List Bool} (ha : x.Carries y a v) (hb : y.Carries z b w) :
    x.Carries z (a ++ b) (v ++ w) where
  line := by rw [hb.line, ha.line, List.append_assoc]
  run := hb.run
  length := by
    have := ha.length
    have := hb.length
    simp only [List.length_append]
    omega
  stuffs := by
    have := ha.length
    have := hb.length
    have := ha.stuffs
    have := hb.stuffs
    simp only [List.length_append]
    omega
  errors r hr := by simp only [LaneRx.bits_append, ha.errors r hr, hb.errors _ (ha.inStep r hr)]
  inStep r hr := by
    rw [LaneRx.bits_append]
    exact hb.inStep _ (ha.inStep r hr)
  fill r hr := by
    rw [LaneRx.bits_append, hb.fill _ (ha.inStep r hr), ha.fill r hr, List.length_append, Nat.add_assoc]
  holds r hr ht := by
    rw [LaneRx.bits_append]
    exact hb.holds _ (ha.inStep r hr) (ha.holds r hr ht)
  buf r hr ht := by
    rw [LaneRx.bits_append, hb.buf _ (ha.inStep r hr) (ha.holds r hr ht), ha.buf r hr ht, ha.fill r hr, List.append_assoc,
      List.drop_append, Nat.sub_sub]

/-! ## One data bit -/

/-- Descrambling undoes scrambling. -/
theorem LaneTx.lineBit_descrambled (x : LaneTx) (d : Bool) : (x.lineBit d != (bitAt x.taps 38 != bitAt x.taps 57)) = d := by
  simp [LaneTx.lineBit]

/-- One more line bit: the shift registers agree in one more place. -/
theorem shifted_agree (a b n c : Nat) (hn : n < 58) (hab : a % 2 ^ n = b % 2 ^ n) :
    (a * 2 + c) % 2 ^ 58 % 2 ^ (n + 1) = (b * 2 + c) % 2 ^ 58 % 2 ^ (n + 1) := by
  have dvd : 2 ^ (n + 1) ∣ 2 ^ 58 := Nat.pow_dvd_pow 2 hn
  rw [Nat.mod_mod_of_dvd _ dvd, Nat.mod_mod_of_dvd _ dvd, Nat.pow_succ]
  exact Nat.ModEq.add_right c (Nat.ModEq.mul_right' 2 hab)

section Takes
variable {r : LaneRx} {x y : LaneTx} (hr : r.InStep x) (hx : x.runLen < 24) (d : Bool)
include hr hx

/-- A receiver in step counts the line bit of a data bit as the transmitter does. -/
theorem LaneRx.InStep.run_bit : (r.bit (x.lineBit d)).2 = false ∧ (r.bit (x.lineBit d)).1.runBit = x.lineBit d ∧
    (r.bit (x.lineBit d)).1.runLen = (if x.lineBit d == x.runBit then x.runLen + 1 else 1) ∧
    (r.bit (x.lineBit d)).1.fill = r.fill + 1 := by
  obtain ⟨len, same⟩ := hr
  obtain ⟨error, runBit, runLen, -, fill, -⟩ := r.bit_data (x.lineBit d) (by omega)
  rw [same, len] at runLen
  exact ⟨error, runBit, runLen, fill⟩

/-- The line bit of a data bit enters both shift registers. -/
theorem LaneRx.InStep.holds_bit (ht : r.Holds x) (hy : y.taps = (x.taps * 2 + Sys2Proof.bit (x.lineBit d)) % 2 ^ 58) :
    (r.bit (x.lineBit d)).1.Holds y := by
  obtain ⟨-, -, -, taps, fill, -⟩ := r.bit_data (x.lineBit d) (by rw [hr.runLen]; omega)
  unfold LaneRx.Holds at ht ⊢
  rw [fill, taps, hy]
  by_cases full : 58 ≤ r.fill
  · rw [if_pos full] at ht
    rw [if_pos (by omega), ht]
  · rw [if_neg full] at ht
    have next := shifted_agree _ _ _ (Sys2Proof.bit (x.lineBit d)) (by omega) ht
    split
    · have last : r.fill + 1 = 58 := by omega
      rw [last] at next
      simpa only [Nat.mod_mod] using next
    · exact next

/-- From the line bit of a data bit a full descrambler takes the data bit. -/
theorem LaneRx.InStep.buf_bit (ht : r.Holds x) : (r.bit (x.lineBit d)).1.buf.map (fun b => b.1) =
    r.buf.map (fun b => b.1) ++ [d].drop (58 - r.fill) := by
  obtain ⟨-, -, -, -, -, buf⟩ := r.bit_data (x.lineBit d) (by rw [hr.runLen]; omega)
  unfold LaneRx.Holds at ht
  rw [buf]
  by_cases full : 58 ≤ r.fill
  · rw [if_pos full] at ht
    rw [ht, x.lineBit_descrambled]
  · obtain ⟨n, hn⟩ : ∃ n, 58 - r.fill = n + 1 := ⟨57 - r.fill, by omega⟩
    simp [hn]

end Takes

/-- A data bit sent with the stuff bit that follows it. -/
theorem LaneTx.carries_stuffed (x : LaneTx) (d : Bool) (hx : x.runLen < 24) (hs : x.Stuffs d) :
    x.Carries (x.bit d) [d] [x.lineBit d, !x.lineBit d] := by
  have reads (r : LaneRx) (hr : r.InStep x) : r.bits [x.lineBit d, !x.lineBit d] =
      ({ (r.bit (x.lineBit d)).1 with runBit := !x.lineBit d, runLen := 1 }, 0) := by
    obtain ⟨error, runBit, runLen, -⟩ := hr.run_bit hx d
    have full : (r.bit (x.lineBit d)).1.runLen = 24 := by rw [runLen, hs.1, hs.2]; simp
    simp [LaneRx.bits, error, LaneRx.bit_stuff _ _ full, runBit]
  rw [bit_stuffed hs]
  constructor
  case line => rfl
  case run => dsimp only; decide
  case length => simp
  case stuffs => simp [hs.2]
  case errors => exact fun r hr => by rw [reads r hr]
  case inStep => exact fun r hr => by rw [reads r hr]; exact ⟨rfl, rfl⟩
  case fill =>
    intro r hr
    obtain ⟨-, -, -, fill⟩ := hr.run_bit hx d
    rw [reads r hr]
    exact fill
  case holds => exact fun r hr ht => by rw [reads r hr]; exact hr.holds_bit hx d ht rfl
  case buf => exact fun r hr ht => by rw [reads r hr]; exact hr.buf_bit hx d ht

/-- A data bit sent without a stuff bit after it. -/
theorem LaneTx.carries_plain (x : LaneTx) (d : Bool) (hx : x.runLen < 24) (hs : ¬x.Stuffs d) :
    x.Carries (x.bit d) [d] [x.lineBit d] := by
  have reads (r : LaneRx) (hr : r.InStep x) : r.bits [x.lineBit d] = ((r.bit (x.lineBit d)).1, 0) := by
    obtain ⟨error, -⟩ := hr.run_bit hx d
    simp [LaneRx.bits, error]
  have notLast (same : (x.lineBit d == x.runBit) = true) : x.runLen ≠ 23 := fun h => hs ⟨beq_iff_eq.mp same, h⟩
  rw [bit_plain hs]
  constructor
  case line => rfl
  case run =>
    dsimp only
    split
    · next same => have := notLast same; omega
    · decide
  case length => exact Nat.le_refl _
  case stuffs =>
    dsimp only [List.length_singleton]
    split <;> omega
  case errors => exact fun r hr => by rw [reads r hr]
  case inStep =>
    intro r hr
    obtain ⟨-, runBit, runLen, -⟩ := hr.run_bit hx d
    rw [reads r hr]
    exact ⟨runLen, runBit⟩
  case fill =>
    intro r hr
    obtain ⟨-, -, -, fill⟩ := hr.run_bit hx d
    rw [reads r hr]
    exact fill
  case holds => exact fun r hr ht => by rw [reads r hr]; exact hr.holds_bit hx d ht rfl
  case buf => exact fun r hr ht => by rw [reads r hr]; exact hr.buf_bit hx d ht

/-- One data bit sent. -/
theorem LaneTx.carries_bit (x : LaneTx) (d : Bool) (hx : x.runLen < 24) : ∃ w, x.Carries (x.bit d) [d] w := by
  by_cases hs : x.Stuffs d
  · exact ⟨_, x.carries_stuffed d hx hs⟩
  · exact ⟨_, x.carries_plain d hx hs⟩

/-- Data bits sent in turn. -/
theorem LaneTx.carries_bits (x : LaneTx) (data : List Bool) (hx : x.runLen < 24) : ∃ w, x.Carries (data.foldl LaneTx.bit x) data w := by
  induction data generalizing x with
  | nil => exact ⟨[], x.carries_nil hx⟩
  | cons d data ih =>
    obtain ⟨v, hv⟩ := x.carries_bit d hx
    obtain ⟨w, hw⟩ := ih (x.bit d) hv.run
    exact ⟨_, hv.append hw⟩

/-! ## Runs -/

/-- A receiver's run is never longer than 24. -/
theorem LaneRx.runLen_bits (r : LaneRx) (w : List Bool) (hr : r.runLen ≤ 24) : (r.bits w).1.runLen ≤ 24 := by
  induction w generalizing r with
  | nil => exact hr
  | cons y w ih =>
    refine ih _ ?_
    by_cases full : r.runLen = 24
    · rw [r.bit_stuff y full]; exact (by decide : 1 ≤ 24)
    · obtain ⟨-, -, runLen, -⟩ := r.bit_data y full
      rw [runLen]
      split <;> omega

/-- A receiver within a run meets a stuff error where the run goes on to its 25th bit. -/
theorem LaneRx.error_of_run (r : LaneRx) (b : Bool) (n k : Nat) (hb : r.runBit = b) (hr : r.runLen + n = 24) :
    (r.bits (List.replicate (n + k + 1) b)).2 ≠ 0 := by
  induction n generalizing r with
  | zero => simp [List.replicate_succ, LaneRx.bits, r.bit_stuff b (by omega), hb]
  | succ n ih =>
    obtain ⟨-, runBit, runLen, -⟩ := r.bit_data b (by omega)
    have next := ih (r.bit b).1 runBit (by rw [runLen, if_pos (beq_iff_eq.mpr hb.symm)]; omega)
    have longer : n + 1 + k + 1 = (n + k + 1) + 1 := by omega
    rw [longer, List.replicate_succ]
    exact fun h => next (Nat.add_eq_zero_iff.mp h).1

/-- 25 identical line bits bring a stuff error: after the first of them the receiver counts a run of them. -/
theorem LaneRx.error_of_25 (r : LaneRx) (b : Bool) (hr : r.runLen ≤ 24) : (r.bits (List.replicate 25 b)).2 ≠ 0 := by
  have first : (r.bit b).1.runBit = b ∧ 1 ≤ (r.bit b).1.runLen ∧ (r.bit b).1.runLen ≤ 24 := by
    by_cases full : r.runLen = 24
    · rw [r.bit_stuff b full]
      exact ⟨rfl, Nat.le_refl 1, (by decide : 1 ≤ 24)⟩
    · obtain ⟨-, runBit, runLen, -⟩ := r.bit_data b full
      rw [runLen]
      exact ⟨runBit, by split <;> omega, by split <;> omega⟩
  obtain ⟨runBit, one, most⟩ := first
  obtain ⟨n, hn⟩ := Nat.exists_eq_add_of_le most
  obtain ⟨k, hk⟩ := Nat.exists_eq_add_of_le one
  have rest := (r.bit b).1.error_of_run b n k runBit hn.symm
  have : n + k + 1 = 24 := by omega
  rw [this] at rest
  exact fun h => rest (Nat.add_eq_zero_iff.mp h).1

/-- Line bits without a stuff error hold no run of 25. -/
theorem LaneRx.no_run_of_25 (r : LaneRx) (w : List Bool) (hr : r.runLen ≤ 24) (hw : (r.bits w).2 = 0) (pre post : List Bool) (b : Bool) :
    w ≠ pre ++ List.replicate 25 b ++ post := by
  rintro rfl
  rw [List.append_assoc, LaneRx.bits_append, LaneRx.bits_append] at hw
  have := (r.bits pre).1.error_of_25 b (r.runLen_bits pre hr)
  dsimp only at hw
  omega

/-! ## The statement -/

/-- Settles O59: the data bits in turn, each with the stuff bit that may follow it, and a run of 25 would be a stuff error. -/
theorem lineCode : Obligations.LineCode := by
  unfold Obligations.LineCode
  intro x r data hx hlen hbit sent z
  obtain ⟨w, hw⟩ := { x with line := [] }.carries_bits data hx
  have hsent : sent = w := by rw [← List.nil_append w]; exact hw.line
  have hz : z = r.bits w := congrArg r.bits hsent
  have most : r.runLen ≤ 24 := by omega
  have hr : r.InStep { x with line := [] } := ⟨hlen, hbit⟩
  have inStep : z.1.InStep (x.bits data) := by rw [hz]; exact hw.inStep r hr
  have errors : z.2 = 0 := by rw [hz]; exact hw.errors r hr
  refine ⟨hw.run, inStep.runLen, inStep.runBit, errors, ?length, ?stuffs, fun full same => ?full, fun empty => ?empty, ?runs⟩
  case length => rw [hsent]; exact hw.length
  case stuffs =>
    have := hw.stuffs
    rw [hsent]
    dsimp only at this
    omega
  case full =>
    have ht : r.Holds { x with line := [] } := (if_pos full).mpr same
    have holds := hw.holds r hr ht
    have fill := hw.fill r hr
    have buf := hw.buf r hr ht
    rw [← hz] at holds fill buf
    rw [Nat.sub_eq_zero_of_le full] at buf
    exact ⟨buf, (if_pos (by omega)).mp holds⟩
  case empty =>
    have ht : r.Holds { x with line := [] } := by simp [LaneRx.Holds, empty, Nat.mod_one]
    have holds := hw.holds r hr ht
    have fill := hw.fill r hr
    have buf := hw.buf r hr ht
    rw [← hz] at holds fill buf
    rw [empty] at buf
    exact ⟨buf, fun all => (if_pos (by omega)).mp holds⟩
  case runs => exact r.no_run_of_25 sent (by omega) errors

end Sys2Proof.Machine
end

section
/-!
SUPPORT. Cells and batons as bytes (R102, R363): fields of byte strings, flags of a number, and the statement on what reads back.
-/
namespace Sys2Proof

/-! ## Fields of byte strings -/

/-- A part of a string of bytes, after what precedes it. -/
theorem sliceBytes_append (a b c : List Byte) {k n : Nat} (hk : a.length = k) (hn : b.length = n) :
    sliceBytes (a ++ (b ++ c)) k n = b := by
  subst hk hn
  simp [sliceBytes]

/-- A string of the length asked for is not padded. -/
theorem Machine.padTo_self (n : Nat) (bs : List Byte) (hn : bs.length = n) : padTo n bs = bs := by
  unfold padTo
  simpa using sliceBytes_append [] bs [] rfl hn

/-- A byte is a little-endian field of one byte. -/
theorem byteAt_eq_leAt (bs : List Byte) (k : Nat) : byteAt bs k = leAt bs k 1 := by
  unfold byteAt leAt sliceBytes
  rw [List.getD_eq_getElem?_getD, ← List.head?_drop]
  cases bs.drop k <;> simp [leVal]

/-- The first field of a string. -/
theorem leAt_leBytes_zero (n v : Nat) (bs : List Byte) : leAt (leBytes n v ++ bs) 0 n = v % 256 ^ n := by
  have slice : sliceBytes (leBytes n v ++ bs) 0 n = leBytes n v := sliceBytes_append [] _ bs rfl (leBytes_length n v)
  rw [leAt, slice, leVal_leBytes]

/-- A later field of a string is a field of what follows the first. -/
theorem leAt_leBytes_skip (m v : Nat) (bs : List Byte) (k n : Nat) (hm : m ≤ k) :
    leAt (leBytes m v ++ bs) k n = leAt bs (k - m) n := by
  have rest : (leBytes m v ++ bs).drop k = bs.drop (k - m) := by
    rw [List.drop_append, leBytes_length, List.drop_eq_nil_of_le (by rw [leBytes_length]; exact hm), List.nil_append]
  rw [leAt, leAt, sliceBytes, sliceBytes, rest]

/-- A big-endian value is the little-endian value of the reverse. -/
theorem beVal_eq (bs : List Byte) : beVal bs = leVal bs.reverse := by
  unfold beVal
  induction bs using List.reverseRecOn with
  | nil => rfl
  | append_singleton bs b ih => simp [leVal, ih]; omega

/-- The big-endian value of a big-endian string. -/
theorem beVal_beBytes (n v : Nat) : beVal (beBytes n v) = v % 256 ^ n := by
  rw [beVal_eq, beBytes, List.reverse_reverse, leVal_leBytes]

/-- A big-endian field of a string. -/
theorem beAt_append (a c : List Byte) {k : Nat} (n v : Nat) (hk : a.length = k) : beAt (a ++ (beBytes n v ++ c)) k n = v % 256 ^ n := by
  unfold beAt
  rw [sliceBytes_append a _ c hk (beBytes_length n v), beVal_beBytes]

/-! ## Flags of a number -/

/-- The lowest flag of a number. -/
theorem bitAt_flag_zero (b : Bool) (n : Nat) : bitAt (bit b + 2 * n) 0 = b := by
  cases b <;> simp [bitAt, Nat.add_mod]

/-- A flag above the lowest. -/
theorem bitAt_flag_succ (b : Bool) (n i : Nat) : bitAt (bit b + 2 * n) (i + 1) = bitAt n i := by
  have half : (bit b + 2 * n) / 2 = n := by cases b <;> simp only [bit_true, bit_false] <;> omega
  unfold bitAt
  rw [Nat.pow_succ', ← Nat.div_div_eq_div_mul, half]

end Sys2Proof

namespace Sys2Proof.Machine

/-! ## Check values -/

/-- The bits of a reversed number are as many as were reversed. -/
theorem reverseBits_lt (n v : Nat) : reverseBits n v < 2 ^ n := by
  induction n generalizing v with
  | zero => simp [reverseBits]
  | succ n ih =>
    have low := ih (v / 2)
    have top : v % 2 * 2 ^ n ≤ 2 ^ n := by
      rcases Nat.mod_two_eq_zero_or_one v with h | h <;> simp [h]
    simp only [reverseBits, Nat.pow_succ]
    omega

/-- The check value of CRC-32C from its register. -/
theorem crcFinish_crc32c (reg : Nat) : crcFinish crc32c reg = reverseBits 32 reg ^^^ (2 ^ 32 - 1) := by
  simp only [crcFinish, crc32c, if_true]

/-- A CRC-32C has 32 bits. -/
theorem crcOf_lt (bs : List Byte) : crcOf bs < 2 ^ 32 := by
  rw [crcOf, crcValue, crcFinish_crc32c]
  exact Nat.xor_lt_two_pow (reverseBits_lt 32 _) (Nat.sub_lt (Nat.two_pow_pos 32) Nat.one_pos)

/-! ## Cells -/

section Cell
variable {c : Cell} {lseq : Nat}

/-- The bytes of a cell before its CRC. -/
def Cell.head (c : Cell) (lseq : Nat) : List Byte :=
  [BitVec.ofNat 8 0xD5, BitVec.ofNat 8 (c.type % 16 * 16 + lseq % 16)] ++ beBytes 10 c.hdr ++ padTo 240 c.payload

theorem Cell.bytes_eq : c.bytes lseq = c.head lseq ++ beBytes 4 (crcOf (c.head lseq)) := rfl

/-- A padded string has the length asked for. -/
theorem padTo_length (n : Nat) (bs : List Byte) : (padTo n bs).length = n := by simp [padTo, sliceBytes]

theorem Cell.head_length : (c.head lseq).length = 252 := by simp [Cell.head, padTo_length]

theorem Cell.bytes_length : (c.bytes lseq).length = 256 := by simp [Cell.bytes_eq, Cell.head_length]

/-- The CRC of a cell is valid. -/
theorem Cell.cellCrcOk_bytes : cellCrcOk (c.bytes lseq) = true := by
  have value : beAt (c.bytes lseq) 252 4 = crcOf (c.head lseq) := by
    have := beAt_append (c.head lseq) [] 4 (crcOf (c.head lseq)) Cell.head_length
    rw [List.append_nil] at this
    rw [Cell.bytes_eq, this]
    exact Nat.mod_eq_of_lt (crcOf_lt _)
  have part : (c.bytes lseq).take 252 = c.head lseq := by
    rw [Cell.bytes_eq, List.take_append_of_le_length Cell.head_length.ge]
    exact List.take_of_length_le Cell.head_length.le
  rw [cellCrcOk, value, part, beq_self_eq_true]

/-- The bytes of a cell with a whole payload. -/
theorem Cell.bytes_parts (hp : c.payload.length = 240) : c.bytes lseq =
    BitVec.ofNat 8 0xD5 :: BitVec.ofNat 8 (c.type % 16 * 16 + lseq % 16) ::
      (beBytes 10 c.hdr ++ (c.payload ++ beBytes 4 (crcOf (c.head lseq)))) := by
  rw [Cell.bytes_eq, Cell.head, padTo_self 240 _ hp]
  simp

/-- A cell reads back with its LSEQ. -/
theorem Cell.parse_bytes (ht : c.type < 16) (hl : lseq < 16) (hh : c.hdr < 2 ^ 80) (hp : c.payload.length = 240) :
    Cell.parse (c.bytes lseq) = (lseq, c) := by
  have second : byteAt (c.bytes lseq) 1 = c.type * 16 + lseq := by
    rw [Cell.bytes_parts hp, byteAt, List.getD_cons_succ, List.getD_cons_zero, BitVec.toNat_ofNat]
    omega
  have header : beAt (c.bytes lseq) 2 10 = c.hdr := by
    rw [Cell.bytes_parts hp]
    exact (beAt_append [_, _] _ 10 c.hdr rfl).trans (Nat.mod_eq_of_lt hh)
  have payload : sliceBytes (c.bytes lseq) 12 240 = c.payload := by
    rw [Cell.bytes_parts hp, ← List.append_assoc]
    exact sliceBytes_append (_ :: _ :: beBytes 10 c.hdr) _ _ (by simp) hp
  rw [Cell.parse, second, header, payload, show (c.type * 16 + lseq) % 16 = lseq by omega,
    show (c.type * 16 + lseq) / 16 = c.type by omega]

end Cell

end Sys2Proof.Machine

namespace Sys2Proof

/-! ## Batons -/

/-- A word at the front of a string. -/
theorem leAt_word {v : Nat} (hv : v < 2 ^ 32) (bs : List Byte) : leAt (leBytes 4 v ++ bs) 0 4 = v :=
  (leAt_leBytes_zero 4 v bs).trans (Nat.mod_eq_of_lt hv)

/-- A byte at the front of a string. -/
theorem leAt_byte {v : Nat} (hv : v < 256) (bs : List Byte) : leAt (leBytes 1 v ++ bs) 0 1 = v :=
  (leAt_leBytes_zero 1 v bs).trans (Nat.mod_eq_of_lt hv)

/-- A word that is the whole of a string. -/
theorem leAt_lastWord {v : Nat} (hv : v < 2 ^ 32) : leAt (leBytes 4 v) 0 4 = v := by
  simpa using leAt_word hv []

theorem bit_lt_two (b : Bool) : bit b < 2 := by cases b <;> decide

section GChange
variable (g : GChange)

theorem GChange.flags_eq : g.flags = bit g.valid + 2 * (bit g.setState + 2 * (bit g.setAlpha + 2 * (bit g.sync + 2 * 0))) := by
  unfold GChange.flags
  omega

theorem GChange.flags_lt : g.flags < 256 := by
  have := bit_lt_two g.valid
  have := bit_lt_two g.setState
  have := bit_lt_two g.setAlpha
  have := bit_lt_two g.sync
  rw [g.flags_eq]
  omega

/-- The flags of a graphic change read back. -/
theorem GChange.bitAt_flags : bitAt g.flags 0 = g.valid ∧ bitAt g.flags 1 = g.setState ∧ bitAt g.flags 2 = g.setAlpha ∧
    bitAt g.flags 3 = g.sync := by
  simp only [g.flags_eq, bitAt_flag_zero, bitAt_flag_succ, and_self]

end GChange

section Baton
variable (b : Baton)

theorem Baton.flags_eq : b.flags = bit b.running + 2 * (bit b.alone + 2 * (bit b.owner + 2 * (bit b.joining +
    2 * (bit b.jready + 2 * (bit b.ret + 2 * 0))))) := by
  unfold Baton.flags
  omega

theorem Baton.flags_lt : b.flags < 256 := by
  have := bit_lt_two b.running
  have := bit_lt_two b.alone
  have := bit_lt_two b.owner
  have := bit_lt_two b.joining
  have := bit_lt_two b.jready
  have := bit_lt_two b.ret
  unfold Baton.flags
  omega

/-- FLAGS of a baton read back. -/
theorem Baton.bitAt_flags : bitAt b.flags 0 = b.running ∧ bitAt b.flags 1 = b.alone ∧ bitAt b.flags 2 = b.owner ∧
    bitAt b.flags 3 = b.joining ∧ bitAt b.flags 4 = b.jready ∧ bitAt b.flags 5 = b.ret := by
  simp only [b.flags_eq, bitAt_flag_zero, bitAt_flag_succ, and_self]

/-- PNLCTL of a baton reads back. -/
theorem Baton.pnlCtl_fields (hm : b.subMask < 4) : b.pnlCtl < 256 ∧ b.pnlCtl % 4 = b.subMask ∧ bitAt b.pnlCtl 2 = b.rangeValid ∧
    bitAt b.pnlCtl 3 = b.commitFwd ∧ bitAt b.pnlCtl 4 = b.linkUp := by
  have h2 := bit_lt_two b.rangeValid
  have h3 := bit_lt_two b.commitFwd
  have h4 := bit_lt_two b.linkUp
  have above (i : Nat) : bitAt b.pnlCtl (2 + i) = bitAt (bit b.rangeValid + 2 * (bit b.commitFwd + 2 * (bit b.linkUp + 2 * 0))) i := by
    have part : b.pnlCtl / 2 ^ 2 = bit b.rangeValid + 2 * (bit b.commitFwd + 2 * (bit b.linkUp + 2 * 0)) := by
      unfold Baton.pnlCtl
      omega
    rw [bitAt, bitAt, Nat.pow_add, ← Nat.div_div_eq_div_mul, part]
  refine ⟨?lt, ?mask, (above 0).trans ?_, (above 1).trans ?_, (above 2).trans ?_⟩
  case lt => unfold Baton.pnlCtl; omega
  case mask => unfold Baton.pnlCtl; omega
  all_goals simp only [bitAt_flag_zero, bitAt_flag_succ]

/-- The two flags of a byte read back. -/
theorem twoFlags (p q : Bool) : bit p + 2 * bit q < 256 ∧ bitAt (bit p + 2 * bit q) 0 = p ∧ bitAt (bit p + 2 * bit q) 1 = q := by
  have hp := bit_lt_two p
  have hq := bit_lt_two q
  refine ⟨by omega, bitAt_flag_zero _ _, ?_⟩
  rw [bitAt_flag_succ, ← Nat.add_zero (bit q)]
  exact bitAt_flag_zero q 0

theorem Baton.bytes_length : b.bytes.length = 56 := by
  unfold Baton.bytes
  simp only [GChange.bytes, List.length_append, leBytes_length]

/-- Every field of a baton fits its place in the payload (R363). -/
structure Baton.Fits (b : Baton) : Prop where
  bseq : b.bseq < 2 ^ 32
  lap : b.lap < 2 ^ 32
  shedLap : b.shedLap < 2 ^ 32
  scene : b.scene < 256
  current : b.current < 256
  sceneLap : b.sceneLap < 2 ^ 32
  first : b.first < 2 ^ 32
  last : b.last < 2 ^ 32
  rangeLap : b.rangeLap < 2 ^ 32
  subMask : b.subMask < 4
  take : b.take < 256
  gLap : b.gLap < 2 ^ 32
  retLap : b.retLap < 2 ^ 32
  g0 : b.g0.layer < 256 ∧ b.g0.state < 256 ∧ b.g0.alpha < 256
  g1 : b.g1.layer < 256 ∧ b.g1.state < 256 ∧ b.g1.alpha < 256

/-- A baton reads back: each field is the first of what follows those before it. -/
theorem Baton.parse_bytes (hb : b.Fits) : Baton.parse b.bytes = b := by
  obtain ⟨bseq, lap, shedLap, scene, current, sceneLap, first, last, rangeLap, subMask, take, gLap, retLap, ⟨l0, s0, a0⟩,
    ⟨l1, s1, a1⟩⟩ := hb
  obtain ⟨flags, running, alone, owner, joining, jready, ret⟩ := And.intro b.flags_lt b.bitAt_flags
  obtain ⟨own, pace, mem⟩ := twoFlags b.ownPace b.ownMem
  obtain ⟨pnl, mask, range, commit, up⟩ := b.pnlCtl_fields subMask
  obtain ⟨flags0, valid0, state0, alpha0, sync0⟩ := And.intro b.g0.flags_lt b.g0.bitAt_flags
  obtain ⟨flags1, valid1, state1, alpha1, sync1⟩ := And.intro b.g1.flags_lt b.g1.bitAt_flags
  have pending : bit b.pending < 256 := by have := bit_lt_two b.pending; omega
  have pend : bitAt (bit b.pending) 0 = b.pending := bitAt_flag_zero b.pending 0
  unfold Baton.parse Baton.bytes
  simp only [byteAt_eq_leAt, GChange.parse, GChange.bytes, List.append_assoc, leAt_leBytes_skip, Nat.reduceLeDiff, Nat.le_refl,
    Nat.reduceSub, Nat.reduceAdd]
  simp (disch := assumption) only [leAt_word, leAt_byte, leAt_lastWord]
  simp only [running, alone, owner, joining, jready, ret, pace, mem, mask, range, commit, up, valid0, state0, alpha0, sync0, valid1,
    state1, alpha1, sync1, pend]

end Baton

end Sys2Proof

namespace Sys2Proof.Machine

/-- Settles O58: a cell by its mark, its CRC and its parts, and a baton by its fields in turn. -/
theorem cellAndBatonBytes : Obligations.CellAndBatonBytes := by
  unfold Obligations.CellAndBatonBytes
  refine ⟨fun c lseq type seq hdr payload => ?cell, fun b bseq lap shedLap scene current sceneLap first last rangeLap subMask take
    gLap retLap changes => ?baton⟩
  case cell => exact ⟨Cell.bytes_length, rfl, Cell.cellCrcOk_bytes, Cell.parse_bytes type seq hdr payload⟩
  case baton =>
    exact ⟨b.bytes_length, b.parse_bytes ⟨bseq, lap, shedLap, scene, current, sceneLap, first, last, rangeLap, subMask, take, gLap,
      retLap, changes b.g0 (by simp), changes b.g1 (by simp)⟩⟩

end Sys2Proof.Machine
end

section
/-!
SUPPORT. Operations on the ports of a half as commands (R105 to R118): one without a report is a change of its half, and one that reports
links and lanes leaves of the RST, LDR and LANE registers what the operation makes of them.
-/
namespace Sys2Proof.Machine

/-! ## Lanes and links of a half -/

section Lanes
variable (h : Half) (p : Nat) (f : Lane → Lane)

@[simp] theorem Half.reg_onLane (o : Nat) : (h.onLane p f).reg o = h.reg o := rfl
@[simp] theorem Half.reg_onRx (g : LaneRx → LaneRx) (o : Nat) : (h.onRx p g).reg o = h.reg o := rfl
@[simp] theorem Half.reg_onRun (l : Nat) (g : LinkRun → LinkRun) (o : Nat) : (h.onRun l g).reg o = h.reg o := rfl
@[simp] theorem Half.lane_set (c : Field) (v q : Nat) : (h.set c v).lane q = h.lane q := rfl
@[simp] theorem Half.run_set (c : Field) (v l : Nat) : (h.set c v).run l = h.run l := rfl
@[simp] theorem Half.lane_onRun (l : Nat) (g : LinkRun → LinkRun) (q : Nat) : (h.onRun l g).lane q = h.lane q := rfl
@[simp] theorem Half.run_onLane (l : Nat) : (h.onLane p f).run l = h.run l := rfl

/-- A change of a lane is of no other lane. -/
theorem Half.lane_onLane_other (q : Nat) (hq : q ≠ p) : (h.onLane p f).lane q = h.lane q := by
  simp [Half.lane, Half.onLane, hq.symm]

/-- A lane that the half has is changed. -/
theorem Half.lane_onLane_same (hp : p < h.port.lanes.length) : (h.onLane p f).lane p = f (h.lane p) := by
  simp [Half.lane, Half.onLane, hp]

/-- One that it has not stays as in reset. -/
theorem Half.lane_onLane_absent (hp : h.port.lanes.length ≤ p) : (h.onLane p f).lane p = h.lane p := by
  simp [Half.lane, Half.onLane, hp]

/-- It is a lane in reset. -/
theorem Half.lane_absent (hp : h.port.lanes.length ≤ p) : h.lane p = Lane.reset := by simp [Half.lane, hp]

/-- What a change of a lane keeps of it, it keeps whether the half has the lane or not. -/
theorem Half.lane_onLane_keeps {γ : Type} (g : Lane → γ) (hg : g (f (h.lane p)) = g (h.lane p)) (q : Nat) :
    g ((h.onLane p f).lane q) = g (h.lane q) := by
  by_cases hq : q = p
  · subst hq
    by_cases hp : q < h.port.lanes.length
    · rw [h.lane_onLane_same q f hp, hg]
    · rw [h.lane_onLane_absent q f (Nat.le_of_not_lt hp)]
  · rw [h.lane_onLane_other p f q hq]

@[simp] theorem Half.lanes_onLane : (h.onLane p f).port.lanes.length = h.port.lanes.length := List.length_modify _ _ _

/-- A link that the half has is changed. -/
theorem Half.run_onRun_same (l : Nat) (g : LinkRun → LinkRun) (hl : l < h.port.runs.length) : (h.onRun l g).run l = g (h.run l) := by
  simp [Half.run, Half.onRun, hl]

end Lanes

/-! ## Reports -/

/-- A report is of a link or of a lane that leaves UP, not a received cell. -/
def LaneEvent.isReport : LaneEvent → Prop
  | .cell .. => False
  | _ => True

/-- A unit of computation cut short changes registers of the check-value units only. -/
theorem Half.reg_cvuAbort (h : Half) (point : Nat) (sel : Nat → Nat → Bool) (o : Nat) (ho : OffLinks o) :
    (h.cvuAbort point sel).reg o = h.reg o := by
  have counted (x : Half) (n : Nat) : (x.tally (F.CVU_STATUS_ABORTS n) 1).reg o = x.reg o :=
    Half.reg_set_other _ _ _ _ (by simp only [F.CVU_STATUS_ABORTS]; omega)
  refine Half.forBelow_keeps (fun x => x.reg o) _ _ (fun x n => ?_) h
  exact Half.reg_ite (Half.reg_ite rfl (counted x n)) rfl

/-- A lane that leaves UP changes such registers only. -/
theorem Half.reg_laneDropped (h : Half) (p o : Nat) (ho : OffLinks o) : (h.laneDropped p).reg o = h.reg o := by
  unfold Half.laneDropped
  dsimp only
  rw [Half.reg_cvuAbort _ _ _ _ ho]
  cases h.linkOf p with
  | none => rfl
  | some l =>
    dsimp only
    cases h.ringSide l with
    | none => rfl
    | some r => exact (Half.reg_cvuAbort _ _ _ _ ho).trans (Half.reg_onRot _ _ _ _ _)

section Module
variable (m : Module) (t : Nat) (h : HalfId)

theorem Module.setHalf_half : m.setHalf h (m.half h) = m := Module.onHalf_same m h id rfl

/-- With one half replaced the rest of the module is as it was. -/
theorem Module.onlyHalf_setHalf (x : Half) : m.onlyHalf (m.setHalf h x) h := Module.onlyHalf_onHalf m h fun _ => x

/-- Effects on a half that leave the RST, LDR and LANE registers do so whether the half is out of reset or not. -/
theorem Module.onLive_keeps (f : Half → Half) (hf : ∀ x o, OffLinks o → (f x).reg o = x.reg o) :
    m.onlyHalf (m.onLive h f) h ∧ ∀ o, OffLinks o → ((m.onLive h f).half h).reg o = (m.half h).reg o := by
  unfold Module.onLive
  split
  · exact ⟨⟨rfl, rfl, rfl, rfl⟩, fun _ _ => rfl⟩
  · exact ⟨Module.onlyHalf_onHalf m h f, fun o ho => by rw [Module.half_onHalf, hf _ _ ho]⟩

/-- A report changes its half only, and none of the RST, LDR and LANE registers. -/
theorem Module.laneEvent_keeps (e : LaneEvent) (he : e.isReport) :
    m.onlyHalf (m.laneEvent t h e) h ∧ ∀ o, OffLinks o → ((m.laneEvent t h e).half h).reg o = (m.half h).reg o := by
  cases e with
  | cell l pos lseq c stamp => exact he.elim
  | linkDown l => exact m.onLive_keeps h _ fun x o ho => Half.reg_linkGoesDown x t o ho l
  | linkUp l => exact m.onLive_keeps h _ fun x o ho => Half.reg_linkComesUp x t o ho l
  | dropped p => exact m.onLive_keeps h _ fun x o ho => Half.reg_laneDropped x p o ho

/-- So do several. -/
theorem Module.laneEvents_keep (evs : List LaneEvent) (he : ∀ e ∈ evs, e.isReport) :
    m.onlyHalf (evs.foldl (fun (m : Module) e => m.laneEvent t h e) m) h ∧
    ∀ o, OffLinks o → ((evs.foldl (fun (m : Module) e => m.laneEvent t h e) m).half h).reg o = (m.half h).reg o := by
  induction evs generalizing m with
  | nil => exact ⟨⟨rfl, rfl, rfl, rfl⟩, fun _ _ => rfl⟩
  | cons e evs ih =>
    obtain ⟨⟨peer, lamp, flash, fuse⟩, regs⟩ := m.laneEvent_keeps t h e (he e List.mem_cons_self)
    obtain ⟨⟨peers, lamps, flashes, fuses⟩, more⟩ := ih (m.laneEvent t h e) fun e' h' => he e' (List.mem_cons_of_mem _ h')
    exact ⟨⟨peers.trans peer, lamps.trans lamp, flashes.trans flash, fuses.trans fuse⟩, fun o ho => (more o ho).trans (regs o ho)⟩

/-- Only the half's mode and the peer's decide whether a start goes on. -/
theorem Module.settled_of_onlyHalf {m m' : Module} {h : HalfId} (hm : m.settled) (only : m.onlyHalf m' h)
    (hf : (m'.half h).mode = (m.half h).mode) : m'.settled := by
  obtain ⟨hp, h0, h1⟩ := hm
  obtain ⟨peer, lamp, -, -⟩ := only
  rw [Module.settled, lamp]
  cases h
  · exact ⟨hp, hf ▸ h0, (congrArg Half.mode peer :) ▸ h1⟩
  · exact ⟨hp, (congrArg Half.mode peer :) ▸ h0, hf ▸ h1⟩

/-- An operation on the ports of a live half that reports at most links and lanes and keeps the half's mode. -/
theorem Module.ports_reports (f : Half → Half × List LaneEvent) (hs : m.settled) (hr : (m.half h).inReset = false)
    (he : ∀ e ∈ (f (m.half h)).2, e.isReport) (hm : (f (m.half h)).1.mode = (m.half h).mode) :
    m.onlyHalf (m.ports t h f) h ∧ ∀ o, OffLinks o → ((m.ports t h f).half h).reg o = (f (m.half h)).1.reg o := by
  obtain ⟨⟨peer, lamp, flash, fuse⟩, regs⟩ := (m.setHalf h (f (m.half h)).1).laneEvents_keep t h _ he
  rw [Module.half_setHalf] at regs
  rw [Module.peer_setHalf] at peer
  rw [Module.setHalf_lamp] at lamp
  rw [Module.setHalf_flash] at flash
  rw [Module.setHalf_fuse] at fuse
  have only := (⟨peer, lamp, flash, fuse⟩ : m.onlyHalf _ h)
  have settled := Module.settled_of_onlyHalf hs only ((Half.mode_congr _ _ (regs _ (by decide))).trans hm)
  unfold Module.ports
  rw [hr, if_neg Bool.false_ne_true]
  dsimp only
  rw [Module.advance_settled _ _ settled]
  exact ⟨only, regs⟩

/-- One that reports nothing changes its half. -/
theorem Module.ports_quiet (f : Half → Half × List LaneEvent) (k : Half) (hs : m.settled) (hr : (m.half h).inReset = false)
    (hf : f (m.half h) = (k, [])) (hm : k.mode = (m.half h).mode) : m.ports t h f = m.setHalf h k := by
  unfold Module.ports
  rw [hr, if_neg Bool.false_ne_true, hf]
  have mode : ((m.setHalf h k).half h).mode = (m.half h).mode := by rw [Module.half_setHalf, hm]
  exact Module.advance_settled _ _ (Module.settled_of_onlyHalf hs (m.onlyHalf_setHalf h k) mode)

end Module

/-! ## Commands on a lane -/

section Command
variable (s : State) (h : HalfId) (p : Nat) (hs : s.mod.settled) (hr : (s.mod.half h).inReset = false) (hp : p < 24)
include hs hr hp

/-- A command on a lane that reports nothing. -/
theorem State.onPort_quiet (f : Nat → Half → Half × List LaneEvent) (k : Half) (hf : f s.now (s.mod.half h) = (k, []))
    (hm : k.mode = (s.mod.half h).mode) : s.onPort h p f = .next { s with mod := s.mod.setHalf h k } := by
  unfold State.onPort
  rw [State.act_eq, decide_eq_true hp, Module.given_true, Module.ports_quiet _ _ _ _ k hs hr hf hm]

/-- One that reports links and lanes. -/
theorem State.onPort_reports (f : Nat → Half → Half × List LaneEvent) (he : ∀ e ∈ (f s.now (s.mod.half h)).2, e.isReport)
    (hm : (f s.now (s.mod.half h)).1.mode = (s.mod.half h).mode) : ∃ t, s.onPort h p f = .next t ∧ s.mod.onlyHalf t.mod h ∧
      ∀ o, OffLinks o → (t.mod.half h).reg o = (f s.now (s.mod.half h)).1.reg o := by
  obtain ⟨only, regs⟩ := s.mod.ports_reports s.now h (f s.now) hs hr he hm
  unfold State.onPort
  rw [State.act_eq, decide_eq_true hp, Module.given_true]
  exact ⟨_, rfl, only, regs⟩

/-- A command at the end of an interval of a lane that reports nothing. -/
theorem State.afterLane_quiet (n : Nat) (f : Nat → Half → Half × List LaneEvent) (k : Half)
    (hf : f (max s.now (((s.mod.half h).lane p).since + n)) (s.mod.half h) = (k, [])) (hm : k.mode = (s.mod.half h).mode) :
    s.afterLane h p n f =
      .next { s with now := max s.now (((s.mod.half h).lane p).since + n), mod := s.mod.setHalf h k } := by
  unfold State.afterLane
  rw [State.actAt_eq, decide_eq_true hp, Module.given_true, Module.ports_quiet _ _ _ _ k hs hr hf hm]

/-- One that leaves its half as it is moves the clock alone. -/
theorem State.afterLane_idles (n : Nat) (f : Nat → Half → Half × List LaneEvent)
    (hf : f (max s.now (((s.mod.half h).lane p).since + n)) (s.mod.half h) = (s.mod.half h, [])) :
    ∃ t, s.afterLane h p n f = .next t ∧ t.mod = s.mod ∧ t.pending = s.pending := by
  rw [s.afterLane_quiet h p hs hr hp n f _ hf rfl]
  exact ⟨_, rfl, s.mod.setHalf_half h, rfl⟩

/-- One that reports links and lanes. -/
theorem State.afterLane_reports (n : Nat) (f : Nat → Half → Half × List LaneEvent)
    (he : ∀ e ∈ (f (max s.now (((s.mod.half h).lane p).since + n)) (s.mod.half h)).2, e.isReport)
    (hm : (f (max s.now (((s.mod.half h).lane p).since + n)) (s.mod.half h)).1.mode = (s.mod.half h).mode) :
    ∃ t, s.afterLane h p n f = .next t ∧ t.now = max s.now (((s.mod.half h).lane p).since + n) ∧ s.mod.onlyHalf t.mod h ∧
      ∀ o, OffLinks o → (t.mod.half h).reg o =
        (f (max s.now (((s.mod.half h).lane p).since + n)) (s.mod.half h)).1.reg o := by
  obtain ⟨only, regs⟩ := s.mod.ports_reports (max s.now (((s.mod.half h).lane p).since + n)) h (f _) hs hr he hm
  unfold State.afterLane
  rw [State.actAt_eq, decide_eq_true hp, Module.given_true]
  exact ⟨_, rfl, rfl, only, regs⟩

end Command

end Sys2Proof.Machine
end

section
/-!
SUPPORT. Bring-up of a lane (R105, R110, R111): what each of its steps leaves of the lane's state and of the registers, and the statement on
it.
-/
namespace Sys2Proof.Machine

/-! ## Entering states -/

/-- LANE_STATUS lies neither in the SYS, the ENG nor the FLT block. -/
theorem laneStatus_apart (p : Nat) (hp : p < 24) : (F.LANE_STATUS_word p).off ≠ F.SYS_XOVR_word.off ∧
    (F.LANE_STATUS_word p).off / 0x10000 ≠ 0xE ∧ (F.LANE_STATUS_word p).off / 0x10000 ≠ 0x14 := by
  simp only [F.LANE_STATUS_word, F.SYS_XOVR_word]
  omega

section Lane
variable (h : Half) (t p : Nat)

/-- A lane is in the state that it enters. -/
theorem Half.laneState_laneEnter (s : Nat) (hs : s < 16) : (h.laneEnter p s).laneState p = s :=
  Half.get_set_of_lt _ (F.LANE_STATUS_STATE p) _ (Field.fits_of_ble rfl) hs

/-- Entering a state changes LANE_STATUS only. -/
theorem Half.reg_laneEnter (s o : Nat) (ho : o ≠ (F.LANE_STATUS_word p).off) : (h.laneEnter p s).reg o = h.reg o :=
  Half.reg_set_other _ _ _ _ ho

/-- The lane's time in a state is of no register. -/
@[simp] theorem Half.reg_laneSince (o : Nat) : (h.laneSince t p).reg o = h.reg o := rfl
@[simp] theorem Half.laneState_laneSince (q : Nat) : (h.laneSince t p).laneState q = h.laneState q := rfl

/-- The equaliser changes LANE_DFE only (R113). -/
theorem Half.reg_adaptEq (o : Nat) (ho : o ≠ (F.LANE_DFE_word p).off) : (h.adaptEq p).reg o = h.reg o := by
  have ctle (x : Half) (c : Nat) : (x.set (F.LANE_DFE_CTLE p) c).reg o = x.reg o := Half.reg_set_other _ _ _ _ ho
  have taps (x : Half) (a b c d e : Nat) : (x.sets [(F.LANE_DFE_TAP1 p, a), (F.LANE_DFE_TAP2 p, b), (F.LANE_DFE_TAP3 p, c),
      (F.LANE_DFE_TAP4 p, d), (F.LANE_DFE_TAP5 p, e)]).reg o = x.reg o := by
    refine Half.reg_sets_other x _ o fun f hf => ?_
    simp only [List.mem_cons, List.not_mem_nil, or_false] at hf
    rcases hf with rfl | rfl | rfl | rfl | rfl <;> exact ho
  unfold Half.adaptEq
  dsimp only
  generalize hk : (if h.get (F.LANE_EQ_CTLE p) < 16 then _ else _ : Half) = k
  have kept : k.reg o = h.reg o := by
    rw [← hk]
    exact Half.reg_ite (ctle _ _) (Half.reg_ite (ctle _ _) rfl)
  exact Half.reg_ite ((taps _ _ _ _ _ _).trans kept) (Half.reg_ite kept ((taps _ _ _ _ _ _).trans kept))

/-- The equaliser leaves the state of every lane. -/
theorem Half.laneState_adaptEq (q : Nat) : (h.adaptEq p).laneState q = h.laneState q :=
  Half.get_congr _ _ (F.LANE_STATUS_STATE q) (Half.reg_adaptEq h p _ (by simp only [F.LANE_STATUS_STATE, F.LANE_DFE_word]; omega))

/-- A receive island reset counts what it discards in SYS_XDISC (R138). -/
theorem Half.reg_isleReset (o : Nat) (ho : o ≠ F.SYS_XDISC_word.off) : (h.isleReset p).reg o = h.reg o :=
  Half.reg_set_other _ F.SYS_XDISC_COUNT _ _ ho

/-- Bring-up begins with CDR. -/
theorem Half.laneState_startCdr : (h.startCdr t p).laneState p = lsCdr :=
  Half.laneState_laneEnter (h.onRx p _) p lsCdr (by decide)

theorem Half.reg_startCdr (o : Nat) (ho : o ≠ (F.LANE_STATUS_word p).off) : (h.startCdr t p).reg o = h.reg o :=
  Half.reg_laneEnter (h.onRx p _) p lsCdr o ho

/-- A lane mapped out is in MAPPED_OUT, whether it records a fault or not. -/
theorem Half.mapOut_some (c : Nat) : ∃ d, h.mapOut t p (some c) = (h.mapOut t p none).fault t clsLane c (devicePort h.id p) d := ⟨_, rfl⟩

theorem Half.reg_mapOut (code : Option Nat) (o : Nat) (ho : o ≠ (F.LANE_STATUS_word p).off) (hx : o ≠ F.SYS_XOVR_word.off)
    (he : o / 0x10000 ≠ 0xE) (hl : o / 0x10000 ≠ 0x14) : (h.mapOut t p code).reg o = h.reg o := by
  cases code with
  | none => exact Half.reg_mapOut_none h t p o ho hx
  | some c =>
    obtain ⟨d, hd⟩ := h.mapOut_some t p c
    rw [hd, Half.reg_fault _ _ _ _ _ _ _ (by decide) he hl, Half.reg_mapOut_none h t p o ho hx]

theorem Half.laneState_mapOut (code : Option Nat) (hp : p < 24) : (h.mapOut t p code).laneState p = lsMappedOut := by
  cases code with
  | none => exact Half.laneState_mapOut_none h t p
  | some c =>
    obtain ⟨d, hd⟩ := h.mapOut_some t p c
    obtain ⟨-, eng, flt⟩ := laneStatus_apart p hp
    have kept := Half.get_fault (h.mapOut t p none) t clsLane c (devicePort h.id p) d (F.LANE_STATUS_STATE p) (by decide) eng flt
    rw [hd]
    exact kept.trans (Half.laneState_mapOut_none h t p)

/-- A fault recorded with it adds one ledger entry. -/
theorem Half.seq_mapOut_some (c : Nat) :
    (h.mapOut t p (some c)).get F.FLT_HEAD_SEQ = (h.get F.FLT_HEAD_SEQ + 1) % 2 ^ 32 := by
  obtain ⟨d, hd⟩ := h.mapOut_some t p c
  have kept : (h.mapOut t p none).get F.FLT_HEAD_SEQ = h.get F.FLT_HEAD_SEQ :=
    Half.get_congr _ _ F.FLT_HEAD_SEQ (Half.reg_mapOut_none h t p _ (by simp only [F.FLT_HEAD_SEQ, F.LANE_STATUS_word]; omega) (by decide))
  rw [hd, ← kept]
  exact Half.fault_seq _ _ _ _ _ _

/-- A row broken off changes no register (R110). -/
theorem Half.reg_breakRow (o : Nat) : (h.breakRow p).reg o = h.reg o := by
  unfold Half.breakRow
  split <;> rfl

/-- A lane that leaves UP is in the state that it goes to, or in MAPPED_OUT after the fourth departure within 10 s (R110). -/
theorem Half.laneState_leaveUp (dst : Nat) (hd : dst < 16) (hp : p < 24) : (h.leaveUp t p dst).laneState p =
    if 3 ≤ ((h.lane p).rx.drops.filter fun a => decide (t < a + 10000000000)).length then lsMappedOut else dst := by
  have span : 10 * secNs = 10000000000 := rfl
  unfold Half.leaveUp
  rw [span]
  dsimp only [List.length_cons]
  by_cases many : 3 ≤ ((h.lane p).rx.drops.filter fun a => decide (t < a + 10000000000)).length
  · rw [if_pos many, if_pos (by omega)]
    exact Half.laneState_mapOut _ _ _ _ hp
  · rw [if_neg many, if_neg (by omega)]
    rw [Half.laneState_laneSince, Half.laneState_laneEnter _ _ _ hd]

theorem Half.reg_leaveUp (dst o : Nat) (ho : o ≠ (F.LANE_STATUS_word p).off) (hx : o ≠ F.SYS_XOVR_word.off)
    (he : o / 0x10000 ≠ 0xE) (hl : o / 0x10000 ≠ 0x14) : (h.leaveUp t p dst).reg o = h.reg o := by
  have counted (x : Half) (f : LaneRx → LaneRx) (hk : x.reg o = h.reg o) : ((x.onRx p f).laneCount p 4 1).reg o = h.reg o :=
    (Half.reg_laneCount _ p _ _ _ ho hx).trans hk
  have broken : (if h.laneState p = lsUp then h.breakRow p else h).reg o = h.reg o := Half.reg_ite (h.reg_breakRow p o) rfl
  unfold Half.leaveUp
  dsimp only
  exact Half.reg_ite ((Half.reg_mapOut _ _ _ _ _ ho hx he hl).trans (counted _ _ broken))
    ((Half.reg_laneEnter _ _ _ _ ho).trans (counted _ _ broken))

/-- What a link or its lane reports of itself is a report. -/
theorem Half.isReport_laneReport : ∀ e ∈ (h.laneReport t p).2, e.isReport := by
  have link (l : Nat) : ∀ e ∈ (h.linkReport t l).2, e.isReport := by
    unfold Half.linkReport
    dsimp only
    split_ifs <;> simp [LaneEvent.isReport]
  unfold Half.laneReport
  split
  · exact link _
  · simp

/-- A lane's report leaves the state of every lane and the mode. -/
theorem Half.laneState_laneReport (q : Nat) (hq : q < 24) : (h.laneReport t p).1.laneState q = h.laneState q := by
  unfold Half.laneReport
  split
  · exact Half.get_linkReport h t _ (F.LANE_STATUS_STATE q) (offLinks_laneWord q hq).2 (Nat.le_of_ble_eq_true rfl)
  · rfl

theorem Half.mode_laneReport : (h.laneReport t p).1.mode = h.mode := by
  unfold Half.laneReport
  split
  · exact Half.get_linkReport h t _ F.RST_STATE_MODE (by decide) (by decide)
  · rfl

/-! ## The mode -/

/-- RST_STATE is none of the registers that the work of a lane changes. -/
theorem Half.mode_of_lane (k : Half) (hk : ∀ o, o ≠ (F.LANE_STATUS_word p).off → o ≠ (F.LANE_DFE_word p).off →
    o ≠ F.SYS_XOVR_word.off → o ≠ F.SYS_XDISC_word.off → o / 0x10000 ≠ 0xE → o / 0x10000 ≠ 0x14 → k.reg o = h.reg o) : k.mode = h.mode :=
  Half.mode_congr _ _ (hk _ (offLane_rst p _ (by decide)).status (by simp only [F.RST_STATE_MODE, F.LANE_DFE_word]; omega) (by decide)
    (by decide) (by decide) (by decide))

/-! ## Lock and its loss -/

/-- CDR that holds lock leads to DESCRAMBLE at the plan's rate. -/
theorem Half.cdrLock_does (hs : h.laneState p = lsCdr) : (h.cdrLock p).laneState p = lsDescramble ∧
    (h.cdrLock p).get (F.LANE_STATUS_RATE p) = (h.portRec p).rate % 16 ∧
    ∀ o, o ≠ (F.LANE_STATUS_word p).off → o ≠ (F.LANE_DFE_word p).off → (h.cdrLock p).reg o = h.reg o := by
  have hne : (F.LANE_STATUS_RATE p).off ≠ (F.LANE_DFE_word p).off := by simp only [F.LANE_STATUS_RATE, F.LANE_DFE_word]; omega
  unfold Half.cdrLock
  rw [if_pos hs]
  refine ⟨?state, ?rate, fun o ho hd => ?regs⟩
  case state =>
    rw [Half.laneState_adaptEq]
    exact (Half.get_set_other _ _ (F.LANE_STATUS_STATE p) _ (Field.fits_of_ble rfl) (apart_of_above rfl)).trans
      (Half.laneState_laneEnter _ _ _ (by decide))
  case rate =>
    rw [Half.get_congr _ _ (F.LANE_STATUS_RATE p) (Half.reg_adaptEq _ p _ hne)]
    exact Half.get_set_same _ _ _ (Field.fits_of_ble rfl)
  case regs =>
    rw [Half.reg_adaptEq _ _ _ hd, Half.reg_set_other _ (F.LANE_STATUS_RATE p) _ _ ho, Half.reg_laneEnter _ _ _ _ ho, Half.reg_onRx]

/-- Lock lost in bring-up: CDR begins again with a fresh receiver. -/
theorem Half.cdrLoss_bringUp (h1 : lsDescramble ≤ h.laneState p) (h2 : h.laneState p ≤ lsDeskew) :
    h.cdrLoss t p = ((h.isleReset p).startCdr t p, []) := by
  have notUp : ¬ (h.laneState p = lsUp ∨ h.laneState p = lsQualify) := by
    simp only [lsUp, lsQualify, lsDeskew] at h2 ⊢
    omega
  have active : rxActive (h.laneState p) = true := by
    have later : h.laneState p ≤ lsQualify := Nat.le_trans h2 (by decide)
    simp [rxActive, h1, later]
  unfold Half.cdrLoss
  rw [if_neg notUp, if_pos active]

theorem Half.fill_startCdr : ((h.startCdr t p).lane p).rx.fill = 0 := by
  unfold Half.startCdr Half.laneSince
  rw [Half.lane_onLane_keeps _ p _ (fun x => x.rx.fill) rfl]
  unfold Half.laneEnter Half.onRx
  rw [Half.lane_set]
  by_cases hp : p < h.port.lanes.length
  · rw [Half.lane_onLane_same _ _ _ hp]
    rfl
  · rw [Half.lane_onLane_absent _ _ _ (Nat.le_of_not_lt hp), Half.lane_absent _ _ (Nat.le_of_not_lt hp)]
    rfl

/-- A receive island reset keeps the departures of its lane and its state. -/
theorem Half.drops_isleReset : ((h.isleReset p).lane p).rx.drops = (h.lane p).rx.drops :=
  h.lane_onLane_keeps p _ (fun x => x.rx.drops) rfl p

/-- Lock lost in UP or QUALIFY: the departure counts, and CDR begins again unless the lane is mapped out (R110). -/
theorem Half.cdrLoss_up (hp : p < 24) (hs : h.laneState p = lsUp ∨ h.laneState p = lsQualify) :
    (∀ e ∈ (h.cdrLoss t p).2, e.isReport) ∧ (h.cdrLoss t p).1.mode = h.mode ∧ (h.cdrLoss t p).1.laneState p =
      if 3 ≤ ((h.lane p).rx.drops.filter fun a => decide (t < a + 10000000000)).length then lsMappedOut else lsCdr := by
  have left := (h.isleReset p).laneState_leaveUp t p lsCdr (by decide) hp
  rw [h.drops_isleReset] at left
  unfold Half.cdrLoss
  rw [if_pos hs]
  dsimp only
  refine ⟨?reports, ?mode, ?state⟩
  case reports =>
    rintro e (_ | ⟨_, he⟩)
    · trivial
    · exact Half.isReport_laneReport _ _ _ e he
  case mode =>
    rw [Half.mode_laneReport]
    refine Half.mode_of_lane h p _ fun o status _ xovr xdisc eng flt => ?_
    have leave := ((h.isleReset p).reg_leaveUp t p lsCdr o status xovr eng flt).trans (h.reg_isleReset p o xdisc)
    exact Half.reg_ite ((Half.reg_startCdr _ _ _ _ status).trans leave) leave
  case state =>
    rw [Half.laneState_laneReport _ _ _ _ hp, ← left]
    split
    · next begun => rw [Half.laneState_startCdr, begun]
    · rfl

/-! ## QUALIFY and retry -/

/-- A lane that has qualified is UP (R111). -/
theorem Half.qualifyDone_does (hp : p < 24) (hs : h.laneState p = lsQualify) : (∀ e ∈ (h.qualifyDone t p).2, e.isReport) ∧
    (h.qualifyDone t p).1.mode = h.mode ∧ (h.qualifyDone t p).1.laneState p = lsUp := by
  unfold Half.qualifyDone
  rw [if_pos hs]
  refine ⟨Half.isReport_laneReport _ _ _, ?mode, ?state⟩
  case mode =>
    rw [Half.mode_laneReport]
    refine Half.mode_of_lane h p _ fun o status dfe _ _ _ _ => ?_
    rw [Half.reg_adaptEq _ _ _ dfe, Half.reg_laneEnter _ _ _ _ status, Half.reg_onRx]
  case state => rw [Half.laneState_laneReport _ _ _ _ hp, Half.laneState_adaptEq, Half.laneState_laneEnter _ _ _ (by decide)]

end Lane

/-! ## The commands -/

section Arms
variable (h : HalfId) (p : Nat) (s : State)

theorem exec_cdrLock : exec (.cdrLock h p) s = s.onPort h p fun _ x => (x.cdrLock p, []) := rfl
theorem exec_cdrLossOfLock : exec (.cdrLossOfLock h p) s = s.onPort h p fun t x => x.cdrLoss t p := rfl
theorem exec_bringupTimeout : exec (.bringupTimeout h p) s = s.afterLane h p 20000000 fun t x => (x.bringupTimeout t p, []) := rfl
theorem exec_qualifyDone : exec (.qualifyDone h p) s = s.afterLane h p 1000000000 fun t x => x.qualifyDone t p := rfl
theorem exec_mapoutRetryExpire :
    exec (.mapoutRetryExpire h p) s = s.afterLane h p 10000000000 fun t x => (x.retryLane t p, []) := rfl

end Arms

/-! ## The statement -/

/-- Settles O17: each command by the step of bring-up that it is, as a change of its half that keeps the mode, with at most reports of
the lane and its link. -/
theorem laneBringUp : Obligations.LaneBringUp := by
  unfold Obligations.LaneBringUp
  intro s h p hs hr hp
  have only (k : Half) := s.mod.onlyHalf_setHalf h k
  have half (k : Half) : (s.mod.setHalf h k).half h = k := Module.half_setHalf _ _ _
  have lane {t : State} {k : Half} (regs : ∀ o, OffLinks o → (t.mod.half h).reg o = k.reg o) :
      (t.mod.half h).laneState p = k.laneState p := Half.get_congr _ _ _ (regs _ (offLinks_laneWord p hp).2)
  simp only [State.idles, exec_cdrLock, exec_cdrLossOfLock, exec_bringupTimeout, exec_qualifyDone, exec_mapoutRetryExpire]
  refine ⟨fun cdr => ?lock, fun other => ?noLock, fun first last => ?loss, fun up => ?departure, fun first last => ?timeout,
    fun past => ?noTimeout, fun qualify => ?qualified, fun other => ?unqualified, fun mapped clear clock => ?retry, fun held => ?held⟩
  case lock =>
    obtain ⟨state, rate, regs⟩ := (s.mod.half h).cdrLock_does p cdr
    have mode := Half.mode_of_lane (s.mod.half h) p _ fun o status dfe _ _ _ _ => regs o status dfe
    refine ⟨_, s.onPort_quiet h p hs hr hp _ _ rfl mode, ?_⟩
    rw [half]
    exact ⟨state, rate, regs, only _⟩
  case noLock =>
    have stays : (s.mod.half h).cdrLock p = s.mod.half h := if_neg other
    exact (s.onPort_quiet h p hs hr hp _ _ (congrArg (·, []) stays) rfl).trans (by rw [s.mod.setHalf_half])
  case loss =>
    have regs (o : Nat) (status : o ≠ (F.LANE_STATUS_word p).off) (xdisc : o ≠ F.SYS_XDISC_word.off) :
        (((s.mod.half h).isleReset p).startCdr s.now p).reg o = (s.mod.half h).reg o :=
      (Half.reg_startCdr _ _ _ o status).trans (Half.reg_isleReset _ p o xdisc)
    have mode := Half.mode_of_lane (s.mod.half h) p _ fun o status _ _ xdisc _ _ => regs o status xdisc
    refine ⟨_, s.onPort_quiet h p hs hr hp _ _ (Half.cdrLoss_bringUp _ _ _ first last) mode, ?_⟩
    rw [half]
    exact ⟨Half.laneState_startCdr _ _ _, Half.fill_startCdr _ _ _, regs, only _⟩
  case departure =>
    obtain ⟨reports, mode, state⟩ := (s.mod.half h).cdrLoss_up s.now p hp up
    obtain ⟨t, run, same, regs⟩ := s.onPort_reports h p hs hr hp (fun t x => x.cdrLoss t p) reports mode
    exact ⟨t, run, same, (lane regs).trans state⟩
  case timeout =>
    have out (u : Nat) : (s.mod.half h).bringupTimeout u p = (s.mod.half h).mapOut u p (some 1) := if_pos ⟨first, last⟩
    have regs (u : Nat) := (s.mod.half h).reg_mapOut u p (some 1)
    have mode (u : Nat) := Half.mode_of_lane (s.mod.half h) p _ fun o status _ xovr _ eng flt => regs u o status xovr eng flt
    have run := s.afterLane_quiet h p hs hr hp 20000000 (fun t x => (x.bringupTimeout t p, [])) _ (congrArg (·, []) (out _)) (mode _)
    refine ⟨_, run, rfl, ?_⟩
    rw [half]
    refine ⟨Half.laneState_mapOut _ _ _ _ hp, Half.seq_mapOut_some _ _ _ _, fun q hq hne => ?_, only _⟩
    obtain ⟨xovr, eng, flt⟩ := laneStatus_apart q hq
    exact Half.get_congr _ _ (F.LANE_STATUS_STATE q) (regs _ _ (laneStatus_ne p q hne) xovr eng flt)
  case noTimeout => exact s.afterLane_idles h p hs hr hp _ _ (congrArg (·, []) (if_neg fun e => absurd e.2 (Nat.not_le_of_lt past)))
  case qualified =>
    obtain ⟨reports, mode, state⟩ := (s.mod.half h).qualifyDone_does _ p hp qualify
    obtain ⟨t, run, now, same, regs⟩ := s.afterLane_reports h p hs hr hp _ (fun t x => x.qualifyDone t p) reports mode
    exact ⟨t, run, now, (lane regs).trans state, same⟩
  case unqualified => exact s.afterLane_idles h p hs hr hp _ _ (if_neg other)
  case retry =>
    have begun (u : Nat) : (s.mod.half h).retryLane u p = (s.mod.half h).laneBegin u p :=
      if_pos ⟨mapped, Half.flag_of_get_zero _ _ clear, clock⟩
    have regs (u : Nat) := (s.mod.half h).reg_laneBegin u p
    have mode (u : Nat) := Half.mode_of_lane (s.mod.half h) p _ fun o status _ _ _ _ _ => regs u o status
    refine ⟨_, s.afterLane_quiet h p hs hr hp _ _ _ (congrArg (·, []) (begun _)) (mode _), rfl, ?_⟩
    rw [half]
    exact ⟨Half.laneState_laneBegin _ _ _, regs _, only _⟩
  case held =>
    have set := Half.flag_of_get_one _ _ held
    exact s.afterLane_idles h p hs hr hp _ _ (congrArg (·, []) (if_neg fun e => Bool.false_ne_true (e.2.1.symm.trans set)))

end Sys2Proof.Machine
end

section
/-!
SUPPORT. SDI receivers (R115, R116): lock, the next rate and the loss of lock, and the statement on them.
-/
namespace Sys2Proof.Machine

section Sdi
variable (h : Half) (t p : Nat)

/-- A field below the overrun flags reads as before a count of a lane's island (R136). -/
theorem Half.get_laneCount (code n : Nat) (f : Field) (hf : f.lo + f.width ≤ 31) (hx : f.off ≠ F.SYS_XOVR_word.off) :
    (h.laneCount p code n).get f = h.get f := by
  have flagged (x : Half) : ((x.set (F.LANE_STATUS_OVR p) 1).set F.SYS_XOVR_LANE 1).get f = x.get f :=
    (Half.get_congr _ _ f (Half.reg_set_other _ F.SYS_XOVR_LANE _ _ hx)).trans
      (Half.get_set_other _ (F.LANE_STATUS_OVR p) f _ (Nat.le_refl 32) (.inr (.inl hf)))
  unfold Half.laneCount
  dsimp only
  split
  · exact flagged _
  · rfl

/-- The loss of an SDI source changes none of the RST, LDR and LANE registers (R149, R160). -/
theorem Half.reg_sdiLost (o : Nat) (ho : OffLinks o) : (h.sdiLost t p).reg o = h.reg o := by
  refine foldl_keeps (fun x => x.reg o) _ (fun x i => ?_) _ h
  split
  · rfl
  · exact Half.reg_ite ((Half.reg_followNosig _ _ _ _ (ho.offSource i) _).trans (Half.reg_discardFrame_counted _ _ ho _)) rfl

/-- Rate hunting begins. -/
theorem Half.laneState_startHunt : (h.startHunt t p).laneState p = lsSdiHunt :=
  Half.laneState_laneEnter (h.onRx p _) p lsSdiHunt (by decide)

theorem Half.reg_startHunt (o : Nat) (ho : o ≠ (F.LANE_STATUS_word p).off) : (h.startHunt t p).reg o = h.reg o :=
  Half.reg_laneEnter (h.onRx p _) p lsSdiHunt o ho

/-- A field apart from several that are set in turn reads as before. -/
theorem Half.get_sets_other (l : List (Field × Nat)) (f : Field) (hl : ∀ c ∈ l, c.1.fits ∧ c.1.apart f) : (h.sets l).get f = h.get f := by
  induction l generalizing h with
  | nil => rfl
  | cons c l ih =>
    obtain ⟨fits, apart⟩ := hl c List.mem_cons_self
    rw [Half.sets, ih _ fun d hd => hl d (List.mem_cons_of_mem _ hd)]
    exact Half.get_set_other h c.1 f c.2 fits apart

/-- Of a list of fields set in turn, one that no later one touches reads as set. -/
theorem Half.get_sets_cons (f : Field) (v : Nat) (l : List (Field × Nat)) (hf : f.fits) (hl : ∀ c ∈ l, c.1.fits ∧ c.1.apart f) :
    (h.sets ((f, v) :: l)).get f = v % 2 ^ f.width :=
  ((h.set f v).get_sets_other l f hl).trans (Half.get_set_same _ _ _ hf)

/-- Of a list of fields that share no bit each reads as set. -/
theorem Half.get_sets_mem (l : List (Field × Nat)) (hf : ∀ c ∈ l, c.1.fits) (hl : l.Pairwise fun c d => d.1.apart c.1) (c : Field × Nat)
    (hc : c ∈ l) : (h.sets l).get c.1 = c.2 % 2 ^ c.1.width := by
  induction l generalizing h with
  | nil => exact absurd hc List.not_mem_nil
  | cons d l ih =>
    obtain ⟨first, later⟩ := List.pairwise_cons.mp hl
    rcases List.mem_cons.mp hc with rfl | hc
    · exact h.get_sets_cons c.1 c.2 l (hf c List.mem_cons_self) fun e he => ⟨hf e (List.mem_cons_of_mem _ he), first e he⟩
    · exact ih (h.set d.1 d.2) (fun e he => hf e (List.mem_cons_of_mem _ he)) later hc

/-- The receiver locked at a rate of its port's mask. -/
theorem Half.sdiLock_does (rate : Nat) (levelB : Bool) (hs : h.laneState p = lsSdiHunt) (h8 : 8 ≤ rate) (h15 : rate ≤ 15)
    (hf : (rate - 8) / 2 = (h.lane p).rx.fill) (hm : bitAt (h.portRec p).rate ((rate - 8) / 2) = true) :
    (h.sdiLock p rate levelB).laneState p = lsSdiLock ∧ (h.sdiLock p rate levelB).get (F.LANE_STATUS_RATE p) = rate ∧
    (h.sdiLock p rate levelB).get (F.LANE_SDI_LOCK p) = 1 ∧
    ∀ o, o ≠ (F.LANE_STATUS_word p).off → o ≠ (F.LANE_SDI_word p).off → (h.sdiLock p rate levelB).reg o = h.reg o := by
  have hne : (F.LANE_STATUS_word p).off ≠ (F.LANE_SDI_word p).off := by simp only [F.LANE_STATUS_word, F.LANE_SDI_word]; omega
  have sdi (x : Half) (a b o : Nat) (ho : o ≠ (F.LANE_SDI_word p).off) :
      (x.sets [(F.LANE_SDI_LOCK p, a), (F.LANE_SDI_LEVELB p, b)]).reg o = x.reg o := by
    refine Half.reg_sets_other x _ o fun f hf => ?_
    simp only [List.mem_cons, List.not_mem_nil, or_false] at hf
    rcases hf with rfl | rfl <;> exact ho
  unfold Half.sdiLock
  rw [if_pos ⟨hs, h8, h15, hf, hm⟩]
  refine ⟨?state, ?rate, ?lock, fun o status other => ?regs⟩
  case state =>
    refine (Half.get_congr _ _ (F.LANE_STATUS_STATE p) (sdi _ _ _ _ hne)).trans ?_
    exact (Half.get_set_other _ (F.LANE_STATUS_RATE p) _ _ (Field.fits_of_ble rfl) (apart_of_above rfl)).trans
      (Half.laneState_laneEnter _ _ _ (by decide))
  case rate =>
    refine (Half.get_congr _ _ (F.LANE_STATUS_RATE p) (sdi _ _ _ _ hne)).trans ?_
    exact Half.get_set_of_lt _ _ _ (Field.fits_of_ble rfl) (show rate < 16 by omega)
  case lock =>
    refine Half.get_sets_cons _ _ 1 _ (Field.fits_of_ble rfl) fun c hc => ?_
    obtain rfl := List.mem_singleton.mp hc
    exact ⟨Field.fits_of_ble rfl, apart_of_above rfl⟩
  case regs => rw [sdi _ _ _ _ other, Half.reg_set_other _ (F.LANE_STATUS_RATE p) _ _ status, Half.reg_laneEnter _ _ _ _ status]

/-- The fields that the end of a lock clears. -/
def lockFields (p : Nat) : List (Field × Nat) :=
  [(F.LANE_STATUS_RATE p, 0), (F.LANE_SDI_LOCK p, 0), (F.LANE_SDI_LEVELB p, 0), (F.LANE_SDI_PIDVALID p, 0)]

theorem lockFields_fit : ∀ c ∈ lockFields p, c.1.fits := by
  simp [lockFields, Field.fits, F.LANE_STATUS_RATE, F.LANE_SDI_LOCK, F.LANE_SDI_LEVELB, F.LANE_SDI_PIDVALID]

theorem lockFields_apart : (lockFields p).Pairwise fun c d => d.1.apart c.1 := by
  simp [lockFields, Field.apart, F.LANE_STATUS_RATE, F.LANE_SDI_LOCK, F.LANE_SDI_LEVELB, F.LANE_SDI_PIDVALID]

/-- They lie in LANE_STATUS and LANE_SDI, apart from the lane's state. -/
theorem lockFields_off : ∀ c ∈ lockFields p, c.1.off = (F.LANE_STATUS_word p).off ∨ c.1.off = (F.LANE_SDI_word p).off := by
  simp [lockFields, F.LANE_STATUS_RATE, F.LANE_SDI_LOCK, F.LANE_SDI_LEVELB, F.LANE_SDI_PIDVALID, F.LANE_STATUS_word, F.LANE_SDI_word]

theorem lockFields_apart_state : ∀ c ∈ lockFields p, c.1.apart (F.LANE_STATUS_STATE p) := by
  simp [lockFields, Field.apart, F.LANE_STATUS_RATE, F.LANE_SDI_LOCK, F.LANE_SDI_LEVELB, F.LANE_SDI_PIDVALID, F.LANE_STATUS_STATE]

/-- The end of a lock: rate hunting again, and the fields of the lock read 0. -/
theorem Half.sdiUnlock_does (hs : h.laneState p = lsSdiLock) : (h.sdiUnlock t p).laneState p = lsSdiHunt ∧
    (h.sdiUnlock t p).get (F.LANE_STATUS_RATE p) = 0 ∧ (h.sdiUnlock t p).get (F.LANE_SDI_LOCK p) = 0 ∧
    (h.sdiUnlock t p).get (F.LANE_SDI_LEVELB p) = 0 ∧ (h.sdiUnlock t p).get (F.LANE_SDI_PIDVALID p) = 0 ∧
    ∀ o, o ≠ (F.LANE_STATUS_word p).off → o ≠ (F.LANE_SDI_word p).off → o ≠ F.SYS_XOVR_word.off →
      (h.sdiUnlock t p).reg o = h.reg o := by
  have cleared (x : Half) (c : Field × Nat) := x.get_sets_mem (lockFields p) (lockFields_fit p) (lockFields_apart p) c
  have counted (x : Half) (f : Field) (hf : f.lo + f.width ≤ 31) (ho : f.off ≠ F.SYS_XOVR_word.off) := x.get_laneCount p 7 8 f hf ho
  have unlocked : h.sdiUnlock t p = ((h.startHunt t p).sets (lockFields p)).laneCount p 7 8 := if_pos hs
  have xovr (k : Nat) : 0x30000 + k + 0x800 * p ≠ F.SYS_XOVR_word.off := by simp only [F.SYS_XOVR_word]; omega
  rw [unlocked]
  refine ⟨?state, ?rate, ?lock, ?levelB, ?pid, fun o status sdi xovr => ?regs⟩
  case state =>
    have kept (x : Half) : (x.sets (lockFields p)).laneState p = x.laneState p :=
      x.get_sets_other _ (F.LANE_STATUS_STATE p) fun c hc => ⟨lockFields_fit p c hc, lockFields_apart_state p c hc⟩
    exact (counted _ _ (Nat.le_of_ble_eq_true rfl) (xovr 4)).trans ((kept _).trans (h.laneState_startHunt t p))
  case rate => exact (counted _ _ (Nat.le_of_ble_eq_true rfl) (xovr 4)).trans (cleared _ (F.LANE_STATUS_RATE p, 0) (by simp [lockFields]))
  case lock => exact (counted _ _ (Nat.le_of_ble_eq_true rfl) (xovr 0x50)).trans (cleared _ (F.LANE_SDI_LOCK p, 0) (by simp [lockFields]))
  case levelB => exact (counted _ _ (Nat.le_of_ble_eq_true rfl) (xovr 0x50)).trans (cleared _ (F.LANE_SDI_LEVELB p, 0) (by simp [lockFields]))
  case pid => exact (counted _ _ (Nat.le_of_ble_eq_true rfl) (xovr 0x50)).trans (cleared _ (F.LANE_SDI_PIDVALID p, 0) (by simp [lockFields]))
  case regs =>
    refine (Half.reg_laneCount _ _ _ _ _ status xovr).trans
      ((Half.reg_sets_other _ _ _ fun c hc => ?_).trans (Half.reg_startHunt h t p o status))
    rcases lockFields_off p c hc with hc | hc <;> rw [hc] <;> assumption

end Sdi

section Arms
variable (h : HalfId) (p : Nat) (s : State)

theorem exec_sdiLock (rate : Nat) (levelB : Bool) : exec (.sdiLock h p rate levelB) s =
    s.onPort h p fun t x => ((x.sdiLock p rate levelB).followAllNosig t, []) := rfl
theorem exec_sdiRateHuntTimeout : exec (.sdiRateHuntTimeout h p) s = s.afterLane h p 5000000 fun t x => (x.sdiNextRate t p, []) := rfl
theorem exec_sdiLockLoss : exec (.sdiLockLoss h p) s =
    s.onPort h p fun t x => (if x.laneState p = lsSdiLock then (x.sdiUnlock t p).sdiLost t p else x, []) := rfl

end Arms

/-- Settles O21: the lock and its end by the fields that each sets, and the next rate by the receiver's `fill`. -/
theorem sdiPorts : Obligations.SdiPorts := by
  unfold Obligations.SdiPorts
  intro s h p hs hr hp
  have only (k : Half) := s.mod.onlyHalf_setHalf h k
  have half (k : Half) : (s.mod.setHalf h k).half h = k := Module.half_setHalf _ _ _
  have status := (offLinks_laneWord p hp).2
  have sdi : OffLinks (F.LANE_SDI_word p).off := by simp only [OffLinks, F.LANE_SDI_word]; omega
  simp only [State.idles, exec_sdiLock, exec_sdiRateHuntTimeout, exec_sdiLockLoss]
  refine ⟨fun rate levelB hunt h8 h15 hf hm => ?lock, fun hunt has => ?next, fun other => ?noNext, fun lock => ?loss, fun other => ?noLoss⟩
  case lock =>
    obtain ⟨state, rates, locked, regs⟩ := (s.mod.half h).sdiLock_does p rate levelB hunt h8 h15 hf hm
    have followed (f : Field) (ho : OffLinks f.off) := Half.get_congr _ _ f
      (Half.reg_followAllNosig ((s.mod.half h).sdiLock p rate levelB) s.now f.off ho)
    have mode := (followed F.RST_STATE_MODE (by decide)).trans (Half.mode_congr _ _
      (regs _ (offLane_rst p _ (by decide)).status (offLane_rst p _ (by decide)).sdi))
    refine ⟨_, s.onPort_quiet h p hs hr hp (fun t x => ((x.sdiLock p rate levelB).followAllNosig t, [])) _ rfl mode, ?_⟩
    rw [half]
    exact ⟨(followed (F.LANE_STATUS_STATE p) status).trans state, (followed (F.LANE_STATUS_RATE p) status).trans rates,
      (followed (F.LANE_SDI_LOCK p) sdi).trans locked, only _⟩
  case next =>
    have next (u : Nat) : (s.mod.half h).sdiNextRate u p = ((s.mod.half h).onRx p fun (x : LaneRx) =>
      { x with fill := nextRate ((s.mod.half h).portRec p).rate x.fill }).laneSince u p := if_pos hunt
    refine ⟨_, s.afterLane_quiet h p hs hr hp 5000000 (fun t x => (x.sdiNextRate t p, [])) _ (congrArg (·, []) (next _)) rfl, rfl, ?_⟩
    rw [half]
    refine ⟨?_, rfl, only _⟩
    unfold Half.laneSince Half.onRx
    rw [Half.lane_onLane_keeps _ p _ (fun x => x.rx.fill) rfl, Half.lane_onLane_same _ _ _ has]
  case noNext => exact s.afterLane_idles h p hs hr hp _ _ (congrArg (·, []) (if_neg other))
  case loss =>
    obtain ⟨state, rate, locked, levelB, pid, regs⟩ := (s.mod.half h).sdiUnlock_does s.now p lock
    have lost (f : Field) (ho : OffLinks f.off) := Half.get_congr _ _ f
      (Half.reg_sdiLost ((s.mod.half h).sdiUnlock s.now p) s.now p f.off ho)
    have mode := (lost F.RST_STATE_MODE (by decide)).trans (Half.mode_congr _ _
      (regs _ (offLane_rst p _ (by decide)).status (offLane_rst p _ (by decide)).sdi (by decide)))
    refine ⟨_, s.onPort_quiet h p hs hr hp _ _ (congrArg (·, []) (if_pos lock)) mode, ?_⟩
    rw [half]
    exact ⟨(lost (F.LANE_STATUS_STATE p) status).trans state, (lost (F.LANE_STATUS_RATE p) status).trans rate,
      (lost (F.LANE_SDI_LOCK p) sdi).trans locked, (lost (F.LANE_SDI_LEVELB p) sdi).trans levelB,
      (lost (F.LANE_SDI_PIDVALID p) sdi).trans pid, only _⟩
  case noLoss =>
    exact (s.onPort_quiet h p hs hr hp _ _ (congrArg (·, []) (if_neg other)) rfl).trans (by rw [s.mod.setHalf_half])

end Sys2Proof.Machine
end

section
/-!
SUPPORT. Writes of LANE_PATTERN and LANE_INJECT (R117 to R119), and the statement on patterns and injection.
-/
namespace Sys2Proof.Machine

/-! ## A write of one field of a lane's register -/

/-- A granted write of a field in the LANE block, with no start in progress, changes its half as the block says. -/
theorem State.laneField_does (s : State) (h : HalfId) (p master : Nat) (f : Nat → Field) (v : Nat) (k : Half) (hs : s.mod.settled)
    (hp : p < 24) (hb : (f p).off / 0x10000 = 3) (hg : s.mod.grants h master (f p).off)
    (hk : (s.mod.half h).writeLane s.now (f p).off (putBits ((s.mod.half h).heldWord (f p).off) (f p).lo (f p).width v) = k)
    (hm : k.mode = (s.mod.half h).mode) : s.laneField h p master f v = .next { s with mod := s.mod.setHalf h k } := by
  have written : s.mod.fieldWrite s.now h master (f p) v = s.mod.setHalf h k := by
    unfold Module.fieldWrite
    rw [Module.regWrite_granted _ _ _ _ _ _ hg, Module.writeReg_lane _ _ _ _ _ _ hb]
    exact congrArg (s.mod.setHalf h) hk
  have mode : ((s.mod.setHalf h k).half h).mode = (s.mod.half h).mode := by rw [Module.half_setHalf, hm]
  unfold State.laneField
  rw [State.act_eq, decide_eq_true hp, Module.given_true, written,
    Module.advance_settled _ _ (Module.settled_of_onlyHalf hs (s.mod.onlyHalf_setHalf h k) mode)]

/-- A word written over itself under the mask of a register without other access codes is itself. -/
theorem RegSpec.written_same (r : RegSpec) (sealed : Bool) (old v : Word) (hw : r.rws = 0) (hc : r.w1c = 0) (hs : r.w1s = 0)
    (hv : v &&& r.rw = old &&& r.rw) : r.written sealed old v = old := by
  have zero : (0 : Word) = 0#32 := rfl
  have mask : r.rw ||| (if sealed then 0 else r.rws) = r.rw := by rw [hw, ite_self]; exact BitVec.or_zero
  have whole : (old &&& ~~~r.rw) ||| (old &&& r.rw) = old := by
    ext i hi
    simp only [BitVec.getElem_and, BitVec.getElem_or, BitVec.getElem_not]
    cases old[i] <;> cases r.rw[i] <;> decide
  unfold RegSpec.written
  dsimp only
  rw [mask, hv, whole, hc, hs]
  simp only [zero, BitVec.or_zero, BitVec.and_zero, BitVec.not_zero, BitVec.and_allOnes]

/-- A write by the access codes that leaves the register's RW fields as they are changes nothing that a register reads. -/
theorem Half.plainWrite_same (h : Half) (off : Nat) (r : RegSpec) (v : Word) (hr : regSpec off = some r) (hw : r.rws = 0)
    (hc : r.w1c = 0) (hs : r.w1s = 0) (hv : v &&& r.rw = h.reg off &&& r.rw) : h.onlyRegs (h.plainWrite off v) fun _ => False := by
  refine ⟨Half.plainWrite_onlyRegs h off v r hr, fun o _ => ?_⟩
  unfold Half.plainWrite
  rw [hr]
  dsimp only
  rw [hw, show ((0 : Word) != 0) = false from rfl, Bool.and_false, if_neg Bool.false_ne_true]
  by_cases ho : o = off
  · subst ho
    rw [Half.reg_setReg_same, r.written_same _ _ _ hw hc hs hv]
  · exact Half.reg_setReg_other _ _ _ _ ho

/-! ## The words of the commands -/

/-- The access codes of LANE_PATTERN and LANE_INJECT: every field that software writes is RW. -/
theorem regSpec_lanePattern : ∀ p < 24, regSpec (F.LANE_PATTERN_word p).off = some ⟨0x30020, 0x800, 24, 0x0, 0xFF, 0x0, 0x0, 0x0⟩ := by
  decide

theorem regSpec_laneInject : ∀ p < 24, regSpec (F.LANE_INJECT_word p).off =
    some ⟨0x3002C, 0x800, 24, 0x10000, 0x7F0F00, 0x0, 0x0, 0x0⟩ := by
  decide

section Words
variable (h : Half) (t p : Nat) (hp : p < 24)

/-- The word that writes one bit of LANE_PATTERN. -/
def Half.patternWord (h : Half) (p lo : Nat) (on : Bool) : Word := putBits (h.heldWord (F.LANE_PATTERN_word p).off) lo 1 (bit on)

/-- LANE_PATTERN is written with GENEN and CHKEN as they stand; their bits of the word then act. -/
def Half.patternHeld (h : Half) (p : Nat) (v : Word) : Half :=
  h.plainWrite (F.LANE_PATTERN_word p).off (h.keepBit (F.LANE_PATTERN_word p).off 7 (h.keepBit (F.LANE_PATTERN_word p).off 3 v))

include hp

/-- A bit of LANE_PATTERN as written: that bit as asked, the others as they stand. -/
theorem Half.getElem_patternWord (lo : Nat) (on : Bool) (hlo : lo < 32) (i : Nat) (hi : i < 8) :
    (h.patternWord p lo on)[i] = if i = lo then on else (h.reg (F.LANE_PATTERN_word p).off)[i] := by
  have held : h.heldWord (F.LANE_PATTERN_word p).off = h.reg (F.LANE_PATTERN_word p).off &&& 0xFF#32 := by
    unfold Half.heldWord
    rw [regSpec_lanePattern p hp]
    rfl
  have mask : (0xFF#32)[i] = true :=
    (bitAt_toNat 0xFF#32 i (by omega)).symm.trans ((by decide : ∀ i < 8, bitAt 0xFF i = true) i hi)
  have put := getElem_putFlag (h.heldWord (F.LANE_PATTERN_word p).off) lo on hlo i (by omega)
  unfold putFlag at put
  unfold Half.patternWord
  rw [put, held, BitVec.getElem_and, mask, Bool.and_true]

/-- Writing GENEN or CHKEN leaves every register as it reads. -/
theorem Half.patternHeld_same (lo : Nat) (on : Bool) (hlo : lo = 3 ∨ lo = 7) :
    h.onlyRegs (h.patternHeld p (h.patternWord p lo on)) fun _ => False := by
  refine h.plainWrite_same _ _ _ (regSpec_lanePattern p hp) rfl rfl rfl (BitVec.eq_of_getElem_eq fun i hi => ?_)
  unfold Half.keepBit
  rw [BitVec.getElem_and, BitVec.getElem_and, getElem_putFlag _ 7 _ (by decide) i hi, getElem_putFlag _ 3 _ (by decide) i hi,
    bitAt_toNat _ 7 (by decide), bitAt_toNat _ 3 (by decide)]
  by_cases h8 : i < 8
  · rw [h.getElem_patternWord p hp lo on (by omega) i h8]
    split_ifs with h7 h3 hl
    · subst h7; rfl
    · subst h3; rfl
    · omega
    · rfl
  · have mask : (0xFF#32)[i] = false :=
      (bitAt_toNat 0xFF#32 i hi).symm.trans ((by decide : ∀ i < 32, ¬ i < 8 → bitAt 0xFF i = false) i hi h8)
    exact (congrArg (_ && ·) mask).trans ((Bool.and_false _).trans ((congrArg (_ && ·) mask).trans (Bool.and_false _)).symm)

end Words

/-! ## What a write of one bit does -/

section Write
variable (h : Half) (t p : Nat) (hp : p < 24)

/-- Reports of nothing leave a live half as the operation does. -/
theorem Half.reporting_nil (k x : Half) (hr : k.inReset = false) : k.reporting t (x, []) = x := by
  unfold Half.reporting
  rw [hr]
  rfl

/-- Where no register reads another word no field reads another value. -/
theorem Half.onlyRegs.get {h k : Half} (hk : h.onlyRegs k fun _ => False) (f : Field) : k.get f = h.get f :=
  Half.get_congr _ _ _ (hk.2 f.off fun e => e)

theorem Half.onlyRegs.port {h k : Half} {P : Nat → Prop} (hk : h.onlyRegs k P) : k.port = h.port := (congrArg Half.port hk.1 :)

theorem Half.onlyRegs.inReset {h k : Half} {P : Nat → Prop} (hk : h.onlyRegs k P) : k.inReset = h.inReset := (congrArg Half.inReset hk.1 :)

/-- The half after a write of one bit of LANE_PATTERN, before the generator. -/
def Half.checkerWritten (h : Half) (p lo : Nat) (on : Bool) : Half :=
  (h.patternHeld p (h.patternWord p lo on)).chkEnable p (if lo = 7 then on else h.flag (F.LANE_PATTERN_CHKEN p))

include hp

/-- A write of GENEN or CHKEN is one of the checker and one of the generator. -/
theorem Half.writeLane_pattern (lo : Nat) (on : Bool) (hlo : lo = 3 ∨ lo = 7) :
    h.writeLane t (F.LANE_PATTERN_word p).off (h.patternWord p lo on) = (h.checkerWritten p lo on).reporting t
      ((h.checkerWritten p lo on).genEnable t p (if lo = 3 then on else h.flag (F.LANE_PATTERN_GENEN p))) := by
  have index : ((F.LANE_PATTERN_word p).off - 0x30000) / 0x800 = p := by simp only [F.LANE_PATTERN_word]; omega
  have notCtrl : (F.LANE_PATTERN_word p).off ≠ (F.LANE_CTRL_word p).off := (offLane_pattern p).ctrl
  have notEq : (F.LANE_PATTERN_word p).off ≠ (F.LANE_EQ_word p).off := by simp only [F.LANE_PATTERN_word, F.LANE_EQ_word]; omega
  have gen : bitAt (h.patternWord p lo on).toNat 3 = if lo = 3 then on else h.flag (F.LANE_PATTERN_GENEN p) := by
    rw [bitAt_toNat _ 3 (by decide), h.getElem_patternWord p hp lo on (by omega) 3 (by decide), ← bitAt_toNat _ 3 (by decide)]
    simp only [eq_comm]
    rfl
  have chk : bitAt (h.patternWord p lo on).toNat 7 = if lo = 7 then on else h.flag (F.LANE_PATTERN_CHKEN p) := by
    rw [bitAt_toNat _ 7 (by decide), h.getElem_patternWord p hp lo on (by omega) 7 (by decide), ← bitAt_toNat _ 7 (by decide)]
    simp only [eq_comm]
    rfl
  have same := (h.patternHeld_same p hp lo on hlo).get (F.LANE_PATTERN_GENSEL p)
  unfold Half.writeLane
  dsimp only
  rw [index, if_neg (by omega), if_neg notCtrl, if_neg notEq, if_pos rfl]
  unfold Half.writePattern
  dsimp only
  rw [gen, chk]
  unfold Half.patternHeld at same
  rw [same, bne_self_eq_false, Bool.and_false, if_neg Bool.false_ne_true]
  rfl

end Write

/-! ## The checker (R118) -/

/-- Offset `o` is none of the registers that a checker writes. -/
structure OffChecker (p o : Nat) : Prop where
  pattern : o ≠ (F.LANE_PATTERN_word p).off
  errors : o ≠ (F.LANE_CHKERR_word p).off
  units : o ≠ (F.LANE_CHKBITS_word p).off

/-- LANE_PATTERN, LANE_CHKERR and LANE_CHKBITS of a lane are different registers. -/
theorem checker_apart (p : Nat) : (F.LANE_PATTERN_word p).off ≠ (F.LANE_CHKERR_word p).off ∧
    (F.LANE_PATTERN_word p).off ≠ (F.LANE_CHKBITS_word p).off ∧ (F.LANE_CHKERR_word p).off ≠ (F.LANE_CHKBITS_word p).off := by
  simp only [F.LANE_PATTERN_word, F.LANE_CHKERR_word, F.LANE_CHKBITS_word]
  omega

section Checker
variable (x : Half) (p : Nat)

/-- The checker's lock cleared, with a new state of the checker. -/
def Half.chkCleared (x : Half) (p : Nat) : Half :=
  (x.onLane p fun (y : Lane) => { y with chk := LaneChk.reset }).set (F.LANE_PATTERN_CHKLOCK p) 0

theorem Half.reg_chkCleared (o : Nat) (ho : o ≠ (F.LANE_PATTERN_word p).off) : (x.chkCleared p).reg o = x.reg o :=
  Half.reg_set_other (x.onLane p _) (F.LANE_PATTERN_CHKLOCK p) 0 o ho

theorem Half.lock_chkCleared : (x.chkCleared p).get (F.LANE_PATTERN_CHKLOCK p) = 0 :=
  Half.get_set_of_lt _ (F.LANE_PATTERN_CHKLOCK p) 0 (Field.fits_of_ble rfl) (Nat.two_pow_pos _)

/-- CHKEN and the fields below it stay. -/
theorem Half.get_chkCleared (f : Field) (hf : f.lo + f.width ≤ 8) : (x.chkCleared p).get f = x.get f :=
  Half.get_set_other (x.onLane p _) (F.LANE_PATTERN_CHKLOCK p) f 0 (Field.fits_of_ble rfl) (.inr (.inl hf))

/-- CHKEN written changes LANE_PATTERN only. -/
theorem Half.reg_setChken (on : Bool) (o : Nat) (ho : o ≠ (F.LANE_PATTERN_word p).off) :
    (x.setFlag (F.LANE_PATTERN_CHKEN p) on).reg o = x.reg o :=
  Half.reg_set_other x (F.LANE_PATTERN_CHKEN p) _ o ho

theorem Half.get_setChken (on : Bool) : (x.setFlag (F.LANE_PATTERN_CHKEN p) on).get (F.LANE_PATTERN_CHKEN p) = bit on :=
  Half.get_setFlag_same x _ on (Field.fits_of_ble rfl) rfl

/-- The checker stopped: its lock is cleared and its counts stay. -/
theorem Half.chkEnable_off : (x.chkEnable p false).get (F.LANE_PATTERN_CHKEN p) = 0 ∧
    (x.chkEnable p false).get (F.LANE_PATTERN_CHKLOCK p) = 0 ∧
    ∀ o, o ≠ (F.LANE_PATTERN_word p).off → (x.chkEnable p false).reg o = x.reg o := by
  have stopped : x.chkEnable p false = (x.setFlag (F.LANE_PATTERN_CHKEN p) false).chkCleared p := rfl
  rw [stopped]
  exact ⟨(Half.get_chkCleared _ p _ (Nat.le_of_ble_eq_true rfl)).trans (x.get_setChken p false), Half.lock_chkCleared _ p,
    fun o ho => (Half.reg_chkCleared _ p o ho).trans (x.reg_setChken p false o ho)⟩

/-- The checker's counts at 0. -/
def Half.chkCountsCleared (x : Half) (p : Nat) : Half := (x.set (F.LANE_CHKERR_ERRORS p) 0).set (F.LANE_CHKBITS_UNITS p) 0

theorem Half.reg_chkCountsCleared (o : Nat) (herr : o ≠ (F.LANE_CHKERR_word p).off) (hbits : o ≠ (F.LANE_CHKBITS_word p).off) :
    (x.chkCountsCleared p).reg o = x.reg o :=
  (Half.reg_set_other _ (F.LANE_CHKBITS_UNITS p) _ _ hbits).trans (Half.reg_set_other _ (F.LANE_CHKERR_ERRORS p) _ _ herr)

/-- The checker started from 0: its lock and its counts are cleared. -/
theorem Half.chkEnable_on (hx : x.flag (F.LANE_PATTERN_CHKEN p) = false) : (x.chkEnable p true).get (F.LANE_PATTERN_CHKEN p) = 1 ∧
    (x.chkEnable p true).get (F.LANE_PATTERN_CHKLOCK p) = 0 ∧ (x.chkEnable p true).get (F.LANE_CHKERR_ERRORS p) = 0 ∧
    (x.chkEnable p true).get (F.LANE_CHKBITS_UNITS p) = 0 := by
  obtain ⟨perr, pbits, ebits⟩ := checker_apart p
  have started : x.chkEnable p true = ((x.setFlag (F.LANE_PATTERN_CHKEN p) true).chkCleared p).chkCountsCleared p := by
    unfold Half.chkEnable
    rw [hx]
    rfl
  have pattern (y : Half) (f : Field) (hf : f.off = (F.LANE_PATTERN_word p).off) : (y.chkCountsCleared p).get f = y.get f :=
    Half.get_congr _ _ f (by rw [hf]; exact y.reg_chkCountsCleared p _ perr pbits)
  rw [started]
  refine ⟨?enable, ?lock, ?errors, Half.get_set_of_lt _ _ 0 (Field.fits_of_ble rfl) (Nat.two_pow_pos _)⟩
  case enable =>
    exact (pattern _ (F.LANE_PATTERN_CHKEN p) rfl).trans
      ((Half.get_chkCleared _ p _ (Nat.le_of_ble_eq_true rfl)).trans (x.get_setChken p true))
  case lock => exact (pattern _ (F.LANE_PATTERN_CHKLOCK p) rfl).trans (Half.lock_chkCleared _ p)
  case errors =>
    exact (Half.get_congr _ _ (F.LANE_CHKERR_ERRORS p) (Half.reg_set_other _ (F.LANE_CHKBITS_UNITS p) _ _ ebits)).trans
      (Half.get_set_of_lt _ (F.LANE_CHKERR_ERRORS p) 0 (Field.fits_of_ble rfl) (Nat.two_pow_pos _))

/-- A start or stop of the checker is some of these changes. -/
theorem Half.chkEnable_cases (on : Bool) : let k := x.setFlag (F.LANE_PATTERN_CHKEN p) on
    x.chkEnable p on = (k.chkCleared p).chkCountsCleared p ∨ x.chkEnable p on = k ∨ x.chkEnable p on = k.chkCleared p := by
  unfold Half.chkEnable
  dsimp only
  split_ifs
  · exact .inl rfl
  · exact .inr (.inl rfl)
  · exact .inr (.inr rfl)

/-- It keeps every other register. -/
theorem Half.reg_chkEnable (on : Bool) (o : Nat) (ho : OffChecker p o) : (x.chkEnable p on).reg o = x.reg o := by
  have written := x.reg_setChken p on o ho.pattern
  have cleared := (Half.reg_chkCleared _ p o ho.pattern).trans written
  rcases x.chkEnable_cases p on with h | h | h <;> rw [h]
  · exact (Half.reg_chkCountsCleared _ p o ho.errors ho.units).trans cleared
  · exact written
  · exact cleared

/-- It keeps GENEN. -/
theorem Half.genen_chkEnable (on : Bool) : (x.chkEnable p on).get (F.LANE_PATTERN_GENEN p) = x.get (F.LANE_PATTERN_GENEN p) := by
  obtain ⟨perr, pbits, -⟩ := checker_apart p
  have written : (x.setFlag (F.LANE_PATTERN_CHKEN p) on).get (F.LANE_PATTERN_GENEN p) = x.get (F.LANE_PATTERN_GENEN p) :=
    Half.get_setFlag_other x _ _ _ (Field.fits_of_ble rfl) (apart_of_above rfl)
  have cleared := (Half.get_chkCleared _ p (F.LANE_PATTERN_GENEN p) (Nat.le_of_ble_eq_true rfl)).trans written
  rcases x.chkEnable_cases p on with h | h | h <;> rw [h]
  · exact (Half.get_congr _ _ (F.LANE_PATTERN_GENEN p) (Half.reg_chkCountsCleared _ p _ perr pbits)).trans cleared
  · exact written
  · exact cleared

/-- It leaves the plan of the ports, and the half out of reset if it was. -/
theorem Half.ports_chkEnable (on : Bool) : (x.chkEnable p on).port.ports = x.port.ports ∧ (x.chkEnable p on).inReset = x.inReset := by
  rcases x.chkEnable_cases p on with h | h | h <;> rw [h] <;> exact ⟨rfl, rfl⟩

end Checker

/-! ## The generator (R117) -/

section Generator
variable (x : Half) (t p : Nat)

/-- The lane in pattern mode, its generator at its start. -/
def Half.generating (x : Half) (p : Nat) : Half :=
  (((x.setFlag (F.LANE_PATTERN_GENEN p) true).onRx p LaneRx.clear).laneEnter p lsPattern).seedGen p

/-- The generator raised. -/
theorem Half.genEnable_raised (hx : x.flag (F.LANE_PATTERN_GENEN p) = false) : x.genEnable t p true = (x.generating p).laneReport t p := by
  unfold Half.genEnable
  rw [hx]
  rfl

/-- GENEN written changes LANE_PATTERN only. -/
theorem Half.reg_setGenen (on : Bool) (o : Nat) (ho : o ≠ (F.LANE_PATTERN_word p).off) :
    (x.setFlag (F.LANE_PATTERN_GENEN p) on).reg o = x.reg o :=
  Half.reg_set_other x (F.LANE_PATTERN_GENEN p) _ o ho

theorem Half.get_setGenen (on : Bool) : (x.setFlag (F.LANE_PATTERN_GENEN p) on).get (F.LANE_PATTERN_GENEN p) = bit on :=
  Half.get_setFlag_same x _ on (Field.fits_of_ble rfl) rfl

theorem Half.generating_does : (x.generating p).get (F.LANE_PATTERN_GENEN p) = 1 ∧ (x.generating p).laneState p = lsPattern ∧
    ∀ o, o ≠ (F.LANE_PATTERN_word p).off → o ≠ (F.LANE_STATUS_word p).off → (x.generating p).reg o = x.reg o := by
  have entered (o : Nat) (ho : o ≠ (F.LANE_STATUS_word p).off) :
      (x.generating p).reg o = (x.setFlag (F.LANE_PATTERN_GENEN p) true).reg o :=
    Half.reg_laneEnter ((x.setFlag (F.LANE_PATTERN_GENEN p) true).onRx p LaneRx.clear) p lsPattern o ho
  refine ⟨?genen, Half.laneState_laneEnter (Half.onRx _ p LaneRx.clear) p lsPattern (by decide), fun o pattern status => ?regs⟩
  case genen =>
    exact (Half.get_congr _ _ (F.LANE_PATTERN_GENEN p) (entered _ (offLane_pattern p).status)).trans (x.get_setGenen p true)
  case regs => exact (entered o status).trans (x.reg_setGenen p true o pattern)

/-- The generator as it stands. -/
theorem Half.genEnable_held (on : Bool) (hx : x.flag (F.LANE_PATTERN_GENEN p) = on) :
    x.genEnable t p on = (x.setFlag (F.LANE_PATTERN_GENEN p) on, []) := by
  unfold Half.genEnable
  rw [hx]
  cases on <;> rfl

/-- The lane after its generator stops: bring-up or rate hunting, MAPPED_OUT where it is held or not clocked, or OFF. -/
def Half.genStopped (x : Half) (t p : Nat) : Half :=
  let k := x.setFlag (F.LANE_PATTERN_GENEN p) false
  if (k.portRec p).role = 2 ∨ k.flag (F.LANE_CTRL_ENABLE p) then
    if k.flag (F.LANE_CTRL_MAPOUT p) || !k.clocked p then k.mapOut t p none else k.laneBegin t p
  else k.laneEnter p lsOff

theorem Half.genEnable_lowered (hx : x.flag (F.LANE_PATTERN_GENEN p) = true) : x.genEnable t p false = (x.genStopped t p, []) := by
  unfold Half.genEnable
  rw [hx]
  rfl

/-- Its registers but LANE_PATTERN, LANE_STATUS and the overrun flags stay. -/
theorem Half.reg_genStopped (o : Nat) (ho : o ≠ (F.LANE_STATUS_word p).off) (hx : o ≠ F.SYS_XOVR_word.off) :
    (x.genStopped t p).reg o = (x.setFlag (F.LANE_PATTERN_GENEN p) false).reg o := by
  unfold Half.genStopped
  dsimp only
  exact Half.reg_ite (Half.reg_ite (Half.reg_mapOut_none _ t p o ho hx) (Half.reg_laneBegin _ t p o ho)) (Half.reg_laneEnter _ p lsOff o ho)

/-- The lane's state then, by its role, ENABLE, MAPOUT and its clock. -/
theorem Half.laneState_genStopped : (x.genStopped t p).laneState p =
    if (x.portRec p).role ≠ 2 ∧ x.get (F.LANE_CTRL_ENABLE p) = 0 then lsOff
    else if x.flag (F.LANE_CTRL_MAPOUT p) || !x.clocked p then lsMappedOut
    else if (x.portRec p).role = 2 then lsSdiHunt else lsCdr := by
  have ctrl (f : Field) (hf : f.off = (F.LANE_CTRL_word p).off) : (x.setFlag (F.LANE_PATTERN_GENEN p) false).flag f = x.flag f :=
    congrArg (· == 1) (Half.get_congr _ _ f (x.reg_setGenen p false _ (hf ▸ (offLane_pattern p).ctrl.symm)))
  have clocked := x.clocked_congr p (x.setFlag (F.LANE_PATTERN_GENEN p) false) (x.reg_setGenen p false _ (by
    simp only [F.RST_QUAL_word, F.LANE_PATTERN_word]; omega))
  have first : (x.setFlag (F.LANE_PATTERN_GENEN p) false).firstState p = if (x.portRec p).role = 2 then lsSdiHunt else lsCdr := by
    have off := Half.flag_of_get_zero _ _ (x.get_setGenen p false)
    unfold Half.firstState
    rw [off]
    rfl
  have enabled : (x.flag (F.LANE_CTRL_ENABLE p) = true) ↔ ¬ x.get (F.LANE_CTRL_ENABLE p) = 0 := by
    have := x.get_lt (F.LANE_CTRL_ENABLE p)
    simp only [F.LANE_CTRL_ENABLE, Half.flag, beq_iff_eq] at this ⊢
    omega
  have role : (x.setFlag (F.LANE_PATTERN_GENEN p) false).portRec p = x.portRec p := rfl
  unfold Half.genStopped
  dsimp only
  rw [ctrl (F.LANE_CTRL_ENABLE p) rfl, ctrl (F.LANE_CTRL_MAPOUT p) rfl, clocked, role]
  by_cases begins : (x.portRec p).role = 2 ∨ x.flag (F.LANE_CTRL_ENABLE p) = true
  · have notOff : ¬ ((x.portRec p).role ≠ 2 ∧ x.get (F.LANE_CTRL_ENABLE p) = 0) :=
      fun e => begins.elim e.1 fun on => enabled.mp on e.2
    rw [if_neg notOff, ← first, if_pos begins]
    split
    · exact Half.laneState_mapOut_none _ t p
    · exact Half.laneState_laneBegin _ t p
  · obtain ⟨role, off⟩ := not_or.mp begins
    have idle : (x.portRec p).role ≠ 2 ∧ x.get (F.LANE_CTRL_ENABLE p) = 0 := ⟨role, not_not.mp fun e => off (enabled.mpr e)⟩
    rw [if_pos idle, if_neg begins, Half.laneState_laneEnter _ p lsOff (by decide)]

end Generator

/-! ## The half after a write of GENEN or CHKEN -/

section Written
variable (x : Half) (t p : Nat) (hp : p < 24) (lo : Nat) (on : Bool) (hlo : lo = 3 ∨ lo = 7)
include hp hlo

/-- The checker's part of a write keeps GENEN, the plan of the ports and every register but the checker's own. -/
theorem Half.checkerWritten_keeps : (∀ o, OffChecker p o → (x.checkerWritten p lo on).reg o = x.reg o) ∧
    (x.checkerWritten p lo on).get (F.LANE_PATTERN_GENEN p) = x.get (F.LANE_PATTERN_GENEN p) ∧
    (x.checkerWritten p lo on).port.ports = x.port.ports ∧ (x.checkerWritten p lo on).inReset = x.inReset := by
  have same := x.patternHeld_same p hp lo on hlo
  obtain ⟨ports, inReset⟩ := (x.patternHeld p (x.patternWord p lo on)).ports_chkEnable p
    (if lo = 7 then on else x.flag (F.LANE_PATTERN_CHKEN p))
  exact ⟨fun o ho => (Half.reg_chkEnable _ p _ o ho).trans (same.2 o fun e => e), (Half.genen_chkEnable _ p _).trans (same.get _),
    ports.trans (congrArg PortSt.ports same.port), inReset.trans same.inReset⟩

end Written

/-- CHKEN written starts or stops the checker and sets GENEN as it stands. -/
theorem Half.writeLane_chken (x : Half) (t p : Nat) (hp : p < 24) (on : Bool) (hr : x.inReset = false) :
    x.writeLane t (F.LANE_PATTERN_word p).off (x.patternWord p 7 on) =
      (x.checkerWritten p 7 on).setFlag (F.LANE_PATTERN_GENEN p) (x.flag (F.LANE_PATTERN_GENEN p)) := by
  obtain ⟨-, genen, -, inReset⟩ := x.checkerWritten_keeps p hp 7 on (.inr rfl)
  have flag : (x.checkerWritten p 7 on).flag (F.LANE_PATTERN_GENEN p) = x.flag (F.LANE_PATTERN_GENEN p) := congrArg (· == 1) genen
  rw [x.writeLane_pattern t p hp 7 on (.inr rfl), if_neg (by decide),
    Half.genEnable_held _ t p _ flag, Half.reporting_nil t _ _ (inReset.trans hr)]

/-- GENEN written leaves the checker's enable and lock. -/
theorem Half.get_setGenen_other (x : Half) (p : Nat) (on : Bool) (f : Field) (hl : 4 ≤ f.lo) :
    (x.setFlag (F.LANE_PATTERN_GENEN p) on).get f = x.get f :=
  Half.get_setFlag_other x _ _ _ (Field.fits_of_ble rfl) (.inr (.inr hl))

/-- GENEN written leaves every other register's fields. -/
theorem Half.get_setGenen_off (x : Half) (p : Nat) (on : Bool) (f : Field) (hf : f.off ≠ (F.LANE_PATTERN_word p).off) :
    (x.setFlag (F.LANE_PATTERN_GENEN p) on).get f = x.get f :=
  Half.get_congr _ _ f (x.reg_setGenen p on _ hf)

section Fire
variable (x : Half) (t p : Nat) (hp : p < 24)
include hp

/-- The word that FIRE writes: its bit and the RW fields of LANE_INJECT as they stand. -/
theorem Half.getElem_fireWord (i : Nat) (hi : i < 32) : (putBits (x.heldWord (F.LANE_INJECT_word p).off) 31 1 1)[i] =
    if i = 31 then true else (x.reg (F.LANE_INJECT_word p).off)[i] && (0x7F0F00 : Word)[i] := by
  have held : x.heldWord (F.LANE_INJECT_word p).off = x.reg (F.LANE_INJECT_word p).off &&& 0x7F0F00#32 := by
    unfold Half.heldWord
    rw [regSpec_laneInject p hp]
    rfl
  have put := getElem_putFlag (x.heldWord (F.LANE_INJECT_word p).off) 31 true (by decide) i hi
  unfold putFlag at put
  exact put.trans (by rw [held, BitVec.getElem_and]; rfl)

/-- The word of FIRE leaves the RW fields of LANE_INJECT as they stand, so that every register reads as before. -/
theorem Half.injectHeld_same : x.onlyRegs (x.plainWrite (F.LANE_INJECT_word p).off
    (putBits (x.heldWord (F.LANE_INJECT_word p).off) 31 1 1)) fun _ => False := by
  refine x.plainWrite_same _ _ _ (regSpec_laneInject p hp) rfl rfl rfl (BitVec.eq_of_getElem_eq fun i hi => ?_)
  rw [BitVec.getElem_and, BitVec.getElem_and, x.getElem_fireWord p hp i hi]
  by_cases last : i = 31
  · have mask : (0x7F0F00#32)[i] = false :=
      (bitAt_toNat 0x7F0F00#32 i hi).symm.trans ((by decide : ∀ i < 32, i = 31 → bitAt 0x7F0F00 i = false) i hi last)
    exact (congrArg (_ && ·) mask).trans ((Bool.and_false _).trans ((congrArg (_ && ·) mask).trans (Bool.and_false _)).symm)
  · rw [if_neg last]
    exact (Bool.and_assoc _ _ _).trans (congrArg (_ && ·) (Bool.and_self _))

/-- FIRE adds its burst to those still to be sent (R119). -/
theorem Half.writeLane_fire : x.writeLane t (F.LANE_INJECT_word p).off (putBits (x.heldWord (F.LANE_INJECT_word p).off) 31 1 1) =
    (x.plainWrite (F.LANE_INJECT_word p).off (putBits (x.heldWord (F.LANE_INJECT_word p).off) 31 1 1)).fire p := by
  have index : ((F.LANE_INJECT_word p).off - 0x30000) / 0x800 = p := by simp only [F.LANE_INJECT_word]; omega
  have others : (F.LANE_INJECT_word p).off ≠ (F.LANE_CTRL_word p).off ∧ (F.LANE_INJECT_word p).off ≠ (F.LANE_EQ_word p).off ∧
      (F.LANE_INJECT_word p).off ≠ (F.LANE_PATTERN_word p).off := by
    simp only [F.LANE_INJECT_word, F.LANE_CTRL_word, F.LANE_EQ_word, F.LANE_PATTERN_word]
    omega
  obtain ⟨notCtrl, notEq, notPattern⟩ := others
  have fires : bitAt (putBits (x.heldWord (F.LANE_INJECT_word p).off) 31 1 1).toNat 31 = true := by
    rw [bitAt_toNat _ 31 (by decide), x.getElem_fireWord p hp 31 (by decide), if_pos rfl]
  have every : (x.plainWrite (F.LANE_INJECT_word p).off (putBits (x.heldWord (F.LANE_INJECT_word p).off) 31 1 1)).injectEvery p =
      x.injectEvery p := by
    unfold Half.injectEvery
    rw [(x.injectHeld_same p hp).get]
  unfold Half.writeLane
  dsimp only
  rw [index, if_neg (by omega), if_neg notCtrl, if_neg notEq, if_neg notPattern, if_pos rfl, fires, if_pos rfl, if_pos every]

end Fire

/-! ## The statement -/

section Arms
variable (h : HalfId) (p master : Nat) (s : State)

theorem exec_genen (on : Bool) : exec (.genen h p master on) s = s.laneField h p master F.LANE_PATTERN_GENEN (bit on) := rfl
theorem exec_chken (on : Bool) : exec (.chken h p master on) s = s.laneField h p master F.LANE_PATTERN_CHKEN (bit on) := rfl
theorem exec_fire : exec (.fire h p master) s = s.laneField h p master F.LANE_INJECT_FIRE 1 := rfl

end Arms

/-- Settles O20: each command writes one field of its lane's register, the other fields as they stand, so that the half changes as
the generator, the checker or the injection says. -/
theorem patterns : Obligations.Patterns := by
  unfold Obligations.Patterns
  intro s h p master hs hp hr
  have only (k : Half) := s.mod.onlyHalf_setHalf h k
  have half (k : Half) : (s.mod.setHalf h k).half h = k := Module.half_setHalf _ _ _
  have block : (F.LANE_PATTERN_word p).off / 0x10000 = 3 ∧ OffLinks (F.LANE_PATTERN_word p).off := by
    simp only [OffLinks, F.LANE_PATTERN_word]
    omega
  have apart := checker_apart p
  have status := (offLinks_laneWord p hp).2
  have rst : OffChecker p F.RST_STATE_MODE.off := by
    constructor <;> simp only [F.RST_STATE_MODE, F.LANE_PATTERN_word, F.LANE_CHKERR_word, F.LANE_CHKBITS_word] <;> omega
  have xovr : (F.LANE_PATTERN_word p).off ≠ F.SYS_XOVR_word.off := by simp only [F.LANE_PATTERN_word, F.SYS_XOVR_word]; omega
  simp only [exec_genen, exec_chken, exec_fire]
  refine ⟨fun hg => ⟨fun low => ?raise, fun high => ?lower, fun low => ?check, fun high => ?uncheck⟩, fun hg has => ?fire⟩
  case raise =>
    obtain ⟨regs, genen, ports, inReset⟩ := (s.mod.half h).checkerWritten_keeps p hp 3 true (.inl rfl)
    have run := (s.mod.half h).writeLane_pattern s.now p hp 3 true (.inl rfl)
    generalize (s.mod.half h).checkerWritten p 3 true = k at regs genen ports inReset run
    rw [if_pos rfl, k.genEnable_raised s.now p (Half.flag_of_get_zero _ _ (genen.trans low))] at run
    obtain ⟨on, state, kept⟩ := k.generating_does p
    have reported (f : Field) (ho : OffLinks f.off) (hf : f.lo + f.width ≤ 31) :=
      Half.get_laneReporting k (k.generating p) s.now p f (inReset.trans hr) ho hf
    have mode := (reported F.RST_STATE_MODE (by decide) (by decide)).trans (Half.mode_congr _ _
      ((kept _ rst.pattern (offLane_rst p _ (by decide)).status).trans (regs _ rst)))
    refine ⟨_, s.laneField_does h p master F.LANE_PATTERN_GENEN 1 _ hs hp block.1 hg run mode, ?_⟩
    rw [half]
    exact ⟨(reported (F.LANE_PATTERN_GENEN p) block.2 (Nat.le_of_ble_eq_true rfl)).trans on,
      (reported (F.LANE_STATUS_STATE p) status (Nat.le_of_ble_eq_true rfl)).trans state, only _⟩
  case lower =>
    obtain ⟨regs, genen, ports, inReset⟩ := (s.mod.half h).checkerWritten_keeps p hp 3 false (.inl rfl)
    have run := (s.mod.half h).writeLane_pattern s.now p hp 3 false (.inl rfl)
    generalize (s.mod.half h).checkerWritten p 3 false = k at regs genen ports inReset run
    rw [if_pos rfl, k.genEnable_lowered s.now p (congrArg (· == 1) (genen.trans high)),
      Half.reporting_nil s.now k _ (inReset.trans hr)] at run
    have kept (o : Nat) (hs : o ≠ (F.LANE_STATUS_word p).off) (hx : o ≠ F.SYS_XOVR_word.off) := k.reg_genStopped s.now p o hs hx
    have mode : (k.genStopped s.now p).mode = (s.mod.half h).mode := Half.mode_congr _ _
      ((kept _ (offLane_rst p _ (by decide)).status (by decide)).trans ((k.reg_setGenen p false _ rst.pattern).trans (regs _ rst)))
    have ctrl : OffChecker p (F.LANE_CTRL_word p).off := by
      constructor <;> simp only [F.LANE_CTRL_word, F.LANE_PATTERN_word, F.LANE_CHKERR_word, F.LANE_CHKBITS_word] <;> omega
    have qual : OffChecker p F.RST_QUAL_word.off := by
      constructor <;> simp only [F.RST_QUAL_word, F.LANE_PATTERN_word, F.LANE_CHKERR_word, F.LANE_CHKBITS_word] <;> omega
    have enable := Half.get_congr _ _ (F.LANE_CTRL_ENABLE p) (regs _ ctrl)
    have mapout : k.flag (F.LANE_CTRL_MAPOUT p) = _ := congrArg (· == 1) (Half.get_congr _ _ (F.LANE_CTRL_MAPOUT p) (regs _ ctrl))
    have clocked := (s.mod.half h).clocked_congr p k (regs _ qual)
    have role : k.portRec p = (s.mod.half h).portRec p := congrArg (fun l : List _ => l.getD p _) ports
    refine ⟨_, s.laneField_does h p master F.LANE_PATTERN_GENEN 0 _ hs hp block.1 hg run mode, ?_⟩
    rw [half, k.laneState_genStopped s.now p, enable, mapout, clocked, role]
    refine ⟨?genen, rfl, only _⟩
    exact (Half.get_congr _ _ (F.LANE_PATTERN_GENEN p) (kept _ (offLane_pattern p).status xovr)).trans (k.get_setGenen p false)
  case check =>
    have same := (s.mod.half h).patternHeld_same p hp 7 true (.inr rfl)
    obtain ⟨enable, lock, errors, units⟩ := Half.chkEnable_on _ p ((congrArg (· == 1) (same.get (F.LANE_PATTERN_CHKEN p))).trans
      (Half.flag_of_get_zero _ _ low))
    have regs := ((s.mod.half h).checkerWritten_keeps p hp 7 true (.inr rfl)).1
    have kept (o : Nat) (ho : OffChecker p o) :=
      (Half.reg_setGenen _ p ((s.mod.half h).flag (F.LANE_PATTERN_GENEN p)) o ho.pattern).trans (regs o ho)
    refine ⟨_, s.laneField_does h p master F.LANE_PATTERN_CHKEN 1 _ hs hp block.1 hg
      ((s.mod.half h).writeLane_chken s.now p hp true hr) (Half.mode_congr _ _ (kept _ rst)), ?_⟩
    rw [half]
    exact ⟨(Half.get_setGenen_other _ p _ (F.LANE_PATTERN_CHKEN p) (Nat.le_of_ble_eq_true rfl)).trans enable,
      (Half.get_setGenen_other _ p _ (F.LANE_PATTERN_CHKLOCK p) (Nat.le_of_ble_eq_true rfl)).trans lock,
      (Half.get_setGenen_off _ p _ _ apart.1.symm).trans errors, (Half.get_setGenen_off _ p _ _ apart.2.1.symm).trans units,
      fun o pattern err bits => kept o ⟨pattern, err, bits⟩, only _⟩
  case uncheck =>
    have same := (s.mod.half h).patternHeld_same p hp 7 false (.inr rfl)
    obtain ⟨enable, lock, regs⟩ := ((s.mod.half h).patternHeld p ((s.mod.half h).patternWord p 7 false)).chkEnable_off p
    have kept (o : Nat) (ho : o ≠ (F.LANE_PATTERN_word p).off) :=
      (Half.reg_setGenen _ p ((s.mod.half h).flag (F.LANE_PATTERN_GENEN p)) o ho).trans ((regs o ho).trans (same.2 o fun e => e))
    refine ⟨_, s.laneField_does h p master F.LANE_PATTERN_CHKEN 0 _ hs hp block.1 hg
      ((s.mod.half h).writeLane_chken s.now p hp false hr) (Half.mode_congr _ _ (kept _ rst.pattern)), ?_⟩
    rw [half]
    exact ⟨(Half.get_setGenen_other _ p _ (F.LANE_PATTERN_CHKEN p) (Nat.le_of_ble_eq_true rfl)).trans enable,
      (Half.get_setGenen_other _ p _ (F.LANE_PATTERN_CHKLOCK p) (Nat.le_of_ble_eq_true rfl)).trans lock, kept, only _⟩
  case fire =>
    have same := (s.mod.half h).injectHeld_same p hp
    have run := (s.mod.half h).writeLane_fire s.now p hp
    generalize (s.mod.half h).plainWrite _ _ = k at same run
    have kept (o : Nat) : (k.fire p).reg o = (s.mod.half h).reg o := same.2 o fun e => e
    have lanes : k.lane p = (s.mod.half h).lane p := congrArg (fun q : PortSt => q.lanes.getD p Lane.reset) same.port
    have fired : (k.fire p).lane p = _ := k.lane_onLane_same p _ (same.port ▸ has)
    refine ⟨_, s.laneField_does h p master F.LANE_INJECT_FIRE 1 _ hs hp ?block hg run (Half.mode_congr _ _ (kept _)), ?_⟩
    case block => simp only [F.LANE_INJECT_FIRE]; omega
    rw [half, fired, lanes, same.get]
    exact ⟨rfl, rfl, fun o _ => kept o, only _⟩

end Sys2Proof.Machine
end

section
/-!
SUPPORT. The samples of the lamplighter (R364 to R370): what a sample keeps, the conditions of LIVE_OK it shows, and the fault of a
lamplighter that stops; with them the statement on health lines, LIVE_OK and the holds of the bypasses.
-/
namespace Sys2Proof.Machine

/-! ## Fields of the lamplighter -/

/-- A flag just set reads as set. -/
theorem Lamp.flag_setFlag_same (l : Lamp) (f : Field) (b : Bool) (hf : f.fits) (hw : f.width = 1) : (l.setFlag f b).flag f = b := by
  unfold Lamp.flag Lamp.setFlag
  rw [Lamp.get_set_same l f _ hf, hw]
  cases b <;> rfl

theorem Lamp.flag_setFlag_other (l : Lamp) (f g : Field) (b : Bool) (hf : f.fits) (hg : f.apart g) : (l.setFlag f b).flag g = l.flag g :=
  congrArg (· == 1) (Lamp.get_setFlag_other l f g b hf hg)

/-- The fields are read from the registers alone. -/
theorem Lamp.get_of_regs {l k : Lamp} (h : k.regs = l.regs) (f : Field) : k.get f = l.get f := by
  unfold Lamp.get Lamp.reg
  rw [h]

/-- A record of a half changed changes no field. -/
theorem Lamp.get_onHalf (l : Lamp) (h : HalfId) (f : LampHalf → LampHalf) (g : Field) : (l.onHalf h f).get g = l.get g := by
  cases h <;> rfl

/-! ## Pairs opened and closed -/

/-- A register outside the LANE block is no lane's STATUS. -/
theorem laneStatus_off (p o : Nat) (hp : p < 24) (ho : o / 0x10000 ≠ 3) : o ≠ (F.LANE_STATUS_BYPASS p).off := by
  simp only [F.LANE_STATUS_BYPASS]
  omega

/-- Opening and closing the bypass pairs change STATUS registers of lanes only. -/
theorem Half.reg_openPairs (x : Half) (o : Nat) (ho : o / 0x10000 ≠ 3) : x.openPairs.reg o = x.reg o := by
  have opened (y : Half) (p : Nat) (hp : p < 24) :
      (if y.flag (F.LANE_CTRL_OPEN p) then y.set (F.LANE_STATUS_BYPASS p) 1 else y).reg o = y.reg o :=
    Half.reg_ite (Half.reg_set_other y (F.LANE_STATUS_BYPASS p) 1 o (laneStatus_off p o hp ho)) rfl
  unfold Half.openPairs
  rw [List.foldl_cons, List.foldl_cons, List.foldl_cons, List.foldl_cons, List.foldl_nil, opened _ 19 (by decide),
    opened _ 18 (by decide), opened _ 17 (by decide), opened _ 16 (by decide)]

theorem Half.reg_closePairs (x : Half) (o : Nat) (ho : o / 0x10000 ≠ 3) : x.closePairs.reg o = x.reg o := by
  have closed (y : Half) (p : Nat) (hp : p < 24) : (y.set (F.LANE_STATUS_BYPASS p) 0).reg o = y.reg o :=
    Half.reg_set_other y (F.LANE_STATUS_BYPASS p) 0 o (laneStatus_off p o hp ho)
  unfold Half.closePairs
  rw [List.foldl_cons, List.foldl_cons, List.foldl_cons, List.foldl_cons, List.foldl_nil, closed _ 19 (by decide),
    closed _ 18 (by decide), closed _ 17 (by decide), closed _ 16 (by decide)]

theorem Half.openPairs_inReset (x : Half) : x.openPairs.inReset = x.inReset := by
  unfold Half.openPairs
  simp only [List.foldl_cons, List.foldl_nil]
  split_ifs <;> rfl

/-! ## A sample of the holds (R366) -/

/-- What the samples of the holds leave: the lamplighter's phase and LIVE_OK, flash and fuse, and what health reads of a half. -/
structure Module.HoldKeeps (m k : Module) : Prop where
  phase : k.lamp.phase = m.lamp.phase
  liveFrom : k.lamp.liveFrom = m.lamp.liveFrom
  liveOk : k.lamp.get F.LMP_STATUS_LIVEOK = m.lamp.get F.LMP_STATUS_LIVEOK
  grant : k.lamp.get F.LMP_LIVE_GRANT = m.lamp.get F.LMP_LIVE_GRANT
  flash : k.flash = m.flash
  fuse : k.fuse = m.fuse
  inReset : ∀ h, (k.half h).inReset = (m.half h).inReset
  mode : ∀ h, (k.half h).mode = (m.half h).mode
  healthAt : ∀ h, (k.lamp.half h).healthAt = (m.lamp.half h).healthAt

theorem Module.HoldKeeps.trans {m k n : Module} (a : m.HoldKeeps k) (b : k.HoldKeeps n) : m.HoldKeeps n where
  phase := b.phase.trans a.phase
  liveFrom := b.liveFrom.trans a.liveFrom
  liveOk := b.liveOk.trans a.liveOk
  grant := b.grant.trans a.grant
  flash := b.flash.trans a.flash
  fuse := b.fuse.trans a.fuse
  inReset h := (b.inReset h).trans (a.inReset h)
  mode h := (b.mode h).trans (a.mode h)
  healthAt h := (b.healthAt h).trans (a.healthAt h)

/-- So a half's health reads the same. -/
theorem Module.HoldKeeps.healthBad {m k : Module} (a : m.HoldKeeps k) (t : Nat) (h : HalfId) : k.healthBad t h = m.healthBad t h := by
  unfold Module.healthBad
  dsimp only
  rw [a.inReset, a.mode, a.healthAt]

/-- The fields of LIVE_OK lie apart from those that show a kick line and a hold. -/
theorem holdFields_apart (h : HalfId) : (kickField h).apart F.LMP_STATUS_LIVEOK ∧ (holdField h).apart F.LMP_STATUS_LIVEOK ∧
    (kickField h).apart F.LMP_LIVE_GRANT ∧ (holdField h).apart F.LMP_LIVE_GRANT ∧ (kickField h).fits ∧ (holdField h).fits := by
  cases h <;> decide

/-- The lamplighter with the kick line and the hold of a half shown. -/
def Lamp.showHold (l : Lamp) (h : HalfId) (kick on : Bool) : Lamp := (l.setFlag (kickField h) kick).setFlag (holdField h) on

theorem Lamp.get_showHold (l : Lamp) (h : HalfId) (kick on : Bool) (f : Field) (hk : (kickField h).apart f) (hh : (holdField h).apart f) :
    (l.showHold h kick on).get f = l.get f :=
  (Lamp.get_setFlag_other _ (holdField h) f on (holdFields_apart h).2.2.2.2.2 hh).trans
    (Lamp.get_setFlag_other l (kickField h) f kick (holdFields_apart h).2.2.2.2.1 hk)

/-- The hold toggled: its line, and the pairs that ask for it. -/
def Module.toggleHold (m : Module) (t : Nat) (h : HalfId) : Module :=
  (m.onLamp fun l => l.onHalf h fun (x : LampHalf) => { x with holdLine := !x.holdLine, holdAt := some t }).onHalf h Half.openPairs

/-- A sample shows the kick line and the hold of a half, and toggles the hold. -/
theorem Module.sampleHold_eq (m : Module) (t : Nat) (h : HalfId) : m.sampleHold t h =
    let shown := m.onLamp fun l => l.showHold h ((l.half h).kicked t) (m.holds t h)
    if m.holds t h then shown.toggleHold t h else shown := rfl

theorem Module.holdKeeps_showHold (m : Module) (h : HalfId) (kick on : Bool) : m.HoldKeeps (m.onLamp fun l => l.showHold h kick on) :=
  have ⟨kl, hl, kg, hg, _⟩ := holdFields_apart h
  { phase := rfl, liveFrom := rfl, flash := rfl, fuse := rfl, inReset := fun _ => rfl, mode := fun _ => rfl, healthAt := fun _ => rfl
    liveOk := m.lamp.get_showHold h kick on _ kl hl
    grant := m.lamp.get_showHold h kick on _ kg hg }

/-- What a change of one half keeps of it is kept of every half. -/
theorem Module.onHalf_keeps {α : Type} (m : Module) (h : HalfId) (f : Half → Half) (g : Half → α)
    (hf : g (f (m.half h)) = g (m.half h)) (k : HalfId) : g ((m.onHalf h f).half k) = g (m.half k) := by
  cases h <;> cases k
  · exact hf
  · rfl
  · rfl
  · exact hf

theorem Lamp.onHalf_keeps {α : Type} (l : Lamp) (h : HalfId) (f : LampHalf → LampHalf) (g : LampHalf → α)
    (hf : g (f (l.half h)) = g (l.half h)) (k : HalfId) : g ((l.onHalf h f).half k) = g (l.half k) := by
  cases h <;> cases k
  · exact hf
  · rfl
  · rfl
  · exact hf

theorem Module.holdKeeps_toggleHold (m : Module) (t : Nat) (h : HalfId) : m.HoldKeeps (m.toggleHold t h) := by
  have halves {α : Type} (g : Half → α) (hg : ∀ x : Half, g x.openPairs = g x) (k : HalfId) :
      g ((m.toggleHold t h).half k) = g (m.half k) :=
    (Module.onHalf_keeps _ h Half.openPairs g (hg _) k).trans (congrArg g (Module.half_onLamp m k _))
  have lamp : (m.toggleHold t h).lamp =
      m.lamp.onHalf h fun (x : LampHalf) => { x with holdLine := !x.holdLine, holdAt := some t } := Module.onHalf_lamp _ h _
  exact {
    phase := by rw [lamp, Lamp.onHalf_phase]
    liveFrom := by rw [lamp, Lamp.onHalf_liveFrom]
    liveOk := by rw [lamp, Lamp.get_onHalf]
    grant := by rw [lamp, Lamp.get_onHalf]
    flash := Module.onHalf_flash _ h _
    fuse := Module.onHalf_fuse _ h _
    inReset := halves Half.inReset Half.openPairs_inReset
    mode := halves Half.mode fun x => Half.mode_congr _ _ (x.reg_openPairs _ (by decide))
    healthAt := fun k => by rw [lamp]; exact m.lamp.onHalf_keeps h _ LampHalf.healthAt rfl k }

/-- So both samples of the holds keep it. -/
theorem Module.holdKeeps_sampleHold (m : Module) (t : Nat) (h : HalfId) : m.HoldKeeps (m.sampleHold t h) := by
  have shown := m.holdKeeps_showHold h ((m.lamp.half h).kicked t) (m.holds t h)
  rw [Module.sampleHold_eq]
  dsimp only
  split
  · exact shown.trans (Module.holdKeeps_toggleHold _ t h)
  · exact shown

/-! ## A sample of the conditions of LIVE_OK (R368) -/

/-- The lamplighter with the conditions of LIVE_OK shown but for GRANT. -/
def Module.conditions (m : Module) (t : Nat) : Lamp :=
  (((m.lamp.setFlag F.LMP_LIVE_NOTRUNNING (m.lamp.phase != .running)).setFlag F.LMP_LIVE_KEYOPEN m.keyOpen).setFlag
    F.LMP_LIVE_H0BAD (m.healthBad t .h0)).setFlag F.LMP_LIVE_H1BAD (m.healthBad t .h1)

/-- Each condition reads as it is. -/
theorem Module.flag_conditions (m : Module) (t : Nat) :
    (m.conditions t).flag F.LMP_LIVE_NOTRUNNING = (m.lamp.phase != .running) ∧
    (m.conditions t).flag F.LMP_LIVE_KEYOPEN = m.keyOpen ∧ (m.conditions t).flag F.LMP_LIVE_H0BAD = m.healthBad t .h0 ∧
    (m.conditions t).flag F.LMP_LIVE_H1BAD = m.healthBad t .h1 ∧ (m.conditions t).flag F.LMP_LIVE_GRANT = m.lamp.flag F.LMP_LIVE_GRANT ∧
    (m.conditions t).get F.LMP_STATUS_LIVEOK = m.lamp.get F.LMP_STATUS_LIVEOK := by
  have other (l : Lamp) (f g : Field) (b : Bool) (hf : f.fits) (hg : f.apart g) := Lamp.flag_setFlag_other l f g b hf hg
  unfold Module.conditions
  refine ⟨?running, ?key, ?h0, ?h1, ?grant, ?liveOk⟩
  case running =>
    rw [other _ _ _ _ (by decide) (by decide), other _ _ _ _ (by decide) (by decide), other _ _ _ _ (by decide) (by decide),
      Lamp.flag_setFlag_same _ _ _ (by decide) rfl]
  case key =>
    rw [other _ _ _ _ (by decide) (by decide), other _ _ _ _ (by decide) (by decide), Lamp.flag_setFlag_same _ _ _ (by decide) rfl]
  case h0 => rw [other _ _ _ _ (by decide) (by decide), Lamp.flag_setFlag_same _ _ _ (by decide) rfl]
  case h1 => rw [Lamp.flag_setFlag_same _ _ _ (by decide) rfl]
  case grant =>
    rw [other _ _ _ _ (by decide) (by decide), other _ _ _ _ (by decide) (by decide), other _ _ _ _ (by decide) (by decide),
      other _ _ _ _ (by decide) (by decide)]
  case liveOk =>
    rw [Lamp.get_setFlag_other _ _ _ _ (by decide) (by decide), Lamp.get_setFlag_other _ _ _ _ (by decide) (by decide),
      Lamp.get_setFlag_other _ _ _ _ (by decide) (by decide), Lamp.get_setFlag_other _ _ _ _ (by decide) (by decide)]

/-- Some condition of LIVE_OK does not hold. -/
def Module.liveBad (m : Module) (t : Nat) : Bool :=
  m.lamp.phase != .running || m.keyOpen || m.healthBad t .h0 || m.healthBad t .h1 || m.lamp.flag F.LMP_LIVE_GRANT

/-- LIVE shown; LIVE_OK driven low where some condition does not hold, its toggle triggered where all do. -/
def Module.showLive (m : Module) (t : Nat) (bad : Bool) : Module :=
  let l := (m.conditions t).setFlag F.LMP_LIVE_LIVE (!bad)
  if bad then { m with lamp := l.liveLow } else { m with lamp := { l with liveFrom := some (l.liveFrom.getD t), liveTrig := t } }

/-- A sample of LIVE_OK shows its conditions. -/
theorem Module.sampleLive_eq (m : Module) (t : Nat) : m.sampleLive t = m.showLive t (m.liveBad t) := by
  obtain ⟨running, key, h0, h1, grant, -⟩ := m.flag_conditions t
  have bad : ([F.LMP_LIVE_NOTRUNNING, F.LMP_LIVE_KEYOPEN, F.LMP_LIVE_H0BAD, F.LMP_LIVE_H1BAD, F.LMP_LIVE_GRANT].any fun f =>
      (m.conditions t).flag f) = m.liveBad t := by
    simp only [List.any_cons, List.any_nil, Bool.or_false, running, key, h0, h1, grant, Module.liveBad, Bool.or_assoc]
  rw [← bad]
  rfl

/-- HEART alone steps. -/
theorem Lamp.get_heartBeat (l : Lamp) (t : Nat) (f : Field) (hf : F.LMP_STATUS_HEART.apart f) : (l.heartBeat t).get f = l.get f := by
  unfold Lamp.heartBeat
  split
  · exact Lamp.get_set_other l F.LMP_STATUS_HEART f _ (by decide) hf
  · rfl

theorem Lamp.live_heartBeat (l : Lamp) (t : Nat) : (l.heartBeat t).liveFrom = l.liveFrom ∧ (l.heartBeat t).liveTrig = l.liveTrig := by
  unfold Lamp.heartBeat
  split <;> exact ⟨rfl, rfl⟩

/-- The lamplighter with its next instants set. -/
def Lamp.withDue (l : Lamp) (d : LampDue) : Lamp := { l with due := d }

theorem Lamp.withDue_reads (l : Lamp) (d : LampDue) : (l.withDue d).regs = l.regs ∧ (l.withDue d).liveFrom = l.liveFrom ∧
    (l.withDue d).liveTrig = l.liveTrig ∧ (l.withDue d).due = d := ⟨rfl, rfl, rfl, rfl⟩

/-- The lamplighter with its heart's step and the next sample set. -/
def Lamp.nextSample (l : Lamp) (t : Nat) : Lamp := (l.heartBeat t).withDue { l.due with sample := t + 30500 }

theorem Lamp.get_nextSample (l : Lamp) (t : Nat) (f : Field) (hf : F.LMP_STATUS_HEART.apart f) : (l.nextSample t).get f = l.get f := by
  unfold Lamp.nextSample
  rw [Lamp.get_of_regs (Lamp.withDue_reads _ _).1 f, l.get_heartBeat t f hf]

theorem Lamp.live_nextSample (l : Lamp) (t : Nat) : (l.nextSample t).liveFrom = l.liveFrom ∧ (l.nextSample t).liveTrig = l.liveTrig ∧
    (l.nextSample t).due.sample = t + 30500 := by
  obtain ⟨-, since, trig, due⟩ := (l.heartBeat t).withDue_reads { l.due with sample := t + 30500 }
  unfold Lamp.nextSample
  rw [since, trig, due, (l.live_heartBeat t).1, (l.live_heartBeat t).2]
  exact ⟨rfl, rfl, rfl⟩

/-- The module after both samples of the holds. -/
def Module.held (m : Module) (t : Nat) : Module := (m.sampleHold t .h0).sampleHold t .h1

theorem Module.holdKeeps_held (m : Module) (t : Nat) : m.HoldKeeps (m.held t) :=
  (m.holdKeeps_sampleHold t .h0).trans (Module.holdKeeps_sampleHold _ t .h1)

/-- A sample of a lamplighter that goes on: the holds, LIVE_OK, its heart and the next sample. -/
theorem Module.lampSample_alive (m : Module) (t : Nat) (ha : m.lamp.alive = true) :
    m.lampSample t = ((m.held t).showLive t ((m.held t).liveBad t)).onLamp fun l => l.nextSample t := by
  rw [← Module.sampleLive_eq]
  exact if_pos ha

/-- A condition that does not hold drives LIVE_OK low. -/
theorem Module.showLive_bad (m : Module) (t : Nat) : (m.showLive t true).lamp.get F.LMP_STATUS_LIVEOK = 0 ∧
    (m.showLive t true).lamp.flag F.LMP_LIVE_NOTRUNNING = (m.lamp.phase != .running) ∧ (m.showLive t true).flash = m.flash ∧
    (m.showLive t true).fuse = m.fuse := by
  have shown : (m.showLive t true).lamp = ((m.conditions t).setFlag F.LMP_LIVE_LIVE false).liveLow := rfl
  rw [shown]
  refine ⟨(Lamp.liveLow_live _).1, ?running, rfl, rfl⟩
  exact (congrArg (· == 1) (Lamp.get_liveLow _ F.LMP_LIVE_NOTRUNNING (by decide) (by decide))).trans
    ((Lamp.flag_setFlag_other _ F.LMP_LIVE_LIVE F.LMP_LIVE_NOTRUNNING _ (by decide) (by decide)).trans (m.flag_conditions t).1)

/-- Every condition holding, LIVE is shown and the toggle triggered. -/
theorem Module.showLive_good (m : Module) (t : Nat) : (m.showLive t false).lamp.get F.LMP_LIVE_LIVE = 1 ∧
    (m.showLive t false).lamp.get F.LMP_STATUS_LIVEOK = m.lamp.get F.LMP_STATUS_LIVEOK ∧
    (m.showLive t false).lamp.liveFrom = some (m.lamp.liveFrom.getD t) ∧ (m.showLive t false).lamp.liveTrig = t := by
  refine ⟨Lamp.get_set_of_lt (m.conditions t) F.LMP_LIVE_LIVE 1 (by decide) (by decide), ?liveOk, rfl, rfl⟩
  obtain ⟨-, -, -, -, -, liveOk⟩ := m.flag_conditions t
  exact (Lamp.get_setFlag_other (m.conditions t) F.LMP_LIVE_LIVE F.LMP_STATUS_LIVEOK true (by decide) (by decide)).trans liveOk

/-- A sample at which every condition holds shows LIVE and triggers the toggle. -/
theorem Module.lampSample_good (m : Module) (t : Nat) (ha : m.lamp.alive = true) (running : m.lamp.phase = .running)
    (fuse : m.fuse ≠ none) (grant : m.lamp.get F.LMP_LIVE_GRANT = 0) (healthy : ∀ h, m.healthBad t h = false) :
    (m.lampSample t).lamp.get F.LMP_LIVE_LIVE = 1 ∧ (m.lampSample t).lamp.get F.LMP_STATUS_LIVEOK = m.lamp.get F.LMP_STATUS_LIVEOK ∧
    (m.lampSample t).lamp.liveFrom = some (m.lamp.liveFrom.getD t) ∧ (m.lampSample t).lamp.liveTrig = t ∧
    (m.lampSample t).lamp.due.sample = t + 30500 ∧ (∀ h, ((m.lampSample t).half h).inReset = (m.half h).inReset) ∧
    (m.lampSample t).flash = m.flash ∧ (m.lampSample t).fuse = m.fuse := by
  have keeps := m.holdKeeps_held t
  have good : (m.held t).liveBad t = false := by
    unfold Module.liveBad Module.keyOpen
    rw [keeps.phase, keeps.fuse, keeps.healthBad, keeps.healthBad, healthy, healthy, running,
      Option.isNone_eq_false_iff.mpr (Option.isSome_iff_ne_none.mpr fuse), Lamp.flag, keeps.grant, grant]
    rfl
  obtain ⟨live, liveOk, since, trig⟩ := (m.held t).showLive_good t
  have sample := m.lampSample_alive t ha
  rw [good] at sample
  generalize hk : (m.held t).showLive t false = k at live liveOk since trig sample
  have halves (h : HalfId) : k.half h = (m.held t).half h := by rw [← hk]; cases h <;> rfl
  have rest : k.flash = (m.held t).flash ∧ k.fuse = (m.held t).fuse := by rw [← hk]; exact ⟨rfl, rfl⟩
  rw [sample]
  obtain ⟨nextSince, nextTrig, next⟩ := k.lamp.live_nextSample t
  rw [Module.onLamp_lamp, Module.onLamp_flash, Module.onLamp_fuse, Lamp.get_nextSample _ t _ (by decide),
    Lamp.get_nextSample _ t _ (by decide), live, liveOk, keeps.liveOk, nextSince, nextTrig, since, trig, next, keeps.liveFrom]
  exact ⟨rfl, rfl, rfl, rfl, rfl, fun h => by rw [Module.half_onLamp, halves, keeps.inReset], rest.1.trans keeps.flash,
    rest.2.trans keeps.fuse⟩

/-- One outside RUNNING keeps LIVE_OK low and shows NOTRUNNING. -/
theorem Module.lampSample_low (m : Module) (t : Nat) (ha : m.lamp.alive = true) (running : m.lamp.phase ≠ .running) :
    (m.lampSample t).lamp.get F.LMP_STATUS_LIVEOK = 0 ∧ (m.lampSample t).lamp.get F.LMP_LIVE_NOTRUNNING = 1 ∧
    (m.lampSample t).flash = m.flash ∧ (m.lampSample t).fuse = m.fuse := by
  have keeps := m.holdKeeps_held t
  have phase : ((m.held t).lamp.phase != .running) = true := by rw [keeps.phase]; exact bne_iff_ne.mpr running
  have bad : (m.held t).liveBad t = true := by
    unfold Module.liveBad
    rw [phase]
    rfl
  obtain ⟨liveOk, shown, flash, fuse⟩ := (m.held t).showLive_bad t
  have sample := m.lampSample_alive t ha
  rw [bad] at sample
  rw [phase] at shown
  generalize (m.held t).showLive t true = k at liveOk shown flash fuse sample
  rw [sample]
  rw [Module.onLamp_lamp, Module.onLamp_flash, Module.onLamp_fuse, Lamp.get_nextSample _ t _ (by decide),
    Lamp.get_nextSample _ t _ (by decide)]
  exact ⟨liveOk, beq_iff_eq.mp shown, flash.trans keeps.flash, fuse.trans keeps.fuse⟩

/-! ## The lamplighter that stops (R370) -/

/-- The register of LMPSTOP is none that an event writes. -/
theorem Half.supv_raise (x : Half) (n : Nat) : (x.raise n).reg F.ENG_SUPV_word.off = x.reg F.ENG_SUPV_word.off := by
  have raised (y : Half) (e : Nat) (he : e < 4) : (y.raiseAt e n).reg F.ENG_SUPV_word.off = y.reg F.ENG_SUPV_word.off := by
    have pend : F.ENG_SUPV_word.off ≠ (F.ENG_IRQPEND_PEND e).off := by simp only [F.ENG_SUPV_word, F.ENG_IRQPEND_PEND]; omega
    have ovr : F.ENG_SUPV_word.off ≠ (F.ENG_IRQOVR_OVR e).off := by simp only [F.ENG_SUPV_word, F.ENG_IRQOVR_OVR]; omega
    unfold Half.raiseAt
    exact Half.reg_ite (Half.reg_set_other y (F.ENG_IRQOVR_OVR e) _ _ ovr) (Half.reg_set_other y (F.ENG_IRQPEND_PEND e) _ _ pend)
  unfold Half.raise
  rw [raised _ 3 (by decide), raised _ 2 (by decide), raised _ 1 (by decide), raised _ 0 (by decide)]

/-- A fault leaves it. -/
theorem Half.supv_fault (x : Half) (t c k u : Nat) (d : List Byte) (hc : 1 ≤ c ∧ c ≤ 16) :
    (x.fault t c k u d).reg F.ENG_SUPV_word.off = x.reg F.ENG_SUPV_word.off := by
  have tally := classField_block c hc
  unfold Half.fault Half.writeEntry
  dsimp only
  rw [Half.reg_note, Half.supv_raise, Half.reg_send, Half.reg_tally_block _ _ _ _ (by rw [tally]; decide),
    Half.reg_set_other _ _ _ _ (by decide), Half.reg_set_other _ _ _ _ (by decide)]
  exact Half.reg_ite (Half.reg_set_other x F.FLT_STATUS_WRAPPED _ _ (by decide)) rfl

/-- A starter records that the lamplighter has stopped. -/
def Half.recordStop (x : Half) (t : Nat) : Half :=
  let k := x.set F.ENG_SUPV_LMPSTOP 1
  k.fault t clsPwr 5 0xFF (k.wordBytes F.PACE_REG_word.off)

theorem Half.recordStop_does (x : Half) (t : Nat) : (x.recordStop t).get F.ENG_SUPV_LMPSTOP = 1 ∧
    (x.recordStop t).get F.FLT_HEAD_SEQ = (x.get F.FLT_HEAD_SEQ + 1) % 2 ^ 32 := by
  unfold Half.recordStop
  constructor
  · exact (Half.get_congr _ _ F.ENG_SUPV_LMPSTOP (Half.supv_fault _ t clsPwr 5 0xFF _ (by decide))).trans
      (Half.get_set_of_lt x F.ENG_SUPV_LMPSTOP 1 (by decide) (by decide))
  · exact (Half.fault_seq _ t clsPwr 5 0xFF _)
      |>.trans (by rw [Half.get_set_other x F.ENG_SUPV_LMPSTOP F.FLT_HEAD_SEQ 1 (by decide) (by decide)])

/-- The lamplighter as it stops: no hold is toggled and LIVE_OK is low. -/
def Lamp.heartStopped (l : Lamp) : Lamp := { ((l.set F.LMP_STATUS_HOLD0 0).set F.LMP_STATUS_HOLD1 0).liveLow with stopped := true }

theorem Lamp.heartStopped_does (l : Lamp) : l.heartStopped.get F.LMP_STATUS_LIVEOK = 0 ∧ l.heartStopped.get F.LMP_STATUS_HOLD0 = 0 ∧
    l.heartStopped.get F.LMP_STATUS_HOLD1 = 0 := by
  have regs : l.heartStopped.regs = ((l.set F.LMP_STATUS_HOLD0 0).set F.LMP_STATUS_HOLD1 0).liveLow.regs := rfl
  rw [Lamp.get_of_regs regs, Lamp.get_of_regs regs, Lamp.get_of_regs regs, (Lamp.liveLow_live _).1,
    Lamp.get_liveLow _ F.LMP_STATUS_HOLD0 (by decide) (by decide), Lamp.get_liveLow _ F.LMP_STATUS_HOLD1 (by decide) (by decide),
    Lamp.get_set_other _ F.LMP_STATUS_HOLD1 F.LMP_STATUS_HOLD0 0 (by decide) (by decide)]
  exact ⟨rfl, Lamp.get_set_of_lt l F.LMP_STATUS_HOLD0 0 (by decide) (by decide),
    Lamp.get_set_of_lt _ F.LMP_STATUS_HOLD1 0 (by decide) (by decide)⟩

theorem Module.heartStop_live (m : Module) (t : Nat) (h : HalfId) (hr : (m.half h).inReset = false) : m.heartStop t h =
    ((m.onHalf h fun x => x.recordStop t).onBoth Half.closePairs).onLamp Lamp.heartStopped := by
  unfold Module.heartStop
  rw [hr]
  rfl

/-! ## The other commands -/

/-- A health line toggled. -/
def LampHalf.toggleHealth (x : LampHalf) (t : Nat) : LampHalf := { x with healthLine := !x.healthLine, healthAt := some t }

theorem Module.healthToggle_healthy (m : Module) (t : Nat) (h : HalfId) (hr : (m.half h).inReset = false)
    (hm : (m.half h).mode = modeRunning) (healthy : (m.half h).unhealthy t = false) (stays : (m.half h).overstays = false)
    (kicked : (m.lamp.half h).kicked t = true) :
    m.healthToggle t h = m.onLamp fun l => l.onHalf h fun x => x.toggleHealth t := by
  unfold Module.healthToggle
  dsimp only
  rw [hr, hm, healthy, stays, kicked]
  rfl

theorem Module.healthToggle_other (m : Module) (t : Nat) (h : HalfId) (hm : (m.half h).mode ≠ modeRunning) : m.healthToggle t h = m := by
  unfold Module.healthToggle
  dsimp only
  rw [beq_false_of_ne hm, Bool.and_false]
  rfl

/-- LIVE_OK rises at the end of its hold-off. -/
theorem Lamp.holdoffEnd_holds (l : Lamp) (ha : l.alive = true) (hl : l.flag F.LMP_LIVE_LIVE = true) (hf : l.liveFrom.isSome = true) :
    l.holdoffEnd.get F.LMP_STATUS_LIVEOK = 1 ∧ l.holdoffEnd.get F.LMP_LIVE_HOLDOFF = 0 := by
  have rises : l.holdoffEnd = (l.set F.LMP_STATUS_LIVEOK 1).set F.LMP_LIVE_HOLDOFF 0 := by
    unfold Lamp.holdoffEnd
    rw [ha, hl, hf]
    rfl
  rw [rises]
  refine ⟨?liveOk, Lamp.get_set_of_lt _ F.LMP_LIVE_HOLDOFF 0 (by decide) (by decide)⟩
  exact (Lamp.get_set_other _ F.LMP_LIVE_HOLDOFF F.LMP_STATUS_LIVEOK 0 (by decide) (by decide)).trans
    (Lamp.get_set_of_lt l F.LMP_STATUS_LIVEOK 1 (by decide) (by decide))

/-- LIVE_OK falls once its toggle has not been triggered for a time. -/
theorem Lamp.toggleExpire_late (l : Lamp) (t : Nat) (ht : l.liveTrig < t) : l.toggleExpire t = l.liveLow := by
  unfold Lamp.toggleExpire
  rw [decide_eq_true ht, Bool.or_true]
  rfl

/-- What a stop records, at the half that sees it, in the lamplighter and elsewhere. -/
theorem Module.heartStop_does (m : Module) (t : Nat) (h : HalfId) (hr : (m.half h).inReset = false) :
    ((m.heartStop t h).half h).get F.ENG_SUPV_LMPSTOP = 1 ∧
    ((m.heartStop t h).half h).get F.FLT_HEAD_SEQ = ((m.half h).get F.FLT_HEAD_SEQ + 1) % 2 ^ 32 ∧
    (m.heartStop t h).lamp = m.lamp.heartStopped ∧ (m.heartStop t h).flash = m.flash ∧ (m.heartStop t h).fuse = m.fuse := by
  obtain ⟨stop, seq⟩ := (m.half h).recordStop_does t
  have half (o : Nat) (ho : o / 0x10000 ≠ 3) : ((m.heartStop t h).half h).reg o = ((m.half h).recordStop t).reg o := by
    rw [m.heartStop_live t h hr, Module.half_onLamp, Module.half_onBoth, Module.half_onHalf, Half.reg_closePairs _ o ho]
  refine ⟨(Half.get_congr _ _ F.ENG_SUPV_LMPSTOP (half _ (by decide))).trans stop,
    (Half.get_congr _ _ F.FLT_HEAD_SEQ (half _ (by decide))).trans seq, ?lamp, ?flash, ?fuse⟩ <;> rw [m.heartStop_live t h hr]
  case lamp => exact congrArg Lamp.heartStopped (m.onHalf_lamp h _)
  case flash => exact m.onHalf_flash h _
  case fuse => exact m.onHalf_fuse h _

/-- A pair closes while its hold is not toggled. -/
theorem Module.bypassClose_off (m : Module) (h : HalfId) (k : Nat) (hk : k < 4) (off : m.lamp.flag (holdField h) = false) :
    m.bypassClose h k = m.onHalf h fun x => x.set (F.LANE_STATUS_BYPASS (16 + k)) 0 := if_pos ⟨hk, off⟩

theorem Module.bypassClose_held (m : Module) (h : HalfId) (k : Nat) (on : m.lamp.flag (holdField h) = true) : m.bypassClose h k = m :=
  if_neg fun e => Bool.false_ne_true (e.2.symm.trans on)

/-! ## The statement -/

/-- Settles O7: HEALTH_TOGGLE, the hold-off and the toggle by their cases, a sample by the conditions that it shows, and the stop of
the heart by the fault that it records. -/
theorem holdsAndLiveOk : Obligations.HoldsAndLiveOk := by
  unfold Obligations.HoldsAndLiveOk
  refine ⟨fun s => ⟨?toggle, ?idle, ?holdoff, ?expire, ?live, ?low⟩, fun s h => ⟨?close, ?held, ?stop⟩⟩
  case toggle =>
    have lamp {m : Module} {h : HalfId} (t : Nat) (e : m = s.mod.onLamp fun l => l.onHalf h fun x => x.toggleHealth t) :
        m.lamp.half h = (s.mod.lamp.half h).toggleHealth t := by rw [e, Module.onLamp_lamp, Lamp.half_onHalf]
    rintro h u rfl hr hm healthy stays kicked
    have toggled := s.mod.healthToggle_healthy _ h hr hm healthy stays kicked
    refine ⟨_, rfl, rfl, ?line, ?time, ?rest⟩
    case line => exact congrArg LampHalf.healthLine (lamp _ toggled)
    case time => exact congrArg LampHalf.healthAt (lamp _ toggled)
    case rest => exact (congrArg s.mod.onlyLamp toggled).mpr ⟨rfl, rfl, rfl, rfl⟩
  case idle => exact fun h hm => ⟨_, rfl, s.mod.healthToggle_other _ h hm, rfl⟩
  case holdoff =>
    intro a alive live since
    obtain ⟨liveOk, holdoff⟩ := s.mod.lamp.holdoffEnd_holds alive live (since ▸ rfl)
    refine ⟨_, rfl, ?now, liveOk, holdoff, rfl, rfl, rfl, rfl⟩
    rw [since]
    rfl
  case expire =>
    obtain ⟨liveOk, holdoff⟩ := s.mod.lamp.liveLow_live
    have late := s.mod.lamp.toggleExpire_late (max s.now (s.mod.lamp.liveTrig + 10000000)) (by omega)
    exact ⟨_, rfl, rfl, (congrArg (Lamp.get · F.LMP_STATUS_LIVEOK) late).trans liveOk,
      (congrArg (Lamp.get · F.LMP_LIVE_HOLDOFF) late).trans holdoff, rfl, rfl, rfl, rfl⟩
  case live =>
    rintro u rfl alive running fuse grant healthy
    exact ⟨_, rfl, rfl, s.mod.lampSample_good _ alive running fuse grant healthy⟩
  case low => exact fun alive running => ⟨_, rfl, s.mod.lampSample_low _ alive running⟩
  case close =>
    intro k hk off
    have half : (s.mod.bypassClose h k).half h = _ := (congrArg (Module.half · h) (s.mod.bypassClose_off h k hk off)).trans
      (Module.half_onHalf _ h _)
    refine ⟨_, rfl, ?closed, ?regs, ?only⟩
    case closed =>
      exact (congrArg (Half.get · _) half).trans
        (Half.get_set_of_lt _ (F.LANE_STATUS_BYPASS (16 + k)) 0 (Field.fits_of_ble rfl) (Nat.two_pow_pos _))
    case regs => exact (congrArg (fun x => (s.mod.half h).onlyRegs x _) half).mpr (Half.onlyRegs_set _ _ _)
    case only => exact (congrArg (s.mod.onlyHalf · h) (s.mod.bypassClose_off h k hk off)).mpr (Module.onlyHalf_onHalf _ _ _)
  case held => exact fun k _ on => ⟨_, rfl, s.mod.bypassClose_held h k on⟩
  case stop =>
    intro hr
    obtain ⟨live, hold0, hold1⟩ := s.mod.lamp.heartStopped_does
    obtain ⟨stop, seq, lamp, flash, fuse⟩ := s.mod.heartStop_does (max s.now (s.mod.lamp.heartAt + 4000000)) h hr
    exact ⟨_, rfl, stop, seq, (congrArg (Lamp.get · _) lamp).trans live, (congrArg (Lamp.get · _) lamp).trans hold0,
      (congrArg (Lamp.get · _) lamp).trans hold1, flash, fuse⟩

end Sys2Proof.Machine
end

section
/-!
SUPPORT. Rows of idle cells (R108): what a lane sends tells the port of the half that sends it, as the half itself names it; the line
code tells two cells apart. With them the statement on what passes through a port, which speaks of the half by its place in the module.
-/
namespace Sys2Proof.Machine

/-! ## Cells told apart on the line -/

/-- A receiver in step with a transmitter, with no bit waiting. -/
def LaneTx.follower (x : LaneTx) : LaneRx :=
  { LaneRx.reset with runLen := x.runLen, runBit := x.runBit, fill := 58, taps := x.taps, buf := [] }

/-- It reads the data bits from the line. -/
theorem LaneTx.follower_reads (x : LaneTx) (data : List Bool) (hx : x.runLen < 24) :
    (x.follower.bits (x.bits data).line).1.buf.map (fun b => b.1) = data := by
  obtain ⟨-, -, -, -, -, -, reads, -⟩ := lineCode x x.follower data hx rfl rfl
  exact (reads (Nat.le_refl 58) rfl).1

/-- The line bits of a cell are those of its bits. -/
theorem LaneTx.line_cell (x : LaneTx) (c : Cell) (n : Nat) : (x.cell c n).line = (x.bits (bytesBits (c.bytes n))).line := by
  unfold LaneTx.cell
  generalize x.bits (bytesBits (c.bytes n)) = y
  rfl

/-- So two cells that leave a transmitter in the same state have the same bits. -/
theorem LaneTx.bits_of_cell (x : LaneTx) (a b : Cell) (n : Nat) (hx : x.runLen < 24) (hc : x.cell a n = x.cell b n) :
    bytesBits (a.bytes n) = bytesBits (b.bytes n) := by
  have line : (x.bits (bytesBits (a.bytes n))).line = (x.bits (bytesBits (b.bytes n))).line := by
    rw [← x.line_cell, hc, x.line_cell]
  rw [← x.follower_reads (bytesBits (a.bytes n)) hx, line, x.follower_reads _ hx]

/-! ## A cell sent on a lane -/

/-- A cell leaves the burst still to be sent as it is. -/
theorem LaneTx.burst_cell (x : LaneTx) (c : Cell) (n : Nat) : (x.cell c n).burst = x.burst := by
  have bit (y : LaneTx) (d : Bool) : (y.bit d).burst = y.burst := by
    by_cases hs : y.Stuffs d
    · rw [LaneTx.bit_stuffed hs]
    · rw [LaneTx.bit_plain hs]
  have bits (ds : List Bool) : (x.bits ds).burst = x.burst := foldl_keeps LaneTx.burst LaneTx.bit bit ds { x with line := [] }
  unfold LaneTx.cell
  rw [← bits (bytesBits (c.bytes n))]

/-- Nothing is injected into a lane with no rate of injection and no burst. -/
theorem Half.injectLane_none (h : Half) (p : Nat) (he : h.injectEvery p = 0) (hb : (h.lane p).tx.burst = 0) : h.injectLane p = h :=
  if_pos ⟨he, hb⟩

/-- Without injection a lane's transmitter sends the cell as it is. -/
theorem Half.tx_sendOn (h : Half) (p n : Nat) (c : Cell) (hp : p < h.port.lanes.length) (he : h.injectEvery p = 0)
    (hb : (h.lane p).tx.burst = 0) : ((h.sendOn p n c).lane p).tx = (h.lane p).tx.cell c n := by
  have sends : h.sendOn p n c =
      ((h.cvuTake 2 (fun s f => s == devicePort h.id p && typeTaken c.type f) (some ((c.bytes n).take 252)) 0).onLane p fun (x : Lane) =>
        { x with tx := x.tx.cell c n }).injectLane p := rfl
  have port : (h.cvuTake 2 (fun s f => s == devicePort h.id p && typeTaken c.type f) (some ((c.bytes n).take 252)) 0).port = h.port :=
    Half.cvuTake_keeps Half.port (fun _ _ => rfl) _ _ _ _ _
  have regs (o : Nat) := h.reg_cvuTake 2 (fun s f => s == devicePort h.id p && typeTaken c.type f) (some ((c.bytes n).take 252)) 0 o
  rw [sends]
  generalize h.cvuTake 2 _ _ _ = k at port regs
  have lane : k.lane p = h.lane p := congrArg (fun x : PortSt => x.lanes.getD p Lane.reset) port
  have every : (k.onLane p fun (x : Lane) => { x with tx := x.tx.cell c n }).injectEvery p = 0 := by
    rw [← he]
    unfold Half.injectEvery
    rw [Half.get_congr (k.onLane p _) h (F.LANE_INJECT_EXP p) (regs _)]
  have sent := k.lane_onLane_same p (fun (x : Lane) => { x with tx := x.tx.cell c n }) (port ▸ hp)
  rw [Half.injectLane_none _ p every (by rw [sent, lane, LaneTx.burst_cell, hb]), sent, lane]

/-! ## A row of one idle cell -/

/-- Lane `q` alone sends in the rows of link `l`, a link outside the rings with no cell waiting, and nothing is injected. -/
structure Half.IdlesAlone (h : Half) (l q : Nat) : Prop where
  noRing : h.ringSide l = none
  ports : h.rowPorts l = [q]
  sends : h.txCells q = true
  generator : h.flag (F.LANE_PATTERN_GENEN q) = false
  sending : (h.run l).sending = [q]
  queue : (h.run l).queue = []
  cells : (h.portRec q).role ≠ 4
  rate : h.injectEvery q = 0
  burst : (h.lane q).tx.burst = 0
  has : q < h.port.lanes.length
  runs : l < h.port.runs.length

/-- The half with the lanes of a row noted. -/
theorem Half.levelLanes_staying (h : Half) (l q : Nat) (hs : (h.run l).sending = [q]) :
    h.levelLanes l [q] = h.onRun l fun (r : LinkRun) => { r with sending := [q] } := by
  unfold Half.levelLanes
  dsimp only
  rw [hs]
  simp

/-- A TEST port aside, what fills a row is the idle cell. -/
theorem Half.fillCell_idle (h : Half) (p : Nat) (c : Cell) (hr : (h.portRec p).role ≠ 4) : h.fillCell p c = c := if_neg hr

/-- Then the lane sends the idle cell that names its port as its half does. -/
theorem Half.tx_txRow_idle (h : Half) (l q addr : Nat) (mark : Half → Cell → Half × Cell) (hi : h.IdlesAlone l q) :
    ((h.txRow l addr mark).lane q).tx = (h.lane q).tx.cell
      (idleCell addr (devicePort h.id q) (h.rxUp l) (h.linkRec l).lanes false) (h.run l).lseq := by
  have quiet : [q].filter (fun p => h.flag (F.LANE_PATTERN_GENEN p) && h.txOn p) = [] := by simp [hi.generator]
  have lanes : [q].filter h.txCells = [q] := by simp [hi.sends]
  have mask : (h.onRun l fun (r : LinkRun) => { r with sending := [q] }).rxUp l = h.rxUp l := rfl
  have run := h.run_onRun_same l (fun (r : LinkRun) => { r with sending := [q] }) hi.runs
  unfold Half.txRow
  dsimp only
  rw [hi.ports, quiet, List.foldl_nil, lanes, h.levelLanes_staying l q hi.sending, mask, run, hi.queue]
  simp only [List.map_cons, List.map_nil, List.foldl_cons, List.foldl_nil, Nat.zero_max, Nat.min_self, Nat.sub_self]
  rw [if_neg (by decide)]
  split
  · exact Half.tx_sendOn _ q _ _ hi.has hi.rate hi.burst
  · rw [List.take_nil, List.zip_nil_right, List.find?_nil]
    dsimp only
    rw [Half.fillCell_idle (h.onRun l _) q _ hi.cells, ite_self]
    exact Half.tx_sendOn _ q _ _ hi.has hi.rate hi.burst

/-- So it does in a cell time. -/
theorem Half.tx_cellTime_idle (h : Half) (t l q : Nat) (hi : h.IdlesAlone l q) : ((h.cellTime t l).lane q).tx = (h.lane q).tx.cell
    (idleCell (h.linkAddr l) (devicePort h.id q) (h.rxUp l) (h.linkRec l).lanes false) (h.run l).lseq := by
  have fed : h.feedRing t l = h := by
    unfold Half.feedRing
    rw [hi.noRing]
  unfold Half.cellTime
  dsimp only
  rw [fed, ite_self]
  exact h.tx_txRow_idle l q _ _ hi

/-! ## The statement -/

/-- Port 23 as a single-lane native link with no cell to send, in a half that names itself half 0. -/
def misnamed : Half :=
  { Half.reset .h0 with
    inReset := false
    port := { PortSt.reset with
      ports := PortSt.reset.ports.set 23 { PortRec.off with role := 1, rate := 4 }
      runs := PortSt.reset.runs.set 39 { LinkRun.reset with sending := [23] } } }.sets
    [(F.LANE_CTRL_ENABLE 23, 1), (F.RST_QUAL_PORTPLL, 32)]

/-- A running module with that half in the place of half 1. -/
def misplaced : State :=
  { now := 0, pending := [], mod := { Module.reset with half1 := misnamed, lamp := { Lamp.reset with phase := .running } } }

/-- Its lane 23 sends alone on link 39. -/
theorem misnamed_idlesAlone : misnamed.IdlesAlone 39 23 where
  noRing := by decide
  ports := by decide
  sends := by decide
  generator := by decide
  sending := by decide
  queue := by decide
  cells := by decide
  rate := by decide
  burst := by decide
  has := by decide
  runs := by decide

/-- The idle cells of port 23 that half 0 and half 1 send are different. -/
theorem idleCell_halves : bytesBits ((idleCell (misnamed.linkAddr 39) (devicePort .h0 23) (misnamed.rxUp 39) 1 false).bytes 0) ≠
    bytesBits ((idleCell (misnamed.linkAddr 39) (devicePort .h1 23) (misnamed.rxUp 39) 1 false).bytes 0) := by
  decide +kernel

/-- Refutes O18: a module whose half 1 calls itself half 0 sends, in a row of idle cells, that of port 23 of half 0, and not that of
port 23 of half 1 as the statement says. The statement has no premise that a half's own name `id` is its place in the module. -/
theorem not_laneTraffic : ¬ Obligations.LaneTraffic := by
  unfold Obligations.LaneTraffic
  intro all
  have alone := misnamed_idlesAlone
  obtain ⟨-, -, -, -, idle, -⟩ := all misplaced .h1 23 (by decide) (by decide) (by decide) (by decide)
  obtain ⟨t, run, -, -, tx, -⟩ := idle 39 (by decide)
    alone.runs alone.noRing alone.queue (by decide) (by decide) (by decide) (by decide)
  have sent : exec (.txCellRow .h1 39) misplaced =
      .next { misplaced with mod := misplaced.mod.setHalf .h1 (misnamed.cellTime 0 39) } := rfl
  obtain rfl := Host.Outcome.next.inj (sent.symm.trans run)
  have stated := tx 23 (by decide)
  have named := misnamed.tx_cellTime_idle 0 39 23 alone
  have half : misplaced.mod.half .h1 = misnamed := rfl
  have lanes : (misnamed.linkRec 39).lanes = 1 := rfl
  have lseq : (misnamed.run 39).lseq = 0 := rfl
  have id : misnamed.id = .h0 := rfl
  dsimp only at stated
  rw [Module.half_setHalf, half, lanes, lseq, named, id, lanes, lseq] at stated
  exact idleCell_halves (LaneTx.bits_of_cell _ _ _ 0 (by decide) stated)

end Sys2Proof.Machine
end

section
/-!
SUPPORT. The pace meters, the steps of VCORE and the core supply regulator (R123 to R129, R389): what each leaves of the other registers
and of the pace state, and the statement on them.
-/
namespace Sys2Proof.Machine

/-- A signalled change leaves a register outside the engine block as the change itself does. -/
theorem Half.reg_signalling (h : Half) (s off o : Nat) (f : Half → Half) (ho : o / 0x10000 ≠ 0xE) :
    (h.signalling s off f).reg o = (f h).reg o := by
  unfold Half.signalling
  dsimp only
  split
  · rfl
  · exact Half.reg_signal _ _ _ _ ho

@[simp] theorem Half.reg_onPace (h : Half) (f : PaceSt → PaceSt) (o : Nat) : (h.onPace f).reg o = h.reg o := rfl
@[simp] theorem Half.get_onPace (h : Half) (f : PaceSt → PaceSt) (g : Field) : (h.onPace f).get g = h.get g := rfl

/-- A signalled change leaves the pace state as the change itself does. -/
theorem Half.pace_signalling (h : Half) (s off : Nat) (f : Half → Half) : (h.signalling s off f).pace = (f h).pace := by
  unfold Half.signalling
  dsimp only
  split
  · rfl
  · exact Half.signal_pace _ _ _

/-! ## Meters (R123, R124) -/

section Meters
variable (h : Half) (t : Nat)

/-- A meter's fault leaves a register outside the engine and ledger blocks. -/
theorem Half.reg_meterFault (before n o : Nat) (he : o / 0x10000 ≠ 0xE) (hl : o / 0x10000 ≠ 0x14) :
    (h.meterFault t before n).reg o = h.reg o :=
  Half.reg_ite (Half.reg_fault _ _ _ _ _ _ _ (by decide) he hl) rfl

/-- The measured pace is in PACE_HALF. -/
theorem Half.reg_measure (o : Nat) (ho : o ≠ F.PACE_HALF_word.off) : h.measure.reg o = h.reg o := by
  unfold Half.measure
  dsimp only
  exact Half.reg_ite (Half.reg_set_other _ F.PACE_HALF_MEAN _ _ ho) (Half.reg_set_other _ F.PACE_HALF_MEAN _ _ ho)

theorem paceNow_fits (n : Nat) : (paceNow n).fits := by
  show 16 * (n % 2) + 16 ≤ 32
  omega

/-- No two meters share bits of PACE_NOW. -/
theorem paceNow_apart (a b : Nat) (hab : a ≠ b) : (paceNow a).apart (paceNow b) := by
  show 0x120000 + 4 * (a / 2) ≠ 0x120000 + 4 * (b / 2) ∨ 16 * (b % 2) + 16 ≤ 16 * (a % 2) ∨ 16 * (a % 2) + 16 ≤ 16 * (b % 2)
  omega

/-- The last 256 gates of a meter, with one that has just ended. -/
def Half.gatesOf (h : Half) (counts : List Nat) (n : Nat) : List Nat := (counts.getD n 0 :: h.pace.gates.getD n []).take 256

/-- The four PACE_NOW with their values. -/
def Half.nowFields (h : Half) (counts : List Nat) : List (Field × Nat) :=
  (List.range 4).map fun n => (paceNow n, meanOf (((List.range 4).map (h.gatesOf counts)).getD n []))

/-- The gates of a meter in the list of the four. -/
theorem Half.gatesOf_getD (counts : List Nat) (n : Nat) (hn : n < 4) :
    ((List.range 4).map (h.gatesOf counts)).getD n [] = h.gatesOf counts n := by
  simp [List.getD_eq_getElem?_getD, hn]

/-- A gate sets each PACE_NOW to the mean of its meter's gates. -/
theorem Half.paceNow_paceGate (counts : List Nat) (n : Nat) (hn : n < 4) :
    (h.paceGate t counts).get (paceNow n) = meanOf (h.gatesOf counts n) % 2 ^ 16 := by
  have half : (paceNow n).off ≠ F.PACE_HALF_word.off := by simp only [paceNow, F.PACE_HALF_word]; omega
  have block : (paceNow n).off / 0x10000 = 0x12 := by simp only [paceNow]; omega
  let x := (h.onPace fun (p : PaceSt) => { p with gates := (List.range 4).map (h.gatesOf counts), gateAt := t }).sets (h.nowFields counts)
  have faults (y : Half) (b : Nat) : (y.forBelow 4 fun h n => h.meterFault t b n).reg (paceNow n).off = y.reg (paceNow n).off :=
    Half.forBelow_keeps (fun y => y.reg (paceNow n).off) _ _ (fun y k => y.reg_meterFault t b k _ (by omega) (by omega)) y
  have later : (h.paceGate t counts).reg (paceNow n).off = x.reg (paceNow n).off :=
    (faults _ _).trans ((Half.reg_measure _ _ half).trans (Half.reg_set_other _ F.PACE_HALF_FAILED _ _ half))
  have fits : ∀ c ∈ h.nowFields counts, c.1.fits := by
    intro c hc
    obtain ⟨k, -, rfl⟩ := List.mem_map.mp hc
    exact paceNow_fits k
  have apart : (h.nowFields counts).Pairwise fun c d => d.1.apart c.1 :=
    List.pairwise_map.mpr ((List.nodup_range (n := 4)).imp fun hab => paceNow_apart _ _ hab.symm)
  have mem : (paceNow n, meanOf (((List.range 4).map (h.gatesOf counts)).getD n [])) ∈ h.nowFields counts :=
    List.mem_map.mpr ⟨n, List.mem_range.mpr hn, rfl⟩
  rw [Half.get_congr _ x _ later, Half.get_sets_mem _ _ fits apart _ mem, h.gatesOf_getD counts n hn]
  rfl

end Meters

/-! ## Evaluations (R125 to R129) -/

section Evaluation
variable (h : Half) (t m : Nat)

/-- The lowest margin and pace are in PACE_LOW. -/
theorem Half.reg_paceLow_shown (v o : Nat) (hl : o ≠ F.PACE_LOW_word.off) :
    (((h.set F.PACE_HALF_MARGIN v).paceLow v).reg o) = (h.set F.PACE_HALF_MARGIN v).reg o := by
  unfold Half.paceLow
  exact (Half.reg_set_other _ F.PACE_LOW_MEAN _ _ hl).trans (Half.reg_set_other _ F.PACE_LOW_MARGIN _ _ hl)

/-- The half with its margin shown and its runs of evaluations counted. -/
def Half.evaluated (h : Half) (t : Nat) : Half :=
  ((h.set F.PACE_HALF_MARGIN h.margin).paceLow h.margin).onPace fun (p : PaceSt) => { p with
    evalAt := t
    downRun := if ((h.set F.PACE_HALF_MARGIN h.margin).paceLow h.margin).downTh ≤ h.margin then p.downRun + 1 else 0
    endRun := if 1080 ≤ h.margin then p.endRun + 1 else 0
    lows := if h.margin < 1000 then p.lows + 1 else 0 }

/-- An evaluation is a judgement of the margin, a step of VCORE and the pace cause, in turn. -/
theorem Half.paceEvaluate_eq (he : h.evaluates = true) :
    h.paceEvaluate t = ((h.evaluated t).paceStep t h.margin).paceCause h.margin := by
  unfold Half.paceEvaluate
  rw [he]
  rfl

/-- The judgement writes PACE_HALF and PACE_LOW only. -/
theorem Half.reg_evaluated (o : Nat) (hh : o ≠ F.PACE_HALF_word.off) (hl : o ≠ F.PACE_LOW_word.off) : (h.evaluated t).reg o = h.reg o :=
  (h.reg_paceLow_shown _ o hl).trans (Half.reg_set_other h F.PACE_HALF_MARGIN _ o hh)

theorem Half.get_evaluated (f : Field) (hh : f.off ≠ F.PACE_HALF_word.off) (hl : f.off ≠ F.PACE_LOW_word.off) :
    (h.evaluated t).get f = h.get f :=
  Half.get_congr _ _ _ (h.reg_evaluated t _ hh hl)

/-- MARGIN shows the margin. -/
theorem Half.margin_evaluated : (h.evaluated t).get F.PACE_HALF_MARGIN = h.margin := by
  have small : h.margin < 2 ^ F.PACE_HALF_MARGIN.width := Nat.lt_succ_of_le (Nat.min_le_left _ _)
  have low : (h.evaluated t).reg F.PACE_HALF_MARGIN.off = (h.set F.PACE_HALF_MARGIN h.margin).reg F.PACE_HALF_MARGIN.off :=
    h.reg_paceLow_shown _ _ (by decide)
  exact (Half.get_congr _ _ _ low).trans (Half.get_set_of_lt _ _ _ (by decide) small)

/-- At or above DOWNTH the run of such evaluations grows. -/
theorem Half.downRun_evaluated (hd : h.downTh ≤ h.margin) : (h.evaluated t).pace.downRun = h.pace.downRun + 1 := by
  have ctrl : ((h.set F.PACE_HALF_MARGIN h.margin).paceLow h.margin).downTh = h.downTh := by
    unfold Half.downTh
    congr 1
    exact Half.get_congr _ _ _ (h.reg_evaluated t F.PACE_CTRL_DOWNTH.off (by decide) (by decide))
  exact if_pos (ctrl ▸ hd)

/-- A step of VCORE writes PACE_REG and PACE_TALLY only. -/
theorem Half.reg_paceStep (o : Nat) (hr : o ≠ F.PACE_REG_word.off) (ht : o ≠ F.PACE_TALLY_word.off) :
    (h.paceStep t m).reg o = h.reg o := by
  have stepped (v : Nat) : (h.stepVcore t v).reg o = h.reg o := Half.reg_set_other h F.PACE_REG_SETTING v o hr
  unfold Half.paceStep
  refine Half.reg_ite rfl (Half.reg_ite (Half.reg_ite ?_ rfl) (Half.reg_ite ?_ rfl))
  · exact (Half.reg_set_other _ F.PACE_TALLY_UP _ _ ht).trans (stepped _)
  · exact (Half.reg_set_other _ F.PACE_TALLY_DOWN _ _ ht).trans (stepped _)

/-- It keeps the instant of the evaluation. -/
theorem Half.evalAt_paceStep : (h.paceStep t m).pace.evalAt = h.pace.evalAt := by
  unfold Half.paceStep
  dsimp only
  (repeat' split) <;> rfl

/-- A low margin steps the setting up. -/
theorem Half.paceStep_up (hm : m < 1050) (hs : h.get F.PACE_REG_SETTING < 90) (hp : h.pace.mayStep t = true)
    (hr : h.get F.PACE_REG_REGFAIL = 0) :
    h.paceStep t m = (h.stepVcore t (h.get F.PACE_REG_SETTING + 1)).tally F.PACE_TALLY_UP 1 := by
  unfold Half.paceStep
  dsimp only
  rw [Half.flag_of_get_zero _ _ hr, if_neg Bool.false_ne_true, if_pos hm, if_pos ⟨hs, hp⟩]

/-- A margin high for long steps it down. -/
theorem Half.paceStep_down (hm : 1050 ≤ m) (hn : 1000 ≤ h.pace.downRun) (hf : h.floor < h.get F.PACE_REG_SETTING)
    (ho : h.flag F.PACE_SHED_OWNPACE = false) (hp : h.pace.mayStep t = true) (hr : h.get F.PACE_REG_REGFAIL = 0) :
    h.paceStep t m = (h.stepVcore t (h.get F.PACE_REG_SETTING - 1)).tally F.PACE_TALLY_DOWN 1 := by
  unfold Half.paceStep
  dsimp only
  rw [Half.flag_of_get_zero _ _ hr, if_neg Bool.false_ne_true, if_neg (Nat.not_lt.mpr hm), if_pos ⟨hn, hf, ho, hp⟩]

/-- Of PACE_REG a step writes SETTING only. -/
theorem Half.get_stepVcore (v : Nat) (f : Field) (hf : F.PACE_REG_SETTING.apart f) : (h.stepVcore t v).get f = h.get f :=
  Half.get_set_other h F.PACE_REG_SETTING f v (by decide) hf

/-- A commanded setting shows in PACE_REG. -/
theorem Half.setting_stepVcore (v : Nat) (hv : v < 128) (f : Field) (ht : f.off = F.PACE_TALLY_word.off) (n : Nat) :
    ((h.stepVcore t v).tally f n).get F.PACE_REG_SETTING = v := by
  have other : ((h.stepVcore t v).tally f n).reg F.PACE_REG_SETTING.off = (h.set F.PACE_REG_SETTING v).reg F.PACE_REG_SETTING.off :=
    Half.reg_set_other _ _ _ _ (by rw [ht]; decide)
  rw [Half.get_congr _ _ _ other]
  exact Half.get_set_of_lt _ _ _ (by decide) hv

/-- The own causes write PACE_SHED, SHEDS and registers of the engine block only. -/
theorem Half.reg_ownCauses (lap : Nat) (pace mem : Bool) (o : Nat) (hs : o ≠ F.PACE_SHED_word.off) (ht : o ≠ F.PACE_TALLY_word.off)
    (he : o / 0x10000 ≠ 0xE) : (h.ownCauses lap pace mem).reg o = h.reg o := by
  have named (x : Half) : ((x.setFlag F.PACE_SHED_OWNPACE pace).setFlag F.PACE_SHED_OWNMEM mem).reg o = x.reg o :=
    (Half.reg_set_other _ F.PACE_SHED_OWNMEM _ _ hs).trans (Half.reg_set_other _ F.PACE_SHED_OWNPACE _ _ hs)
  have signalled := (h.reg_signalling irqShed F.PACE_SHED_word.off o
    (fun h => (h.setFlag F.PACE_SHED_OWNPACE pace).setFlag F.PACE_SHED_OWNMEM mem) he).trans (named h)
  unfold Half.ownCauses
  dsimp only
  refine Half.reg_ite rfl ?_
  rw [Half.reg_onPace]
  exact Half.reg_ite ((Half.reg_set_other _ F.PACE_TALLY_SHEDS _ _ ht).trans signalled) signalled

/-- They leave a field of PACE_TALLY other than SHEDS. -/
theorem Half.up_ownCauses (lap : Nat) (pace mem : Bool) : (h.ownCauses lap pace mem).get F.PACE_TALLY_UP = h.get F.PACE_TALLY_UP := by
  have named (x : Half) : ((x.setFlag F.PACE_SHED_OWNPACE pace).setFlag F.PACE_SHED_OWNMEM mem).get F.PACE_TALLY_UP =
      x.get F.PACE_TALLY_UP :=
    (Half.get_set_other _ F.PACE_SHED_OWNMEM _ _ (by decide) (by decide)).trans
      (Half.get_set_other _ F.PACE_SHED_OWNPACE _ _ (by decide) (by decide))
  have signalled := (Half.get_congr _ _ F.PACE_TALLY_UP (h.reg_signalling irqShed F.PACE_SHED_word.off _
    (fun h => (h.setFlag F.PACE_SHED_OWNPACE pace).setFlag F.PACE_SHED_OWNMEM mem) (by decide))).trans (named h)
  unfold Half.ownCauses
  dsimp only
  split
  · rfl
  · rw [Half.get_onPace]
    split
    · exact (Half.get_tally_other _ F.PACE_TALLY_SHEDS _ _ (by decide) (by decide)).trans signalled
    · exact signalled

/-- A new pace cause shows in OWNPACE, and EMERG stays. -/
theorem Half.shed_ownCauses (lap : Nat) (mem : Bool) (hp : h.flag F.PACE_SHED_OWNPACE = false) :
    (h.ownCauses lap true mem).flag F.PACE_SHED_OWNPACE = true ∧
    (h.ownCauses lap true mem).flag F.PACE_SHED_EMERG = h.flag F.PACE_SHED_EMERG := by
  let x := (h.setFlag F.PACE_SHED_OWNPACE true).setFlag F.PACE_SHED_OWNMEM mem
  have shown (f : Field) (hf : f.off = F.PACE_SHED_word.off) : (h.ownCauses lap true mem).get f = x.get f := by
    have signalled := h.reg_signalling irqShed F.PACE_SHED_word.off f.off
      (fun h => (h.setFlag F.PACE_SHED_OWNPACE true).setFlag F.PACE_SHED_OWNMEM mem) (by rw [hf]; decide)
    refine Half.get_congr _ _ _ ?_
    unfold Half.ownCauses
    dsimp only
    rw [hp, if_neg (fun e => absurd e.1 (by decide)), Half.reg_onPace]
    exact Half.reg_ite ((Half.reg_set_other _ F.PACE_TALLY_SHEDS _ _ (by rw [hf]; decide)).trans signalled) signalled
  constructor
  · refine Half.flag_of_get_one _ _ ((shown F.PACE_SHED_OWNPACE rfl).trans ?_)
    exact (Half.get_setFlag_other _ _ _ _ (by decide) (by decide)).trans (Half.get_setFlag_same _ _ _ (by decide) rfl)
  · unfold Half.flag
    rw [shown F.PACE_SHED_EMERG rfl]
    congr 1
    exact (Half.get_setFlag_other _ F.PACE_SHED_OWNMEM _ _ (by decide) (by decide)).trans
      (Half.get_setFlag_other _ F.PACE_SHED_OWNPACE _ _ (by decide) (by decide))

/-- Of the pace state they change the laps named and due only. -/
theorem Half.pace_ownCauses {γ : Type} (g : PaceSt → γ) (hg : ∀ (p : PaceSt) x, g (p.name x) = g p) (lap : Nat) (pace mem : Bool) :
    g (h.ownCauses lap pace mem).pace = g h.pace := by
  have signalled := h.pace_signalling irqShed F.PACE_SHED_word.off
    (fun h => (h.setFlag F.PACE_SHED_OWNPACE pace).setFlag F.PACE_SHED_OWNMEM mem)
  unfold Half.ownCauses
  dsimp only
  split
  · rfl
  · refine (hg _ _).trans (congrArg g ?_)
    split <;> exact signalled

/-- An evaluation's pace cause changes nothing, or EMERG and then the own causes. -/
theorem Half.paceCause_cases : h.paceCause m = h ∨
    ∃ v lap pace mem, h.paceCause m = (h.set F.PACE_SHED_EMERG v).ownCauses lap pace mem := by
  unfold Half.paceCause
  dsimp only
  split
  · split
    · exact .inr ⟨_, _, _, _, rfl⟩
    · exact .inl rfl
  · split
    · exact .inr ⟨_, _, _, _, rfl⟩
    · exact .inl rfl

/-- So it leaves PACE_HALF and PACE_REG, and the rest of the pace state. -/
theorem Half.reg_paceCause (o : Nat) (hs : o ≠ F.PACE_SHED_word.off) (ht : o ≠ F.PACE_TALLY_word.off) (he : o / 0x10000 ≠ 0xE) :
    (h.paceCause m).reg o = h.reg o := by
  rcases h.paceCause_cases m with e | ⟨v, lap, pace, mem, e⟩ <;> rw [e]
  exact (Half.reg_ownCauses _ _ _ _ _ hs ht he).trans (Half.reg_set_other _ F.PACE_SHED_EMERG _ _ hs)

theorem Half.up_paceCause : (h.paceCause m).get F.PACE_TALLY_UP = h.get F.PACE_TALLY_UP := by
  rcases h.paceCause_cases m with e | ⟨v, lap, pace, mem, e⟩ <;> rw [e]
  exact (Half.up_ownCauses _ _ _ _).trans (Half.get_set_other _ F.PACE_SHED_EMERG _ _ (by decide) (by decide))

theorem Half.pace_paceCause {γ : Type} (g : PaceSt → γ) (hg : ∀ (p : PaceSt) x, g (p.name x) = g p) :
    g (h.paceCause m).pace = g h.pace := by
  rcases h.paceCause_cases m with e | ⟨v, lap, pace, mem, e⟩ <;> rw [e]
  exact Half.pace_ownCauses _ g hg _ _ _

/-- A margin below 950 sheds, as an emergency. -/
theorem Half.paceCause_sheds (hm : m < 950) (hp : h.flag F.PACE_SHED_OWNPACE = false) :
    (h.paceCause m).flag F.PACE_SHED_OWNPACE = true ∧ (h.paceCause m).flag F.PACE_SHED_EMERG = true := by
  have sheds : h.sheds m = true := by simp [Half.sheds, hm]
  have emerg : (h.pace.forced || decide (m < 950)) = true := by simp [hm]
  have still : (h.setFlag F.PACE_SHED_EMERG true).flag F.PACE_SHED_OWNPACE = false := by
    unfold Half.flag
    rw [Half.get_setFlag_other _ _ _ _ (by decide) (by decide)]
    exact hp
  unfold Half.paceCause
  dsimp only
  rw [hp, if_neg Bool.false_ne_true, sheds, if_pos rfl, emerg]
  obtain ⟨own, kept⟩ := Half.shed_ownCauses _ ((h.get F.RBK_LAP_LAP + 2) % 2 ^ 32) (h.flag F.PACE_SHED_OWNMEM) still
  exact ⟨own, kept.trans (Half.flag_of_get_one _ _ (Half.get_setFlag_same _ _ _ (by decide) rfl))⟩

/-! ## The whole evaluation -/

section Whole
variable (he : h.evaluates = true)
include he in
/-- A register outside PACE_SHED, PACE_TALLY and the engine block is after it as the step leaves it. -/
theorem Half.reg_paceEvaluate (o : Nat) (hs : o ≠ F.PACE_SHED_word.off) (ht : o ≠ F.PACE_TALLY_word.off) (hb : o / 0x10000 ≠ 0xE) :
    (h.paceEvaluate t).reg o = ((h.evaluated t).paceStep t h.margin).reg o := by
  rw [h.paceEvaluate_eq t he]
  exact Half.reg_paceCause _ _ _ hs ht hb

include he in
/-- So is the pace state, but for the laps named and due. -/
theorem Half.pace_paceEvaluate {γ : Type} (g : PaceSt → γ) (hg : ∀ (p : PaceSt) x, g (p.name x) = g p) :
    g (h.paceEvaluate t).pace = g ((h.evaluated t).paceStep t h.margin).pace := by
  rw [h.paceEvaluate_eq t he]
  exact Half.pace_paceCause _ _ g hg

include he in
/-- It shows the margin and notes its instant. -/
theorem Half.paceEvaluate_shows : (h.paceEvaluate t).pace.evalAt = t ∧ (h.paceEvaluate t).get F.PACE_HALF_MARGIN = h.margin := by
  refine ⟨(h.pace_paceEvaluate t he PaceSt.evalAt fun _ _ => rfl).trans (Half.evalAt_paceStep _ _ _), ?_⟩
  rw [← h.margin_evaluated t]
  exact Half.get_congr _ _ _ ((h.reg_paceEvaluate t he _ (by decide) (by decide) (by decide)).trans
    (Half.reg_paceStep _ _ _ _ (by decide) (by decide)))

/-- The judgement leaves what the steps look at. -/
theorem Half.judged_evaluated : (h.evaluated t).get F.PACE_REG_SETTING = h.get F.PACE_REG_SETTING ∧
    (h.evaluated t).get F.PACE_REG_REGFAIL = h.get F.PACE_REG_REGFAIL ∧ (h.evaluated t).floor = h.floor ∧
    (h.evaluated t).flag F.PACE_SHED_OWNPACE = h.flag F.PACE_SHED_OWNPACE := by
  have kept (f : Field) (hh : f.off ≠ F.PACE_HALF_word.off) (hl : f.off ≠ F.PACE_LOW_word.off) := h.get_evaluated t f hh hl
  unfold Half.floor Half.flag
  rw [kept F.PACE_REG_SETTING (by decide) (by decide), kept F.PACE_REG_REGFAIL (by decide) (by decide),
    kept F.PACE_CTRL_FLOOR (by decide) (by decide), kept F.PACE_SHED_OWNPACE (by decide) (by decide)]
  exact ⟨rfl, rfl, rfl, rfl⟩

include he in
/-- A low margin steps the setting up and awaits its readback (R127). -/
theorem Half.paceEvaluate_up (hm : h.margin < 1050) (hs : h.get F.PACE_REG_SETTING < 90) (hp : h.pace.mayStep t = true)
    (hf : h.get F.PACE_REG_REGFAIL = 0) :
    (h.paceEvaluate t).get F.PACE_REG_SETTING = h.get F.PACE_REG_SETTING + 1 ∧
    (h.paceEvaluate t).pace.reading = true ∧ (h.paceEvaluate t).pace.stepAt = some t ∧
    (h.paceEvaluate t).get F.PACE_TALLY_UP = satAdd 8 (h.get F.PACE_TALLY_UP) 1 := by
  obtain ⟨setting, regfail, -, -⟩ := h.judged_evaluated t
  have step := (h.evaluated t).paceStep_up t h.margin hm (setting ▸ hs) hp (regfail ▸ hf)
  rw [setting] at step
  refine ⟨?_, ?_, ?_, ?_⟩
  · rw [Half.get_congr _ _ _ (h.reg_paceEvaluate t he _ (by decide) (by decide) (by decide)), step]
    exact Half.setting_stepVcore _ _ _ (by omega) F.PACE_TALLY_UP rfl 1
  · rw [h.pace_paceEvaluate t he PaceSt.reading fun _ _ => rfl, step]
    rfl
  · rw [h.pace_paceEvaluate t he PaceSt.stepAt fun _ _ => rfl, step]
    rfl
  · rw [h.paceEvaluate_eq t he, Half.up_paceCause, step, Half.get_tally_same _ _ _ (by decide),
      Half.get_stepVcore _ _ _ _ (by decide), h.get_evaluated t F.PACE_TALLY_UP (by decide) (by decide)]
    rfl

include he in
/-- A margin high for 1,000 evaluations steps it down (R128). -/
theorem Half.paceEvaluate_down (hm : 1050 ≤ h.margin) (hd : h.downTh ≤ h.margin) (hn : 999 ≤ h.pace.downRun)
    (hl : h.floor < h.get F.PACE_REG_SETTING) (ho : h.flag F.PACE_SHED_OWNPACE = false) (hp : h.pace.mayStep t = true)
    (hf : h.get F.PACE_REG_REGFAIL = 0) :
    (h.paceEvaluate t).get F.PACE_REG_SETTING = h.get F.PACE_REG_SETTING - 1 ∧
    (h.paceEvaluate t).pace.reading = true ∧ (h.paceEvaluate t).pace.downRun = 0 := by
  obtain ⟨setting, regfail, floor, own⟩ := h.judged_evaluated t
  have run : 1000 ≤ (h.evaluated t).pace.downRun := by
    rw [h.downRun_evaluated t hd]
    omega
  have step := (h.evaluated t).paceStep_down t h.margin hm run (by rw [floor, setting]; exact hl) (own.trans ho) hp (regfail.trans hf)
  rw [setting] at step
  refine ⟨?_, ?_, ?_⟩
  · have small := h.get_lt F.PACE_REG_SETTING
    rw [Half.get_congr _ _ _ (h.reg_paceEvaluate t he _ (by decide) (by decide) (by decide)), step]
    exact Half.setting_stepVcore _ _ _ (lt_of_le_of_lt (Nat.sub_le _ _) small) F.PACE_TALLY_DOWN rfl 1
  · rw [h.pace_paceEvaluate t he PaceSt.reading fun _ _ => rfl, step]
    rfl
  · rw [h.pace_paceEvaluate t he PaceSt.downRun fun _ _ => rfl, step]
    rfl

include he in
/-- A margin below 950 sheds (R129). -/
theorem Half.paceEvaluate_sheds (hm : h.margin < 950) (ho : h.flag F.PACE_SHED_OWNPACE = false) :
    (h.paceEvaluate t).flag F.PACE_SHED_OWNPACE = true ∧ (h.paceEvaluate t).flag F.PACE_SHED_EMERG = true := by
  obtain ⟨-, -, -, own⟩ := h.judged_evaluated t
  have stepped : ((h.evaluated t).paceStep t h.margin).flag F.PACE_SHED_OWNPACE = false := by
    refine Eq.trans ?_ (own.trans ho)
    exact congrArg (· == 1) (Half.get_congr _ _ F.PACE_SHED_OWNPACE (Half.reg_paceStep _ _ _ _ (by decide) (by decide)))
  rw [h.paceEvaluate_eq t he]
  exact Half.paceCause_sheds _ _ hm stepped

end Whole

end Evaluation

/-! ## The regulator (R127, R389) -/

section Regulator
variable (h : Half) (t : Nat)

/-- A regulator that fails now shows REGFAIL and adds an entry; its setting stays. -/
theorem Half.regFail_first (hr : h.get F.PACE_REG_REGFAIL = 0) : (h.regFail t).get F.PACE_REG_REGFAIL = 1 ∧
    (h.regFail t).get F.PACE_REG_SETTING = h.get F.PACE_REG_SETTING ∧
    (h.regFail t).get F.FLT_HEAD_SEQ = (h.get F.FLT_HEAD_SEQ + 1) % 2 ^ 32 := by
  have shown (f : Field) (d : List Byte) (hf : f.off = F.PACE_REG_word.off) :
      ((h.set F.PACE_REG_REGFAIL 1).fault t clsPwr 4 h.id.num d).get f = (h.set F.PACE_REG_REGFAIL 1).get f :=
    Half.get_fault _ _ _ _ _ _ _ (by decide) (by rw [hf]; decide) (by rw [hf]; decide)
  unfold Half.regFail
  rw [Half.flag_of_get_zero _ _ hr, if_neg Bool.false_ne_true]
  refine ⟨(shown F.PACE_REG_REGFAIL _ rfl).trans (Half.get_set_of_lt _ _ _ (by decide) (by decide)),
    (shown F.PACE_REG_SETTING _ rfl).trans (Half.get_set_other _ _ _ _ (by decide) (by decide)), ?_⟩
  rw [Half.fault_seq, Half.get_set_other _ _ _ _ (by decide) (by decide)]

/-- One that has failed has. -/
theorem Half.regFail_again (hr : h.get F.PACE_REG_REGFAIL = 1) : h.regFail t = h := if_pos (Half.flag_of_get_one _ _ hr)

/-- The half after the readback that it awaited: the voltage shown, or the setting from before a command without an acknowledgement. -/
def Half.readBack (h : Half) (ack : Bool) (mv : Nat) : Half :=
  if ack then (h.onPace fun (p : PaceSt) => { p with reading := false }).set F.PACE_REG_VOUT mv
  else (h.onPace fun (p : PaceSt) => { p with reading := false }).set F.PACE_REG_SETTING h.pace.before

/-- A readback that is awaited is judged. -/
theorem Half.readback_eq (ack : Bool) (mv status : Nat) (hp : h.pace.reading = true) : h.readback t ack mv status =
    if !ack || statusFault status || voutOff ((h.readBack ack mv).get F.PACE_REG_SETTING) mv then (h.readBack ack mv).regFail t
    else h.readBack ack mv := by
  unfold Half.readback
  rw [hp]
  rfl

/-- One that is not awaited changes nothing. -/
theorem Half.readback_none (ack : Bool) (mv status : Nat) (hp : h.pace.reading = false) : h.readback t ack mv status = h := by
  unfold Half.readback
  rw [hp]
  rfl

/-- A readback leaves REGFAIL and the ledger. -/
theorem Half.get_readBack (ack : Bool) (mv : Nat) (f : Field) (hs : F.PACE_REG_SETTING.apart f) (hv : F.PACE_REG_VOUT.apart f) :
    (h.readBack ack mv).get f = h.get f := by
  unfold Half.readBack
  split
  · exact Half.get_set_other _ F.PACE_REG_VOUT _ _ (by decide) hv
  · exact Half.get_set_other _ F.PACE_REG_SETTING _ _ (by decide) hs

/-- Its setting. -/
theorem Half.setting_readBack (ack : Bool) (mv : Nat) : (h.readBack ack mv).get F.PACE_REG_SETTING =
    if ack then h.get F.PACE_REG_SETTING else h.pace.before % 128 := by
  unfold Half.readBack
  split
  · exact Half.get_set_other _ F.PACE_REG_VOUT _ _ (by decide) (by decide)
  · exact Half.get_set_same _ F.PACE_REG_SETTING _ (by decide)

end Regulator

/-! ## The commands -/

section Commands
variable (s : State) (h : HalfId) (hr : (s.mod.half h).inReset = false)
include hr

/-- The commands of the pace block at a half out of reset. -/
theorem exec_paceGate (counts : List Nat) (u : Nat) (hu : u = max s.now ((s.mod.half h).pace.gateAt + 1000)) :
    exec (.paceGate h counts) s = .next { s with now := u, mod := s.mod.onHalf h fun x => x.paceGate u counts } := by
  rw [← Module.onLive_live _ _ _ hr, hu]
  rfl

theorem exec_paceEvaluation (u : Nat) (hu : u = max s.now ((s.mod.half h).pace.evalAt + 1000000)) :
    exec (.paceEvaluation h) s = .next { s with now := u, mod := s.mod.onHalf h fun x => x.paceEvaluate u } := by
  rw [← Module.onLive_live _ _ _ hr, hu]
  rfl

theorem exec_regulatorReadback (ack : Bool) (mv status : Nat) (u : Nat)
    (hu : u = max s.now (if (s.mod.half h).pace.reading then (s.mod.half h).pace.askedAt + 500000 else 0)) :
    exec (.regulatorReadback h ack mv status) s =
      .next { s with now := u, mod := s.mod.onHalf h fun x => x.readback u ack mv status } := by
  rw [← Module.onLive_live _ _ _ hr, hu]
  rfl

theorem exec_pmbAlert (ack : Bool) (status : Nat) :
    exec (.pmbAlert h ack status) s = .next { s with mod := s.mod.onHalf h fun x => x.pmbAlert s.now ack status } := by
  rw [← Module.onLive_live _ _ _ hr]
  rfl

end Commands

/-- Past step 6 of a start, or RUNNING, the half evaluates its margin. -/
theorem Half.evaluates_of_mode (h : Half) (hs : 6 ≤ h.step) (hm : h.mode = modeStart ∨ h.mode = modeHalfStart ∨ h.mode = modeRunning) :
    h.evaluates = true := by
  unfold Half.evaluates
  rcases hm with e | e | e <;> simp [hs, e]

/-- A half that is not past step 6 leaves everything at an evaluation. -/
theorem Half.paceEvaluate_idle (h : Half) (t : Nat) (he : h.evaluates = false) : h.paceEvaluate t = h := by
  unfold Half.paceEvaluate
  rw [he]
  rfl

/-- PACE_EVALUATION of a half that is not past step 6 of a start and not RUNNING moves the clock alone. -/
theorem exec_paceEvaluation_idle (s : State) (h : HalfId) (hr : (s.mod.half h).inReset = false)
    (he : (s.mod.half h).evaluates = false) : s.idlesTo (.paceEvaluation h) ((s.mod.half h).pace.evalAt + 1000000) := by
  rw [State.idlesTo, exec_paceEvaluation s h hr _ rfl, Module.onHalf_same _ _ _ (Half.paceEvaluate_idle _ _ he)]

section Readback
variable (s : State) (h : HalfId) (hr : (s.mod.half h).inReset = false) (ack : Bool) (mv status : Nat)
include hr

/-- REGULATOR_READBACK of a readback that is not awaited changes nothing. -/
theorem exec_regulatorReadback_none (hn : (s.mod.half h).pace.reading = false) :
    exec (.regulatorReadback h ack mv status) s = .next s := by
  have same : s.mod.onHalf h (fun x => x.readback s.now ack mv status) = s.mod :=
    Module.onHalf_same _ _ _ ((s.mod.half h).readback_none s.now ack mv status hn)
  rw [exec_regulatorReadback s h hr ack mv status s.now (by simp [hn]), same]

/-- REGULATOR_READBACK of one that is awaited: 500 µs after the command the half is as the readback leaves it. -/
theorem exec_regulatorReadback_awaited (hp : (s.mod.half h).pace.reading = true) (u : Nat)
    (hu : u = max s.now ((s.mod.half h).pace.askedAt + 500000)) :
    exec (.regulatorReadback h ack mv status) s = .next { s with now := u, mod := s.mod.onHalf h fun x => x.readback u ack mv status } :=
  exec_regulatorReadback s h hr ack mv status u (by rw [hp, if_pos rfl, hu])
end Readback

section ReadbackResult
variable (x : Half) (u : Nat) (mv status : Nat) (hp : x.pace.reading = true)
include hp

/-- A readback that acknowledges, shows no fault and lies near the setting shows its voltage. -/
theorem Half.readback_good (hf : statusFault status = false) (hv : voutOff (x.get F.PACE_REG_SETTING) mv = false) :
    x.readback u true mv status = x.readBack true mv := by
  rw [Half.readback_eq x u true mv status hp, hf, Half.setting_readBack, if_pos rfl, hv, if_neg (by decide)]

/-- Any other awaited readback is a failure of the regulator; one without an acknowledgement takes the setting back. -/
theorem Half.readback_bad (ack : Bool) (hf : x.get F.PACE_REG_REGFAIL = 0)
    (hb : ack = false ∨ statusFault status = true ∨ voutOff (x.get F.PACE_REG_SETTING) mv = true) :
    (x.readback u ack mv status).get F.PACE_REG_REGFAIL = 1 ∧
      (x.readback u ack mv status).get F.PACE_REG_SETTING = (if ack then x.get F.PACE_REG_SETTING else x.pace.before % 128) ∧
      (x.readback u ack mv status).get F.FLT_HEAD_SEQ = (x.get F.FLT_HEAD_SEQ + 1) % 2 ^ 32 := by
  have setting := x.setting_readBack ack mv
  have fails : (!ack || statusFault status || voutOff ((x.readBack ack mv).get F.PACE_REG_SETTING) mv) = true := by
    rw [setting]
    rcases hb with e | e | e
    · simp [e]
    · simp [e]
    · cases ack <;> simp [e]
  have clear : (x.readBack ack mv).get F.PACE_REG_REGFAIL = 0 :=
    (Half.get_readBack x ack mv F.PACE_REG_REGFAIL (by decide) (by decide)).trans hf
  obtain ⟨shown, kept, seq⟩ := (x.readBack ack mv).regFail_first u clear
  rw [Half.readback_eq x u ack mv status hp, fails, if_pos rfl]
  exact ⟨shown, kept.trans setting, seq.trans (by rw [Half.get_readBack x ack mv F.FLT_HEAD_SEQ (by decide) (by decide)])⟩
end ReadbackResult

/-- PMB_ALERT that does not answer or shows a fault, the first: the regulator has failed. -/
theorem exec_pmbAlert_fails (s : State) (h : HalfId) (hr : (s.mod.half h).inReset = false) (ack : Bool) (status : Nat)
    (hf : (s.mod.half h).get F.PACE_REG_REGFAIL = 0) (hb : ack = false ∨ statusFault status = true) :
    ∃ t, exec (.pmbAlert h ack status) s = .next t ∧ (t.mod.half h).get F.PACE_REG_REGFAIL = 1 ∧
      (t.mod.half h).get F.FLT_HEAD_SEQ = ((s.mod.half h).get F.FLT_HEAD_SEQ + 1) % 2 ^ 32 ∧ s.mod.onlyHalf t.mod h := by
  have acts : (!ack || statusFault status) = true := by rcases hb with e | e <;> simp [e]
  have after : (s.mod.onHalf h fun x => x.pmbAlert s.now ack status).half h = (s.mod.half h).regFail s.now := by
    rw [Module.half_onHalf, Half.pmbAlert, if_pos acts]
  obtain ⟨shown, -, seq⟩ := (s.mod.half h).regFail_first s.now hf
  refine ⟨_, exec_pmbAlert s h hr ack status, ?_, ?_, Module.onlyHalf_onHalf s.mod h fun x => x.pmbAlert s.now ack status⟩ <;>
    dsimp only <;> rw [after]
  · exact shown
  · exact seq

/-- Settles O22: each command is one change of its half, and an evaluation is a judgement, a step of VCORE and the pace cause in turn. -/
theorem paceAndRegulator : Obligations.PaceAndRegulator := by
  unfold Obligations.PaceAndRegulator
  refine ⟨fun s h hr => ⟨fun counts => ?gate, fun he => ?idle, fun u hu hs hm => ?evaluation⟩, fun s h ack mv status hr =>
    ⟨fun hn => ?none, fun hp ha hf hv => ?good, fun hp hf hb => ?bad, fun ha hf => ?clean, fun hf => ?failed, fun hf hb => ?alert⟩⟩
  case gate =>
    obtain ⟨u, hu⟩ : ∃ u, u = max s.now ((s.mod.half h).pace.gateAt + 1000) := ⟨_, rfl⟩
    refine ⟨_, exec_paceGate s h hr counts u hu, hu, fun n hn => ?_, Module.onlyHalf_onHalf _ _ _⟩
    rw [Module.half_onHalf]
    exact Half.paceNow_paceGate _ _ _ _ hn
  case idle =>
    exact exec_paceEvaluation_idle s h hr he
  case evaluation =>
    have he := Half.evaluates_of_mode _ hs hm
    have run := exec_paceEvaluation s h hr u hu
    have after := Module.half_onHalf s.mod h fun x => x.paceEvaluate u
    refine ⟨⟨_, run, rfl, ?_, ?_, Module.onlyHalf_onHalf _ _ _⟩, fun hm hs hp hf => ⟨_, run, ?_⟩,
      fun hm hd hn hl ho hp hf => ⟨_, run, ?_⟩, fun hm ho => ⟨_, run, ?_⟩⟩ <;> dsimp only <;> rw [after]
    · exact (Half.paceEvaluate_shows _ u he).1
    · exact (Half.paceEvaluate_shows _ u he).2
    · exact Half.paceEvaluate_up _ u he hm hs hp hf
    · exact Half.paceEvaluate_down _ u he hm hd hn hl ho hp hf
    · exact Half.paceEvaluate_sheds _ u he hm ho
  case none => exact exec_regulatorReadback_none s h hr ack mv status hn
  case good =>
    subst ha
    obtain ⟨u, hu⟩ : ∃ u, u = max s.now ((s.mod.half h).pace.askedAt + 500000) := ⟨_, rfl⟩
    refine ⟨_, exec_regulatorReadback_awaited s h hr true mv status hp u hu, hu, ?_, ?_, ?_, fun o ho => ?_,
      Module.onlyHalf_onHalf _ _ _⟩ <;> dsimp only <;> rw [Module.half_onHalf, Half.readback_good _ u mv status hp hf hv]
    · exact Half.get_set_same _ F.PACE_REG_VOUT _ (by decide)
    · exact Half.get_readBack _ _ _ F.PACE_REG_REGFAIL (by decide) (by decide)
    · rfl
    · exact Half.reg_set_other _ F.PACE_REG_VOUT _ _ ho
  case bad =>
    obtain ⟨u, hu⟩ : ∃ u, u = max s.now ((s.mod.half h).pace.askedAt + 500000) := ⟨_, rfl⟩
    obtain ⟨shown, setting, seq⟩ := Half.readback_bad (s.mod.half h) u mv status hp ack hf hb
    refine ⟨_, exec_regulatorReadback_awaited s h hr ack mv status hp u hu, ?_, ?_, ?_, Module.onlyHalf_onHalf _ _ _⟩ <;>
      dsimp only <;> rw [Module.half_onHalf]
    · exact shown
    · exact setting
    · exact seq
  case clean =>
    rw [exec_pmbAlert s h hr, Module.onHalf_same _ _ _ ?_]
    unfold Half.pmbAlert
    rw [ha, hf, if_neg (by decide)]
  case failed =>
    rw [exec_pmbAlert s h hr, Module.onHalf_same _ _ _ ?_]
    unfold Half.pmbAlert
    rw [Half.regFail_again _ _ hf, ite_self]
  case alert => exact exec_pmbAlert_fails s h hr ack status hf hb

end Sys2Proof.Machine
end

section
/-!
SUPPORT. Pipes and fetches (R140, R141, R187, R222): what the issue of fetches and a completed fetch leave of the half, what a fetch reads,
and the statement on them.
-/
namespace Sys2Proof.Machine

/-! ## The issue of fetches -/

/-- A change of a pipe that keeps its run keeps the run of every pipe. -/
theorem Half.run_onPipe (x : Half) (k j : Nat) (g : PipeSt → PipeSt) (hg : ∀ y, (g y).run = y.run) :
    ((x.onPipe k g).pipe j).run = (x.pipe j).run := by
  simp only [Half.pipe, Half.onPipe, Half.onLap, List.getD_eq_getElem?_getD, List.getElem?_modify]
  cases x.lap.pipes[j]? with
  | none => rfl
  | some y =>
    by_cases hk : k = j
    · simp [hk, hg]
    · simp [hk]

/-- A pipe that the half has is changed. -/
theorem Half.pipe_onPipe_same (x : Half) (k : Nat) (g : PipeSt → PipeSt) (hk : k < x.lap.pipes.length) :
    (x.onPipe k g).pipe k = g (x.pipe k) := by
  simp [Half.pipe, Half.onPipe, Half.onLap, hk]

section Issue
variable {γ : Type} (p : Half → γ) (hs : ∀ x f v, f.off = F.RBK_TAGS_word.off → p (Half.set x f v) = p x)
  (hp : ∀ x k g, (∀ y, (g y).run = y.run) → p (Half.onPipe x k g) = p x)
include hs hp

/-- A fetch issued changes its pipe, but for the run, and RBK_TAGS. -/
theorem Half.issueOne_leaves (k : Nat) (h x : Half) (hx : h.issueOne k = some x) : p x = p h := by
  unfold Half.issueOne at hx
  split at hx
  · cases hx
    exact (hs _ F.RBK_TAGS_PEAK _ rfl).trans ((hs _ F.RBK_TAGS_INUSE _ rfl).trans (hp _ _ _ fun _ => rfl))
  · cases hx

/-- Fetches issued to a pipe change no more. -/
theorem Half.issue_leaves (k n : Nat) (h : Half) : p (Half.issue k n h) = p h := by
  induction n generalizing h with
  | zero => rfl
  | succ n ih =>
    unfold Half.issue
    split
    · next x hx => exact (ih x).trans (Half.issueOne_leaves p hs hp k h x hx)
    · rfl

/-- Fetches issued to every pipe change no more. -/
theorem Half.issueAll_leaves (h : Half) : p h.issueAll = p h := by
  unfold Half.issueAll
  generalize 512 = n
  exact foldl_keeps p _ (fun a i => Half.issue_leaves p hs hp i n a) _ h

end Issue

/-- A completed fetch counts one that is not ready, and otherwise changes pipes and RBK_TAGS. -/
theorem Half.completeFetch_leaves {γ : Type} (p : Half → γ) (hs : ∀ x f v, f.off = F.RBK_TAGS_word.off → p (Half.set x f v) = p x)
    (hp : ∀ x k g, p (Half.onPipe x k g) = p x) (k tag : Nat) (b : Option (List Byte)) (h : Half) :
    p (h.completeFetch k tag b) = p (if b.isNone then h.tally F.RBK_NOTREADY_COUNT 1 else h) := by
  have leaves (x : Half) : p (x.pipeLeaves k) = p x := by
    unfold Half.pipeLeaves
    dsimp only
    split
    · exact hp _ _ _
    · rfl
  unfold Half.completeFetch
  dsimp only
  exact (leaves _).trans ((Half.issueAll_leaves p hs (fun x k g _ => hp x k g) _).trans ((hs _ F.RBK_TAGS_INUSE _ rfl).trans (hp _ _ _)))

/-! ## PIPE_FREE -/

section PipeFree
variable (x : Half) (k : Nat) (r : RunWork) (rest : List RunWork) (hk : k < 4) (hi : (x.pipe k).run = none) (hl : x.lap.late = false)
  (hr : x.lap.runs = r :: rest)
include hk hi hl hr

/-- An idle pipe takes the next run and its fetches, which are issued as far as tags are free. -/
theorem Half.pipeFree_eq : x.pipeFree k = ((x.onLap fun (l : LapSt) => { l with runs := rest }).onPipe k fun _ =>
    { run := some r, todo := x.fetchPlans r, issued := [], got := [] }).issueAll := by
  unfold Half.pipeFree
  rw [if_pos ⟨hk, hi, hl⟩, hr]

/-- It takes the run. -/
theorem Half.pipeFree_run (hp : k < x.lap.pipes.length) : ((x.pipeFree k).pipe k).run = some r := by
  rw [x.pipeFree_eq k r rest hk hi hl hr, Half.issueAll_leaves (fun y => (y.pipe k).run) (fun _ _ _ _ => rfl)
    fun y j g hg => y.run_onPipe j k g hg]
  exact congrArg PipeSt.run (Half.pipe_onPipe_same _ k _ hp)

/-- The others wait. -/
theorem Half.pipeFree_runs : (x.pipeFree k).lap.runs = rest := by
  rw [x.pipeFree_eq k r rest hk hi hl hr, Half.issueAll_leaves (fun y => y.lap.runs) (fun _ _ _ _ => rfl) fun _ _ _ _ => rfl]
  rfl

/-- Outside the lap state the half changes RBK_TAGS only. -/
theorem Half.pipeFree_onlyRegs : x.onlyRegs { x.pipeFree k with lap := x.lap } fun o => o = F.RBK_TAGS_word.off := by
  rw [x.pipeFree_eq k r rest hk hi hl hr]
  refine ⟨?_, fun o ho => ?_⟩
  · exact Half.issueAll_leaves (fun y => { y with lap := x.lap, regs := x.regs }) (fun _ _ _ _ => rfl) (fun _ _ _ _ => rfl) _
  · exact Half.issueAll_leaves (fun y => y.reg o) (fun y f v hf => Half.reg_set_other y f v o (hf ▸ ho)) (fun _ _ _ _ => rfl) _

end PipeFree

/-- After the lap deadline no pipe takes a run. -/
theorem Half.pipeFree_late (x : Half) (k : Nat) (hl : x.lap.late = true) : x.pipeFree k = x := by
  unfold Half.pipeFree
  rw [hl, if_neg (by simp)]

/-! ## What a fetch reads -/

/-- A computation cut short changes registers of the check-value units only. -/
theorem Half.reg_cvuAbort_below (h : Half) (point : Nat) (sel : Nat → Nat → Bool) (o : Nat) (ho : o < 0xC0000) :
    (h.cvuAbort point sel).reg o = h.reg o := by
  have counted (x : Half) (n : Nat) : (x.tally (F.CVU_STATUS_ABORTS n) 1).reg o = x.reg o :=
    Half.reg_set_other _ (F.CVU_STATUS_ABORTS n) _ _ (by simp only [F.CVU_STATUS_ABORTS]; omega)
  refine Half.forBelow_keeps (fun x => x.reg o) _ _ (fun x n => ?_) h
  exact Half.reg_ite (Half.reg_ite rfl (counted x n)) rfl

/-- It leaves the lap state. -/
@[simp] theorem Half.cvuAbort_lap (h : Half) (point : Nat) (sel : Nat → Nat → Bool) : (h.cvuAbort point sel).lap = h.lap := by
  refine Half.forBelow_keeps (fun x => x.lap) _ _ (fun x n => ?_) h
  split
  · split <;> rfl
  · rfl

/-- So does a computation taken. -/
@[simp] theorem Half.cvuTake_lap (h : Half) (point : Nat) (sel : Nat → Nat → Bool) (data : Option (List Byte)) (hall : Nat) :
    (h.cvuTake point sel data hall).lap = h.lap := by
  refine Half.forBelow_keeps (fun x => x.lap) _ _ (fun x n => ?_) h
  split
  · split <;> rfl
  · rfl

/-- Several fields set leave the lap state. -/
@[simp] theorem Half.sets_lap (h : Half) (fs : List (Field × Nat)) : (h.sets fs).lap = h.lap :=
  Half.sets_keeps Half.lap (fun _ _ _ => rfl) h fs

/-- A newest frame shown leaves the lap state. -/
@[simp] theorem Half.showNewest_lap (h : Half) (i : Nat) : (h.showNewest i).lap = h.lap := by
  unfold Half.showNewest
  dsimp only
  (repeat' split) <;> simp

/-- A channel mapped out leaves the lap state. -/
@[simp] theorem Half.mapOutChannel_lap (h : Half) (t ch : Nat) : (h.mapOutChannel t ch).lap = h.lap := by
  unfold Half.mapOutChannel
  split
  · exact Half.fault_lap _ _ _ _ _ _
  · rfl

/-- An uncorrectable error leaves the lap state. -/
@[simp] theorem Half.uncorrectable_lap (h : Half) (t a : Nat) : (h.uncorrectable t a).lap = h.lap :=
  Half.uncorrectable_keeps Half.lap _ h t a rfl (fun _ _ _ => Half.fault_lap _ _ _ _ _ _) (fun _ _ _ => Half.showNewest_lap _ _)
    (fun _ _ => rfl) fun _ _ => Half.mapOutChannel_lap _ _ _

/-- RBK_NOTREADY follows no frame of any window number. -/
theorem offFrame_notReady (i : Nat) : OffFrame i F.RBK_NOTREADY_word.off := by
  simp only [OffFrame, List.forall_mem_cons, F.RBK_NOTREADY_word]
  refine ⟨?_, ?_, ?_, ?_, ?_, ?_, ?_, ?_, fun _ h => absurd h List.not_mem_nil⟩ <;> omega

/-- An uncorrectable error leaves the tally of tiles that are not ready. -/
theorem Half.notReady_uncorrectable (h : Half) (t a : Nat) :
    (h.uncorrectable t a).get F.RBK_NOTREADY_COUNT = h.get F.RBK_NOTREADY_COUNT := by
  refine Half.uncorrectable_keeps (fun x => x.get F.RBK_NOTREADY_COUNT) _ h t a ?_ ?_ ?_ ?_ ?_
  · exact (Half.get_congr _ _ _ (Half.reg_sets_other _ _ _ (by simp [F.RBK_NOTREADY_COUNT, F.FST_ECCADDR_VALID,
      F.FST_ECCADDR_ADDR]))).trans (Half.get_tally_other _ F.FST_ECC_UNCORR F.RBK_NOTREADY_COUNT _ (by decide) (by decide))
  · exact fun x u d => Half.get_fault _ _ _ _ _ _ _ (by decide) (by decide) (by decide)
  · exact fun x i n => Half.get_congr _ _ _ (Half.reg_damagedSlot _ _ _ _ (offFrame_notReady i))
  · exact fun _ _ => rfl
  · exact fun x ch => Half.get_congr _ _ _ (Half.reg_mapOutChannel _ _ _ _ (by decide) (by decide) (by decide))

/-- The half that a fetch with corrected errors leaves: they are counted, and the bytes pass the FETCH point. -/
def Half.fetched (x : Half) (corr : Nat) (ident : Option Nat) (data : Option (List Byte)) : Half :=
  (if corr = 0 then x else x.tally F.FST_ECC_CORR corr).cvuTake 5 (fun _ g => identTaken ident g) data 0

/-- The half that an uncorrectable error in a fetch leaves. -/
def Half.fetchLost (x : Half) (t b : Nat) (ident : Option Nat) : Half := (x.uncorrectable t b).cvuAbort 5 fun _ g => identTaken ident g

section Read
variable (m : Module) (t : Nat) (h : HalfId) (f : FetchSt) (corr : Nat) (bad : Option Nat) (ho : f.plan.src.owner h = h)
include ho

/-- A fetch with no place in the half's own memory reads nothing. -/
theorem Module.fetchRead_none (hp : m.fetchPlace h f = none) : m.fetchRead t h f corr bad = (m, none) := by
  unfold Module.fetchRead
  dsimp only
  rw [ho, if_neg (fun hn => hn.1 rfl), hp]

variable (a : Nat) (z : AccessSize) (hp : m.fetchPlace h f = some (a, z)) (hc : m.checkAccess h a z mFetch .read = none)
include hp hc

/-- One that meets an uncorrectable error reads nothing, and the error acts as in any access (R169). -/
theorem Module.fetchRead_bad (b : Nat) : m.fetchRead t h f corr (some b) = (m.onHalf h fun x => x.fetchLost t b f.plan.src.ident, none) := by
  unfold Module.fetchRead
  dsimp only
  rw [ho, if_neg (fun hn => hn.1 rfl), hp]
  dsimp only
  rw [hc]
  rfl

/-- One that meets none reads its bytes, and what it corrects is counted. -/
theorem Module.fetchRead_good (hs : ∀ g, f.plan.src ≠ .pattern g) (hm : m.memError a f.plan.len false = none) : ∃ data,
    m.fetchRead t h f corr none = (m.onHalf h fun x => x.fetched corr f.plan.src.ident data, some (m.memBytes a f.plan.len)) := by
  refine ⟨some (if f.plan.len = 1024 then (m.memBytes a f.plan.len).take 960 else m.memBytes a f.plan.len), ?_⟩
  unfold Module.fetchRead
  dsimp only
  rw [ho, if_neg (fun hn => hn.1 rfl), hp]
  dsimp only
  rw [hc]
  dsimp only
  rw [hm]
  dsimp only [Option.map_none, Option.or_none]
  cases e : f.plan.src with
  | pattern g => exact absurd e (hs g)
  | frame o n i => rfl
  | asset c => rfl

end Read

/-! ## FETCH_COMPLETE -/

/-- The half whose fetch has completed: one more of its own tiles is counted, and its pipe has it. -/
def Half.fetchCounted (y : Half) (k tag : Nat) (b : Option (List Byte)) : Half :=
  (y.onLap fun (l : LapSt) => { l with fetchLoc := l.fetchLoc + 1, fetchX := l.fetchX }).completeFetch k tag b

section Counted
variable (y : Half) (k tag : Nat) (b : Option (List Byte))

theorem Half.fetchLoc_fetchCounted : (y.fetchCounted k tag b).lap.fetchLoc = y.lap.fetchLoc + 1 := by
  unfold Half.fetchCounted
  rw [Half.completeFetch_leaves (fun x => x.lap.fetchLoc) (fun _ _ _ _ => rfl) fun _ _ _ => rfl]
  split <;> rfl

theorem Half.notReady_fetchCounted_none :
    (y.fetchCounted k tag none).get F.RBK_NOTREADY_COUNT = satAdd F.RBK_NOTREADY_COUNT.width (y.get F.RBK_NOTREADY_COUNT) 1 := by
  unfold Half.fetchCounted
  rw [Half.completeFetch_leaves (fun x => x.get F.RBK_NOTREADY_COUNT) (fun x g v hg =>
    Half.get_congr _ _ _ (Half.reg_set_other x g v _ (by rw [hg]; decide))) fun _ _ _ => rfl]
  exact Half.get_tally_same _ F.RBK_NOTREADY_COUNT 1 (by decide)

theorem Half.notReady_fetchCounted_some (bs : List Byte) :
    (y.fetchCounted k tag (some bs)).get F.RBK_NOTREADY_COUNT = y.get F.RBK_NOTREADY_COUNT := by
  unfold Half.fetchCounted
  rw [Half.completeFetch_leaves (fun x => x.get F.RBK_NOTREADY_COUNT) (fun x g v hg =>
    Half.get_congr _ _ _ (Half.reg_set_other x g v _ (by rw [hg]; decide))) fun _ _ _ => rfl]
  rfl

/-- A completed fetch leaves the tallies of memory errors. -/
theorem Half.ecc_fetchCounted (f : Field) (hf : f.off = F.FST_ECC_word.off) : (y.fetchCounted k tag b).get f = y.get f := by
  unfold Half.fetchCounted
  rw [Half.completeFetch_leaves (fun x => x.get f) (fun x g v hg =>
    Half.get_congr _ _ _ (Half.reg_set_other x g v _ (by rw [hf, hg]; decide))) fun _ _ _ => rfl]
  split
  · exact Half.get_congr _ _ _ (Half.reg_set_other _ F.RBK_NOTREADY_COUNT _ _ (by rw [hf]; decide))
  · rfl

end Counted

section Commands
variable (s : State) (h : HalfId)

/-- FETCH_COMPLETE of a fetch in flight from the half's own memory, by what it reads. -/
theorem exec_fetchComplete (hr : (s.mod.half h).inReset = false) (tag k corr : Nat) (bad : Option Nat) (f : FetchSt)
    (hk : ((List.range 4).find? fun k => ((s.mod.half h).pipe k).issued.any fun f => f.tag == tag && f.got.isNone) = some k)
    (hf : (((s.mod.half h).pipe k).issued.find? fun f => f.tag == tag) = some f) (ho : f.plan.src.owner h = h)
    (g : Half → Half) (b : Option (List Byte)) (hread : s.mod.fetchRead s.now h f corr bad = (s.mod.onHalf h g, b)) :
    exec (.fetchComplete h tag ⟨corr, bad⟩) s = .next { s with mod := s.mod.onHalf h fun x => (g x).fetchCounted k tag b } := by
  have changes : s.mod.fetchComplete s.now h tag corr bad = (s.mod.onHalf h g).onHalf h fun x => x.fetchCounted k tag b := by
    unfold Module.fetchComplete
    dsimp only
    rw [hk]
    dsimp only
    rw [hf]
    dsimp only
    rw [hread, ho, bne_self_eq_false, if_neg Bool.false_ne_true]
    rfl
  have twice : (s.mod.onHalf h g).onHalf h (fun x => x.fetchCounted k tag b) = s.mod.onHalf h fun x => (g x).fetchCounted k tag b := by
    cases h <;> rfl
  show execFetchComplete h tag ⟨corr, bad⟩ s = _
  rw [execFetchComplete, State.act_eq]
  unfold Module.given
  rw [hr, Bool.not_false, if_pos rfl]
  dsimp only
  rw [changes, twice]

/-- FETCH_COMPLETE of a tag that no fetch in flight holds changes nothing. -/
theorem exec_fetchComplete_idle (hr : (s.mod.half h).inReset = false) (tag : Nat) (e : AccessErrors)
    (hk : ((List.range 4).find? fun k => ((s.mod.half h).pipe k).issued.any fun f => f.tag == tag && f.got.isNone) = none) :
    exec (.fetchComplete h tag e) s = .next s := by
  have same : s.mod.fetchComplete s.now h tag e.corrected e.uncorrectable = s.mod := by
    unfold Module.fetchComplete
    dsimp only
    rw [hk]
  show execFetchComplete h tag e s = _
  rw [execFetchComplete, State.act_eq]
  unfold Module.given
  rw [hr, Bool.not_false, if_pos rfl]
  dsimp only
  rw [same]

/-- PIPE_FREE changes the half alone. -/
theorem exec_pipeFree (hr : (s.mod.half h).inReset = false) (k : Nat) (hk : k < 4) :
    exec (.pipeFree h k) s = .next { s with mod := s.mod.onHalf h fun x => x.pipeFree k } := by
  show execPipeFree h k s = _
  rw [execPipeFree, State.act_eq]
  unfold Module.given
  rw [decide_eq_true hk, if_pos rfl]
  dsimp only
  rw [Module.onLive_live _ _ _ hr]

/-- PIPE_FREE after the lap deadline changes nothing. -/
theorem exec_pipeFree_late (hr : (s.mod.half h).inReset = false) (k : Nat) (hl : (s.mod.half h).lap.late = true) :
    exec (.pipeFree h k) s = .next s := by
  have same : s.mod.onLive h (fun x => x.pipeFree k) = s.mod := by
    rw [Module.onLive_live _ _ _ hr]
    exact Module.onHalf_same _ _ _ (Half.pipeFree_late _ k hl)
  show execPipeFree h k s = _
  rw [execPipeFree, State.act_eq]
  unfold Module.given
  dsimp only
  rw [same, ite_self]

/-- TILE_READY changes the half alone. -/
theorem exec_tileReady (hr : (s.mod.half h).inReset = false) (tx ty : Nat) :
    exec (.tileReady h tx ty) s = .next { s with mod := s.mod.setHalf h ((s.mod.half h).tileReady s.now tx ty) } := by
  have replaced : s.mod.onHalf h (fun x => x.tileReady s.now tx ty) = s.mod.setHalf h ((s.mod.half h).tileReady s.now tx ty) := by
    cases h <;> rfl
  rw [← replaced, ← Module.onLive_live _ _ _ hr]
  rfl

/-- TILE_READY that leaves the half as it is changes nothing. -/
theorem exec_tileReady_same (hr : (s.mod.half h).inReset = false) (tx ty : Nat)
    (hx : (s.mod.half h).tileReady s.now tx ty = s.mod.half h) : exec (.tileReady h tx ty) s = .next s := by
  rw [exec_tileReady s h hr, hx, Module.setHalf_half]

end Commands

/-! ## TILE_READY -/

section Tiles
variable (x : Half) (t tx ty : Nat)

/-- A tile that no run covers changes nothing. -/
theorem Half.tileReady_uncovered
    (hk : ((List.range 4).find? fun k => ((x.pipe k).run.map fun r => r.covers tx ty).getD false) = none) :
    x.tileReady t tx ty = x := by
  unfold Half.tileReady
  rw [hk]

variable (k : Nat) (r : RunWork) (sc : Scene)
  (hk : ((List.range 4).find? fun k => ((x.pipe k).run.map fun r => r.covers tx ty).getD false) = some k)
  (hr : (x.pipe k).run = some r) (hs : x.scene = some sc)
include hk hr hs

/-- One that is still being composed waits. -/
theorem Half.tileReady_waits (hc : x.composing sc (x.pipe k) r tx ty = true) : x.tileReady t tx ty = x := by
  unfold Half.tileReady
  rw [hk]
  dsimp only
  rw [hr, hs]
  dsimp only
  rw [hc, Bool.or_true, if_pos rfl]

/-- Any other, not composed before, joins the push stream. -/
theorem Half.tileReady_joins (hn : (x.lap.push.tiles.any fun o => o.tx == tx && o.ty == ty) = false)
    (hc : x.composing sc (x.pipe k) r tx ty = false) : x.tileReady t tx ty =
      ((x.onPush fun (p : PushSt) => { p with tiles := p.tiles ++ [⟨tx, ty, x.composeTile sc (x.pipe k).got r tx ty⟩] }).pipeLeaves
        k).pushAdvance t := by
  unfold Half.tileReady
  rw [hk]
  dsimp only
  rw [hr, hs]
  dsimp only
  rw [hn, hc, Bool.or_self, if_neg Bool.false_ne_true]

end Tiles

/-- A pipe that a finished run leaves changes itself only. -/
theorem Half.pipeLeaves_keeps {γ : Type} (p : Half → γ) (hp : ∀ x k g, p (Half.onPipe x k g) = p x) (h : Half) (k : Nat) :
    p (h.pipeLeaves k) = p h := by
  unfold Half.pipeLeaves
  dsimp only
  split
  · exact hp _ _ _
  · rfl

/-- A half that may not push does not. -/
theorem Half.pushAdvance_barred (x : Half) (t : Nat) (hm : x.mayPush = false) : x.pushAdvance t = x := by
  unfold Half.pushAdvance
  rw [hm, Bool.false_and, Bool.false_and, if_neg Bool.false_ne_true]

/-- The corrected errors of a fetch are added to their tally; none add nothing. -/
theorem Half.corr_fetched (x : Half) (corr : Nat) (ident : Option Nat) (data : Option (List Byte)) :
    (x.fetched corr ident data).get F.FST_ECC_CORR = satAdd 16 (x.get F.FST_ECC_CORR) corr := by
  have taken (y : Half) : (y.cvuTake 5 (fun _ g => identTaken ident g) data 0).get F.FST_ECC_CORR = y.get F.FST_ECC_CORR :=
    Half.get_congr _ _ _ (Half.reg_cvuTake _ _ _ _ _ _)
  unfold Half.fetched
  rw [taken]
  split
  · next hz =>
    have small : x.get F.FST_ECC_CORR < 2 ^ 16 := Half.get_lt x F.FST_ECC_CORR
    rw [hz]
    unfold satAdd
    omega
  · exact Half.get_tally_same _ F.FST_ECC_CORR corr (by decide)

/-- They leave the tally of tiles that are not ready. -/
theorem Half.notReady_fetched (x : Half) (corr : Nat) (ident : Option Nat) (data : Option (List Byte)) :
    (x.fetched corr ident data).get F.RBK_NOTREADY_COUNT = x.get F.RBK_NOTREADY_COUNT := by
  have taken (y : Half) : (y.cvuTake 5 (fun _ g => identTaken ident g) data 0).get F.RBK_NOTREADY_COUNT = y.get F.RBK_NOTREADY_COUNT :=
    Half.get_congr _ _ _ (Half.reg_cvuTake _ _ _ _ _ _)
  unfold Half.fetched
  rw [taken]
  split
  · rfl
  · exact Half.get_tally_other _ F.FST_ECC_CORR F.RBK_NOTREADY_COUNT _ (by decide) (by decide)

@[simp] theorem Half.fetched_lap (x : Half) (corr : Nat) (ident : Option Nat) (data : Option (List Byte)) :
    (x.fetched corr ident data).lap = x.lap := by
  unfold Half.fetched
  rw [Half.cvuTake_lap]
  split <;> rfl

@[simp] theorem Half.fetchLost_lap (x : Half) (t b : Nat) (ident : Option Nat) : (x.fetchLost t b ident).lap = x.lap := by
  unfold Half.fetchLost
  rw [Half.cvuAbort_lap, Half.uncorrectable_lap]

/-- A register below the check-value units is after a lost fetch as the error leaves it. -/
theorem Half.get_fetchLost (x : Half) (t b : Nat) (ident : Option Nat) (f : Field) (hf : f.off < 0xC0000) :
    (x.fetchLost t b ident).get f = (x.uncorrectable t b).get f :=
  Half.get_congr _ _ _ (Half.reg_cvuAbort_below _ _ _ _ hf)

/-- Settles O28: a completed fetch counts one tile of its half whatever it reads, and what it reads is one of three cases. -/
theorem pipes : Obligations.Pipes := by
  unfold Obligations.Pipes
  intro s h hr
  refine ⟨fun k r rest hk hp hi hl hs => ?take, fun k hl => exec_pipeFree_late s h hr k hl, fun tag k corr bad f hk hf ho =>
    ⟨fun hn => ?none, fun a z hp hc hs => ⟨fun hm => ?good, fun b hb => ?bad⟩⟩, fun tag e hk => exec_fetchComplete_idle s h hr tag e hk,
    fun tx ty k r sc hk hp hs hn => ⟨fun hc => ?joins, fun hc => ?waits⟩, fun tx ty hk => ?uncovered⟩
  case take =>
    refine ⟨_, exec_pipeFree s h hr k hk, ?_, ?_, ?_, Module.onlyHalf_onHalf s.mod h fun x => x.pipeFree k⟩ <;>
      dsimp only <;> rw [Module.half_onHalf]
    · exact Half.pipeFree_run _ k r rest hk hi hl hs hp
    · exact Half.pipeFree_runs _ k r rest hk hi hl hs
    · exact Half.pipeFree_onlyRegs _ k r rest hk hi hl hs
  case none =>
    have same : s.mod.onHalf h (fun x => x) = s.mod := Module.onHalf_same _ _ _ rfl
    have read : s.mod.fetchRead s.now h f corr bad = (s.mod.onHalf h fun x => x, none) := by
      rw [s.mod.fetchRead_none s.now h f corr bad ho hn, same]
    refine ⟨_, exec_fetchComplete s h hr tag k corr bad f hk hf ho _ _ read, ?_, ?_, Module.onlyHalf_onHalf s.mod h _⟩ <;>
      dsimp only <;> rw [Module.half_onHalf]
    · exact Half.fetchLoc_fetchCounted _ k tag none
    · exact Half.notReady_fetchCounted_none _ k tag
  case good =>
    obtain ⟨data, read⟩ := s.mod.fetchRead_good s.now h f corr ho a z hp hc hs hm
    refine ⟨_, exec_fetchComplete s h hr tag k corr none f hk hf ho _ _ read, ?_, ?_, ?_, Module.onlyHalf_onHalf s.mod h _⟩ <;>
      dsimp only <;> rw [Module.half_onHalf]
    · rw [Half.fetchLoc_fetchCounted, Half.fetched_lap]
    · rw [Half.notReady_fetchCounted_some, Half.notReady_fetched]
    · rw [Half.ecc_fetchCounted _ k tag _ F.FST_ECC_CORR rfl, Half.corr_fetched]
  case bad =>
    subst hb
    have read := s.mod.fetchRead_bad s.now h f corr ho a z hp hc b
    refine ⟨_, exec_fetchComplete s h hr tag k corr (some b) f hk hf ho _ _ read, ?_, ?_, ?_, Module.onlyHalf_onHalf s.mod h _⟩ <;>
      dsimp only <;> rw [Module.half_onHalf]
    · rw [Half.fetchLoc_fetchCounted, Half.fetchLost_lap]
    · rw [Half.notReady_fetchCounted_none, Half.get_fetchLost _ _ _ _ F.RBK_NOTREADY_COUNT (by decide), Half.notReady_uncorrectable]
    · rw [Half.ecc_fetchCounted _ k tag _ F.FST_ECC_UNCORR rfl, Half.get_fetchLost _ _ _ _ F.FST_ECC_UNCORR (by decide),
        Half.uncorr_uncorrectable]
      rfl
  case joins =>
    have kept {γ : Type} (p : Half → γ) (hq : ∀ x k g, p (Half.onPipe x k g) = p x) (x : Half) : p (x.pipeLeaves k) = p x :=
      Half.pipeLeaves_keeps p hq x k
    refine ⟨?_, kept (fun x => x.lap.push.tiles) (fun _ _ _ => rfl) _, kept Half.regs (fun _ _ _ => rfl) _, fun hm => ?_⟩
    · rw [exec_tileReady s h hr, Half.tileReady_joins _ s.now tx ty k r sc hk hp hs hn hc]
      rfl
    · exact Half.pushAdvance_barred _ _ ((kept Half.mayPush (fun _ _ _ => rfl) _).trans hm)
  case waits => exact exec_tileReady_same s h hr tx ty (Half.tileReady_waits _ s.now tx ty k r sc hk hp hs hc)
  case uncovered => exact exec_tileReady_same s h hr tx ty (Half.tileReady_uncovered _ s.now tx ty hk)

end Sys2Proof.Machine
end

section
/-!
SUPPORT. What stands in a half while its lap goes on: whether its first lap has begun, a part of its lap state and some of its registers,
through every operation of the push stream and of the access rules.
-/
namespace Sys2Proof.Machine

/-- Whether the first lap has begun, the part `L` of the lap state and the registers at `os`. -/
def Half.view {γ : Type} (L : LapSt → γ) (os : List Nat) (h : Half) : Bool × γ × List Word := (h.lapBegun, L h.lap, os.map h.reg)

/-- Every offset lies below the check-value, access, engine and ledger blocks. -/
def lowOffs (os : List Nat) : Bool := os.all fun o => decide (o < 0xC0000)

section View
variable {γ : Type} (L : LapSt → γ) (os : List Nat) (h : Half)

theorem Half.view_congr (k : Half) (hb : k.lapBegun = h.lapBegun) (hl : L k.lap = L h.lap) (hr : ∀ o ∈ os, k.reg o = h.reg o) :
    k.view L os = h.view L os := by
  unfold Half.view
  rw [hb, hl, List.map_congr_left hr]

/-- A register of the view. -/
theorem Half.reg_of_view (k : Half) (hv : k.view L os = h.view L os) (o : Nat) (ho : o ∈ os) : k.reg o = h.reg o :=
  List.map_inj_left.mp (congrArg (fun v => v.2.2) hv) o ho

/-- A view that both branches have, the choice between them has. -/
theorem Half.view_ite {c : Prop} [Decidable c] {h x y : Half} (hx : x.view L os = h.view L os) (hy : y.view L os = h.view L os) :
    (if c then x else y).view L os = h.view L os := by
  split
  · exact hx
  · exact hy

/-! ## Fields and signals -/

theorem Half.view_set (f : Field) (v : Nat) (hf : os.contains f.off = false) : (h.set f v).view L os = h.view L os :=
  Half.view_congr L os h _ rfl rfl fun o ho => Half.reg_set_other _ _ _ _ fun e => by
    rw [← e, List.contains_iff_mem.mpr ho] at hf
    cases hf

theorem Half.view_sets (l : List (Field × Nat)) (hl : ∀ c ∈ l, os.contains c.1.off = false) : (h.sets l).view L os = h.view L os := by
  induction l generalizing h with
  | nil => rfl
  | cons c rest ih =>
    exact (ih _ fun d hd => hl d (List.mem_cons_of_mem _ hd)).trans (Half.view_set L os h c.1 c.2 (hl c List.mem_cons_self))

theorem Half.view_onLap (g : LapSt → LapSt) (hL : L (g h.lap) = L h.lap) : (h.onLap g).view L os = h.view L os :=
  Half.view_congr L os h _ rfl hL fun _ _ => rfl

theorem Half.view_note (c : Nat) (d : List Byte) : (h.note c d).view L os = h.view L os := rfl
theorem Half.view_send (x : LinkMsg) : (h.send x).view L os = h.view L os :=
  Half.view_congr L os h _ (Half.send_lapBegun _ _) (by rw [Half.send_lap]) fun _ _ => Half.reg_send _ _ _

theorem Half.view_toPanel (c : Cell) : (h.toPanel c).view L os = h.view L os := by
  unfold Half.toPanel Half.queueOn
  split <;> rfl

theorem Half.view_toPanels (cs : List Cell) : (cs.foldl Half.toPanel h).view L os = h.view L os :=
  foldl_keeps (Half.view L os) _ (fun x c => Half.view_toPanel L os x c) cs h

theorem Half.view_cvuTake (point : Nat) (sel : Nat → Nat → Bool) (data : Option (List Byte)) (hall : Nat) :
    (h.cvuTake point sel data hall).view L os = h.view L os := by
  refine Half.forBelow_keeps (Half.view L os) _ _ (fun x n => ?_) h
  split
  · split <;> rfl
  · rfl

section Low
variable (hos : lowOffs os = true)
include hos

theorem lowOffs_lt (o : Nat) (ho : o ∈ os) : o < 0xC0000 := of_decide_eq_true (List.all_eq_true.mp hos o ho)

theorem Half.view_raise (s : Nat) : (h.raise s).view L os = h.view L os :=
  Half.view_congr L os h _ (Half.raise_lapBegun _ _) (by rw [Half.raise_lap]) fun o ho => Half.reg_raise _ _ _ (by
    have := lowOffs_lt os hos o ho
    omega)

theorem Half.view_raiseAt (n s : Nat) : (h.raiseAt n s).view L os = h.view L os := by
  have off (f : Field) (hf : 0xC0000 ≤ f.off) : os.contains f.off = false := by
    rw [List.contains_eq_mem, decide_eq_false_iff_not]
    exact fun ho => Nat.lt_irrefl _ (Nat.lt_of_lt_of_le (lowOffs_lt os hos _ ho) hf)
  unfold Half.raiseAt
  split
  · exact Half.view_set L os h _ _ (off _ (by simp only [F.ENG_IRQOVR_OVR]; omega))
  · exact Half.view_set L os h _ _ (off _ (by simp only [F.ENG_IRQPEND_PEND]; omega))

theorem Half.view_roleChange (n m : Nat) : (h.roleChange n m).view L os = h.view L os := by
  unfold Half.roleChange
  rw [Half.view_note, Half.view_raiseAt L os h hos]

theorem Half.view_signal (s off : Nat) : (h.signal s off).view L os = h.view L os := by
  unfold Half.signal
  dsimp only
  split
  · rw [Half.view_note, Half.view_raise L os h hos]
  · rw [Half.view_raise L os h hos]

theorem Half.view_signalling (s off : Nat) (f : Half → Half) : (h.signalling s off f).view L os = (f h).view L os := by
  unfold Half.signalling
  dsimp only
  split
  · rfl
  · exact Half.view_signal L os _ hos s off

theorem Half.view_fault (t c k u : Nat) (d : List Byte) (hc : 1 ≤ c ∧ c ≤ 16) : (h.fault t c k u d).view L os = h.view L os :=
  Half.view_congr L os h _ (Half.fault_lapBegun _ _ _ _ _ _) (by rw [Half.fault_lap]) fun o ho => by
    have := lowOffs_lt os hos o ho
    exact Half.reg_fault _ _ _ _ _ _ _ hc (by omega) (by omega)

end Low

/-! ## COMMIT and batons -/

theorem Half.view_batonNow (t : Nat) : (h.batonNow t).view L os = h.view L os := by
  have carried : h.sentChanges.view L os = h.view L os := by
    unfold Half.sentChanges
    split
    · rfl
    · split <;> rfl
  unfold Half.batonNow
  dsimp only
  split
  · split
    · exact carried
    · rw [Half.view_send]
      exact carried
  · rfl

theorem Half.view_tryCommit (t : Nat) (late : Bool)
    (hL : ∀ (l : LapSt) c f a, L { l.noteCommit c with forward := f, aloneLap := a } = L l) :
    (h.tryCommit t late).view L os = h.view L os := by
  have sent (lap mask : Nat) (rs : List Nat) : (h.sendCommit lap mask rs).view L os = h.view L os := by
    unfold Half.sendCommit
    rw [Half.view_toPanel, Half.view_toPanel]
  unfold Half.tryCommit
  refine Half.view_ite L os (Half.view_ite L os rfl (Eq.trans (Half.view_onLap L os _ _ ?_) ?_)) rfl
  · exact hL _ _ _ _
  · exact Half.view_ite L os (sent _ _ _) rfl

theorem Half.view_bandDone (t : Nat) (late : Bool)
    (hL : ∀ (l : LapSt) c f a, L { l.noteCommit c with forward := f, aloneLap := a } = L l)
    (hr : ∀ (l : LapSt) r, L { l with push := { l.push with done := true }, range := r } = L l) :
    (h.bandDone t late).view L os = h.view L os := by
  have done (g : Half) (hg : g.view L os = h.view L os) : (if g.owner then g.tryCommit t late else g.batonNow t).view L os = h.view L os :=
    Half.view_ite L os ((Half.view_tryCommit L os g t late hL).trans hg) ((Half.view_batonNow L os g t).trans hg)
  refine done _ (Half.view_congr L os h _ rfl ?_ fun _ _ => rfl)
  exact hr h.lap _

end View

/-! ## The push stream -/

/-- The part of the lap state that the push stream leaves: the boundaries and the layers that wait. -/
def calmPart (l : LapSt) : List (Nat × Nat) × List Nat := (l.bounds, l.awaiting)

/-- Registers that the push stream leaves: the lap number and the tallies of the age gate. -/
def calmRegs : List Nat := [F.RBK_LAP_word.off, F.AGE_TALLY_word.off]

/-- The half as far as the push stream leaves it. -/
abbrev Half.calm (h : Half) : Bool × (List (Nat × Nat) × List Nat) × List Word := h.view calmPart calmRegs

theorem calmRegs_contains (o : Nat) (hl : o ≠ F.RBK_LAP_word.off) (ht : o ≠ F.AGE_TALLY_word.off) : calmRegs.contains o = false := by
  simp [calmRegs, hl, ht]

section Calm
variable (h : Half) (t : Nat)

theorem Half.calm_onLap (g : LapSt → LapSt) (hg : calmPart (g h.lap) = calmPart h.lap) : (h.onLap g).calm = h.calm :=
  Half.view_onLap calmPart calmRegs h g hg

theorem Half.calm_set (f : Field) (v : Nat) (hf : calmRegs.contains f.off = false) : (h.set f v).calm = h.calm :=
  Half.view_set calmPart calmRegs h f v hf
theorem Half.calm_tally (f : Field) (n : Nat) (hf : calmRegs.contains f.off = false) : (h.tally f n).calm = h.calm :=
  Half.view_set calmPart calmRegs h f _ hf
theorem Half.calm_setBit (f : Field) (i : Nat) (b : Bool) (hf : calmRegs.contains f.off = false) : (h.setBit f i b).calm = h.calm :=
  Half.view_set calmPart calmRegs h f _ hf
theorem Half.calm_toPanel (c : Cell) : (h.toPanel c).calm = h.calm := Half.view_toPanel calmPart calmRegs h c

theorem Half.calm_fault (c k u : Nat) (d : List Byte) (hc : 1 ≤ c ∧ c ≤ 16) : (h.fault t c k u d).calm = h.calm :=
  Half.view_fault calmPart calmRegs h rfl t c k u d hc

theorem Half.calm_again (i : Nat) : (h.again i).calm = h.calm := rfl

theorem Half.calm_watchResult (n r : Nat) (v : Option Nat) : (h.watchResult n r v).calm = h.calm := rfl

theorem Half.calm_watchSkip (n : Nat) : (h.watchSkip n).calm = h.calm :=
  Half.calm_tally (h.watchResult n 3 none) F.CMP_WATCHTALLY_SKIPPED 1 rfl

theorem Half.calm_watchRect (i : Nat) (r : RegionSt) (words : Option (List Nat)) (filled : List (Nat × Nat)) (w : WatchRec) :
    (h.watchRect t i r words filled w).calm = h.calm := by
  have missed (n v : Nat) :
      ((((h.tally F.CMP_WATCHTALLY_CHECKS 1).watchResult n 2 (some v)).tally F.CMP_WATCHTALLY_MISMATCH 1).again i).calm = h.calm :=
    (Half.calm_again _ _).trans <| (Half.calm_tally _ F.CMP_WATCHTALLY_MISMATCH 1 rfl).trans <|
      (Half.calm_watchResult _ _ _ _).trans (h.calm_tally F.CMP_WATCHTALLY_CHECKS 1 rfl)
  unfold Half.watchRect
  refine Half.view_ite _ _ ?_ rfl
  cases words with
  | none => exact h.calm_watchSkip _
  | some ws =>
    refine Half.view_ite _ _ (h.calm_watchSkip _) (Half.view_ite _ _ ?checked ?failed)
    case checked => exact (Half.calm_watchResult _ _ _ _).trans (h.calm_tally F.CMP_WATCHTALLY_CHECKS 1 rfl)
    case failed =>
      refine (Half.calm_fault _ _ _ _ _ _ (by decide)).trans (Half.view_ite _ _ ?_ ?_)
      · exact (Half.calm_setBit _ F.CMP_WATCHFAIL0_RECTS _ _ rfl).trans (missed _ _)
      · exact (Half.calm_setBit _ F.CMP_WATCHFAIL1_RECTS _ _ rfl).trans (missed _ _)

theorem Half.calm_watchRegion (i : Nat) (words : Option (List Nat)) (filled : List (Nat × Nat)) :
    (h.watchRegion t i words filled).calm = h.calm := by
  unfold Half.watchRegion
  split
  · rfl
  · exact foldl_keeps Half.calm _ (fun x w => x.calm_watchRect t i _ words filled w) _ h

theorem Half.calm_openRegion (i : Nat) (r : RegionSt) (rest : List Nat) : (h.openRegion i r rest).calm = h.calm := by
  unfold Half.openRegion
  dsimp only
  exact (Half.calm_onLap _ _ rfl).trans ((Half.calm_toPanel _ _).trans (Half.calm_set _ F.PNL_PSEQ_NEXT _ rfl))

theorem Half.calm_closeRegion (c : OpenRegion) (r : RegionSt) : (h.closeRegion t c r).calm = h.calm := by
  unfold Half.closeRegion
  dsimp only
  refine (Half.calm_onLap _ _ rfl).trans ((Half.calm_watchRegion _ t _ _ _).trans ((Half.view_cvuTake _ _ _ _ _ _ _).trans ?_))
  refine (Half.calm_tally _ F.CMP_UNDERRUN_REGIONS _ rfl).trans ((Half.calm_onLap _ _ rfl).trans ?_)
  exact (Half.calm_set _ F.PNL_HMLAST_HALLMARK _ rfl).trans (Half.calm_toPanel _ _)

theorem Half.calm_pushTile (c : OpenRegion) (r : RegionSt) (x : Half) (hx : h.pushTile c r = some x) : x.calm = h.calm := by
  have sent (cs : List Cell) (n : Nat) (g : PushSt → PushSt) :
      (((cs.foldl Half.toPanel h).tally F.CMP_UNDERRUN_TILES n).onPush g).calm = h.calm :=
    (Half.calm_onLap _ _ rfl).trans ((Half.calm_tally _ F.CMP_UNDERRUN_TILES _ rfl).trans (Half.view_toPanels _ _ _ _))
  unfold Half.pushTile at hx
  dsimp only at hx
  (repeat' split at hx) <;> cases hx <;> exact sent _ _ _

theorem Half.calm_pushMove (x : Half) (hx : h.pushMove t = some x) : x.calm = h.calm := by
  unfold Half.pushMove at hx
  dsimp only at hx
  split at hx
  · next c _ =>
    obtain ⟨r, -, hx⟩ := Option.bind_eq_some_iff.mp hx
    split at hx
    · exact h.calm_pushTile c r x hx
    · cases hx
      exact h.calm_closeRegion t c r
  · obtain ⟨r, -, rfl⟩ := Option.map_eq_some_iff.mp hx
    exact h.calm_openRegion _ r _
  · cases hx

theorem Half.calm_pushRun (n : Nat) : (Half.pushRun n t h).calm = h.calm := by
  induction n generalizing h with
  | zero => rfl
  | succ n ih =>
    unfold Half.pushRun
    split
    · next x hx => exact (ih x).trans (h.calm_pushMove t x hx)
    · rfl

theorem Half.calm_pushAdvance : (h.pushAdvance t).calm = h.calm := by
  unfold Half.pushAdvance
  refine Half.view_ite _ _ (Half.view_ite _ _ ?_ (h.calm_pushRun t _)) rfl
  exact (Half.view_bandDone _ _ _ _ _ (fun _ _ _ _ => rfl) fun _ _ => rfl).trans (h.calm_pushRun t _)

/-! ## Refused accesses and memory errors -/

theorem Half.calm_refuse (a : Nat) (d : Denial) (master : Nat) (kind : AccessKind) : (h.refuse t a d master kind).calm = h.calm := by
  refine Half.view_congr _ _ _ _ ?_ ?_ fun o ho => ?_
  · unfold Half.refuse Half.violationRecord
    simp only [apply_ite Half.lapBegun, Half.signal_lapBegun, Half.fault_lapBegun, Half.tally_lapBegun,
      Half.sets_keeps Half.lapBegun fun _ _ _ => rfl, ite_self]
  · unfold Half.refuse Half.violationRecord
    simp only [apply_ite Half.lap, Half.signal_lap, Half.fault_lap, Half.tally_lap, Half.sets_lap, ite_self]
  · have low := lowOffs_lt calmRegs rfl o ho
    exact Half.reg_refuse _ _ _ _ _ _ _ (by omega) (by omega) (by omega)

/-- A register of the view follows no frame of any window number. -/
theorem offFrame_calm (i o : Nat) (ho : o ∈ calmRegs) : OffFrame i o := by
  simp only [calmRegs, List.mem_cons, List.not_mem_nil, or_false, F.RBK_LAP_word, F.AGE_TALLY_word] at ho
  simp only [OffFrame, List.forall_mem_cons]
  refine ⟨?_, ?_, ?_, ?_, ?_, ?_, ?_, ?_, fun _ h => absurd h List.not_mem_nil⟩ <;> omega

theorem Half.calm_mapOutChannel (ch : Nat) : (h.mapOutChannel t ch).calm = h.calm := by
  refine Half.view_congr _ _ _ _ ?_ (by rw [Half.mapOutChannel_lap]) fun o ho => ?_
  · unfold Half.mapOutChannel
    split
    · exact Half.fault_lapBegun _ _ _ _ _ _
    · rfl
  · have low := lowOffs_lt calmRegs rfl o ho
    refine Half.reg_mapOutChannel _ _ _ _ (fun e => ?_) (by omega) (by omega)
    rw [e] at ho
    revert ho
    decide

theorem Half.calm_uncorrectable (a : Nat) : (h.uncorrectable t a).calm = h.calm := by
  refine Half.uncorrectable_keeps Half.calm _ h t a ?_ ?_ ?_ ?_ ?_
  · refine (Half.view_sets _ _ _ _ ?_).trans (h.calm_tally F.FST_ECC_UNCORR 1 rfl)
    simp only [List.forall_mem_cons]
    exact ⟨by decide, by decide, fun _ hc => absurd hc List.not_mem_nil⟩
  · exact fun x u d => x.calm_fault t _ _ _ _ (by decide)
  · refine fun x i n => Half.view_congr _ _ _ _ ?_ (by rw [Half.showNewest_lap]; rfl) fun o ho =>
      Half.reg_damagedSlot _ _ _ _ (offFrame_calm i o ho)
    unfold Half.showNewest
    split
    · rfl
    · exact Half.sets_keeps Half.lapBegun (fun _ _ _ => rfl) _ _
  · exact fun _ _ => rfl
  · exact fun x ch => x.calm_mapOutChannel t ch

end Calm
end Sys2Proof.Machine
end

section
/-!
SUPPORT. What stands in the module while the lap of a half goes on: the flash, the fuse and the view of each half.
-/
namespace Sys2Proof.Machine

/-- The flash, the fuse and the view of each half. -/
def Module.view {γ : Type} (L : LapSt → γ) (os : List Nat) (m : Module) :
    Flash × Option (List Byte) × (Bool × γ × List Word) × (Bool × γ × List Word) :=
  (m.flash, m.fuse, (m.half .h0).view L os, (m.half .h1).view L os)

section View
variable {γ : Type} (L : LapSt → γ) (os : List Nat) (m : Module)

/-- Of two modules with the same view, each half has the same. -/
theorem Module.half_of_view (m' : Module) (hm : m'.view L os = m.view L os) (k : HalfId) :
    (m'.half k).view L os = (m.half k).view L os := by
  cases k
  · exact congrArg (fun v => v.2.2.1) hm
  · exact congrArg (fun v => v.2.2.2) hm

/-- A half replaced by one with its view. -/
theorem Module.view_setHalf (k : HalfId) (x : Half) (hx : x.view L os = (m.half k).view L os) :
    (m.setHalf k x).view L os = m.view L os := by
  cases k
  · exact congrArg (fun v => (m.flash, m.fuse, v, m.half1.view L os)) hx
  · exact congrArg (fun v => (m.flash, m.fuse, m.half0.view L os, v)) hx

/-- A change of a half that keeps its view. -/
theorem Module.view_onHalf (k : HalfId) (f : Half → Half) (hf : ∀ x : Half, (f x).view L os = x.view L os) :
    (m.onHalf k f).view L os = m.view L os := Module.view_setHalf L os m k _ (hf _)

theorem Module.view_onLive (k : HalfId) (f : Half → Half) (hf : ∀ x : Half, (f x).view L os = x.view L os) :
    (m.onLive k f).view L os = m.view L os := by
  unfold Module.onLive
  split
  · rfl
  · exact Module.view_onHalf L os m k f hf

end View

/-! ## Palettes and the runs of a lap (R174, R212) -/

section Calm
variable (m : Module) (t : Nat) (h : HalfId)

/-- The module as far as the push stream leaves it. -/
abbrev Module.calm (m : Module) : Flash × Option (List Byte) × (Bool × (List (Nat × Nat) × List Nat) × List Word) ×
    (Bool × (List (Nat × Nat) × List Nat) × List Word) := m.view calmPart calmRegs

theorem Module.calm_onHalf (k : HalfId) (f : Half → Half) (hf : ∀ x : Half, (f x).calm = x.calm) : (m.onHalf k f).calm = m.calm :=
  Module.view_onHalf calmPart calmRegs m k f hf

theorem Module.calm_composeRead (a n : Nat) : (m.composeRead t a n).1.calm = m.calm := by
  unfold Module.composeRead
  dsimp only
  split
  · split
    · exact m.calm_onHalf _ _ fun x => x.calm_uncorrectable t _
    · rfl
  · exact m.calm_onHalf _ _ fun x => x.calm_refuse t _ _ _ _

theorem Module.calm_readPalette (g : Nat) : (m.readPalette t h g).calm = m.calm := by
  have stored (x : Module) (p : LapSt → List (Nat × List Byte)) :
      (x.onHalf h fun y => y.onLap fun (l : LapSt) => { l with palettes := p l }).calm = x.calm := x.calm_onHalf _ _ fun _ => rfl
  unfold Module.readPalette
  dsimp only
  split
  · rfl
  · split
    · rfl
    · split
      · rfl
      · refine (stored _ _).trans ?_
        split
        · rfl
        · exact m.calm_composeRead t _ _

theorem Module.calm_lapGo : (m.lapGo t h).calm = m.calm := by
  have waits (l : List Nat) (y : Half) : (l.foldl Half.again y).calm = y.calm :=
    foldl_keeps Half.calm Half.again (fun x i => x.calm_again i) l y
  unfold Module.lapGo
  dsimp only
  refine (Module.calm_onHalf _ _ _ fun y => ?_).trans (foldl_keeps Module.calm _ (fun x g => x.calm_readPalette t h g) _ m)
  exact (Half.calm_pushAdvance _ t).trans ((Half.calm_onLap _ _ rfl).trans (waits _ y))

/-- When a latch record has come, or its time has passed, the module is as the change of the half leaves it, however the lap goes on. -/
theorem Module.calm_afterLatch (f : Half → Half) : (m.afterLatch t h f).calm = (m.onHalf h f).calm := by
  unfold Module.afterLatch
  dsimp only
  split
  · exact (m.onHalf h f).calm_lapGo t h
  · rfl

end Calm
end Sys2Proof.Machine
end

section
/-! SUPPORT. Latch records and the lap deadline (R142, R236), and the statement on them. -/
namespace Sys2Proof.Machine

/-! ## Verdicts -/

/-- A verdict shown changes registers of the layers and AGE_REASON only. -/
theorem Half.calm_showVerdict (h : Half) (source : Nat) (v : LayerVerdict) : (h.showVerdict source v).calm = h.calm := by
  have off (f : Field) (hf : 0x80080 ≤ f.off) : calmRegs.contains f.off = false :=
    calmRegs_contains _ (by simp only [F.RBK_LAP_word]; omega) (by simp only [F.AGE_TALLY_word]; omega)
  have age : 0x80080 ≤ (F.AGE_LAYER_AGE v.layer).off := by simp only [F.AGE_LAYER_AGE]; omega
  unfold Half.showVerdict
  refine (Half.calm_set _ ⟨F.AGE_REASON_LAYERS.off, 3 * v.layer, 3⟩ _ rfl).trans (Half.view_sets _ _ _ _ ?_)
  simp only [List.forall_mem_cons]
  exact ⟨off _ age, off _ age, off _ age, fun _ hc => absurd hc List.not_mem_nil⟩

/-- No lap is newer than itself. -/
theorem newer_irrefl (w a : Nat) (ha : a < 2 ^ w) : newer w a a = false := by
  unfold newer
  rw [Nat.mod_eq_of_lt ha, Nat.add_sub_cancel_left, Nat.mod_self]
  rfl

section Records
variable (x : Half)

/-- A verdict that takes its place leaves the view but for the layers that wait. -/
theorem Half.view_addVerdict (source : Nat) (v : LayerVerdict) :
    (x.addVerdict source v).view calmPart calmRegs =
      (x.lapBegun, (x.lap.bounds, x.lap.awaiting.filter fun n => n != v.layer), calmRegs.map x.reg) :=
  Half.calm_showVerdict _ source v

/-- Its layer waits no more. -/
theorem Half.awaiting_addVerdict (source : Nat) (v : LayerVerdict) :
    (x.addVerdict source v).lap.awaiting = x.lap.awaiting.filter fun n => n != v.layer :=
  congrArg (fun c => c.2.1.2) (x.view_addVerdict source v)

/-- A record of the present lap decides a layer that waits for it. -/
theorem Half.latchArrives_now (r : LatchRecord) (hb : x.lapBegun = true) (hr : r.lap = x.get F.RBK_LAP_LAP)
    (hw : x.lap.awaiting.contains r.layer = true) : x.latchArrives r = x.addVerdict (x.layerSource r.layer) (verdictOfRecord r) := by
  unfold Half.latchArrives
  rw [if_pos ⟨hr, hb⟩, if_pos hw]

/-- A later lap is another. -/
theorem Half.lap_ne_of_newer (lap : Nat) (hn : newer 32 lap (x.get F.RBK_LAP_LAP) = true) : lap ≠ x.get F.RBK_LAP_LAP := by
  intro e
  have width : F.RBK_LAP_LAP.width = 32 := rfl
  have small := Half.get_lt x F.RBK_LAP_LAP
  rw [width] at small
  rw [e, newer_irrefl 32 _ small] at hn
  cases hn

/-- One of a later lap is kept for it. -/
theorem Half.latchArrives_early (r : LatchRecord) (hn : newer 32 r.lap (x.get F.RBK_LAP_LAP) = true) :
    x.latchArrives r = x.onLap fun (l : LapSt) =>
      { l with early := l.early.filter (fun y => !(y.lap == r.lap && y.layer == r.layer)) ++ [r] } := by
  unfold Half.latchArrives
  rw [if_neg fun e => x.lap_ne_of_newer r.lap hn e.1, if_pos (Or.inl hn)]

/-- A layer whose record has not come in time waits no more. -/
theorem Half.awaiting_missRecord (n : Nat) : (x.missRecord n).lap.awaiting = x.lap.awaiting.filter fun k => k != n := by
  unfold Half.missRecord
  rw [Half.tally_lap, Half.awaiting_addVerdict]
  rfl

/-- It is counted. -/
theorem Half.noLatch_missRecord (n : Nat) :
    (x.missRecord n).get F.AGE_TALLY_NOLATCH = satAdd F.AGE_TALLY_NOLATCH.width (x.get F.AGE_TALLY_NOLATCH) 1 := by
  unfold Half.missRecord
  rw [Half.get_tally_same _ F.AGE_TALLY_NOLATCH 1 (by decide)]
  have shown := x.view_addVerdict (x.layerSource n) (missingVerdict n x.rowOne)
  have reg : (x.addVerdict (x.layerSource n) (missingVerdict n x.rowOne)).reg F.AGE_TALLY_word.off = x.reg F.AGE_TALLY_word.off :=
    List.map_inj_left.mp (congrArg (fun c => c.2.2) shown) _ (by decide)
  rw [Half.get_congr _ x F.AGE_TALLY_NOLATCH reg]

/-- The time of a layer that does not wait changes nothing. -/
theorem Half.latchTimeout_idle (n : Nat) (hw : x.lap.awaiting.contains n = false) : x.latchTimeout n = x := by
  unfold Half.latchTimeout
  rw [hw, if_neg Bool.false_ne_true]

end Records

/-! ## The lap goes on -/

section After
variable (m : Module) (t : Nat) (h : HalfId) (f : Half → Half)

/-- Of the half, the layers that wait are those that the record leaves, and the tallies of the age gate too. -/
theorem Module.half_afterLatch : ((m.afterLatch t h f).half h).calm = (f (m.half h)).calm :=
  (Module.half_of_view _ _ _ _ (m.calm_afterLatch t h f) h).trans (congrArg Half.calm (Module.half_onHalf m h f))

theorem Module.awaiting_afterLatch : ((m.afterLatch t h f).half h).lap.awaiting = (f (m.half h)).lap.awaiting :=
  congrArg (fun c => c.2.1.2) (m.half_afterLatch t h f)

theorem Module.flash_afterLatch : (m.afterLatch t h f).flash = m.flash :=
  (congrArg (fun c => c.1) (m.calm_afterLatch t h f)).trans (Module.onHalf_flash m h f)

/-- Where the same layers wait as before, nothing else happens. -/
theorem Module.afterLatch_quiet (hf : (f (m.half h)).lap.awaiting = (m.half h).lap.awaiting) : m.afterLatch t h f = m.onHalf h f := by
  unfold Module.afterLatch
  dsimp only
  rw [Module.half_onHalf, hf, Bool.not_and_self, if_neg Bool.false_ne_true]

end After

/-! ## The commands -/

section Commands
variable (s : State) (h : HalfId)

/-- The module when a latch record comes over the half link. -/
def Module.latched (m : Module) (h : HalfId) (r : LatchRecord) : Module := (m.inbound h .status).consumes h fun y => y == .latch r

/-- LATCH_RECORD_RECEIVE over a working half link. -/
theorem exec_latchRecordReceive (r : LatchRecord) (hok : linkOk (s.mod.half h) (s.mod.half h.peer) = true) :
    exec (.latchRecordReceive h r) s =
      .next { s with mod := (s.mod.latched h r).afterLatch s.now h fun x => x.latchArrives r } := by
  show execLatchRecordReceive h r s = _
  rw [execLatchRecordReceive, State.act_eq]
  unfold Module.given
  rw [hok, if_pos rfl]
  rfl

/-- Over one that does not work it changes nothing. -/
theorem exec_latchRecordReceive_lost (r : LatchRecord) (hok : linkOk (s.mod.half h) (s.mod.half h.peer) = false) :
    exec (.latchRecordReceive h r) s = .next s := by
  show execLatchRecordReceive h r s = _
  rw [execLatchRecordReceive, State.act_eq]
  unfold Module.given
  rw [hok, if_neg Bool.false_ne_true]

/-- The half that the record reaches: a flit has passed its check-value units. -/
theorem Module.half_latched (m : Module) (r : LatchRecord) (hok : linkOk (m.half h) (m.half h.peer) = true) :
    (m.latched h r).half h = (m.half h).cvuFlit 1 (flitClassNum .status) none := by
  unfold Module.latched Module.inbound
  rw [Module.consumes_half, Module.onLive_live _ _ _ (live_of_linkOk _ _ hok), Module.half_onHalf]

/-- The rest of the module keeps its registers, the lamplighter, the flash and the fuse. -/
theorem Module.latched_keeps (m : Module) (r : LatchRecord) (hok : linkOk (m.half h) (m.half h.peer) = true) :
    ((m.latched h r).half h.peer).regs = (m.half h.peer).regs ∧ (m.latched h r).lamp = m.lamp ∧ (m.latched h r).flash = m.flash ∧
      (m.latched h r).fuse = m.fuse := by
  unfold Module.latched Module.inbound
  rw [Module.onLive_live _ _ _ (live_of_linkOk _ _ hok)]
  refine ⟨?_, by simp, by simp, by simp⟩
  rw [Module.consumes_peerRegs, Module.peer_onHalf]

/-- LATCH_RECORD_TIMEOUT, whenever it comes. -/
theorem exec_latchRecordTimeout (layer : Nat) (hr : (s.mod.half h).inReset = false) : ∃ u,
    exec (.latchRecordTimeout h layer) s = .next { s with now := u, mod := s.mod.afterLatch u h fun x => x.latchTimeout layer } := by
  obtain ⟨w, hw⟩ : ∃ w, w = s.stampAt h (((s.mod.half h).lap.bounds.head?.map fun b => b.2 + 20000).getD 0) := ⟨_, rfl⟩
  refine ⟨max s.now w, ?_⟩
  show execLatchRecordTimeout h layer s = _
  rw [execLatchRecordTimeout, ← hw, State.actAt_eq]
  unfold Module.given
  rw [hr, Bool.not_false, if_pos rfl]

/-- LAP_DEADLINE of a half in a lap. -/
theorem exec_lapDeadline (hr : (s.mod.half h).inReset = false) (hb : (s.mod.half h).lapBegun = true) (u : Nat)
    (hu : u = max s.now (s.stampAt h (s.mod.half h).deadlineAt.toNat)) :
    exec (.lapDeadline h) s = .next { s with now := u, mod := s.mod.onHalf h fun x => x.lapDeadline u } := by
  show execLapDeadline h s = _
  rw [execLapDeadline, hb, if_pos rfl, State.actAt_eq, ← hu, Module.onLive_live _ _ _ hr]

end Commands

/-! ## The lap deadline (R142) -/

/-- What the deadline leaves of the runs: whether it has passed, the runs, the pipes and the open region. -/
def deadlinePart (l : LapSt) : Bool × List RunWork × List PipeSt × Option OpenRegion := (l.late, l.runs, l.pipes, l.push.cur)

/-- The half whose open region and those still to push are abandoned. -/
def Half.abandoned (x : Half) (t : Nat) : Half :=
  let open_ := match x.lap.push.cur with
    | some c => [c.region]
    | none => []
  (open_ ++ x.lap.push.next).foldl (fun h i => h.abandon t i) (open_.foldl (fun (h : Half) i => h.cvuAbort 6 fun _ f => regionTaken i f) x)

/-- The half at the deadline, its regions abandoned, before it tells its range. -/
def Half.cut (x : Half) (t : Nat) : Half := (x.dropRuns.onPush fun (p : PushSt) => { p with cur := none, next := [] }).onLap
  fun (l : LapSt) => { l with late := true, cutAt := some t }

/-- At the first deadline of a lap the runs are dropped, the tags return, and pushing ends. -/
theorem Half.view_lapDeadline (x : Half) (t : Nat) (hb : x.lapBegun = true) (hl : x.lap.late = false) :
    (x.lapDeadline t).view deadlinePart [F.RBK_TAGS_word.off] = ((x.abandoned t).cut t).view deadlinePart [F.RBK_TAGS_word.off] := by
  unfold Half.lapDeadline
  rw [hb, hl, Bool.not_false, Bool.and_self, if_pos rfl]
  exact Half.view_ite _ _ (Half.view_tryCommit _ _ _ _ _ fun _ _ _ _ => rfl)
    (Half.view_bandDone _ _ _ _ _ (fun _ _ _ _ => rfl) fun _ _ => rfl)

/-- A half at the deadline holds no tag. -/
theorem Half.inUse_cut (y : Half) (t : Nat) : (y.cut t).get F.RBK_TAGS_INUSE = 0 :=
  Half.get_set_of_lt (y.onLap fun (l : LapSt) => { l with runs := [], pipes := List.replicate 4 PipeSt.reset }) F.RBK_TAGS_INUSE 0
    (by decide) (by decide)

/-- A second deadline whose crossing is free changes nothing. -/
theorem Half.lapDeadline_again (x : Half) (t : Nat) (hl : x.lap.late = true) (hc : busyCrossing x.lap.cutAt t = false) :
    x.lapDeadline t = x := by
  unfold Half.lapDeadline
  rw [hl, hc, Bool.not_true, Bool.and_false, if_neg Bool.false_ne_true, if_neg (by simp)]

/-- Settles O27: a record or its time changes one half, after which the lap goes on with what waits as it is; the deadline cuts the lap and
tells its range. -/
theorem latchAndDeadline : Obligations.LatchAndDeadline := by
  unfold Obligations.LatchAndDeadline
  intro s h hr
  refine ⟨fun r hok hb => ⟨fun hn => ?early, fun hl hw => ?now⟩, fun r hok => exec_latchRecordReceive_lost s h r hok,
    fun n hw => ?missed, fun n hw => ?idle, fun hb hl => ?deadline, fun u hb hl hu hc => ?again⟩
  case early =>
    have reached := s.mod.half_latched h r hok
    obtain ⟨peer, lamp, -, -⟩ := s.mod.latched_keeps h r hok
    have kept := Half.latchArrives_early ((s.mod.latched h r).half h) r (by rw [reached, Half.get_cvuFlit]; exact hn)
    have quiet := (s.mod.latched h r).afterLatch_quiet s.now h (fun x => x.latchArrives r) (by rw [kept]; rfl)
    have lap : ((s.mod.half h).cvuFlit 1 (flitClassNum .status) none).lap = (s.mod.half h).lap :=
      Half.cvuFlit_keeps _ _ _ _ Half.lap fun _ _ => rfl
    refine ⟨_, exec_latchRecordReceive s h r hok, ?_, ?_, ?_, ?_⟩ <;> dsimp only <;> rw [quiet]
    · rw [Module.half_onHalf, kept, reached, ← lap]
      rfl
    · rw [Module.half_onHalf, kept, reached]
      exact Half.cvuFlit_regs _ _ _ _
    · rw [Module.peer_onHalf, peer]
    · rw [Module.onHalf_lamp, lamp]
  case now =>
    have reached := s.mod.half_latched h r hok
    obtain ⟨-, -, flash, fuse⟩ := s.mod.latched_keeps h r hok
    have lap : ((s.mod.latched h r).half h).lap = (s.mod.half h).lap := by
      rw [reached]
      exact Half.cvuFlit_keeps _ _ _ _ Half.lap fun _ _ => rfl
    have begun : ((s.mod.latched h r).half h).lapBegun = true := by
      rw [reached]
      exact (Half.cvuFlit_keeps _ _ _ _ Half.lapBegun fun _ _ => rfl).trans hb
    have decided := Half.latchArrives_now ((s.mod.latched h r).half h) r begun (by rw [reached, Half.get_cvuFlit]; exact hl)
      (by rw [lap]; exact hw)
    refine ⟨_, exec_latchRecordReceive s h r hok, ?_, ?_, ?_⟩ <;> dsimp only
    · rw [Module.awaiting_afterLatch, decided, Half.awaiting_addVerdict, lap]
      rfl
    · rw [Module.flash_afterLatch, flash]
    · rw [Module.afterLatch_fuse, fuse]
  case missed =>
    obtain ⟨u, run⟩ := exec_latchRecordTimeout s h n hr
    have counted : (s.mod.half h).latchTimeout n = (s.mod.half h).missRecord n := if_pos hw
    refine ⟨_, run, ?_, ?_⟩ <;> dsimp only
    · rw [Module.awaiting_afterLatch, counted, Half.awaiting_missRecord]
    · have calm := s.mod.half_afterLatch u h fun x => x.latchTimeout n
      rw [Half.get_congr _ _ F.AGE_TALLY_NOLATCH (Half.reg_of_view _ _ _ _ calm F.AGE_TALLY_word.off (by decide)), counted,
        Half.noLatch_missRecord]
  case idle =>
    obtain ⟨u, run⟩ := exec_latchRecordTimeout s h n hr
    have same := Half.latchTimeout_idle (s.mod.half h) n hw
    refine ⟨_, run, ?_, rfl⟩
    exact (Module.afterLatch_quiet s.mod u h (fun x => x.latchTimeout n) (congrArg (fun x => x.lap.awaiting) same)).trans
      (Module.onHalf_same _ _ _ same)
  case deadline =>
    obtain ⟨u, hu⟩ : ∃ u, u = max s.now (s.stampAt h (s.mod.half h).deadlineAt.toNat) := ⟨_, rfl⟩
    have cut := (s.mod.half h).view_lapDeadline u hb hl
    have part := congrArg (fun c => c.2.1) cut
    have tags := (Half.reg_of_view _ _ _ _ cut F.RBK_TAGS_word.off (by decide))
    refine ⟨_, exec_lapDeadline s h hr hb u hu, hu, ?_, ?_, ?_, ?_, ?_, Module.onlyHalf_onHalf s.mod h fun x => x.lapDeadline u⟩ <;>
      dsimp only <;> rw [Module.half_onHalf]
    · exact congrArg (fun c => c.1) part
    · exact congrArg (fun c => c.2.1) part
    · exact congrArg (fun c => c.2.2.1) part
    · exact congrArg (fun c => c.2.2.2) part
    · rw [Half.get_congr _ _ F.RBK_TAGS_INUSE tags, Half.inUse_cut]
  case again =>
    have same : s.mod.onHalf h (fun x => x.lapDeadline u) = s.mod := Module.onHalf_same _ _ _ (Half.lapDeadline_again _ u hl hc)
    have later : max s.now u = u := by omega
    rw [State.idlesTo, exec_lapDeadline s h hr hb u hu, same, later]

end Sys2Proof.Machine
end

section
/-!
SUPPORT. The boundary of a lap at its half (R173, R174): whether its first lap has begun, its last boundaries and its lap number,
through every step of the boundary.
-/
namespace Sys2Proof.Machine

/-- The register of the lap number. -/
def lapRegs : List Nat := [F.RBK_LAP_word.off]

/-- The half as far as the steps of a boundary leave it: whether its first lap has begun, its boundaries and its lap number. -/
abbrev Half.inLap (h : Half) : Bool × List (Nat × Nat) × List Word := h.view LapSt.bounds lapRegs

theorem lapRegs_contains (o : Nat) (ho : o ≠ F.RBK_LAP_word.off) : lapRegs.contains o = false := by
  simp [lapRegs, ho]

section Boundary
variable (h : Half)

theorem Half.inLap_set (f : Field) (v : Nat) (hf : f.off ≠ F.RBK_LAP_word.off) : (h.set f v).inLap = h.inLap :=
  Half.view_set LapSt.bounds lapRegs h f v (lapRegs_contains _ hf)

theorem Half.inLap_tally (f : Field) (n : Nat) (hf : f.off ≠ F.RBK_LAP_word.off) : (h.tally f n).inLap = h.inLap := h.inLap_set f _ hf

theorem Half.inLap_sets (l : List (Field × Nat)) (hl : ∀ c ∈ l, c.1.off ≠ F.RBK_LAP_word.off) : (h.sets l).inLap = h.inLap :=
  Half.view_sets LapSt.bounds lapRegs h l fun c hc => lapRegs_contains _ (hl c hc)

theorem Half.inLap_signalling (s off : Nat) (f : Half → Half) (hf : (f h).inLap = h.inLap) : (h.signalling s off f).inLap = h.inLap :=
  (Half.view_signalling LapSt.bounds lapRegs h rfl s off f).trans hf

theorem Half.inLap_roleChange (n m : Nat) : (h.roleChange n m).inLap = h.inLap := Half.view_roleChange LapSt.bounds lapRegs h rfl n m

theorem Half.inLap_onLap (g : LapSt → LapSt) (hg : (g h.lap).bounds = h.lap.bounds) : (h.onLap g).inLap = h.inLap :=
  Half.view_onLap LapSt.bounds lapRegs h g hg

/-- A further change on a condition. -/
theorem Half.inLap_ite {c : Prop} [Decidable c] {h x y : Half} (hx : x.inLap = h.inLap) (hy : y.inLap = h.inLap) :
    (if c then x else y).inLap = h.inLap := Half.view_ite LapSt.bounds lapRegs hx hy

/-! ## Scenes and graphics (R174, R188, R213) -/

theorem Half.inLap_showPending : h.showPending.inLap = h.inLap := by
  unfold Half.showPending
  dsimp only
  split
  · refine h.inLap_sets _ ?_
    simp only [List.forall_mem_cons]
    exact ⟨by decide, by decide, by decide, fun _ hc => absurd hc List.not_mem_nil⟩
  · exact h.inLap_set F.RBK_SCENE_PENDING 0 (by decide)

/-- The word of a graphic layer is not the lap number's. -/
theorem glayer_ne_lap (g : Nat) : (F.CMP_GLAYER_word g).off ≠ F.RBK_LAP_word.off := by
  simp only [F.CMP_GLAYER_word, F.RBK_LAP_word]
  omega

theorem Half.inLap_enterScene (n : Nat) : (h.enterScene n).inLap = h.inLap := by
  refine Eq.trans ?_ (h.inLap_set F.RBK_SCENE_CURRENT n (by decide))
  unfold Half.enterScene Half.graphicDefaults
  split
  · refine Half.forBelow_keeps Half.inLap _ _ (fun x g => x.inLap_sets _ ?_) _
    have off := glayer_ne_lap g
    simp only [List.forall_mem_cons]
    exact ⟨off, off, off, off, fun _ hc => absurd hc List.not_mem_nil⟩
  · rfl

theorem Half.inLap_switchScene (lap : Nat) : (h.switchScene lap).1.inLap = h.inLap := by
  have shown (f : ActSt → ActSt) : (h.onActs f).showPending.inLap = h.inLap := Half.inLap_showPending _
  unfold Half.switchScene
  dsimp only
  split
  · split
    · exact shown _
    · exact (Half.inLap_enterScene _ _).trans (shown _)
  · exact shown _

theorem Half.inLap_applyG (g : GChange) : (h.applyG g).inLap = h.inLap :=
  have off := glayer_ne_lap g.layer
  have state : (if g.setState then h.set (F.CMP_GLAYER_STATE g.layer) g.state else h).inLap = h.inLap :=
    Half.inLap_ite (h.inLap_set _ _ off) rfl
  Half.inLap_ite ((Half.inLap_set _ (F.CMP_GLAYER_ALPHA g.layer) _ off).trans state) state

theorem Half.inLap_switchGraphics (lap : Nat) : (h.switchGraphics lap).inLap = h.inLap :=
  foldl_keeps Half.inLap _ (fun x (y : NamedG) => Half.inLap_ite (x.inLap_applyG y.g) rfl) _ _

/-! ## The latch and the set in force (R161, R186, R193) -/

theorem Half.inLap_latchSources (n : Nat) : (h.latchSources n).inLap = h.inLap := by
  refine foldl_keeps Half.inLap _ (fun x i => ?_) _ h
  dsimp only
  split
  · rfl
  · refine Half.inLap_ite ?_ rfl
    exact Half.inLap_set (x.onSource i _) (F.INK_SSTAT_PIN i) _ (by simp only [F.INK_SSTAT_PIN, F.RBK_LAP_word]; omega)

theorem Half.inLap_enterSet : h.enterSet.inLap = h.inLap := by
  unfold Half.enterSet
  dsimp only
  refine (Half.inLap_sets _ _ ?_).trans ((Half.forBelow_keeps Half.inLap _ _ (fun x i => ?_) _).trans (Half.inLap_onLap _ _ rfl))
  · simp only [List.forall_mem_cons]
    exact ⟨by decide, by decide, by decide, by decide, fun _ hc => absurd hc List.not_mem_nil⟩
  · refine Half.view_congr _ _ _ _ rfl rfl fun o ho => Half.reg_setReg_other _ _ _ _ fun e => ?_
    rw [e, lapRegs, List.mem_singleton] at ho
    simp only [F.AGE_REGSTAT_word, F.RBK_LAP_word] at ho
    omega

theorem Half.inLap_shedLap (n : Nat) (alone : Bool) : (h.shedLap n alone).inLap = h.inLap := by
  unfold Half.shedLap
  exact (Half.inLap_signalling _ _ _ _ (Half.inLap_set _ F.PACE_SHED_ACTIVE _ (by decide))).trans rfl

/-! ## Alone and two bands (R19, R193) -/

theorem Half.inLap_dropPending : h.dropPending.inLap = h.inLap := by
  have clear (x : Half) (f : Field) (hf : f.off ≠ F.RBK_LAP_word.off) : (if x.get f = 1 then x.set f 0 else x).inLap = x.inLap :=
    Half.inLap_ite (x.inLap_set f 0 hf) rfl
  unfold Half.dropPending
  refine (clear _ F.PNL_MODESTAT_RESULT (by decide)).trans ((clear _ F.CMP_GSELSTAT_RESULT (by decide)).trans ?_)
  exact (clear _ F.RBK_SELSTAT_RESULT (by decide)).trans (Half.inLap_showPending _)

/-- TWIN of an engine is not the lap number. -/
theorem twin_ne_lap (n : Nat) : (F.ENG_STATE_TWIN n).off ≠ F.RBK_LAP_word.off := by
  simp only [F.ENG_STATE_TWIN, F.RBK_LAP_word]
  omega

theorem Half.inLap_goAlone : h.goAlone.inLap = h.inLap := by
  have owns : (if h.owner then h
      else (h.dropPending.set F.SYS_HALF_COMMIT_OWNER 1).onLap fun (l : LapSt) => { l with noCommit := true }).inLap = h.inLap :=
    Half.inLap_ite rfl ((Half.inLap_onLap _ _ rfl).trans
      ((Half.inLap_set _ F.SYS_HALF_COMMIT_OWNER 1 (by decide)).trans h.inLap_dropPending))
  unfold Half.goAlone
  refine (foldl_keeps Half.inLap _ (fun x n => (Half.inLap_roleChange _ _ _).trans (x.inLap_set _ _ (twin_ne_lap n))) _ _).trans ?_
  exact (Half.inLap_set _ F.RBK_SET_SET 2 (by decide)).trans ((Half.inLap_set _ F.SYS_HALF_ALONE 1 (by decide)).trans owns)

theorem Half.inLap_goTwo : h.goTwo.inLap = h.inLap := by
  have running (x : Half) (hx : x.inLap = h.inLap) :
      (if x.mode = modeHalfStart then (x.set F.RST_STATE_MODE modeRunning).set F.RST_STATE_STEP 12 else x).inLap = h.inLap :=
    Half.inLap_ite ((Half.inLap_set _ F.RST_STATE_STEP 12 (by decide)).trans ((x.inLap_set F.RST_STATE_MODE _ (by decide)).trans hx)) hx
  unfold Half.goTwo
  refine running _ ((foldl_keeps Half.inLap _ (fun x n => ?_) _ _).trans ?_)
  · exact Half.inLap_ite ((Half.inLap_roleChange _ _ _).trans (x.inLap_set _ _ (twin_ne_lap n))) rfl
  · refine Eq.trans (b := (h.sets _).inLap) rfl (h.inLap_sets _ ?_)
    simp only [List.forall_mem_cons]
    exact ⟨by decide, by decide, fun _ hc => absurd hc List.not_mem_nil⟩

theorem Half.inLap_startModeChange (lap : Nat) : (h.startModeChange lap).inLap = h.inLap := by
  unfold Half.startModeChange
  split
  · rfl
  · refine Half.inLap_ite rfl ?_
    exact (Half.inLap_signalling _ _ _ _ (Half.inLap_set _ F.PNL_STATUS_STATE 6 (by decide))).trans rfl

end Boundary
end Sys2Proof.Machine
end

section
/-!
SUPPORT. The steps of a lap boundary in turn (R174), the completions and events that come with it (R376, R383), and the statement on
LAP_BOUNDARY.
-/
namespace Sys2Proof.Machine

section Boundary
variable (h : Half)

/-- Steps 1 to 3 of a boundary: the first lap has begun, and the boundaries and the lap number stay. -/
theorem Half.inLap_boundarySwitch (lap : Nat) (peerReset : Bool) :
    (h.boundarySwitch lap peerReset).inLap = (true, h.lap.bounds, lapRegs.map h.reg) := by
  have entered : (if !h.lapBegun then
      (if (h.latchSources lap).mode = modeHalfStart then h.latchSources lap
        else (h.latchSources lap).enterScene (((h.latchSources lap).image.map fun i => i.default).getD 0))
      else h.latchSources lap).inLap = h.inLap :=
    have latched := h.inLap_latchSources lap
    Half.inLap_ite (Half.inLap_ite latched ((Half.inLap_enterScene _ _).trans latched)) latched
  have begun (x : Half) (hx : x.inLap = h.inLap) : { x with lapBegun := true }.inLap = (true, h.lap.bounds, lapRegs.map h.reg) :=
    congrArg (fun v => (true, v.2)) hx
  unfold Half.boundarySwitch
  refine Eq.trans ?_ (begun _ entered)
  refine (Half.inLap_switchGraphics _ _).trans ((Half.inLap_startModeChange _ _).trans ?_)
  have shown (x : Half) (v : Nat) : (x.set F.RBK_SET_SET v).inLap = x.inLap := x.inLap_set F.RBK_SET_SET v (by decide)
  refine (Half.inLap_ite (Half.inLap_enterSet _) (Half.inLap_ite (Half.inLap_onLap _ _ rfl) rfl)).trans ((shown _ _).trans ?_)
  refine (Half.inLap_shedLap _ _ _).trans ((Half.inLap_switchScene _ _).trans ?_)
  exact Half.inLap_ite (Half.inLap_goTwo _) (Half.inLap_ite (Half.inLap_goAlone _) rfl)

theorem Half.inLap_nameReturn (lap : Nat) : (h.nameReturn lap).inLap = h.inLap := Half.inLap_ite rfl rfl

theorem Half.inLap_panelRuns : h.panelRuns.inLap = h.inLap :=
  Half.inLap_ite (h.inLap_signalling _ _ _ (h.inLap_set F.PNL_STATUS_STATE 5 (by decide))) rfl

theorem Half.inLap_raise (n : Nat) : (h.raise n).inLap = h.inLap := Half.view_raise LapSt.bounds lapRegs h rfl n

theorem Half.inLap_alignBlank (lap stamp : Nat) : (h.alignBlank lap stamp).inLap = h.inLap := by
  unfold Half.alignBlank
  split <;> rfl

theorem Half.inLap_newPush (lap : Nat) : (h.newPush lap).inLap = h.inLap := by
  unfold Half.newPush
  exact Half.inLap_ite (Half.inLap_tally _ F.PNL_TALLY0_NOREPORT 1 (by decide)) rfl

theorem Half.inLap_takeReqAll : h.takeReqAll.inLap = h.inLap := Half.inLap_ite (h.inLap_tally F.PNL_TALLY1_REQALL 1 (by decide)) rfl

/-! ## Verdicts (R235, R236) -/

theorem Half.inLap_ageSample (lb lap : Nat) : (h.ageSample lb lap).2.inLap = h.inLap := by
  have sampled : (h.sampleWall lb).2.2.inLap = h.inLap := by
    unfold Half.sampleWall
    split <;> rfl
  have counted {c : Prop} [Decidable c] (x : Half) (hx : x.inLap = h.inLap) :
      (if c then x else x.tally F.AGE_TALLY_NOPREDICT 1).inLap = h.inLap :=
    Half.inLap_ite hx ((x.inLap_tally F.AGE_TALLY_NOPREDICT 1 (by decide)).trans hx)
  unfold Half.ageSample
  dsimp only
  refine counted _ ((Half.inLap_sets _ _ ?_).trans sampled)
  simp only [List.forall_mem_cons]
  exact ⟨by decide, by decide, by decide, by decide, by decide, by decide, by decide, by decide, by decide,
    fun _ hc => absurd hc List.not_mem_nil⟩

theorem Half.inLap_showVerdict (source : Nat) (v : LayerVerdict) : (h.showVerdict source v).inLap = h.inLap := by
  have age : (F.AGE_LAYER_AGE v.layer).off ≠ F.RBK_LAP_word.off := by simp only [F.AGE_LAYER_AGE, F.RBK_LAP_word]; omega
  unfold Half.showVerdict
  refine (Half.inLap_set _ ⟨F.AGE_REASON_LAYERS.off, 3 * v.layer, 3⟩ _ (by simp [F.AGE_REASON_LAYERS, F.RBK_LAP_word])).trans
    (Half.inLap_sets _ _ ?_)
  simp only [List.forall_mem_cons]
  exact ⟨age, age, age, fun _ hc => absurd hc List.not_mem_nil⟩

theorem Half.inLap_showUnused (n : Nat) : (h.showUnused n).inLap = h.inLap := by
  have age : (F.AGE_LAYER_AGE n).off ≠ F.RBK_LAP_word.off := by simp only [F.AGE_LAYER_AGE, F.RBK_LAP_word]; omega
  unfold Half.showUnused
  refine (Half.inLap_set _ ⟨F.AGE_REASON_LAYERS.off, 3 * n, 3⟩ 0 (by simp [F.AGE_REASON_LAYERS, F.RBK_LAP_word])).trans
    (Half.inLap_sets _ _ ?_)
  simp only [List.forall_mem_cons]
  exact ⟨age, age, age, fun _ hc => absurd hc List.not_mem_nil⟩

theorem Half.inLap_addVerdict (source : Nat) (v : LayerVerdict) : (h.addVerdict source v).inLap = h.inLap :=
  (Half.inLap_showVerdict _ source v).trans (Half.inLap_onLap _ _ rfl)

theorem Half.inLap_missRecord (n : Nat) : (h.missRecord n).inLap = h.inLap :=
  (Half.inLap_tally _ F.AGE_TALLY_NOLATCH 1 (by decide)).trans (h.inLap_addVerdict _ _)

theorem Half.inLap_layerVerdict (a : AgeSample) (lap : Nat) (gone : Bool) (s : Scene) (n : Nat) :
    (h.layerVerdict a lap gone s n).inLap = h.inLap := by
  unfold Half.layerVerdict
  refine Half.inLap_ite ?_ (h.inLap_showUnused n)
  split
  · exact (Half.view_send LapSt.bounds lapRegs _ _).trans (h.inLap_addVerdict _ _)
  · split
    · exact h.inLap_addVerdict _ _
    · exact Half.inLap_ite (h.inLap_missRecord n) (h.inLap_onLap _ rfl)

theorem Half.inLap_verdicts (lb lap : Nat) (gone : Bool) : (h.verdicts lb lap gone).inLap = h.inLap := by
  have sampled (g : LapSt → LapSt) (hg : ∀ l, (g l).bounds = l.bounds) : ((h.ageSample lb lap).2.onLap g).inLap = h.inLap :=
    (Half.inLap_onLap _ g (hg _)).trans (h.inLap_ageSample lb lap)
  unfold Half.verdicts
  dsimp only
  refine (Half.inLap_onLap _ _ rfl).trans ?_
  split
  · exact (foldl_keeps Half.inLap _ (fun x n => x.inLap_layerVerdict _ lap gone _ n) _ _).trans (sampled _ fun _ => rfl)
  · exact sampled _ fun _ => rfl

/-! ## Changes judged and completed (R188 to R190) -/

theorem Half.inLap_nameLap (lap rival : Nat) : (h.nameLap lap rival).inLap = h.inLap := by
  unfold Half.nameLap
  split
  · rfl
  · split
    · exact Half.inLap_showPending _
    · split <;> rfl
    · rfl

theorem Half.inLap_judgeAll (lb back : Nat) (sel : Action → Bool) : (h.judgeAll lb back sel).inLap = h.inLap :=
  foldl_keeps Half.inLap _ (fun x (y : Action × Action) => x.inLap_nameLap (y.2.lap.getD 0) y.2.what.rival) _ _

theorem Half.inLap_completeLap (lb lap : Nat) : (h.completeLap lb lap).1.inLap = h.inLap :=
  Half.inLap_tally _ F.RBK_TALLY_LATESW _ (by decide)

theorem Half.inLap_takeAct (lb : Nat) (a : Action) : (Half.takeAct lb h a).inLap = h.inLap := by
  unfold Half.takeAct
  exact Half.inLap_ite (Half.inLap_judgeAll _ _ _ _) rfl

end Boundary

/-! ## The module -/

/-- The flash, the fuse and each half as far as the steps of a boundary leave it. -/
abbrev Module.inLap (m : Module) : Flash × Option (List Byte) × (Bool × List (Nat × Nat) × List Word) ×
    (Bool × List (Nat × Nat) × List Word) := m.view LapSt.bounds lapRegs

section Completions
variable (m : Module) (t : Nat) (h : HalfId)

theorem Module.inLap_onHalf (k : HalfId) (f : Half → Half) (hf : ∀ x : Half, (f x).inLap = x.inLap) : (m.onHalf k f).inLap = m.inLap :=
  Module.view_onHalf LapSt.bounds lapRegs m k f hf

theorem Module.inLap_onLive (k : HalfId) (f : Half → Half) (hf : ∀ x : Half, (f x).inLap = x.inLap) : (m.onLive k f).inLap = m.inLap :=
  Module.view_onLive LapSt.bounds lapRegs m k f hf

theorem Module.inLap_ite {c : Prop} [Decidable c] {m x y : Module} (hx : x.inLap = m.inLap) (hy : y.inLap = m.inLap) :
    (if c then x else y).inLap = m.inLap := by
  split
  · exact hx
  · exact hy

theorem Module.inLap_lapGo : (m.lapGo t h).inLap = m.inLap :=
  congrArg (fun v => (v.1, v.2.1, (v.2.2.1.1, v.2.2.1.2.1.1, v.2.2.1.2.2.take 1), (v.2.2.2.1, v.2.2.2.2.1.1, v.2.2.2.2.2.take 1)))
    (m.calm_lapGo t h)

theorem Module.inLap_handOver (lb : Nat) : (m.handOver lb h).inLap = m.inLap := by
  unfold Module.handOver
  dsimp only
  refine Module.inLap_ite rfl ?_
  refine Eq.trans (Module.inLap_onHalf _ _ _ ?_) (Module.view_setHalf _ _ _ _ _ ?_)
  · exact fun _ => rfl
  · refine (foldl_keeps Half.inLap _ (fun x a => Half.inLap_takeAct x lb a) _ _).trans (foldl_keeps Half.inLap _ ?_ _ _)
    exact fun _ _ => rfl

/-- A cell put on its way changes queues of a ring only. -/
theorem Half.inLap_route (n : Nat) (x : Half) (r : Nat) (c : Cell) : (Half.route n x r c).1.inLap = x.inLap := by
  have served (y : Half) (r s : Nat) (c : Cell) : (y.sendTo r s c).inLap = y.inLap := by
    unfold Half.sendTo Half.serve
    exact Half.inLap_ite rfl rfl
  induction n generalizing r c with
  | zero => rfl
  | succ n ih =>
    unfold Half.route
    dsimp only
    (repeat' split) <;> simp only [ih, served]

theorem Module.inLap_toService (kind : Nat) (body : List Byte) : (m.toService kind body).inLap = m.inLap :=
  m.inLap_onLive _ _ fun x => Half.inLap_ite (x.inLap_tally F.HST_SVCTALLY_EVDROP 1 (by decide)) rfl

theorem Module.inLap_giveRsp (c : MgmtRsp) : (m.giveRsp h c).inLap = m.inLap := by
  have taken (x : Half) (n : Nat) : (x.toEngine n c).inLap = x.inLap := by
    have answered : (if c.event then x else x.onEngine n fun (e : Engine) =>
        { e with sent := dropFirst (fun s => s == (c.src, c.tag)) e.sent }).inLap = x.inLap := Half.inLap_ite rfl rfl
    unfold Half.toEngine
    exact Half.inLap_ite ((Half.view_raiseAt LapSt.bounds lapRegs _ rfl n irqHost).trans answered) answered
  unfold Module.giveRsp
  refine Module.inLap_ite (Module.inLap_ite (m.inLap_toService _ _) rfl) (Module.inLap_ite (Module.inLap_ite ?_ rfl) ?_)
  · exact m.inLap_onLive _ _ fun x => taken x _
  · exact m.inLap_onHalf _ _ fun x => x.inLap_tally F.HST_MGTTALLY_DISCARD 1 (by decide)

theorem Module.inLap_deliver (who : Requester) (c : MgmtRsp) : (m.deliver h who c).inLap = m.inLap := by
  have sent : (m.setHalf h ((m.half h).sendMgmt (rspCell c)).1).inLap = m.inLap := by
    refine Module.view_setHalf _ _ _ _ _ ?_
    unfold Half.sendMgmt
    split
    · exact Half.inLap_route _ _ _ _
    · rfl
  unfold Module.deliver
  dsimp only
  refine Module.inLap_ite (Module.inLap_ite (m.inLap_toService _ _) rfl) ?_
  split
  · exact sent
  · exact (Module.inLap_giveRsp _ h c).trans sent
  · exact (Module.inLap_onHalf _ _ _ fun x => x.inLap_tally F.HST_MGTTALLY_DISCARD 1 (by decide)).trans sent

theorem Module.inLap_finish (f : Finish) : (m.finish f).inLap = m.inLap := by
  unfold Module.finish
  split
  · rfl
  · refine m.inLap_onLive _ _ fun x => ?_
    unfold Half.showResult
    split
    · exact Half.inLap_ite (x.inLap_set F.RBK_SELSTAT_RESULT _ (by decide)) rfl
    · exact Half.inLap_ite (x.inLap_set F.CMP_GSELSTAT_RESULT _ (by decide)) rfl
    · exact Half.inLap_ite (x.inLap_set F.PNL_MODESTAT_RESULT _ (by decide)) rfl
  · unfold Module.complete Module.answer
    refine Module.inLap_ite ((Module.inLap_deliver _ _ _ _).trans ?_) rfl
    exact (Module.inLap_onHalf _ _ _ fun x => x.inLap_tally F.HST_MGTTALLY_REQS 1 (by decide)).trans (m.inLap_onHalf _ _ fun _ => rfl)

theorem Module.inLap_finishAll (fs : List Finish) : (m.finishAll fs).inLap = m.inLap :=
  foldl_keeps Module.inLap _ (fun x f => x.inLap_finish f) fs m

theorem Module.inLap_flushEvents : (m.flushEvents t h).inLap = m.inLap :=
  (foldl_keeps Module.inLap _ (fun x (e : Requester × MgmtRsp) => x.inLap_deliver h e.1 e.2) _ _).trans (m.inLap_onHalf _ _ fun _ => rfl)

end Completions

/-! ## The boundary -/

/-- The half at the boundary that begins lap `lap` at local base `stamp`, before its steps. -/
def Half.opens (x : Half) (t lap stamp : Nat) : Half :=
  ((x.lapDeadline t).publishLap.set F.RBK_LAP_LAP lap).onLap fun (l : LapSt) => { l with
    bounds := ((lap, stamp) :: l.bounds).take 8, late := false, noCommit := false, forward := false, chosen := [], runs := []
    fetchLoc := 0, fetchX := 0, counts := [0, 0, 0, 0], dirty := 0 }

/-- It has the boundary. -/
theorem Half.bounds_opens (x : Half) (t lap stamp : Nat) : (x.opens t lap stamp).lap.bounds.head? = some (lap, stamp) := rfl

/-- It shows the lap number. -/
theorem Half.lap_opens (x : Half) (t lap stamp : Nat) (hl : lap < 2 ^ F.RBK_LAP_LAP.width) :
    (x.opens t lap stamp).get F.RBK_LAP_LAP = lap := Half.get_set_of_lt (x.lapDeadline t).publishLap F.RBK_LAP_LAP lap (by decide) hl

/-- It after steps 1 to 3 of the boundary. -/
def Half.switched (x : Half) (t lap stamp : Nat) (peerReset : Bool) : Half :=
  (((if !x.lapBegun then (x.opens t lap stamp).alignBlank lap stamp else x.opens t lap stamp).boundarySwitch lap peerReset).nameReturn
    lap).panelRuns.raise irqLap

/-- A half that composes after step 4 and the judgements, `first` at its first boundary: with the changes that complete. -/
def Half.composed (x : Half) (lap stamp : Nat) (first gone : Bool) : Half × List Finish :=
  let y := ((x.newPush lap).takeReqAll.verdicts stamp lap gone)
  let z := y.set F.PNL_CUT_NS y.cutNs
  ((if first then z.judgeAll stamp 1 fun a => a.early else z).judgeAll stamp 0 fun _ => true).completeLap stamp lap

theorem Half.inLap_switched (x : Half) (t lap stamp : Nat) (peerReset : Bool) : (x.switched t lap stamp peerReset).inLap =
    (true, (x.opens t lap stamp).lap.bounds, lapRegs.map (x.opens t lap stamp).reg) := by
  have aligned : (if !x.lapBegun then (x.opens t lap stamp).alignBlank lap stamp else x.opens t lap stamp).inLap =
      (x.opens t lap stamp).inLap := Half.inLap_ite (Half.inLap_alignBlank _ lap stamp) rfl
  unfold Half.switched
  exact (Half.inLap_raise _ _).trans <| (Half.inLap_panelRuns _).trans <| (Half.inLap_nameReturn _ _).trans <|
    (Half.inLap_boundarySwitch _ lap peerReset).trans (congrArg (fun v => (true, v.2)) aligned)

theorem Half.inLap_composed (x : Half) (lap stamp : Nat) (first gone : Bool) : (x.composed lap stamp first gone).1.inLap = x.inLap := by
  unfold Half.composed
  refine (Half.inLap_completeLap _ _ _).trans <| (Half.inLap_judgeAll _ _ _ _).trans <|
    (Half.inLap_ite (Half.inLap_judgeAll _ _ _ _) rfl).trans ?_
  exact (Half.inLap_set _ F.PNL_CUT_NS _ (by decide)).trans <| (Half.inLap_verdicts _ _ _ _).trans <|
    (Half.inLap_takeReqAll _).trans (Half.inLap_newPush _ _)

section Tick
variable (m : Module) (t : Nat) (h : HalfId) (b : Nat) (hr : (m.half h).inReset = false)
include hr

/-- A boundary that comes too soon sets SYS_XOVR.TIME and adds a ledger entry. -/
theorem Module.lapBoundary_soon (ho : (m.half h).overruns b = true) : m.lapBoundary t h b =
    (m.onHalf h fun x => (x.set F.SYS_XOVR_TIME 1).fault t clsPace 2 0 (x.wordBytes F.PACE_HALF_word.off), []) := by
  unfold Module.lapBoundary
  dsimp only
  rw [hr, if_neg Bool.false_ne_true, ho, if_pos rfl]

/-- One for which no lap can begin changes nothing. -/
theorem Module.lapBoundary_none (ho : (m.half h).overruns b = false) (hn : (m.half h).lapNumber b = none) :
    m.lapBoundary t h b = (m, []) := by
  unfold Module.lapBoundary
  dsimp only
  rw [hr, if_neg Bool.false_ne_true, ho, if_neg Bool.false_ne_true, hn]

/-- Any other begins its lap. -/
theorem Module.lapBoundary_some (lap : Nat) (ho : (m.half h).overruns b = false) (hn : (m.half h).lapNumber b = some lap) :
    ∃ gone : Bool, m.lapBoundary t h b =
      let y := (m.half h).switched t lap b (m.half h.peer).inReset
      let z := y.composed lap b (!(m.half h).lapBegun) gone
      if y.composes then
        (if z.1.lap.awaiting.isEmpty then ((m.setHalf h z.1).handOver b h).lapGo t h else (m.setHalf h z.1).handOver b h, z.2)
      else (m.setHalf h y, []) := by
  refine ⟨(m.half h.peer).inReset || ((m.half h).switched t lap b (m.half h.peer).inReset).flag F.LNK_STATUS_FAILED ||
    (m.half h.peer).flag F.LNK_STATUS_FAILED || ((m.half h).switched t lap b (m.half h.peer).inReset).alone, ?_⟩
  unfold Module.lapBoundary
  dsimp only
  rw [hr, if_neg Bool.false_ne_true, ho, if_neg Bool.false_ne_true, hn]
  rfl

/-- The steps that follow leave its number and its stamp. -/
theorem Module.lapBoundary_begins (lap : Nat) (ho : (m.half h).overruns b = false) (hn : (m.half h).lapNumber b = some lap) :
    ∃ y : Half, y.inLap = (true, ((m.half h).opens t lap b).lap.bounds, lapRegs.map ((m.half h).opens t lap b).reg) ∧
      (m.lapBoundary t h b).1.inLap = (m.setHalf h y).inLap := by
  have went (y : Half) : (if y.lap.awaiting.isEmpty then ((m.setHalf h y).handOver b h).lapGo t h else (m.setHalf h y).handOver b h).inLap =
      (m.setHalf h y).inLap :=
    have given := (m.setHalf h y).inLap_handOver h b
    Module.inLap_ite ((Module.inLap_lapGo _ t h).trans given) given
  have switched := (m.half h).inLap_switched t lap b (m.half h.peer).inReset
  obtain ⟨gone, run⟩ := m.lapBoundary_some t h b hr lap ho hn
  rw [run]
  dsimp only
  split
  · exact ⟨_, (Half.inLap_composed _ _ _ _ _).trans switched, went _⟩
  · exact ⟨_, switched, rfl⟩

/-- With the completions and events that come with it, a boundary leaves what its steps leave. -/
theorem Module.inLap_lapTick : (m.lapTick t h b).inLap = (m.lapBoundary t h b).1.inLap := by
  have finished := (m.lapBoundary t h b).1.inLap_finishAll (m.lapBoundary t h b).2
  unfold Module.lapTick
  dsimp only
  rw [hr, if_neg Bool.false_ne_true]
  exact Module.inLap_ite finished ((Module.inLap_flushEvents _ t h).trans finished)

/-- A boundary that completes nothing and begins no lap sends no event. -/
theorem Module.lapTick_quiet (m' : Module) (hm : m.lapBoundary t h b = (m', []))
    (hl : (m'.half h).get F.RBK_LAP_LAP = (m.half h).get F.RBK_LAP_LAP) (hb : (m'.half h).lapBegun = (m.half h).lapBegun) :
    m.lapTick t h b = m' := by
  have none : m'.finishAll [] = m' := rfl
  unfold Module.lapTick
  dsimp only
  rw [hr, if_neg Bool.false_ne_true, hm]
  dsimp only
  rw [none, if_pos ⟨hl, hb⟩]

end Tick

/-! ## LAP_BOUNDARY -/

section Command
variable (s : State) (h : HalfId) (stamp b u : Nat) (hb : b = s.mod.boundaryStamp (max s.now (s.stampAt h stamp)) h)
  (hu : u = max s.now (s.stampAt h (max stamp b)))
include hb hu

/-- LAP_BOUNDARY comes at the stamp where the time island places it, or where that is past at once. -/
theorem exec_lapBoundary : exec (.lapBoundary h stamp) s = .next { s with now := u, mod := s.mod.lapTick u h b } := by
  show execLapBoundary h stamp s = _
  unfold execLapBoundary
  dsimp only
  rw [← hb, State.actAt_eq, ← hu]

/-- One that begins lap `lap`. -/
theorem exec_lapBoundary_begins (hr : (s.mod.half h).inReset = false) (lap : Nat) (hl : lap < 2 ^ F.RBK_LAP_LAP.width)
    (ho : (s.mod.half h).overruns b = false) (hn : (s.mod.half h).lapNumber b = some lap) :
    ∃ t, exec (.lapBoundary h stamp) s = .next t ∧ t.now = u ∧ (t.mod.half h).lapBegun = true ∧
      (t.mod.half h).get F.RBK_LAP_LAP = lap ∧
      (t.mod.half h).lap.bounds.head? = some (lap, b) ∧ t.mod.flash = s.mod.flash ∧ t.mod.fuse = s.mod.fuse := by
  obtain ⟨y, begun, after⟩ := s.mod.lapBoundary_begins u h b hr lap ho hn
  have tick := (s.mod.inLap_lapTick u h b hr).trans after
  have half : ((s.mod.lapTick u h b).half h).inLap = _ :=
    (Module.half_of_view _ _ _ _ tick h).trans ((congrArg Half.inLap (Module.half_setHalf _ _ _)).trans begun)
  have number : ((s.mod.lapTick u h b).half h).reg F.RBK_LAP_word.off = ((s.mod.half h).opens u lap b).reg F.RBK_LAP_word.off :=
    List.map_inj_left.mp (congrArg (fun v => v.2.2) half) _ (by decide)
  refine ⟨_, exec_lapBoundary s h stamp b u hb hu, rfl, ?_, ?_, ?_, ?_, ?_⟩ <;> dsimp only
  · exact congrArg (fun v => v.1) half
  · exact (Half.get_congr _ _ F.RBK_LAP_LAP number).trans (Half.lap_opens _ u lap b hl)
  · exact (congrArg (fun v => v.2.1.head?) half).trans (Half.bounds_opens _ u lap b)
  · exact (congrArg (fun v => v.1) tick).trans (s.mod.onHalf_flash h fun _ => y)
  · exact (congrArg (fun v => v.2.1) tick).trans (s.mod.onHalf_fuse h fun _ => y)

end Command

/-- Settles O26: the half takes the lap number and the stamp first, and no step of the boundary changes them again. -/
theorem lapBoundaries : Obligations.LapBoundaries := by
  unfold Obligations.LapBoundaries
  intro s h stamp b u hr _ hb hu
  refine ⟨fun ho => ⟨fun hl => ?later, fun hl hm hs => ?first, fun hn => ?none⟩, fun ho => ?soon⟩
  case later =>
    have number : (s.mod.half h).lapNumber b = some (((s.mod.half h).get F.RBK_LAP_LAP + 1) % 2 ^ 32) := if_pos hl
    obtain ⟨lap, hlap⟩ : ∃ lap, lap = ((s.mod.half h).get F.RBK_LAP_LAP + 1) % 2 ^ 32 := ⟨_, rfl⟩
    rw [← hlap] at number
    obtain ⟨t, run, now, begun, shown, bounds, flash, fuse⟩ :=
      exec_lapBoundary_begins s h stamp b u hb hu hr lap (hlap ▸ Nat.mod_lt _ (Nat.two_pow_pos 32)) ho number
    exact ⟨t, run, now, begun, shown.trans hlap, bounds.trans (by rw [shown]), flash, fuse⟩
  case first =>
    have number : (s.mod.half h).lapNumber b = some 0 := by
      unfold Half.lapNumber
      rw [hl, if_neg Bool.false_ne_true, if_pos ⟨hm, hs⟩]
    obtain ⟨t, run, now, begun, shown, bounds, -, -⟩ := exec_lapBoundary_begins s h stamp b u hb hu hr 0 (by decide) ho number
    exact ⟨t, run, now, begun, shown, bounds⟩
  case none =>
    have same := s.mod.lapTick_quiet u h b hr s.mod (s.mod.lapBoundary_none u h b hr ho hn) rfl rfl
    have later : max s.now u = u := by omega
    rw [State.idlesTo, exec_lapBoundary s h stamp b u hb hu, same, later]
  case soon =>
    have kept (f : Field) (d : List Byte) (he : f.off / 0x10000 ≠ 0xE) (hl : f.off / 0x10000 ≠ 0x14) :
        (((s.mod.half h).set F.SYS_XOVR_TIME 1).fault u clsPace 2 0 d).get f = ((s.mod.half h).set F.SYS_XOVR_TIME 1).get f :=
      Half.get_fault _ _ _ _ _ _ _ (by decide) he hl
    have number (d : List Byte) : (((s.mod.half h).set F.SYS_XOVR_TIME 1).fault u clsPace 2 0 d).get F.RBK_LAP_LAP =
        (s.mod.half h).get F.RBK_LAP_LAP :=
      (kept F.RBK_LAP_LAP d (by decide) (by decide)).trans (Half.get_set_other _ F.SYS_XOVR_TIME F.RBK_LAP_LAP 1 (by decide) (by decide))
    have tick := s.mod.lapTick_quiet u h b hr _ (s.mod.lapBoundary_soon u h b hr ho)
      (by rw [Module.half_onHalf]; exact number _) (by rw [Module.half_onHalf, Half.fault_lapBegun, Half.set_lapBegun])
    refine ⟨_, exec_lapBoundary s h stamp b u hb hu, rfl, ?_⟩
    dsimp only
    rw [tick]
    refine ⟨?_, ?_, ?_, ?_, Module.onlyHalf_onHalf s.mod h _⟩ <;> rw [Module.half_onHalf]
    · rw [kept F.SYS_XOVR_TIME _ (by decide) (by decide)]
      exact Half.get_set_of_lt _ _ _ (by decide) (by decide)
    · exact number _
    · rw [Half.fault_seq, Half.get_set_other _ F.SYS_XOVR_TIME F.FLT_HEAD_SEQ 1 (by decide) (by decide)]
    · rw [Half.fault_lap, Half.set_lap]

end Sys2Proof.Machine
end

section
/-!
SUPPORT. Source windows (R143, R160, R162): a window after a change of it, the states of its slots, its status and NOSIG, and a frame
that begins or is discarded.
-/
namespace Sys2Proof.Machine

/-! ## A window and what leaves it alone -/

@[simp] theorem Half.source_set (h : Half) (f : Field) (v j : Nat) : (h.set f v).source j = h.source j := rfl
@[simp] theorem Half.source_setFlag (h : Half) (f : Field) (b : Bool) (j : Nat) : (h.setFlag f b).source j = h.source j := rfl
@[simp] theorem Half.source_tally (h : Half) (f : Field) (n j : Nat) : (h.tally f n).source j = h.source j := rfl
@[simp] theorem Half.source_setSlot (h : Half) (i n v j : Nat) : (h.setSlot i n v).source j = h.source j := rfl
@[simp] theorem Half.reg_onSource (h : Half) (i : Nat) (g : SourceSt → SourceSt) (o : Nat) : (h.onSource i g).reg o = h.reg o := rfl
@[simp] theorem Half.get_onSource (h : Half) (i : Nat) (g : SourceSt → SourceSt) (f : Field) : (h.onSource i g).get f = h.get f := rfl

/-- A changed window. -/
theorem Half.source_onSource {h : Half} {i : Nat} {s : SourceSt} (hs : h.source i = some s) (g : SourceSt → SourceSt) :
    (h.onSource i g).source i = some (g s) :=
  (List.getElem?_modify_eq g i h.sources).trans (congrArg (Option.map g) hs)

/-- A window that holds a source is one of the half's. -/
theorem Module.hasWindow_of_source (m : Module) (h : HalfId) (i : Nat) (s : SourceSt) (hr : (m.half h).inReset = false)
    (hs : (m.half h).source i = some s) : m.hasWindow h i = true := by
  have hlen : i < (m.half h).sources.length := (List.getElem?_eq_some_iff.mp hs).1
  unfold Module.hasWindow
  rw [hr, decide_eq_true hlen]
  rfl

/-- The status register of a source window lies in the intake block. -/
theorem sstat_block (i : Nat) (hi : i < 48) : (F.INK_SSTAT_word i).off / 0x10000 = 4 := by
  simp only [F.INK_SSTAT_word]
  omega

/-! ## Slots (R162) -/

/-- A field of the low bits of a number is that of the number. -/
theorem bitsAt_mod_two_pow (v m lo n : Nat) (h : lo + n ≤ m) : bitsAt (v % 2 ^ m) lo n = bitsAt v lo n := by
  obtain ⟨k, rfl⟩ := Nat.exists_eq_add_of_le h
  unfold bitsAt
  rw [show lo + n + k = lo + (n + k) by omega, Nat.pow_add 2 lo, Nat.mod_mul_right_div_self,
    Nat.mod_mod_of_dvd _ (Nat.pow_dvd_pow 2 (Nat.le_add_right n k))]

/-- A slot put into a state is the setting of its two bits. -/
theorem Half.setSlot_eq (h : Half) (i n v : Nat) (hv : v < 4) :
    h.setSlot i n v = h.set (F.INK_SSTAT_SLOTS i) (replaceBits (h.get (F.INK_SSTAT_SLOTS i)) (2 * n) 2 v) := by
  have four : 4 ^ n = 2 ^ (2 * n) := (Nat.pow_mul 2 2 n).symm
  unfold Half.setSlot replaceBits
  rw [four, Nat.mod_eq_of_lt (show v < 2 ^ 2 from hv)]

section Slots
variable (h : Half) (i n v : Nat) (hn : n < 3) (hv : v < 4)
include hn

/-- The state of a slot after a setting of the slots. -/
theorem Half.slotState_set (w : Nat) : (h.set (F.INK_SSTAT_SLOTS i) w).slotState i n = bitsAt w (2 * n) 2 := by
  have set : (h.set (F.INK_SSTAT_SLOTS i) w).get (F.INK_SSTAT_SLOTS i) = w % 2 ^ 6 := Half.get_set_same _ _ _ (Field.fits_of_ble rfl)
  unfold Half.slotState
  rw [set, bitsAt_mod_two_pow _ _ _ _ (by omega)]

include hv

/-- A slot put into a state is in it. -/
theorem Half.slotState_setSlot : (h.setSlot i n v).slotState i n = v := by
  rw [h.setSlot_eq i n v hv, Half.slotState_set _ _ _ hn, bitsAt_replaceBits]
  exact Nat.mod_eq_of_lt hv

/-- The other slots stay in theirs. -/
theorem Half.slotState_setSlot_other (k : Nat) (hk : k ≠ n) : (h.setSlot i k v).slotState i n = h.slotState i n := by
  rw [h.setSlot_eq i k v hv, Half.slotState_set _ _ _ hn]
  rcases Nat.lt_or_gt_of_ne hk with hlt | hgt
  · exact bitsAt_replaceBits_above _ _ _ _ _ _ (by omega)
  · exact bitsAt_replaceBits_below _ _ _ _ _ _ (by omega)

end Slots

/-- The states of the slots are in one field. -/
theorem Half.slotState_congr (h k : Half) (i n : Nat) (hs : k.get (F.INK_SSTAT_SLOTS i) = h.get (F.INK_SSTAT_SLOTS i)) :
    k.slotState i n = h.slotState i n :=
  congrArg (bitsAt · (2 * n) 2) hs

/-- The newest frame shown leaves the slots in their states. -/
theorem Half.slotState_showNewest (h : Half) (i n : Nat) : (h.showNewest i).slotState i n = h.slotState i n := by
  refine Half.slotState_congr _ _ i n ?_
  unfold Half.showNewest
  split
  · exact Half.get_set_other _ (F.INK_SSTAT_NEWEST i) _ _ (Field.fits_of_ble rfl) (apart_of_above rfl)
  · refine Half.get_sets_other _ _ _ ?_
    simp only [List.forall_mem_cons, Field.fits, Field.apart, F.INK_SSTAT_NEWEST, F.INK_SSTAT_NOTIME, F.INK_SSEQ_NEWEST, F.INK_SCAPLO_NS,
      F.INK_SCAPHI_NS, F.INK_SARRLO_NS, F.INK_SARRHI_NS, F.INK_SFCRC_F, F.INK_SSTAT_SLOTS]
    refine ⟨?_, ?_, ?_, ?_, ?_, ?_, ?_, ?_, fun _ hc => absurd hc List.not_mem_nil⟩ <;> omega

/-! ## Status and NOSIG (R160) -/

/-- What `p` tells of a half does not change with the status that source window `i` shows. -/
structure Half.StatusKeeps {γ : Type} (p : Half → γ) (i : Nat) : Prop where
  reason : ∀ x v, p (Half.set x (F.INK_SSTAT_REASON i) v) = p x
  status : ∀ x v, p (Half.set x (F.INK_SSTAT_STATUS i) v) = p x
  signal : ∀ x s o, p (Half.signal x s o) = p x

/-- Nor with its entries into NOSIG and its mark that the next frame is taken. -/
structure Half.NosigKeeps {γ : Type} (p : Half → γ) (i : Nat) : Prop extends Half.StatusKeeps p i where
  entries : ∀ x n, p (Half.tally x (F.INK_STALLY2_NOSIGS i) n) = p x
  fresh : ∀ x, p (Half.onSource x i fun (s : SourceSt) => { s with fresh := true }) = p x
  fault : ∀ x t k u d, p (Half.fault x t clsSrc k u d) = p x

section Keeps
variable {γ : Type} {p : Half → γ} {i : Nat}

theorem Half.showStatus_keeps (hp : Half.StatusKeeps p i) (h : Half) (nosig : Bool) (reason : Nat) :
    p (h.showStatus i nosig reason) = p h := by
  have shown (v : Nat) : p ((h.set (F.INK_SSTAT_REASON i) reason).set (F.INK_SSTAT_STATUS i) v) = p h :=
    (hp.status _ _).trans (hp.reason _ _)
  unfold Half.showStatus
  dsimp only
  generalize (if nosig = true then 2 else bit (h.flag (F.INK_SSTAT_FROZEN i))) = status
  split
  · exact shown _
  · rw [hp.signal, shown]

/-- The half with source window `i` shown NOSIG and the entry counted. -/
def Half.nosigEntered (h : Half) (i reason : Nat) : Half :=
  ((h.showStatus i true reason).tally (F.INK_STALLY2_NOSIGS i) 1).onSource i fun (x : SourceSt) => { x with fresh := true }

variable (hp : Half.NosigKeeps p i)
include hp

theorem Half.nosigEntered_keeps (h : Half) (reason : Nat) : p (h.nosigEntered i reason) = p h :=
  (hp.fresh _).trans ((hp.entries _ _).trans (Half.showStatus_keeps hp.toStatusKeeps h true reason))

theorem Half.followNosig_keeps (h : Half) (t : Nat) (done : Bool) : p (h.followNosig t i done) = p h := by
  have shown := Half.showStatus_keeps hp.toStatusKeeps h
  unfold Half.followNosig
  split
  · rfl
  · dsimp only
    split
    · split
      · exact shown _ _
      · exact (hp.fault _ _ _ _ _).trans (Half.nosigEntered_keeps hp h _)
    · split <;> exact shown _ _

end Keeps

/-- Such is a field outside the engine block that is apart from REASON and STATUS. -/
theorem Half.statusKeeps_get (i : Nat) (f : Field) (hr : (F.INK_SSTAT_REASON i).apart f) (hs : (F.INK_SSTAT_STATUS i).apart f)
    (he : f.off / 0x10000 ≠ 0xE) : Half.StatusKeeps (fun x => x.get f) i where
  reason _ _ := Half.get_set_other _ _ _ _ (Field.fits_of_ble rfl) hr
  status _ _ := Half.get_set_other _ _ _ _ (Field.fits_of_ble rfl) hs
  signal _ _ _ := Half.get_congr _ _ _ (Half.reg_signal _ _ _ _ he)

/-- Such is one that lies outside the ledger block too and is apart from NOSIGS. -/
theorem Half.nosigKeeps_get (i : Nat) (f : Field) (hr : (F.INK_SSTAT_REASON i).apart f) (hs : (F.INK_SSTAT_STATUS i).apart f)
    (hn : (F.INK_STALLY2_NOSIGS i).apart f) (he : f.off / 0x10000 ≠ 0xE) (hl : f.off / 0x10000 ≠ 0x14) :
    Half.NosigKeeps (fun x => x.get f) i where
  toStatusKeeps := Half.statusKeeps_get i f hr hs he
  entries _ _ := Half.get_tally_other _ _ _ _ (Field.fits_of_ble rfl) hn
  fresh _ := rfl
  fault _ _ _ _ _ := Half.get_fault _ _ _ _ _ _ _ (by decide) he hl

/-- Such is a field of INK_SSTAT above REASON. -/
theorem Half.nosigKeeps_sstat (i : Nat) (hi : i < 48) (f : Field) (ho : f.off = (F.INK_SSTAT_word i).off) (hf : Nat.ble 6 f.lo = true) :
    Half.NosigKeeps (fun x => x.get f) i :=
  have block := (congrArg (· / 0x10000) ho).trans (sstat_block i hi)
  have above := Nat.le_of_ble_eq_true hf
  Half.nosigKeeps_get i f (.inr (.inr above)) (.inr (.inr (Nat.le_trans (show 0 + 2 ≤ 6 by decide) above)))
    (.inl (by rw [ho]; simp only [F.INK_STALLY2_NOSIGS, F.INK_SSTAT_word]; omega))
    (block.trans_ne (by decide)) (block.trans_ne (by decide))

/-- Such is the frame store. -/
theorem Half.nosigKeeps_fst (i : Nat) : Half.NosigKeeps Half.fst i where
  reason _ _ := rfl
  status _ _ := rfl
  signal _ _ _ := Half.signal_fst _ _ _
  entries _ _ := rfl
  fresh _ := rfl
  fault _ _ _ _ _ := Half.fault_fst _ _ _ _ _ _

/-- A window with this mark that its next frame is taken. -/
def SourceSt.marked (s : SourceSt) (b : Bool) : SourceSt := { s with fresh := b }

/-- Such is the window itself but for its mark. -/
theorem Half.nosigKeeps_source (i : Nat) : Half.NosigKeeps (fun x => (x.source i).map fun s => s.marked false) i where
  reason _ _ := rfl
  status _ _ := rfl
  signal x s o := by unfold Half.source; rw [Half.signal_sources]
  entries _ _ := rfl
  fresh x := by
    cases hs : x.source i with
    | none =>
      have out : (x.onSource i fun (s : SourceSt) => { s with fresh := true }).source i = none :=
        (List.getElem?_modify_eq _ i x.sources).trans (congrArg (Option.map _) hs)
      rw [out]
    | some s => rw [Half.source_onSource hs]; rfl
  fault x t k u d := by unfold Half.source; rw [Half.fault_sources]

/-- The window once NOSIG is followed. -/
theorem Half.source_followNosig {h : Half} {i : Nat} {s : SourceSt} (hs : h.source i = some s) (t : Nat) (done : Bool) :
    ∃ b, (h.followNosig t i done).source i = some (s.marked b) := by
  have kept := Half.followNosig_keeps (Half.nosigKeeps_source i) h t done
  rw [hs] at kept
  obtain ⟨s', source, same⟩ := Option.map_eq_some_iff.mp kept
  refine ⟨s'.fresh, source.trans (congrArg some ?_)⟩
  calc s' = (s'.marked false).marked s'.fresh := rfl
    _ = s.marked s'.fresh := by rw [same]; rfl

/-- The slots stay in their states. -/
theorem Half.slotState_followNosig (h : Half) (t i n : Nat) (hi : i < 48) (done : Bool) :
    (h.followNosig t i done).slotState i n = h.slotState i n :=
  Half.slotState_congr _ _ _ _ (Half.followNosig_keeps (Half.nosigKeeps_sstat i hi (F.INK_SSTAT_SLOTS i) rfl rfl) h t done)

section Enters
variable (h : Half) (t i : Nat) (s : SourceSt) (done : Bool) (hi : i < 48) (hs : h.source i = some s) (hr : h.nosigReason i s ≠ 0)

/-- The status shown is in INK_SSTAT. -/
theorem Half.reg_showStatus_sstat (nosig : Bool) (reason : Nat) (hi : i < 48) : (h.showStatus i nosig reason).reg (F.INK_SSTAT_word i).off =
    ((h.set (F.INK_SSTAT_REASON i) reason).set (F.INK_SSTAT_STATUS i)
      (if nosig = true then 2 else bit (h.flag (F.INK_SSTAT_FROZEN i)))).reg (F.INK_SSTAT_word i).off := by
  unfold Half.showStatus
  dsimp only
  exact Half.reg_ite rfl (Half.reg_signal _ _ _ _ ((sstat_block i hi).trans_ne (by decide)))

/-- A source shown NOSIG has STATUS 2. -/
theorem Half.status_showStatus (reason : Nat) (hi : i < 48) : (h.showStatus i true reason).get (F.INK_SSTAT_STATUS i) = 2 :=
  (Half.get_congr _ _ (F.INK_SSTAT_STATUS i) (h.reg_showStatus_sstat i true reason hi)).trans
    (Half.get_set_of_lt _ _ _ (Field.fits_of_ble rfl) (by decide : 2 < 2 ^ 2))

/-- The reason is in REASON. -/
theorem Half.reason_showStatus (nosig : Bool) (reason : Nat) (hi : i < 48) :
    (h.showStatus i nosig reason).get (F.INK_SSTAT_REASON i) = reason % 8 :=
  (Half.get_congr _ _ (F.INK_SSTAT_REASON i) (h.reg_showStatus_sstat i nosig reason hi)).trans
    ((Half.get_set_other _ _ _ _ (Field.fits_of_ble rfl) (apart_of_below rfl)).trans (Half.get_set_same _ _ _ (Field.fits_of_ble rfl)))

include hs hr

/-- A case of R160 that holds shows the source NOSIG and, where it was not, is counted and recorded. -/
theorem Half.followNosig_enters : ∃ d, h.followNosig t i done = if h.isNosig i then h.showStatus i true (h.nosigReason i s)
    else (h.nosigEntered i (h.nosigReason i s)).fault t clsSrc 2 i d := by
  have reason : (if h.nosigReason i s = 1 ∧ s.enabledOnce = false then 1 else h.nosigReason i s) = h.nosigReason i s := by
    split
    · next h1 => exact h1.1.symm
    · rfl
  unfold Half.followNosig
  rw [hs]
  dsimp only
  rw [if_pos hr, reason]
  exact ⟨_, rfl⟩

include hi

/-- The ledger gains an entry where the source was not NOSIG. -/
theorem Half.seq_followNosig : (h.followNosig t i done).get F.FLT_HEAD_SEQ =
    if h.get (F.INK_SSTAT_STATUS i) = 2 then h.get F.FLT_HEAD_SEQ else (h.get F.FLT_HEAD_SEQ + 1) % 2 ^ 32 := by
  have low (f : Field) (ho : f.off < 0x140000) : f.apart F.FLT_HEAD_SEQ := .inl (Nat.ne_of_lt ho)
  have sstat : (F.INK_SSTAT_word i).off < 0x140000 := by simp only [F.INK_SSTAT_word]; omega
  have shown := Half.showStatus_keeps (Half.statusKeeps_get i F.FLT_HEAD_SEQ (low _ sstat) (low _ sstat) (by decide)) h true
    (h.nosigReason i s)
  have counted : (h.nosigEntered i (h.nosigReason i s)).get F.FLT_HEAD_SEQ = h.get F.FLT_HEAD_SEQ :=
    (Half.get_tally_other _ (F.INK_STALLY2_NOSIGS i) _ _ (Field.fits_of_ble rfl)
      (low _ (by simp only [F.INK_STALLY2_NOSIGS]; omega))).trans shown
  obtain ⟨d, run⟩ := h.followNosig_enters t i s done hs hr
  rw [run]
  by_cases hn : h.get (F.INK_SSTAT_STATUS i) = 2
  · rw [if_pos hn, if_pos (show h.isNosig i = true from beq_iff_eq.mpr hn)]
    exact shown
  · rw [if_neg hn, if_neg (fun e : h.isNosig i = true => hn (beq_iff_eq.mp e)), Half.fault_seq, counted]

/-- A field of INK_SSTAT is as it was shown. -/
theorem Half.get_followNosig_sstat (f : Field) (ho : f.off = (F.INK_SSTAT_word i).off) :
    (h.followNosig t i done).get f = (h.showStatus i true (h.nosigReason i s)).get f := by
  have block := (congrArg (· / 0x10000) ho).trans (sstat_block i hi)
  have other : f.off ≠ (F.INK_STALLY2_NOSIGS i).off := by rw [ho]; simp only [F.INK_STALLY2_NOSIGS, F.INK_SSTAT_word]; omega
  obtain ⟨d, run⟩ := h.followNosig_enters t i s done hs hr
  rw [run]
  split
  · rfl
  · rw [Half.get_fault _ _ _ _ _ _ _ (by decide) (block.trans_ne (by decide)) (block.trans_ne (by decide))]
    exact Half.get_congr _ _ _ (Half.reg_set_other (h.showStatus i true _) (F.INK_STALLY2_NOSIGS i) _ _ other)

/-- The source shows NOSIG. -/
theorem Half.status_followNosig : (h.followNosig t i done).get (F.INK_SSTAT_STATUS i) = 2 :=
  (h.get_followNosig_sstat t i s done hi hs hr (F.INK_SSTAT_STATUS i) rfl).trans (h.status_showStatus i _ hi)

/-- It shows the reason. -/
theorem Half.reason_followNosig : (h.followNosig t i done).get (F.INK_SSTAT_REASON i) = h.nosigReason i s % 8 :=
  (h.get_followNosig_sstat t i s done hi hs hr (F.INK_SSTAT_REASON i) rfl).trans (h.reason_showStatus i _ _ hi)

end Enters

/-! ## Frames that are discarded or begin (R148, R151, R162) -/

/-- A window whose frame in progress is discarded. -/
def SourceSt.discarded (s : SourceSt) : SourceSt :=
  { s with writing := none, slots := (s.writing.map fun w => s.slots.set w.slot none).getD s.slots }

section Frames
variable {h : Half} {i : Nat} {s : SourceSt} (hs : h.source i = some s)
include hs

/-- Of a source that writes no frame none is discarded. -/
theorem Half.discardFrame_none (hw : s.writing = none) (tally : Option Field) : h.discardFrame i tally = h := by
  unfold Half.discardFrame
  rw [hs]
  dsimp only
  rw [hw]

/-- The half with the frame in slot `n` discarded. -/
def Half.emptied (h : Half) (i n : Nat) : Half :=
  (h.onSource i fun (x : SourceSt) => { x with writing := none, slots := x.slots.set n none }).setSlot i n slotEmpty

/-- Of one that writes a frame it is discarded, its slot becomes EMPTY and the tally given counts it. -/
theorem Half.discardFrame_some {w : Writing} (hw : s.writing = some w) (f : Field) :
    h.discardFrame i (some f) = (h.emptied i w.slot).tally f 1 := by
  simp only [Half.discardFrame, hs, hw, Half.emptied]

theorem Half.discardFrame_uncounted {w : Writing} (hw : s.writing = some w) : h.discardFrame i none = h.emptied i w.slot := by
  simp only [Half.discardFrame, hs, hw, Half.emptied]

theorem Half.source_discardFrame (tally : Option Field) : (h.discardFrame i tally).source i = some s.discarded := by
  cases hw : s.writing with
  | none =>
    have same : s.discarded = s := by
      simp only [SourceSt.discarded, hw, Option.map_none, Option.getD_none]
      rw [← hw]
    rw [Half.discardFrame_none hs hw, hs, same]
  | some w =>
    have emptied : s.discarded = { s with writing := none, slots := s.slots.set w.slot none } := by
      unfold SourceSt.discarded
      rw [hw]
      rfl
    cases tally with
    | none =>
      rw [Half.discardFrame_uncounted hs hw, emptied]
      exact Half.source_onSource hs _
    | some f =>
      rw [Half.discardFrame_some hs hw, emptied]
      exact Half.source_onSource hs _

section Counted
variable {w : Writing} (hw : s.writing = some w) (f : Field)
include hw

/-- Its slot is EMPTY. -/
theorem Half.slotState_discardFrame (ho : f.off ≠ (F.INK_SSTAT_word i).off) (hn : w.slot < 3) :
    (h.discardFrame i (some f)).slotState i w.slot = slotEmpty := by
  rw [Half.discardFrame_some hs hw]
  exact (Half.slotState_congr _ _ _ _ (Half.get_congr _ _ _ (Half.reg_set_other (h.emptied i w.slot) f _ _ ho.symm))).trans
    (Half.slotState_setSlot _ _ _ _ hn (by decide))

/-- The tally counts it. -/
theorem Half.get_discardFrame (ho : f.off ≠ (F.INK_SSTAT_word i).off) (hf : f.fits) :
    (h.discardFrame i (some f)).get f = satAdd f.width (h.get f) 1 := by
  have kept : (h.emptied i w.slot).get f = h.get f := Half.get_congr _ _ f (Half.reg_set_other _ (F.INK_SSTAT_SLOTS i) _ _ ho)
  rw [Half.discardFrame_some hs hw, Half.get_tally_same _ _ _ hf, kept]

theorem Half.fst_discardFrame : (h.discardFrame i (some f)).fst = h.fst := by
  rw [Half.discardFrame_some hs hw]
  rfl

end Counted

/-- The frame that begins in the window. -/
def Half.newFrame (h : Half) (i : Nat) (s : SourceSt) (fseq stamp csec cfrac : Nat) : Writing :=
  { slot := h.freeSlot i s, fseq := fseq, arr := stamp, wallArr := h.trustedWall stamp, ew := (h.ew stamp).getD 0, csec := csec,
    cfrac := cfrac, badTime := false, parts := [], crcs := [] }

theorem Half.beginFrame_eq (fseq stamp csec cfrac : Nat) : h.beginFrame i fseq stamp csec cfrac =
    ((h.onSource i fun (x : SourceSt) => { x with
      writing := some (h.newFrame i s fseq stamp csec cfrac), refused := none, slots := x.slots.set (h.freeSlot i s) none
      kept := [] }).setSlot i (h.freeSlot i s) slotWriting).set (F.INK_SSEQ_WRITING i) fseq := by
  unfold Half.beginFrame
  rw [hs]
  rfl

/-- Its window writes it. -/
theorem Half.source_beginFrame (fseq stamp csec cfrac : Nat) : (h.beginFrame i fseq stamp csec cfrac).source i =
    some { s with writing := some (h.newFrame i s fseq stamp csec cfrac), refused := none, slots := s.slots.set (h.freeSlot i s) none
                  kept := [] } := by
  rw [Half.beginFrame_eq hs]
  exact Half.source_onSource hs _

omit hs

/-- The slot for a new frame is one of the three. -/
theorem Half.freeSlot_lt (h : Half) (i : Nat) (s : SourceSt) : h.freeSlot i s < 3 := by
  have least (age : Nat → Nat) (l : List Nat) (b : Nat) (hb : b < 3) (hl : ∀ n ∈ l, n < 3) :
      l.foldl (fun b n => if age n < age b then n else b) b < 3 := by
    induction l generalizing b with
    | nil => exact hb
    | cons n l ih =>
      rw [List.foldl_cons]
      refine ih _ ?_ fun k hk => hl k (List.mem_cons_of_mem _ hk)
      split
      · exact hl n List.mem_cons_self
      · exact hb
  have small (p : Nat → Bool) : ∀ n ∈ (List.range 3).filter p, n < 3 := fun n hn => List.mem_range.mp (List.mem_filter.mp hn).1
  have head (l : List Nat) (hl : ∀ n ∈ l, n < 3) : l.headD 0 < 3 := by
    cases l with
    | nil => decide
    | cons n l => exact hl n List.mem_cons_self
  exact least _ _ _ (head _ (small _)) (small _)

include hs

/-- Its slot is WRITING. -/
theorem Half.slotState_beginFrame (fseq stamp csec cfrac : Nat) :
    (h.beginFrame i fseq stamp csec cfrac).slotState i (h.freeSlot i s) = slotWriting := by
  have other : (F.INK_SSTAT_SLOTS i).off ≠ (F.INK_SSEQ_WRITING i).off := by simp only [F.INK_SSTAT_SLOTS, F.INK_SSEQ_WRITING]; omega
  rw [Half.beginFrame_eq hs, Half.slotState_congr _ _ i _ (Half.get_congr _ _ _ (Half.reg_set_other _ (F.INK_SSEQ_WRITING i) _ _ other)),
    Half.slotState_setSlot _ _ _ _ (h.freeSlot_lt i s) (by decide)]

/-- A field of INK_SSTAT apart from SLOTS stays. -/
theorem Half.get_beginFrame (fseq stamp csec cfrac : Nat) (f : Field) (ho : f.off ≠ (F.INK_SSEQ_WRITING i).off)
    (hf : (F.INK_SSTAT_SLOTS i).apart f) : (h.beginFrame i fseq stamp csec cfrac).get f = h.get f := by
  rw [Half.beginFrame_eq hs, Half.get_congr _ _ f (Half.reg_set_other _ (F.INK_SSEQ_WRITING i) _ _ ho)]
  exact Half.get_set_other _ _ _ _ (Field.fits_of_ble rfl) hf

end Frames

end Sys2Proof.Machine
end

section
/-!
SUPPORT. A source's signal, enable and publishing (R160, R164, R167), and the statement on them.
-/
namespace Sys2Proof.Machine

/-! ## Commands of a window -/

section Window
variable (s : State) (h : HalfId) (i : Nat) (hw : s.mod.hasWindow h i = true)
include hw

/-- A command of a window that the half has, at the end of an interval or at a stamp. -/
theorem State.actAt_window (u : Nat) (f : Nat → Module → Module) : s.actAt u (fun t m => m.given (m.hasWindow h i) (f t)) =
    .next { s with now := max s.now u, mod := f (max s.now u) s.mod } := by
  rw [State.actAt_eq, hw, Module.given_true]

/-- One at the present time. -/
theorem State.act_window (f : Nat → Module → Module) : s.act (fun t m => m.given (m.hasWindow h i) (f t)) =
    .next { s with mod := f s.now s.mod } := by
  rw [State.act_eq, hw, Module.given_true]

theorem exec_nosigTimeout : exec (.nosigTimeout h i) s = .next { s with
    now := max s.now ((s.mod.half h).nosigEnd i)
    mod := s.mod.onHalf h fun x => x.nosigTimeout (max s.now ((s.mod.half h).nosigEnd i)) i } := by
  show execNosigTimeout h i s = _
  exact s.actAt_window h i hw _ fun t m => m.onHalf h fun x => x.nosigTimeout t i

/-- PUBLISH_ROW of a row whose lines have been written before. -/
theorem exec_publishRow (row : Nat) :
    exec (.publishRow h i ⟨row, []⟩) s = .next { s with mod := s.mod.onHalf h fun x => x.publishRow i row } := by
  show execPublishRow h i ⟨row, []⟩ s = _
  refine (s.act_window h i hw fun t m => m.publishRow t h i row []).trans ?_
  unfold Module.publishRow
  dsimp only
  split
  · rw [if_pos rfl]
  · rfl

/-- SOURCE_ENABLE that is granted is a write of ENABLE. -/
theorem exec_sourceEnable (master : Nat) (on : Bool) : exec (.sourceEnable h i master on) s =
    .next { s with mod := s.mod.fieldWrite s.now h master (F.INK_SCTRL_ENABLE i) (bit on) } := by
  show execSourceEnable h i master on s = _
  exact s.act_window h i hw fun t m => m.fieldWrite t h master (F.INK_SCTRL_ENABLE i) (bit on)

end Window

/-! ## NOSIG_TIMEOUT and ENABLE (R160, R167) -/

/-- A source that is not enabled, of another format or without a frame in time has a reason to be NOSIG. -/
theorem Half.nosigReason_ne_zero (h : Half) (i : Nat) (s : SourceSt)
    (hn : h.flag (F.INK_SCTRL_ENABLE i) = false ∨ s.badFormat = true ∨ s.timedOut = true ∨ s.seen = false) : h.nosigReason i s ≠ 0 := by
  unfold Half.nosigReason
  split_ifs with enabled lock format memory late
  · decide
  · decide
  · decide
  · decide
  · decide
  · rcases hn with hn | hn | hn | hn
    · exact absurd hn (by simpa using enabled)
    · exact absurd hn format
    · exact absurd (by rw [hn]; rfl) late
    · exact absurd (by rw [hn, Bool.not_false, Bool.or_true]) late

/-- A window whose source has no frame in time. -/
def SourceSt.late (s : SourceSt) : SourceSt := { s with timedOut := true }

/-- A window whose source is enabled at time `t`. -/
def SourceSt.enabled (s : SourceSt) (t : Nat) : SourceSt := { s with
  fresh := true, seen := false, since := t, timedOut := false, nextSeq := if s.enabledOnce then s.nextSeq else 0, enabledOnce := true }

/-- A window of which nothing is published. -/
def SourceSt.unpublished (s : SourceSt) : SourceSt := { s with pub := PubSt.reset }

section Source
variable {h : Half} {i : Nat} {s : SourceSt} (hs : h.source i = some s)
include hs

theorem Half.nosigTimeout_enabled (t : Nat) (he : h.flag (F.INK_SCTRL_ENABLE i) = true) :
    h.nosigTimeout t i = (h.onSource i SourceSt.late).followNosig t i false := by
  unfold Half.nosigTimeout
  rw [hs]
  exact if_pos he

theorem Half.nosigTimeout_disabled (t : Nat) (he : h.flag (F.INK_SCTRL_ENABLE i) = false) : h.nosigTimeout t i = h := by
  unfold Half.nosigTimeout
  rw [hs]
  exact if_neg (ne_true_of_eq_false he)

theorem Half.sourceEnable_raised (t : Nat) (he : h.flag (F.INK_SCTRL_ENABLE i) = false) : h.sourceEnable t i true =
    ((h.setFlag (F.INK_SCTRL_ENABLE i) true).onSource i fun x => x.enabled t).followNosig t i false := by
  unfold Half.sourceEnable
  rw [hs]
  dsimp only
  rw [he]
  rfl

theorem Half.sourceEnable_lowered (t : Nat) (he : h.flag (F.INK_SCTRL_ENABLE i) = true) : h.sourceEnable t i false =
    (((h.setFlag (F.INK_SCTRL_ENABLE i) false).discardFrame i none).onSource i SourceSt.unpublished).followNosig t i false := by
  unfold Half.sourceEnable
  rw [hs]
  dsimp only
  rw [he]
  rfl

end Source

/-! ## Writes of INK_SCTRL -/

theorem regSpec_inkCtrl : ∀ i < 48, regSpec (F.INK_SCTRL_word i).off = some ⟨0x41004, 0x40, 48, 0x0, 0x1, 0x0, 0x0, 0xFF00⟩ := by
  decide

/-- INK_SCTRL is no register that the status of its window changes. -/
theorem offSource_inkCtrl (i : Nat) (hi : i < 48) : OffSource i (F.INK_SCTRL_word i).off := by
  constructor <;> simp only [F.INK_SCTRL_word, F.INK_SSTAT_word, F.INK_STALLY2_word] <;> omega

/-- A bit of a register without W1C and W1S bits that is written as it stands stays. -/
theorem RegSpec.getElem_written_same (r : RegSpec) (sealed : Bool) (old v : Word) (hc : r.w1c = 0) (hs : r.w1s = 0) (k : Nat) (hk : k < 32)
    (hv : v[k] = old[k]) : (r.written sealed old v)[k] = old[k] := by
  have zero : (0 : Word) = 0#32 := rfl
  unfold RegSpec.written
  dsimp only
  generalize r.rw ||| (if sealed then 0 else r.rws) = m
  rw [hc, hs, zero]
  simp only [BitVec.getElem_or, BitVec.getElem_and, BitVec.getElem_not, BitVec.and_zero, BitVec.or_zero, BitVec.getElem_zero, hv]
  cases old[k] <;> cases m[k] <;> rfl

/-- A write in the intake block is one of its half. -/
theorem Module.writeReg_ink (m : Module) (t : Nat) (h : HalfId) (master off : Nat) (v : Word) (hb : off / 0x10000 = 4) :
    m.writeReg t h master off v = m.onHalf h fun x => x.writeInk t off v := by
  unfold Module.writeReg
  rw [hb]
  rfl

section Ctrl
variable (x : Half) (t i : Nat) (on : Bool) (hi : i < 48)

/-- The half with a word written into INK_SCTRL, ENABLE as it stands. -/
def Half.ctrlWritten (x : Half) (i : Nat) (v : Word) : Half :=
  x.plainWrite (F.INK_SCTRL_word i).off (x.keepBit (F.INK_SCTRL_word i).off 0 v)

include hi

theorem Half.source_ctrlWritten (v : Word) : (x.ctrlWritten i v).source i = x.source i :=
  congrArg (fun y => y.sources[i]?) (x.plainWrite_onlyRegs _ _ _ (regSpec_inkCtrl i hi))

theorem Half.flag_ctrlWritten (v : Word) : (x.ctrlWritten i v).flag (F.INK_SCTRL_ENABLE i) = x.flag (F.INK_SCTRL_ENABLE i) := by
  have bit0 (y : Half) : y.flag (F.INK_SCTRL_ENABLE i) = (y.reg (F.INK_SCTRL_word i).off)[0] := bitAt_toNat _ 0 (by decide)
  have kept : (x.keepBit (F.INK_SCTRL_word i).off 0 v)[0] = (x.reg (F.INK_SCTRL_word i).off)[0] := by
    rw [Half.keepBit, getElem_putFlag _ 0 _ (by decide) 0 (by decide), if_pos rfl, bitAt_toNat _ 0 (by decide)]
  rw [bit0, bit0, Half.ctrlWritten, Half.reg_plainWrite_same _ _ _ _ (regSpec_inkCtrl i hi)]
  exact RegSpec.getElem_written_same _ _ _ _ rfl rfl 0 (by decide) kept

/-- A write of INK_SCTRL of a window with a source: its other fields by their access codes, then ENABLE (R167). -/
theorem Half.writeInk_ctrl (s : SourceSt) (hs : x.source i = some s) (v : Word) :
    x.writeInk t (F.INK_SCTRL_word i).off v = (x.ctrlWritten i v).sourceEnable t i (bitAt v.toNat 0) := by
  have hlen : i < x.sources.length := (List.getElem?_eq_some_iff.mp hs).1
  have hwin : ((F.INK_SCTRL_word i).off - 0x41000) / 0x40 = i := by simp only [F.INK_SCTRL_word]; omega
  unfold Half.writeInk Half.writeSource
  dsimp only
  rw [hwin, if_neg (by simp only [F.INK_SCTRL_word]; omega), if_neg (Nat.not_le.mpr hlen), if_pos rfl, hs]
  rfl

/-- A granted write of ENABLE is a change of its half. -/
theorem Module.fieldWrite_inkEnable (m : Module) (h : HalfId) (master : Nat) (s : SourceSt) (hs : (m.half h).source i = some s)
    (hg : m.grants h master (F.INK_SCTRL_word i).off) : ∃ v, m.fieldWrite t h master (F.INK_SCTRL_ENABLE i) (bit on) =
      m.onHalf h fun x => (x.ctrlWritten i v).sourceEnable t i on := by
  have hb : (F.INK_SCTRL_word i).off / 0x10000 = 4 := by simp only [F.INK_SCTRL_word]; omega
  have low (w : Word) : bitAt (putBits w 0 1 (bit on)).toNat 0 = on := by
    show (bitsAt (putBits w 0 1 (bit on)).toNat 0 1 == 1) = on
    rw [bitsAt_putBits _ _ _ _ (by decide)]
    cases on <;> rfl
  refine ⟨putBits ((m.half h).heldWord (F.INK_SCTRL_word i).off) 0 1 (bit on), ?_⟩
  unfold Module.fieldWrite
  refine (Module.regWrite_granted _ _ _ _ _ _ hg).trans ?_
  refine (Module.writeReg_ink _ _ _ _ _ _ hb).trans (congrArg (m.setHalf h) (((m.half h).writeInk_ctrl t i hi s hs _).trans ?_))
  exact congrArg _ (low _)

/-- ENABLE of a window with a source reads as written. -/
theorem Half.enable_sourceEnable (s : SourceSt) (hs : x.source i = some s) :
    (x.sourceEnable t i on).get (F.INK_SCTRL_ENABLE i) = bit on :=
  (Half.get_congr _ _ (F.INK_SCTRL_ENABLE i)
    (x.reg_sourceEnable t i _ (offSource_inkCtrl i hi) on (by rw [hs]; rfl))).trans
      (Half.get_setFlag_same _ _ _ (Field.fits_of_ble rfl) rfl)

/-- Raised, the source is NOSIG until a frame completes. -/
theorem Half.status_raised (s : SourceSt) (hs : x.source i = some s) (he : x.flag (F.INK_SCTRL_ENABLE i) = false) :
    (x.sourceEnable t i true).get (F.INK_SSTAT_STATUS i) = 2 := by
  have window : ((x.setFlag (F.INK_SCTRL_ENABLE i) true).onSource i fun y => y.enabled t).source i = some (s.enabled t) :=
    Half.source_onSource hs _
  rw [Half.sourceEnable_raised hs t he]
  exact Half.status_followNosig _ t i _ false hi window (Half.nosigReason_ne_zero _ i _ (.inr (.inr (.inr rfl))))

/-- Lowered, the source is NOSIG for that reason, writes no frame and publishes none. -/
theorem Half.lowered (s : SourceSt) (hs : x.source i = some s) (he : x.flag (F.INK_SCTRL_ENABLE i) = true) :
    (x.sourceEnable t i false).get (F.INK_SSTAT_STATUS i) = 2 ∧ (x.sourceEnable t i false).get (F.INK_SSTAT_REASON i) = 1 ∧
    ∃ s', (x.sourceEnable t i false).source i = some s' ∧ s'.writing = none ∧ s'.pub = PubSt.reset := by
  let y := ((x.setFlag (F.INK_SCTRL_ENABLE i) false).discardFrame i none).onSource i SourceSt.unpublished
  have window : y.source i = some s.discarded.unpublished :=
    Half.source_onSource (Half.source_discardFrame (h := x.setFlag (F.INK_SCTRL_ENABLE i) false) hs none) _
  have off : y.get (F.INK_SCTRL_ENABLE i) = 0 :=
    (Half.get_congr _ _ (F.INK_SCTRL_ENABLE i) (Half.reg_discardFrame_none (x.setFlag (F.INK_SCTRL_ENABLE i) false) i _
      (offSource_inkCtrl i hi))).trans (Half.get_setFlag_same _ _ _ (Field.fits_of_ble rfl) rfl)
  have reason : y.nosigReason i s.discarded.unpublished = 1 := by
    unfold Half.nosigReason Half.flag
    rw [off]
    rfl
  have present : y.nosigReason i s.discarded.unpublished ≠ 0 := by rw [reason]; decide
  obtain ⟨b, after⟩ := Half.source_followNosig window t false
  rw [Half.sourceEnable_lowered hs t he]
  refine ⟨y.status_followNosig t i _ false hi window present, ?_, _, after, rfl, rfl⟩
  rw [y.reason_followNosig t i _ false hi window present, reason]

end Ctrl

/-! ## PUBLISH_ROW (R164) -/

/-- A window with a row of a frame that waits for its slots. -/
def SourceSt.rowWaits (s : SourceSt) (row fseq csec cfrac : Nat) (cells : List Cell) : SourceSt := { s with
  pub := { row := row + 1, fseq := fseq, csec := csec, cfrac := cfrac, waiting := cells, cut := false } }

/-- A window with the rest of its frame cut. -/
def SourceSt.frameCut (s : SourceSt) : SourceSt := { s with pub := { s.pub with cut := true } }

section Publish
variable {h : Half} {i : Nat} {s : SourceSt} (hs : h.source i = some s)
include hs

/-- Of a source that is not published nothing is sent. -/
theorem Half.publishRow_unpublished (row : Nat) (hp : s.rcd.publish = false) : h.publishRow i row = h := by
  unfold Half.publishRow
  rw [hs]
  dsimp only
  rw [hp]
  rfl

/-- A row that is due of a frame to send waits, or cuts the frame where one waits. -/
theorem Half.publishRow_due (row slot fseq csec cfrac : Nat) (hp : s.rcd.publish = true)
    (he : h.flag (F.INK_SCTRL_ENABLE i) = true) (hr : row < s.rcd.rows) (hk : s.rcd.kind ≠ 4)
    (hf : h.pubFrame s i row (fun q => decide (row ≠ 0) && row == s.pub.row && q == s.pub.fseq) = some (slot, fseq, csec, cfrac))
    (hd : row = 0 ∨ (row = s.pub.row ∧ fseq = s.pub.fseq ∧ s.pub.cut = false)) : h.publishRow i row =
      if s.pub.waiting = [] then
        h.onSource i fun x => x.rowWaits row fseq csec cfrac (h.rowCells s s slot fseq csec cfrac row)
      else (h.onSource i SourceSt.frameCut).tally (F.INK_STALLY1_PUBOVR i) 1 := by
  have parent : h.pubParent s i = some (i, s) := if_neg hk
  unfold Half.publishRow
  rw [hs]
  dsimp only
  rw [hp, he, decide_eq_true hr, Bool.and_self, Bool.and_self, if_pos rfl, parent]
  dsimp only
  rw [if_neg hk, hf]
  exact if_pos hd

end Publish

/-! ## The statement -/

/-- Settles O24, a case for each command: what follows NOSIG at a late frame, ENABLE raised or lowered through the write of INK_SCTRL, and a
row that is due. -/
theorem sourceState : Obligations.SourceState := by
  unfold Obligations.SourceState
  intro s h i src hr hi hs
  have window := s.mod.hasWindow_of_source h i src hr hs
  have only (f : Half → Half) := Module.onlyHalf_onHalf s.mod h f
  refine ⟨fun he => ?late, fun he => ?disabled, fun master hg => ⟨fun he => ?raised, fun he => ?lowered⟩,
    fun row slot fseq csec cfrac hp he hrow hk hf hd => ⟨fun hw => ?sent, fun hw => ?cut⟩, fun row hp => ?unpublished⟩
  case late =>
    have timed : ((s.mod.half h).onSource i SourceSt.late).source i = some src.late := Half.source_onSource hs _
    have reason := ((s.mod.half h).onSource i SourceSt.late).nosigReason_ne_zero i src.late (.inr (.inr (.inl rfl)))
    refine ⟨_, exec_nosigTimeout s h i window, rfl, ?_⟩
    dsimp only
    rw [Module.half_onHalf, Half.nosigTimeout_enabled hs _ he]
    exact ⟨Half.status_followNosig _ _ i _ false hi timed reason, Half.seq_followNosig _ _ i _ false hi timed reason,
      Half.followNosig_keeps (Half.nosigKeeps_fst i) _ _ false, only _⟩
  case disabled =>
    rw [State.idlesTo, exec_nosigTimeout s h i window, Module.onHalf_same _ _ _ (Half.nosigTimeout_disabled hs _ he)]
  case raised =>
    obtain ⟨v, write⟩ := Module.fieldWrite_inkEnable s.now i true hi s.mod h master src hs hg
    have written := ((s.mod.half h).source_ctrlWritten i hi v).trans hs
    have flag : ((s.mod.half h).ctrlWritten i v).flag (F.INK_SCTRL_ENABLE i) = false :=
      ((s.mod.half h).flag_ctrlWritten i hi v).trans (by rw [Half.flag, he]; rfl)
    refine ⟨_, exec_sourceEnable s h i window master true, ?_⟩
    dsimp only
    rw [write, Module.half_onHalf]
    exact ⟨Half.enable_sourceEnable _ _ i true hi src written, Half.status_raised _ _ i hi src written flag, only _⟩
  case lowered =>
    obtain ⟨v, write⟩ := Module.fieldWrite_inkEnable s.now i false hi s.mod h master src hs hg
    have written := ((s.mod.half h).source_ctrlWritten i hi v).trans hs
    have flag : ((s.mod.half h).ctrlWritten i v).flag (F.INK_SCTRL_ENABLE i) = true :=
      ((s.mod.half h).flag_ctrlWritten i hi v).trans (by rw [Half.flag, he]; rfl)
    obtain ⟨status, reason, src', after, idle, unsent⟩ := Half.lowered _ s.now i hi src written flag
    refine ⟨_, src', exec_sourceEnable s h i window master false, ?_⟩
    dsimp only
    rw [write, Module.half_onHalf]
    exact ⟨Half.enable_sourceEnable _ _ i false hi src written, status, reason, after, idle, unsent, only _⟩
  case sent =>
    refine ⟨_, src.rowWaits row fseq csec cfrac ((s.mod.half h).rowCells src src slot fseq csec cfrac row), exec_publishRow s h i window row, ?_⟩
    dsimp only
    rw [Module.half_onHalf, Half.publishRow_due hs row slot fseq csec cfrac hp he hrow hk hf hd, if_pos hw]
    exact ⟨Half.source_onSource hs _, rfl, rfl, rfl, rfl, only _⟩
  case cut =>
    refine ⟨_, src.frameCut, exec_publishRow s h i window row, ?_⟩
    dsimp only
    rw [Module.half_onHalf, Half.publishRow_due hs row slot fseq csec cfrac hp he hrow hk hf hd, if_neg hw]
    exact ⟨Half.source_onSource hs _, rfl, Half.get_tally_same _ _ _ (Field.fits_of_ble rfl),
      fun o ho => Half.reg_set_other _ (F.INK_STALLY1_PUBOVR i) _ _ ho, only _⟩
  case unpublished =>
    rw [exec_publishRow s h i window row, Module.onHalf_same _ _ _ (Half.publishRow_unpublished hs row hp)]

end Sys2Proof.Machine
end

section
/-!
SUPPORT. What a tile written into the frame store leaves alone (R155, R339): the check of an access reads registers from the frame store's
block on, and a granted tile changes none.
-/
namespace Sys2Proof.Machine

/-! ## What a check reads (R341) -/

section Regions
variable (x y : Half) (hg : ∀ f : Field, 0x50000 ≤ f.off → y.get f = x.get f)
include hg

theorem Half.startRule_congr : y.startRule = x.startRule := by
  unfold Half.startRule Half.flag
  rw [hg F.ACR_EPOCH_EPOCH (by decide), hg F.ACR_EPOCH_SWITCHING (by decide)]

theorem Half.covers_congr (p i : Nat) : y.covers p i = x.covers p i := by
  unfold Half.covers
  rw [hg (F.ACR_BASE_PAGE i) (by simp only [F.ACR_BASE_PAGE]; omega), hg (F.ACR_PAGES_COUNT i) (by simp only [F.ACR_PAGES_COUNT]; omega)]

theorem Half.regionOf_congr (a : Nat) : y.regionOf a = x.regionOf a := by
  unfold Half.regionOf
  rw [Half.startRule_congr x y hg, funext (Half.covers_congr x y hg (a / 4096))]

theorem Half.regionCheck_congr (a n master : Nat) (kind : AccessKind) : y.regionCheck a n master kind = x.regionCheck a n master kind := by
  unfold Half.regionCheck
  rw [Half.regionOf_congr x y hg]
  split
  · rfl
  · next r _ =>
    rw [hg (F.ACR_WMASK_MASK r) (by simp only [F.ACR_WMASK_MASK]; omega), hg (F.ACR_RMASK_MASK r) (by simp only [F.ACR_RMASK_MASK]; omega),
      hg (F.ACR_BASE_PAGE r) (by simp only [F.ACR_BASE_PAGE]; omega), hg (F.ACR_PAGES_COUNT r) (by simp only [F.ACR_PAGES_COUNT]; omega),
      Half.covers_congr x y hg]

end Regions

/-- Two modules whose halves are in or out of reset alike and read alike from the block of the frame store on. -/
structure Module.ChecksAlike (m n : Module) : Prop where
  inReset : ∀ k, (n.half k).inReset = (m.half k).inReset
  get : ∀ k (f : Field), 0x50000 ≤ f.off → (n.half k).get f = (m.half k).get f

section Check
variable {m n : Module} (hm : m.ChecksAlike n)
include hm

theorem Module.ChecksAlike.exists? (issuer : HalfId) (a : Nat) : n.exists? issuer a = m.exists? issuer a := by
  unfold Module.exists? Half.sevenChannels Half.flag
  split
  · rw [hm.inReset, hm.get _ F.FST_CHMAP_N (by decide)]
  · rw [hm.inReset]
  · rw [hm.inReset]
  · rw [hm.get _ F.ENG_SUPV_LMPSTOP (by decide)]
  · rfl

theorem Module.ChecksAlike.firstAbsent (issuer : HalfId) (a k : Nat) : n.firstAbsent issuer a k = m.firstAbsent issuer a k := by
  induction k generalizing a with
  | zero => rfl
  | succ k ih => rw [Module.firstAbsent, Module.firstAbsent, hm.exists?, ih]

theorem Module.ChecksAlike.unmapped (a : Nat) : n.unmapped a = m.unmapped a := by
  unfold Module.unmapped Half.sevenChannels
  split
  · rw [hm.get _ F.FST_CHMAP_N (by decide)]
  · rfl

/-- They check an access alike. -/
theorem Module.ChecksAlike.checkAccess (issuer : HalfId) (a : Nat) (z : AccessSize) (master : Nat) (kind : AccessKind) :
    n.checkAccess issuer a z master kind = m.checkAccess issuer a z master kind := by
  unfold Module.checkAccess Half.regionNumber
  dsimp only
  rw [hm.firstAbsent, funext hm.unmapped, Half.startRule_congr _ _ (hm.get issuer), Half.regionOf_congr _ _ (hm.get issuer),
    Half.regionCheck_congr _ _ (hm.get issuer)]

end Check

/-! ## A tile written (R155) -/

/-- A window but for the tiles that its frame has. -/
def SourceSt.untiled (s : SourceSt) : SourceSt :=
  { s with kept := [], writing := s.writing.map fun (w : Writing) => { w with crcs := [] } }

/-- What a tile of window `i` that is written leaves of a half: all registers, and the window but for its tiles. -/
def Half.tileView (x : Half) (i : Nat) : HalfId × Bool × RegFile × Option SourceSt :=
  (x.id, x.inReset, x.regs, (x.source i).map SourceSt.untiled)

/-- What it leaves of the module. -/
def Module.tileView (m : Module) (h : HalfId) (i : Nat) :
    (Half × Lamp × Flash × Option (List Byte)) × HalfId × Bool × RegFile × Option SourceSt :=
  ((m.half h.peer, m.lamp, m.flash, m.fuse), (m.half h).tileView i)

theorem Module.tileView_onHalf (m : Module) (h : HalfId) (i : Nat) (f : Half → Half)
    (hf : (f (m.half h)).tileView i = (m.half h).tileView i) : (m.onHalf h f).tileView h i = m.tileView h i := by
  unfold Module.tileView
  rw [Module.half_onHalf, Module.peer_onHalf, Module.onHalf_lamp, Module.onHalf_flash, Module.onHalf_fuse, hf]

theorem Half.tileView_onSource (x : Half) (i : Nat) (g : SourceSt → SourceSt) (hg : ∀ s, (g s).untiled = s.untiled) :
    (x.onSource i g).tileView i = x.tileView i := by
  have window : ((x.onSource i g).source i).map SourceSt.untiled = (x.source i).map SourceSt.untiled := by
    unfold Half.source Half.onSource
    rw [List.getElem?_modify_eq]
    cases x.sources[i]? with
    | none => rfl
    | some s => exact congrArg some (hg s)
  unfold Half.tileView
  rw [window]
  rfl

/-- Modules of one view check accesses alike. -/
theorem Module.checksAlike_of_tileView {m n : Module} {h : HalfId} {i : Nat} (hv : n.tileView h i = m.tileView h i) :
    m.ChecksAlike n := by
  obtain ⟨rest, own⟩ := Prod.mk.injEq .. ▸ hv
  have peer : n.half h.peer = m.half h.peer := congrArg (fun v => v.1) rest
  have reset : (n.half h).inReset = (m.half h).inReset := congrArg (fun v => v.2.1) own
  have reg (o : Nat) : (n.half h).reg o = (m.half h).reg o :=
    congrArg (fun v : HalfId × Bool × RegFile × Option SourceSt => sparseGet (resetWord v.1) v.2.2.1 o) own
  have each (k : HalfId) : k = h ∨ k = h.peer := by cases k <;> cases h <;> decide
  constructor
  · intro k
    rcases each k with rfl | rfl
    · exact reset
    · rw [peer]
  · intro k f _
    rcases each k with rfl | rfl
    · exact Half.get_congr _ _ f (reg _)
    · rw [peer]

/-- The tile `k` of a frame that window `s` writes may be written: held, the check of its granule grants it. -/
def Module.takesTile (m : Module) (h : HalfId) (s : SourceSt) (k : Nat) : Prop :=
  ∀ w, s.writing = some w → s.rcd.held = true → m.checkAccess h (storeAddr h (s.rcd.granule w.slot k)) .tile mIntake .write = none

/-- It depends on the view alone. -/
theorem Module.takesTile_congr {m n : Module} {h : HalfId} {i : Nat} (hv : n.tileView h i = m.tileView h i) {s s' : SourceSt}
    (hs : s'.untiled = s.untiled) (k : Nat) (hk : m.takesTile h s k) : n.takesTile h s' k := by
  intro w' hw' hh
  have rcd : s'.rcd = s.rcd := (congrArg SourceSt.rcd hs :)
  have writing : (s.writing.map fun (w : Writing) => { w with crcs := [] }) = some { w' with crcs := [] } :=
    (congrArg SourceSt.writing hs).symm.trans (congrArg (Option.map _) hw')
  obtain ⟨w, hw, same⟩ := Option.map_eq_some_iff.mp writing
  have slot : w.slot = w'.slot := (congrArg Writing.slot same :)
  rw [(Module.checksAlike_of_tileView hv).checkAccess, rcd, ← slot]
  exact hk w hw (rcd ▸ hh)

/-- A tile that may be written leaves the view. -/
theorem Module.tileView_writeTile (m : Module) (t : Nat) (h : HalfId) (i k : Nat) (payload : List Byte)
    (hk : ∀ s, (m.half h).source i = some s → m.takesTile h s k) : (m.writeTile t h i k payload).tileView h i = m.tileView h i := by
  unfold Module.writeTile
  split
  · rfl
  · next s hs =>
    split
    · rfl
    · next w hw =>
      have begun : (m.onHalf h fun x => x.onWriting i fun (y : Writing) => { y with crcs := y.crcs ++ [(k, crcOf payload)] }).tileView h i =
          m.tileView h i :=
        Module.tileView_onHalf _ _ _ _ (Half.tileView_onSource _ _ _ fun s => by
          unfold SourceSt.untiled
          cases s.writing <;> rfl)
      dsimp only
      generalize (m.onHalf h fun x => x.onWriting i fun (y : Writing) => { y with crcs := y.crcs ++ [(k, crcOf payload)] }) = m1 at begun
      split
      · next hh =>
        have check := ((Module.checksAlike_of_tileView begun).checkAccess h (storeAddr h (s.rcd.granule w.slot k)) .tile mIntake
          .write).trans (hk s hs w hw hh)
        rw [check]
        refine (Module.tileView_onHalf _ _ _ _ ?_).trans begun
        exact Half.cvuTake_keeps (fun x => x.tileView i) (fun _ _ => rfl) _ _ _ _ _
      · refine (Module.tileView_onHalf _ _ _ _ ?_).trans begun
        exact Half.tileView_onSource _ _ _ fun _ => rfl

/-- So do several. -/
theorem Module.tileView_writeTiles (m : Module) (t : Nat) (h : HalfId) (i : Nat) (tile : Nat × Nat × Nat → List Byte) (s : SourceSt)
    (hs : (m.half h).source i = some s) (l : List (Nat × Nat × Nat)) (hl : ∀ k ∈ l, m.takesTile h s k.1) :
    (l.foldl (fun m k => m.writeTile t h i k.1 (tile k)) m).tileView h i = m.tileView h i := by
  have from_ (n : Module) (hn : n.tileView h i = m.tileView h i) :
      (l.foldl (fun m k => m.writeTile t h i k.1 (tile k)) n).tileView h i = m.tileView h i := by
    induction l generalizing n with
    | nil => exact hn
    | cons k l ih =>
      rw [List.foldl_cons]
      refine ih (fun k hk => hl k (List.mem_cons_of_mem _ hk)) _ ((Module.tileView_writeTile _ _ _ _ _ _ fun s' hs' => ?_).trans hn)
      have window : some s'.untiled = some s.untiled :=
        (congrArg (Option.map SourceSt.untiled) hs').symm.trans ((congrArg (fun v => v.2.2.2.2) hn).trans
          (congrArg (Option.map SourceSt.untiled) hs))
      exact Module.takesTile_congr hn (Option.some.inj window) _ (hl k List.mem_cons_self)
  exact from_ m rfl

end Sys2Proof.Machine
end

section
/-!
SUPPORT. SDI frames (R147 to R149, R154, R162): what the start and the end of a frame leave of its window, and the statement on them.
-/
namespace Sys2Proof.Machine

/-! ## A frame that completes (R156 to R160) -/

section Completes
variable {h : Half} {i : Nat} {s : SourceSt} {w : Writing} (hs : h.source i = some s) (hw : s.writing = some w)

/-- Repeats and FROZEN leave the window. -/
theorem Half.source_freeze (h : Half) (t i : Nat) (s : SourceSt) (old : Option SlotFrame) (f : SlotFrame) (j : Nat) :
    (h.freeze t i s old f).1.source j = h.source j := by
  unfold Half.freeze
  split
  · rfl
  · dsimp only
    split
    · dsimp only
      split
      · unfold Half.source
        rw [Half.fault_sources]
        rfl
      · rfl
    · rfl

@[simp] theorem Half.source_showNewest (h : Half) (i j : Nat) : (h.showNewest i).source j = h.source j := by
  unfold Half.showNewest
  split
  · rfl
  · exact Half.sets_keeps (fun x => x.source j) (fun _ _ _ => rfl) _ _

include hs hw

/-- The frame of an SDI source completes whatever its time and its sequence are. -/
theorem Half.completeFrame_sdi (hk : s.rcd.kind = 1) (t : Nat) : ∃ old f b, ∃ g : SourceSt → SourceSt,
    (∀ x, (g x).writing = none ∧ (g x).seen = true ∧ (g x).nextSeq = (x.nextSeq + 1) % 65536) ∧ h.completeFrame t i =
      (((((h.freeze t i s old f).1.onSource i g).setSlot i w.slot slotComplete).setFlag (F.INK_SSTAT_BASE i) b).showNewest i).followNosig
        t i true := by
  have stale (old : Option SlotFrame) : staleSeq s old w.fseq = false := by
    unfold staleSeq
    rw [hk]
    cases old <;> rfl
  have capture : w.captureOn s.rcd = some ((w.arr : Int) - (s.rcd.uplat : Int) * 1000) := by
    simp only [Writing.captureOn, hk]
  unfold Half.completeFrame
  rw [hs]
  dsimp only
  rw [hw]
  dsimp only
  rw [if_neg fun e => e.1 hk, stale, if_neg Bool.false_ne_true, capture]
  simp only [if_pos hk]
  exact ⟨_, _, _, _, fun x => ⟨rfl, rfl, rfl⟩, rfl⟩

/-- Then the window writes none, has seen one and counts on, and the slot is COMPLETE. -/
theorem Half.completedFrame_sdi (hk : s.rcd.kind = 1) (hi : i < 48) (hn : w.slot < 3) (t : Nat) : ∃ s',
    (h.completeFrame t i).source i = some s' ∧ s'.writing = none ∧ s'.seen = true ∧ s'.nextSeq = (s.nextSeq + 1) % 65536 ∧
    (h.completeFrame t i).slotState i w.slot = slotComplete := by
  obtain ⟨old, f, b, g, hg, run⟩ := Half.completeFrame_sdi hs hw hk t
  obtain ⟨idle, seen, next⟩ := hg s
  let x := ((h.freeze t i s old f).1.onSource i g).setSlot i w.slot slotComplete
  have window : ((x.setFlag (F.INK_SSTAT_BASE i) b).showNewest i).source i = some (g s) :=
    (Half.source_showNewest _ _ _).trans (Half.source_onSource ((Half.source_freeze _ _ _ _ _ _ _).trans hs) g)
  have slot : ((x.setFlag (F.INK_SSTAT_BASE i) b).showNewest i).slotState i w.slot = slotComplete :=
    (Half.slotState_showNewest _ _ _).trans ((Half.slotState_congr _ _ _ _ (Half.get_setFlag_other x _ _ _ (Field.fits_of_ble rfl)
      (apart_of_below rfl))).trans (Half.slotState_setSlot _ _ _ _ hn (by decide)))
  obtain ⟨fresh, after⟩ := Half.source_followNosig window t true
  rw [run]
  exact ⟨_, after, idle, seen, next, (Half.slotState_followNosig _ t i _ hi true).trans slot⟩

end Completes

/-! ## SDI_FRAME_COMPLETE (R149, R154) -/

/-- What a count at a lane's island keeps, the errors of a frame keep (R116). -/
theorem Half.sdiFrameErrors_keeps {γ : Type} (p : Half → γ) (hp : ∀ x q code n, q < 24 → p (Half.laneCount x q code n) = p x)
    (h : Half) (i lineCrc trs : Nat) : p (h.sdiFrameErrors i lineCrc trs) = p h := by
  unfold Half.sdiFrameErrors
  split
  · split
    · unfold Half.sdiErrors
      split
      · exact (hp _ _ _ _ (Nat.mod_lt _ (by decide))).trans (hp _ _ _ _ (Nat.mod_lt _ (by decide)))
      · rfl
    · rfl
  · rfl

/-- What a count at an island leaves of a half beyond registers. -/
theorem Half.laneCount_keeps {γ : Type} (h : Half) (p : Half → γ) (hset : ∀ x f v, p (Half.set x f v) = p x)
    (hlane : ∀ x q (g : Lane → Lane), p (Half.onLane x q g) = p x) (q code n : Nat) : p (h.laneCount q code n) = p h := by
  unfold Half.laneCount
  dsimp only
  split
  · rw [hset, hset, hlane]
  · rw [hlane]

section Errors
variable (h : Half) (i lineCrc trs : Nat)

theorem Half.sources_sdiFrameErrors : (h.sdiFrameErrors i lineCrc trs).sources = h.sources :=
  Half.sdiFrameErrors_keeps _ (fun x q code n _ => x.laneCount_keeps Half.sources (fun _ _ _ => rfl) (fun _ _ _ => rfl) q code n) _ _ _ _

theorem Half.fst_sdiFrameErrors : (h.sdiFrameErrors i lineCrc trs).fst = h.fst :=
  Half.sdiFrameErrors_keeps _ (fun x q code n _ => x.laneCount_keeps Half.fst (fun _ _ _ => rfl) (fun _ _ _ => rfl) q code n) _ _ _ _

theorem Half.inReset_sdiFrameErrors : (h.sdiFrameErrors i lineCrc trs).inReset = h.inReset :=
  Half.sdiFrameErrors_keeps _ (fun x q code n _ => x.laneCount_keeps Half.inReset (fun _ _ _ => rfl) (fun _ _ _ => rfl) q code n) _ _ _ _

/-- They leave the fields below the overrun flags. -/
theorem Half.get_sdiFrameErrors (f : Field) (hf : f.lo + f.width ≤ 31) (hx : f.off ≠ F.SYS_XOVR_word.off) :
    (h.sdiFrameErrors i lineCrc trs).get f = h.get f :=
  Half.sdiFrameErrors_keeps (fun x => x.get f) (fun x q code n _ => x.get_laneCount q code n f hf hx) _ _ _ _

/-- So a source takes frames as before. -/
theorem Half.takesSdi_sdiFrameErrors (s : SourceSt) : (h.sdiFrameErrors i lineCrc trs).takesSdi i s = h.takesSdi i s := by
  have flag (f : Field) (hf : f.lo + f.width ≤ 31) (hx : f.off ≠ F.SYS_XOVR_word.off) :
      (h.sdiFrameErrors i lineCrc trs).flag f = h.flag f := congrArg (· == 1) (h.get_sdiFrameErrors i lineCrc trs f hf hx)
  unfold Half.takesSdi Half.noMemory Half.sevenChannels
  rw [flag (F.INK_SCTRL_ENABLE i) (by decide : 0 + 1 ≤ 31) (by simp only [F.INK_SCTRL_ENABLE, F.SYS_XOVR_word]; omega),
    flag (F.LANE_SDI_LOCK _) (by decide : 0 + 1 ≤ 31) (by simp only [F.LANE_SDI_LOCK, F.SYS_XOVR_word]; omega),
    Half.get_sdiFrameErrors _ _ _ _ F.FST_CHMAP_N (by decide) (by decide)]

/-- And accesses are checked as before. -/
theorem Module.checksAlike_sdiFrameErrors (m : Module) (k : HalfId) :
    m.ChecksAlike (m.onHalf k fun x => x.sdiFrameErrors i lineCrc trs) := by
  have reg (o : Nat) (ho : 0x50000 ≤ o) : ((m.half k).sdiFrameErrors i lineCrc trs).reg o = (m.half k).reg o :=
    Half.sdiFrameErrors_keeps (fun x => x.reg o) (fun x q code n hq => x.reg_laneCount q code n o
      (by simp only [F.LANE_STATUS_word]; omega) (by simp only [F.SYS_XOVR_word]; omega)) _ _ _ _
  have each (j : HalfId) : j = k ∨ j = k.peer := by cases j <;> cases k <;> decide
  constructor
  · intro j
    rcases each j with rfl | rfl
    · rw [Module.half_onHalf, Half.inReset_sdiFrameErrors]
    · rw [Module.peer_onHalf]
  · intro j f hf
    rcases each j with rfl | rfl
    · rw [Module.half_onHalf]
      exact Half.get_congr _ _ f (reg _ hf)
    · rw [Module.peer_onHalf]

end Errors

section Complete
variable (m : Module) (t : Nat) (h : HalfId) (i : Nat) (s : SourceSt) (picture : List (List Nat)) (hs : (m.half h).source i = some s)
  (ht : (m.half h).takesSdi i s = true) (w : Writing) (hw : s.writing = some w)
include hs ht hw

/-- A picture of the record's size: the tiles that are still to be written are written, and the frame completes. -/
theorem Module.sdiComplete_whole (hp : picture.length = s.rcd.height) (hl : ∀ l ∈ picture, l.length = 2 * s.rcd.width) :
    m.sdiComplete t h i picture = (((sdiTiles s.rcd).filter fun k => s.unwritten k.1).foldl (fun m k =>
      m.writeTile t h i k.1 (sdiTile s.rcd picture k.2.1 k.2.2)) m).onHalf h fun x => x.completeFrame t i := by
  have lines : picture.all (fun l => l.length == 2 * s.rcd.width) = true := List.all_eq_true.mpr fun l hm => beq_iff_eq.mpr (hl l hm)
  unfold Module.sdiComplete
  rw [hs]
  dsimp only
  rw [ht, hw]
  exact (if_pos rfl).trans (if_pos ⟨hp, lines⟩)

/-- One of another size discards the frame. -/
theorem Module.sdiComplete_short (hp : picture.length ≠ s.rcd.height) :
    m.sdiComplete t h i picture = m.onHalf h fun x => x.discardFrame i (some (F.INK_STALLY0_INCOMPLETE i)) := by
  unfold Module.sdiComplete
  rw [hs]
  dsimp only
  rw [ht, hw]
  exact (if_pos rfl).trans (if_neg fun e => hp e.1)

/-- What a picture of the record's size leaves when each tile may be written. -/
theorem Module.sdiComplete_completes (hi : i < 48) (hn : w.slot < 3) (hp : picture.length = s.rcd.height)
    (hl : ∀ l ∈ picture, l.length = 2 * s.rcd.width) (hk : ∀ k < s.rcd.tiles, m.takesTile h s k) : ∃ s',
    ((m.sdiComplete t h i picture).half h).source i = some s' ∧ s'.writing = none ∧ s'.seen = true ∧
    s'.nextSeq = (s.nextSeq + 1) % 65536 ∧ ((m.sdiComplete t h i picture).half h).slotState i w.slot = slotComplete ∧
    m.onlyHalf (m.sdiComplete t h i picture) h := by
  have kind : s.rcd.kind = 1 := by
    unfold Half.takesSdi at ht
    simp only [Bool.and_eq_true, beq_iff_eq] at ht
    exact ht.1.1.2
  have tiles : ∀ k ∈ (sdiTiles s.rcd).filter (fun k => s.unwritten k.1), m.takesTile h s k.1 := by
    intro k hm
    obtain ⟨n, hn, rfl⟩ := List.mem_map.mp (List.mem_filter.mp hm).1
    exact hk n (List.mem_range.mp hn)
  have view := Module.tileView_writeTiles m t h i (fun k => sdiTile s.rcd picture k.2.1 k.2.2) s hs _ tiles
  rw [Module.sdiComplete_whole m t h i s picture hs ht w hw hp hl, Module.half_onHalf]
  generalize (((sdiTiles s.rcd).filter fun k => s.unwritten k.1).foldl (fun m k =>
    m.writeTile t h i k.1 (sdiTile s.rcd picture k.2.1 k.2.2)) m) = n at view ⊢
  obtain ⟨rest, own⟩ := Prod.mk.injEq .. ▸ view
  have window : ((n.half h).source i).map SourceSt.untiled = some s.untiled :=
    (congrArg (fun v => v.2.2.2) own).trans (congrArg (Option.map SourceSt.untiled) hs)
  obtain ⟨s', hs', same⟩ := Option.map_eq_some_iff.mp window
  have writing : (s'.writing.map fun (w : Writing) => { w with crcs := [] }) = some { w with crcs := [] } :=
    (congrArg SourceSt.writing same).trans (congrArg (Option.map _) hw)
  obtain ⟨w', hw', same'⟩ := Option.map_eq_some_iff.mp writing
  have slot : w'.slot = w.slot := (congrArg Writing.slot same' :)
  have rcd : s'.rcd = s.rcd := (congrArg SourceSt.rcd same :)
  have seq : s'.nextSeq = s.nextSeq := (congrArg SourceSt.nextSeq same :)
  obtain ⟨s'', after, idle, seen, next, state⟩ := Half.completedFrame_sdi hs' hw' (rcd ▸ kind) hi (slot ▸ hn) t
  refine ⟨s'', after, idle, seen, by rw [next, seq], slot ▸ state, ?_⟩
  obtain ⟨peer, lamp, flash, fuse⟩ := Module.onlyHalf_onHalf n h fun x => x.completeFrame t i
  exact ⟨peer.trans (congrArg (fun v => v.1) rest), lamp.trans (congrArg (fun v => v.2.1) rest),
    flash.trans (congrArg (fun v => v.2.2.1) rest), fuse.trans (congrArg (fun v => v.2.2.2) rest)⟩

end Complete

/-! ## SDI_FRAME_START (R147, R148) -/

/-- The window of an SDI source whose frame starts: the count of frames without an identifier and the verdict on the format. -/
def SourceSt.heard (s : SourceSt) (miss : Nat) (bad : Bool) : SourceSt := { s with noPid := miss, badFormat := bad }

/-- The half with the start of an SDI frame judged: the identifier is read, the frame in progress is discarded and the window holds the
verdict. -/
def Half.sdiJudged (h : Half) (i : Nat) (s : SourceSt) (pid : Option Word) (miss : Nat) (bad noPid : Bool) : Half :=
  (((h.readPid s.rcd.localPort pid).discardFrame i (some (F.INK_STALLY0_INCOMPLETE i))).onSource i fun x => x.heard miss bad).setFlag
    (F.INK_SSTAT_NOPID i) noPid

/-- Then NOSIG follows it, and the frame may begin. -/
def Half.sdiHeard (h : Half) (t i : Nat) (s : SourceSt) (pid : Option Word) (miss : Nat) (bad noPid : Bool) : Half :=
  (h.sdiJudged i s pid miss bad noPid).followNosig t i false

section Start
variable {h : Half} {i : Nat} {s : SourceSt} (hs : h.source i = some s)

@[simp] theorem Half.source_readPid (h : Half) (p : Nat) (pid : Option Word) (j : Nat) : (h.readPid p pid).source j = h.source j := by
  cases pid <;> rfl

/-- The identifier read is shown with its mark (R116). -/
theorem Half.pidValid_readPid (h : Half) (p : Nat) (pid : Option Word) : (h.readPid p pid).get (F.LANE_SDI_PIDVALID p) = bit pid.isSome :=
  Half.get_setFlag_same _ _ _ (Field.fits_of_ble rfl) rfl

theorem Half.pid_readPid (h : Half) (p : Nat) (pid : Option Word) : (h.readPid p pid).get (F.LANE_SDIPID_PID p) =
    (pid.map fun w => w.toNat).getD (h.get (F.LANE_SDIPID_PID p)) := by
  have other : (F.LANE_SDIPID_PID p).off ≠ (F.LANE_SDI_PIDVALID p).off := by simp only [F.LANE_SDIPID_PID, F.LANE_SDI_PIDVALID]; omega
  refine (Half.get_congr _ _ _ (Half.reg_set_other _ (F.LANE_SDI_PIDVALID p) _ _ other)).trans ?_
  cases pid with
  | none => rfl
  | some w => exact Half.get_set_of_lt _ _ _ (Field.fits_of_ble rfl) w.isLt

theorem Half.onlyRegs_readPid (h : Half) (p : Nat) (pid : Option Word) :
    h.onlyRegs (h.readPid p pid) fun o => o = (F.LANE_SDI_word p).off ∨ o = (F.LANE_SDIPID_word p).off := by
  refine ⟨by cases pid <;> rfl, fun o ho => ?_⟩
  obtain ⟨sdi, value⟩ := not_or.mp ho
  refine (Half.reg_set_other _ (F.LANE_SDI_PIDVALID p) _ _ sdi).trans ?_
  cases pid with
  | none => rfl
  | some w => exact Half.reg_set_other _ (F.LANE_SDIPID_PID p) _ _ value

include hs

/-- The window holds the verdict and writes no frame. -/
theorem Half.source_sdiJudged (pid : Option Word) (miss : Nat) (bad noPid : Bool) :
    (h.sdiJudged i s pid miss bad noPid).source i = some (s.discarded.heard miss bad) :=
  Half.source_onSource (Half.source_discardFrame ((Half.source_readPid _ _ _ _).trans hs) _) _

theorem Half.source_sdiHeard (t : Nat) (pid : Option Word) (miss : Nat) (bad noPid : Bool) :
    ∃ b, (h.sdiHeard t i s pid miss bad noPid).source i = some ((s.discarded.heard miss bad).marked b) :=
  Half.source_followNosig (Half.source_sdiJudged hs pid miss bad noPid) t false

omit hs in
/-- NOPID is shown. -/
theorem Half.noPid_sdiHeard (hi : i < 48) (t : Nat) (pid : Option Word) (miss : Nat) (bad noPid : Bool) :
    (h.sdiHeard t i s pid miss bad noPid).get (F.INK_SSTAT_NOPID i) = bit noPid :=
  (Half.followNosig_keeps (Half.nosigKeeps_sstat i hi (F.INK_SSTAT_NOPID i) rfl rfl) _ t false).trans
    (Half.get_setFlag_same _ _ _ (Field.fits_of_ble rfl) rfl)

/-- A source of another format is NOSIG (R160). -/
theorem Half.status_sdiHeard (hi : i < 48) (t : Nat) (pid : Option Word) (miss : Nat) (noPid : Bool) :
    (h.sdiHeard t i s pid miss true noPid).get (F.INK_SSTAT_STATUS i) = 2 :=
  Half.status_followNosig _ t i _ false hi (Half.source_sdiJudged hs pid miss true noPid) (Half.nosigReason_ne_zero _ _ _ (.inr (.inl rfl)))

/-- The frame that begins is written at its stamp into a slot WRITING, under the sequence number given. -/
theorem Half.sdiHeard_begins (hi : i < 48) (t fseq stamp : Nat) (pid : Option Word) (miss : Nat) (noPid : Bool) :
    let x := (h.sdiHeard t i s pid miss false noPid).beginFrame i fseq stamp 0 0
    ∃ s' fr, x.source i = some s' ∧ s'.writing = some fr ∧ fr.fseq = fseq ∧ fr.arr = stamp ∧ s'.noPid = miss ∧
      x.get (F.INK_SSTAT_NOPID i) = bit noPid ∧ x.slotState i fr.slot = slotWriting := by
  obtain ⟨b, window⟩ := Half.source_sdiHeard hs t pid miss false noPid
  exact ⟨_, _, Half.source_beginFrame window _ _ _ _, rfl, rfl, rfl, rfl,
    (Half.get_beginFrame window _ _ _ _ _ (by simp only [F.INK_SSTAT_NOPID, F.INK_SSEQ_WRITING]; omega) (apart_of_above rfl)).trans
      (Half.noPid_sdiHeard hi t pid miss false noPid), Half.slotState_beginFrame window _ _ _ _⟩

/-- Of a source that takes no frames the identifier alone is read, where its port is locked. -/
theorem Half.sdiStart_untaken (ht : h.takesSdi i s = false) (t stamp : Nat) (pid : Option Word) (lines samples : Nat) :
    h.sdiStart t i stamp pid lines samples =
      if s.rcd.kind = 1 ∧ h.flag (F.LANE_SDI_LOCK s.rcd.localPort) = true then h.readPid s.rcd.localPort pid else h := by
  unfold Half.sdiStart
  rw [hs]
  dsimp only
  rw [ht]
  rfl

variable (ht : h.takesSdi i s = true)
include ht

omit hs in
/-- The port of one that takes frames shows the identifier. -/
theorem Half.readsPid : s.rcd.kind = 1 ∧ h.flag (F.LANE_SDI_LOCK s.rcd.localPort) = true := by
  unfold Half.takesSdi at ht
  simp only [Bool.and_eq_true, beq_iff_eq] at ht
  exact ⟨ht.1.1.2, ht.1.2⟩

/-- A frame with an identifier is judged by it. -/
theorem Half.sdiStart_some (t stamp : Nat) (w : Word) (lines samples : Nat) : h.sdiStart t i stamp (some w) lines samples =
    if pidMatches s.rcd w.toNat then
      (h.sdiHeard t i s (some w) 0 (!pidMatches s.rcd w.toNat) false).beginFrame i s.nextSeq stamp 0 0
    else h.sdiHeard t i s (some w) 0 (!pidMatches s.rcd w.toNat) false := by
  unfold Half.sdiStart
  rw [hs]
  dsimp only
  rw [if_pos (Half.readsPid ht), ht]
  rfl

/-- The first without one by the last verdict. -/
theorem Half.sdiStart_first (t stamp lines samples : Nat) (hn : s.noPid = 0) (hseen : s.seen = true) (hb : s.badFormat = false) :
    h.sdiStart t i stamp none lines samples = (h.sdiHeard t i s none (s.noPid + 1) false false).beginFrame i s.nextSeq stamp 0 0 := by
  unfold Half.sdiStart
  rw [hs]
  dsimp only
  rw [if_pos (Half.readsPid ht), ht, hn, hseen, hb]
  rfl

/-- From the second on by its lines, its samples and the line rate. -/
theorem Half.sdiStart_later (t stamp : Nat) (hn : 0 < s.noPid) (hr : h.lineRateFits s.rcd = true) :
    h.sdiStart t i stamp none s.rcd.height s.rcd.width =
      (h.sdiHeard t i s none (s.noPid + 1) false true).beginFrame i s.nextSeq stamp 0 0 := by
  obtain ⟨n, hn⟩ : ∃ n, s.noPid = n + 1 := ⟨s.noPid - 1, by omega⟩
  unfold Half.sdiStart
  rw [hs]
  dsimp only
  rw [if_pos (Half.readsPid ht), ht, hr, hn, beq_self_eq_true, beq_self_eq_true]
  simp only [Option.isNone_none, if_true, if_pos (show 2 ≤ n + 1 + 1 by omega)]
  rfl

end Start

/-! ## The statement -/

/-- SDI_FRAME_START is a change of its half at the frame's stamp. -/
theorem exec_sdiFrameStart (s : State) (h : HalfId) (i stamp : Nat) (pid : Option Word) (lines samples : Nat)
    (hw : s.mod.hasWindow h i = true) : exec (.sdiFrameStart h i stamp pid lines samples) s = .next { s with
      now := max s.now (s.stampAt h stamp)
      mod := s.mod.onHalf h fun x => x.sdiStart (max s.now (s.stampAt h stamp)) i stamp pid lines samples } := by
  show execSdiFrameStart h i stamp pid lines samples s = _
  exact s.actAt_window h i hw _ fun t m => m.onHalf h fun x => x.sdiStart t i stamp pid lines samples

/-- SDI_FRAME_COMPLETE counts the errors of the frame and ends it. -/
theorem exec_sdiFrameComplete (s : State) (h : HalfId) (i : Nat) (picture : SdiPicture) (hw : s.mod.hasWindow h i = true) :
    exec (.sdiFrameComplete h i picture) s = .next { s with
      mod := (s.mod.onHalf h fun x => x.sdiFrameErrors i picture.lineCrc picture.trs).sdiComplete s.now h i picture.lines } := by
  show execSdiFrameComplete h i picture s = _
  exact s.act_window h i hw fun t m =>
    (m.onHalf h fun x => x.sdiFrameErrors i picture.lineCrc picture.trs).sdiComplete t h i picture.lines

/-- Settles O23: a start judges the format, follows NOSIG and may begin a frame; a completion moves no access check by its error counts, so
that the tiles granted before are written and the frame ends. -/
theorem sdiFrames : Obligations.SdiFrames := by
  unfold Obligations.SdiFrames
  intro s h i src hr hi hs
  have window := s.mod.hasWindow_of_source h i src hr hs
  have only (f : Half → Half) := Module.onlyHalf_onHalf s.mod h f
  refine ⟨fun stamp lines samples w ht hm => ?named, fun stamp lines samples ht hn => ?unnamed, fun stamp lines samples w ht hm => ?other,
    fun stamp lines samples pid ht => ?untaken, fun picture fr ht hw hn => ?complete⟩
  case named =>
    obtain ⟨src', fr, after, writing, seq, arr, -, -, slot⟩ := Half.sdiHeard_begins hs hi (max s.now (s.stampAt h stamp)) src.nextSeq stamp
      (some w) 0 false
    refine ⟨_, src', fr, exec_sdiFrameStart s h i stamp (some w) lines samples window, rfl, ?_⟩
    dsimp only
    rw [Module.half_onHalf, Half.sdiStart_some hs ht, if_pos hm, hm]
    exact ⟨after, writing, seq, arr, slot, only _⟩
  case unnamed =>
    have begins (noPid : Bool) (run : (s.mod.half h).sdiStart (max s.now (s.stampAt h stamp)) i stamp none lines samples =
        ((s.mod.half h).sdiHeard (max s.now (s.stampAt h stamp)) i src none (src.noPid + 1) false noPid).beginFrame i src.nextSeq stamp 0 0) :
        ∃ t src' fr, exec (.sdiFrameStart h i stamp none lines samples) s = .next t ∧ t.now = max s.now (s.stampAt h stamp) ∧
          (t.mod.half h).source i = some src' ∧ src'.writing = some fr ∧ fr.fseq = src.nextSeq ∧ fr.arr = stamp ∧
          src'.noPid = src.noPid + 1 ∧ (t.mod.half h).get (F.INK_SSTAT_NOPID i) = bit noPid ∧
          (t.mod.half h).slotState i fr.slot = slotWriting ∧ s.mod.onlyHalf t.mod h := by
      obtain ⟨src', fr, after, writing, seq, arr, miss, shown, slot⟩ := Half.sdiHeard_begins hs hi (max s.now (s.stampAt h stamp))
        src.nextSeq stamp none (src.noPid + 1) noPid
      refine ⟨_, src', fr, exec_sdiFrameStart s h i stamp none lines samples window, rfl, ?_⟩
      dsimp only
      rw [Module.half_onHalf, run]
      exact ⟨after, writing, seq, arr, miss, shown, slot, only _⟩
    rcases hn with ⟨hn, seen, format⟩ | ⟨hn, rfl, rfl, rate⟩
    · rw [if_pos hn]
      exact begins false (Half.sdiStart_first hs ht _ stamp lines samples hn seen format)
    · rw [if_neg (Nat.ne_of_gt hn)]
      exact begins true (Half.sdiStart_later hs ht _ stamp hn rate)
  case other =>
    obtain ⟨b, after⟩ := Half.source_sdiHeard hs (max s.now (s.stampAt h stamp)) (some w) 0 true false
    refine ⟨_, (src.discarded.heard 0 true).marked b, exec_sdiFrameStart s h i stamp (some w) lines samples window, rfl, ?_⟩
    dsimp only
    rw [Module.half_onHalf, Half.sdiStart_some hs ht, if_neg (ne_true_of_eq_false hm), hm]
    exact ⟨after, rfl, rfl, rfl, Half.status_sdiHeard hs hi _ _ _ _, only _⟩
  case untaken =>
    have run := Half.sdiStart_untaken hs ht (max s.now (s.stampAt h stamp)) stamp pid lines samples
    refine ⟨fun hu => ?_, fun hk hl => ?_⟩
    · have same : ¬ (src.rcd.kind = 1 ∧ (s.mod.half h).flag (F.LANE_SDI_LOCK src.rcd.localPort) = true) := by
        rintro ⟨kind, lock⟩
        rcases hu with hu | hu
        · exact hu kind
        · exact Bool.false_ne_true (hu.symm.trans lock)
      rw [if_neg same] at run
      rw [State.idlesTo, exec_sdiFrameStart s h i stamp pid lines samples window, Module.onHalf_same _ _ _ run]
    · rw [if_pos ⟨hk, hl⟩] at run
      refine ⟨_, exec_sdiFrameStart s h i stamp pid lines samples window, rfl, ?_⟩
      dsimp only
      rw [Module.half_onHalf, run]
      exact ⟨Half.pidValid_readPid _ _ _, Half.pid_readPid _ _ _, Half.onlyRegs_readPid _ _ _, only _⟩
  case complete =>
    let m := s.mod.onHalf h fun x => x.sdiFrameErrors i picture.lineCrc picture.trs
    have half : m.half h = (s.mod.half h).sdiFrameErrors i picture.lineCrc picture.trs := Module.half_onHalf _ _ _
    have source : (m.half h).source i = some src := by
      rw [half]
      exact (congrArg (·[i]?) (Half.sources_sdiFrameErrors _ _ _ _)).trans hs
    have takes : (m.half h).takesSdi i src = true := by rw [half, Half.takesSdi_sdiFrameErrors, ht]
    obtain ⟨peer, lamp, flash, fuse⟩ := only fun x => x.sdiFrameErrors i picture.lineCrc picture.trs
    refine ⟨fun hp hl hg => ?_, fun hp => ?_⟩
    · have tiles : ∀ k < src.rcd.tiles, m.takesTile h src k := by
        intro k hk w hw' hh
        obtain rfl : fr = w := Option.some.inj (hw.symm.trans hw')
        exact ((Module.checksAlike_sdiFrameErrors i _ _ s.mod h).checkAccess _ _ _ _ _).trans (hg hh k hk)
      obtain ⟨src', after, idle, seen, next, slot, peer', lamp', flash', fuse'⟩ :=
        Module.sdiComplete_completes m s.now h i src picture.lines source takes fr hw hi hn hp hl tiles
      exact ⟨_, src', exec_sdiFrameComplete s h i picture window, after, idle, seen, next, slot, peer'.trans peer, lamp'.trans lamp,
        flash'.trans flash, fuse'.trans fuse⟩
    · have run := Module.sdiComplete_short m s.now h i src picture.lines source takes fr hw hp
      refine ⟨_, src.discarded, exec_sdiFrameComplete s h i picture window, ?_⟩
      dsimp only
      rw [run, Module.half_onHalf]
      have tally : (F.INK_STALLY0_INCOMPLETE i).off ≠ (F.INK_SSTAT_word i).off := by
        simp only [F.INK_STALLY0_INCOMPLETE, F.INK_SSTAT_word]; omega
      have count : (m.half h).get (F.INK_STALLY0_INCOMPLETE i) = (s.mod.half h).get (F.INK_STALLY0_INCOMPLETE i) := by
        rw [half]
        exact Half.get_sdiFrameErrors _ _ _ _ _ (by decide : 0 + 8 ≤ 31) (by simp only [F.INK_STALLY0_INCOMPLETE, F.SYS_XOVR_word]; omega)
      have store : (m.half h).fst = (s.mod.half h).fst := by rw [half, Half.fst_sdiFrameErrors]
      obtain ⟨peer', lamp', flash', fuse'⟩ := Module.onlyHalf_onHalf m h fun x => x.discardFrame i (some (F.INK_STALLY0_INCOMPLETE i))
      exact ⟨Half.source_discardFrame source _, rfl, Half.slotState_discardFrame source hw _ tally hn,
        (Half.get_discardFrame source hw _ tally (Field.fits_of_ble rfl)).trans (by rw [count]; rfl),
        (store.symm.trans (Half.fst_discardFrame source hw _).symm), peer'.trans peer, lamp'.trans lamp, flash'.trans flash, fuse'.trans fuse⟩

end Sys2Proof.Machine
end

section
/-!
SUPPORT. The statement on tile cells and the scrubber (R150 to R152, R169). It allows any number of source windows, and window 960 would lie
at FST_ECCADDR; with the 48 that R144 allows a half, what it says of an uncorrectable error holds.
-/
namespace Sys2Proof.Machine

/-! ## Damaged slots (R169) -/

section Damaged
variable (h : Half) (i n : Nat)

/-- The count of damaged slots leaves them in their states. -/
theorem Half.slotState_damaged : (h.tally (F.INK_STALLY2_DAMAGED i) 1).slotState i n = h.slotState i n := by
  have other : (F.INK_SSTAT_SLOTS i).off ≠ (F.INK_STALLY2_DAMAGED i).off := by simp only [F.INK_SSTAT_SLOTS, F.INK_STALLY2_DAMAGED]; omega
  exact Half.slotState_congr h _ i n (Half.get_congr _ _ _ (Half.reg_set_other h (F.INK_STALLY2_DAMAGED i) _ _ other))

/-- A slot that becomes DAMAGED is so. -/
theorem Half.slotState_damagedSlot (hn : n < 3) :
    (((h.setSlot i n slotDamaged).tally (F.INK_STALLY2_DAMAGED i) 1).showNewest i).slotState i n = slotDamaged := by
  rw [Half.slotState_showNewest, Half.slotState_damaged, Half.slotState_setSlot _ _ _ _ hn (by decide)]

/-- The others stay in their states. -/
theorem Half.slotState_damagedSlot_other (hn : n < 3) (k : Nat) (hk : k ≠ n) :
    (((h.setSlot i k slotDamaged).tally (F.INK_STALLY2_DAMAGED i) 1).showNewest i).slotState i n = h.slotState i n := by
  rw [Half.slotState_showNewest, Half.slotState_damaged, Half.slotState_setSlot_other _ _ _ _ hn (by decide) k hk]

/-- No source that is not held has a slot to damage. -/
theorem Half.damageSlot_unheld (a : Nat) (s : SourceSt) (hs : h.source i = some s) (hu : s.rcd.held = false) : h.damageSlot a i = h := by
  unfold Half.damageSlot
  rw [hs]
  dsimp only
  rw [hu, if_neg Bool.false_ne_true]

/-- The first slot of a held source is not COMPLETE once an error has been met in its granules. -/
theorem Half.slotState_damageSlot (a : Nat) (s : SourceSt) (hs : h.source i = some s) (hh : s.rcd.held = true)
    (hlo : s.rcd.granule 0 0 ≤ a) (hhi : a < s.rcd.granule 0 0 + 1024 * s.rcd.tiles) :
    (h.damageSlot a i).slotState i 0 ≠ slotComplete := by
  have later (x : Half) (c : Prop) [Decidable c] (k : Nat) (hk : k ≠ 0) :
      (if c then ((x.setSlot i k slotDamaged).tally (F.INK_STALLY2_DAMAGED i) 1).showNewest i else x).slotState i 0 = x.slotState i 0 := by
    split
    · exact Half.slotState_damagedSlot_other x i 0 (by decide) k hk
    · rfl
  unfold Half.damageSlot
  rw [hs]
  dsimp only
  rw [hh, if_pos rfl, Half.forBelow, show List.range 3 = [0, 1, 2] from rfl, List.foldl_cons, List.foldl_cons, List.foldl_cons,
    List.foldl_nil, later _ _ 2 (by decide), later _ _ 1 (by decide)]
  split
  · rw [Half.slotState_damagedSlot _ _ _ (by decide)]
    decide
  · next hc => exact fun hs => hc ⟨hlo, hhi, hs⟩

end Damaged

/-- The half with an uncorrectable error counted, shown and recorded. -/
def Half.errorRecorded (h : Half) (t a : Nat) : Half :=
  let x := (h.tally F.FST_ECC_UNCORR 1).sets [(F.FST_ECCADDR_VALID, 1), (F.FST_ECCADDR_ADDR, a / 8 * 8)]
  x.fault t clsMem 1 (h.channelOf a) (x.memDetail (a / 8 * 8))

/-- Then each window is searched for a damaged slot. -/
def Half.slotsSearched (h : Half) (a : Nat) : Half := (List.range h.sources.length).foldl (fun h i => h.damageSlot a i) h

/-- Beyond these two steps an uncorrectable error changes FST_CHMAP and registers of the engine and ledger blocks only. -/
theorem Half.reg_uncorrectable (h : Half) (t a o : Nat) (hm : o ≠ F.FST_CHMAP_word.off) (he : o / 0x10000 ≠ 0xE)
    (hl : o / 0x10000 ≠ 0x14) : (h.uncorrectable t a).reg o = ((h.errorRecorded t a).slotsSearched a).reg o := by
  unfold Half.uncorrectable
  exact Half.reg_ite (Half.reg_mapOutChannel _ _ _ _ hm he hl) rfl

theorem Half.sources_errorRecorded (h : Half) (t a : Nat) : (h.errorRecorded t a).sources = h.sources := Half.fault_sources _ _ _ _ _ _

@[simp] theorem Half.showNewest_store (h : Half) (i : Nat) : (h.showNewest i).store = h.store := by
  unfold Half.showNewest
  split
  · rfl
  · exact Half.sets_keeps Half.store (fun _ _ _ => rfl) _ _

/-- Such an error stays in its word until that is written over. -/
theorem Half.bad_uncorrectable (h : Half) (t a : Nat) (hb : h.store.bad = []) : (h.uncorrectable t a).store.bad = [a / 8 * 8] := by
  have kept : ((h.errorRecorded t a).slotsSearched a).store.bad = [] :=
    (Half.damageSlots_keep (fun x => x.store.bad) (fun x i n => congrArg StoreSt.bad (Half.showNewest_store _ _)) _ _ _).trans
      ((congrArg StoreSt.bad (Half.fault_store _ _ _ _ _ _)).trans hb)
  have joined (x : Half) (hx : x.store.bad = []) (e : List (Nat × Nat)) : ({ x with store := { x.store with
      errAt := e, bad := if x.store.bad.contains (a / 8 * 8) then x.store.bad else x.store.bad ++ [a / 8 * 8] } } : Half).store.bad =
        [a / 8 * 8] := by
    show (if x.store.bad.contains (a / 8 * 8) then x.store.bad else x.store.bad ++ [a / 8 * 8]) = _
    rw [hx]
    rfl
  have mapped (x : Half) (ch : Nat) : (x.mapOutChannel t ch).store.bad = x.store.bad := by
    unfold Half.mapOutChannel
    split
    · dsimp only
      rw [Half.set_store, Half.fault_store]
      rfl
    · rfl
  unfold Half.uncorrectable
  exact (apply_ite (fun x : Half => x.store.bad) _ _ _).trans (by rw [mapped, ite_self]; exact joined _ kept _)

/-- With the 48 windows of R144 the search for damaged slots leaves the registers beyond theirs. -/
theorem Half.reg_slotsSearched (h : Half) (hlen : h.sources.length ≤ 48) (a o : Nat) (ho : 0x42000 ≤ o) :
    (h.slotsSearched a).reg o = h.reg o := by
  have searched (l : List Nat) (hl : ∀ i ∈ l, i < 48) (x : Half) : (l.foldl (fun h i => h.damageSlot a i) x).reg o = x.reg o := by
    induction l generalizing x with
    | nil => rfl
    | cons i l ih =>
      have hi := hl i List.mem_cons_self
      have off : OffFrame i o := by
        simp only [OffFrame, List.forall_mem_cons]
        refine ⟨?_, ?_, ?_, ?_, ?_, ?_, ?_, ?_, fun _ h => absurd h List.not_mem_nil⟩ <;> omega
      rw [List.foldl_cons, ih fun k hk => hl k (List.mem_cons_of_mem _ hk)]
      exact Half.damageSlot_keeps (fun y => y.reg o) i (fun y n => y.reg_damagedSlot i n o off) x a
  exact searched _ (fun i hi => Nat.lt_of_lt_of_le (List.mem_range.mp hi) hlen) h

/-- So FST_ECCADDR shows the word that was met. -/
theorem Half.eccAddr_uncorrectable (h : Half) (hlen : h.sources.length ≤ 48) (t a : Nat) (ha : a < 2 ^ 31) :
    (h.uncorrectable t a).get F.FST_ECCADDR_VALID = 1 ∧ (h.uncorrectable t a).get F.FST_ECCADDR_ADDR = a / 8 * 8 := by
  have shown (f : Field) (ho : f.off = F.FST_ECCADDR_word.off) : (h.uncorrectable t a).get f =
      ((h.tally F.FST_ECC_UNCORR 1).sets [(F.FST_ECCADDR_VALID, 1), (F.FST_ECCADDR_ADDR, a / 8 * 8)]).get f := by
    have block : f.off / 0x10000 = 5 := by rw [ho]; rfl
    refine (Half.get_congr _ _ f ((h.reg_uncorrectable t a _ (by rw [ho]; decide) (block.trans_ne (by decide))
      (block.trans_ne (by decide))).trans (Half.reg_slotsSearched _ ?_ a _ (by rw [ho]; decide)))).trans ?_
    · rw [Half.sources_errorRecorded]
      exact hlen
    · exact Half.get_fault _ _ _ _ _ _ _ (by decide) (block.trans_ne (by decide)) (block.trans_ne (by decide))
  rw [shown F.FST_ECCADDR_VALID rfl, shown F.FST_ECCADDR_ADDR rfl]
  exact ⟨(Half.get_set_other _ F.FST_ECCADDR_ADDR _ _ (by decide) (by decide)).trans (Half.get_set_same _ _ _ (by decide)),
    Half.get_set_of_lt _ F.FST_ECCADDR_ADDR _ (by decide) (Nat.lt_of_le_of_lt (Nat.div_mul_le_self a 8) ha)⟩

/-! ## SCRUB_PASS -/

/-- SCRUB_PASS is a pass of the scrubber 100 s after the last. -/
theorem exec_scrubPass (s : State) (h : HalfId) (corrected bad : List Nat) (hr : (s.mod.half h).inReset = false) :
    exec (.scrubPass h corrected bad) s = .next { s with
      now := max s.now ((s.mod.half h).store.scrubAt + 100000000000)
      mod := s.mod.onHalf h fun x => x.scrub (max s.now ((s.mod.half h).store.scrubAt + 100000000000)) corrected bad } := by
  show execScrubPass h corrected bad s = _
  unfold execScrubPass
  rw [State.actAt_eq, Module.onLive_live _ _ _ hr]
  rfl

/-- The granules of a list that the scrubber comes to. -/
def Half.scrubbed (h : Half) (l : List Nat) : List Nat := l.filter fun a => decide (a < 2 ^ 31) && !h.inWriting a

/-- The half with the corrected granules counted and the errors met, those known and others. -/
def Half.scrubMet (h : Half) (t : Nat) (corrected bad : List Nat) : Half :=
  (h.scrubbed (bad ++ h.store.bad.filter fun b => !bad.any fun a => a / 8 * 8 == b)).foldl (fun h a => h.uncorrectable t a)
    (h.tally F.FST_ECC_CORR (h.scrubbed corrected).length)

/-- A pass counts them and then itself. -/
theorem Half.scrub_eq (h : Half) (t : Nat) (corrected bad : List Nat) (he : h.flag F.FST_SCRUB_ENABLE = true) :
    h.scrub t corrected bad = Half.set { h.scrubMet t corrected bad with
      store := { (h.scrubMet t corrected bad).store with scrubAt := t } } F.FST_SCRUB_PASSES
        ((h.scrubMet t corrected bad).get F.FST_SCRUB_PASSES + 1) :=
  if_pos he

/-- One that meets one error, not known before. -/
theorem Half.scrubMet_one (h : Half) (t a : Nat) (hb : h.store.bad = []) (ha : a < 2 ^ 31) (hw : h.inWriting a = false) :
    h.scrubMet t [] [a] = (h.tally F.FST_ECC_CORR 0).uncorrectable t a := by
  have seen : h.scrubbed [a] = [a] := List.filter_cons_of_pos (by rw [decide_eq_true ha, hw]; rfl)
  unfold Half.scrubMet
  rw [hb, List.filter_nil, List.append_nil, seen]
  rfl

/-- In a half of at most 48 windows (R144) an error that the scrubber meets is counted, shown in FST_ECCADDR and stays in its word. -/
theorem exec_scrubPass_met (s : State) (h : HalfId) (a : Nat) (hr : (s.mod.half h).inReset = false)
    (hlen : (s.mod.half h).sources.length ≤ 48) (ha : a < 2 ^ 31) (he : (s.mod.half h).flag F.FST_SCRUB_ENABLE = true)
    (hb : (s.mod.half h).store.bad = []) (hw : (s.mod.half h).inWriting a = false) :
    ∃ t, exec (.scrubPass h [] [a]) s = .next t ∧ (t.mod.half h).store.bad = [a / 8 * 8] ∧
      (t.mod.half h).get F.FST_ECC_UNCORR = satAdd 16 ((s.mod.half h).get F.FST_ECC_UNCORR) 1 ∧
      (t.mod.half h).get F.FST_ECCADDR_VALID = 1 ∧ (t.mod.half h).get F.FST_ECCADDR_ADDR = a / 8 * 8 ∧
      (t.mod.half h).fst = (s.mod.half h).fst ∧ s.mod.onlyHalf t.mod h := by
  have uncounted : ((s.mod.half h).tally F.FST_ECC_CORR 0).get F.FST_ECC_UNCORR = (s.mod.half h).get F.FST_ECC_UNCORR :=
    Half.get_tally_other _ _ _ _ (by decide) (by decide)
  have shown (x : Half) (t v : Nat) (f : Field) (hf : F.FST_SCRUB_PASSES.apart f) :
      (Half.set { x with store := { x.store with scrubAt := t } } F.FST_SCRUB_PASSES v).get f = x.get f :=
    Half.get_set_other _ _ _ _ (by decide) hf
  refine ⟨_, exec_scrubPass s h [] [a] hr, ?_⟩
  dsimp only
  rw [Module.half_onHalf, Half.scrub_eq _ _ _ _ he, Half.scrubMet_one _ _ _ hb ha hw, shown _ _ _ _ (by decide), shown _ _ _ _ (by decide),
    shown _ _ _ _ (by decide), Half.uncorr_uncorrectable, uncounted]
  obtain ⟨valid, address⟩ := ((s.mod.half h).tally F.FST_ECC_CORR 0).eccAddr_uncorrectable hlen
    (max s.now ((s.mod.half h).store.scrubAt + 100000000000)) a ha
  exact ⟨Half.bad_uncorrectable _ _ _ hb, rfl, valid, address, Half.uncorrectable_fst _ _ _, Module.onlyHalf_onHalf s.mod h _⟩

/-! ## A half with too many windows -/

/-- A source of 64 tiles that lies at the bottom of the frame store, with these flags. -/
def bottomSource (flags : Nat) : SourceSt := SourceSt.reset
  { ident := 1, kind := 1, half := 0, port := 0, flags := flags, format := 0, freezew := 0, width := 128, height := 128, rate := 25000,
    uplat := 0, parent := 0, factor := 1, nosign := 0, slotbase := 0 }

/-- Half 0 as after power-on, out of reset, with 960 sources that are not held and one that is. -/
def crowdedHalf : Half := { Half.poweredOn .h0 with
  inReset := false, sources := List.replicate 960 (bottomSource 0) ++ [bottomSource 1] }

/-- The module with that half. -/
def crowdedState : State := { State.reset with mod := Module.reset.setHalf .h0 crowdedHalf }

/-- INK_SSTAT of window 960 would lie where FST_ECCADDR lies. -/
theorem sstat_960 : (F.INK_SSTAT_word 960).off = F.FST_ECCADDR_word.off := rfl

/-- None of its sources writes a frame. -/
theorem inWriting_crowdedHalf (a : Nat) : crowdedHalf.inWriting a = false := by
  refine List.any_eq_false.mpr fun i _ => ?_
  have idle (s : SourceSt) (hs : crowdedHalf.source i = some s) : s.writing = none := by
    rcases List.mem_append.mp (List.mem_of_getElem? hs) with hm | hm
    · rw [List.eq_of_mem_replicate hm]; rfl
    · rw [List.mem_singleton.mp hm]; rfl
  cases hs : crowdedHalf.source i with
  | none => exact Bool.false_ne_true
  | some s =>
    dsimp only
    rw [idle s hs]
    exact Bool.false_ne_true

/-- Over its windows the search for a damaged slot is that of the last. -/
theorem slotsSearched_crowded (y : Half) (hy : y.sources = crowdedHalf.sources) (a : Nat) : y.slotsSearched a = y.damageSlot a 960 := by
  have plain : ∀ i < 960, y.source i = some (bottomSource 0) := fun i hi =>
    (congrArg (·[i]?) hy).trans ((List.getElem?_append_left (by rwa [List.length_replicate])).trans
      (by rw [List.getElem?_replicate, if_pos hi]))
  have fixed (l : List Nat) (hl : ∀ i ∈ l, i < 960) : l.foldl (fun h i => h.damageSlot a i) y = y := by
    induction l with
    | nil => rfl
    | cons i l ih =>
      rw [List.foldl_cons, y.damageSlot_unheld i a _ (plain i (hl i List.mem_cons_self)) rfl]
      exact ih fun k hk => hl k (List.mem_cons_of_mem _ hk)
  have length : y.sources.length = 960 + 1 := by
    rw [hy, crowdedHalf, List.length_append, List.length_replicate]
    rfl
  unfold Half.slotsSearched
  rw [length, List.range_succ, List.foldl_append, fixed _ fun i hi => List.mem_range.mp hi]
  rfl

/-- Where it meets an error at 0x4000, the first slot of the last window is not COMPLETE. -/
theorem slotState_scrub_crowded (t : Nat) : (crowdedHalf.scrub t [] [0x4000]).slotState 960 0 ≠ slotComplete := by
  have last (y : Half) (hy : y.sources = crowdedHalf.sources) : y.source 960 = some (bottomSource 1) :=
    (congrArg (·[960]?) hy).trans ((List.getElem?_append_right (by rw [List.length_replicate])).trans (by rw [List.length_replicate]; rfl))
  have sources : ((crowdedHalf.tally F.FST_ECC_CORR 0).errorRecorded t 0x4000).sources = crowdedHalf.sources :=
    Half.sources_errorRecorded _ _ _
  have shown : (crowdedHalf.scrub t [] [0x4000]).reg (F.INK_SSTAT_word 960).off =
      (((crowdedHalf.tally F.FST_ECC_CORR 0).errorRecorded t 0x4000).damageSlot 0x4000 960).reg (F.INK_SSTAT_word 960).off := by
    rw [sstat_960, Half.scrub_eq _ _ _ _ rfl, Half.reg_set_other _ F.FST_SCRUB_PASSES _ _ (by decide), Half.reg_with_store,
      Half.scrubMet_one _ _ _ rfl (by decide) (inWriting_crowdedHalf _), Half.reg_uncorrectable _ _ _ _ (by decide) (by decide) (by decide),
      slotsSearched_crowded _ sources]
  rw [Half.slotState_congr _ _ 960 0 (Half.get_congr _ _ (F.INK_SSTAT_SLOTS 960) shown)]
  exact Half.slotState_damageSlot _ _ _ _ (last _ sources) rfl (by decide) (by decide)

/-- An address shown there as 0x4000 would be a first slot that is COMPLETE. -/
theorem Half.slotState_of_eccAddr (h : Half) (ha : h.get F.FST_ECCADDR_ADDR = 0x4000) : h.slotState 960 0 = slotComplete := by
  have bits : h.slotState 960 0 = bitsAt (h.get F.FST_ECCADDR_ADDR) 13 2 := by
    show bitsAt (bitsAt (h.reg 0x50008).toNat 13 6) 0 2 = bitsAt (bitsAt (h.reg 0x50008).toNat 0 31) 13 2
    unfold bitsAt
    omega
  rw [bits, ha]
  rfl

/-- Refutes O25: with 961 source windows INK_SSTAT of the last lies at FST_ECCADDR. Where the scrubber meets an error at 0x4000, the address
shown reads there as a first slot that is COMPLETE, so that the slot becomes DAMAGED and the address shown is another. -/
theorem not_tileCellsAndScrub : ¬ Obligations.TileCellsAndScrub := by
  unfold Obligations.TileCellsAndScrub
  intro all
  obtain ⟨-, -, -, met, -⟩ := all crowdedState .h0 rfl
  obtain ⟨t, run, -, -, -, address, -⟩ := met 0x4000 (by decide) (by decide) rfl (inWriting_crowdedHalf _)
  rw [exec_scrubPass crowdedState .h0 [] [0x4000] rfl] at run
  injection run with same
  have half : crowdedState.mod.half .h0 = crowdedHalf := rfl
  rw [← same] at address
  dsimp only at address
  rw [Module.half_onHalf, half] at address
  exact slotState_scrub_crowded _ (Half.slotState_of_eccAddr _ address)

end Sys2Proof.Machine
end

section
/-!
SUPPORT. Changes received by the commit owner (R188, R189, R190, R213): what a judgement reads, the change that governs a lap, and what
a change named for its lap leaves of the half.
-/
namespace Sys2Proof.Machine

/-! ## What a judgement reads -/

/-- Half `k` judges a scene or a graphic change as half `h` does: its image, its changes and its lap are those of `h`. -/
structure Half.JudgesAlike (h k : Half) : Prop where
  image : k.image = h.image
  begun : k.lapBegun = h.lapBegun
  acts : k.acts.acts = h.acts.acts
  scenes : k.acts.scenes = h.acts.scenes
  owner : k.get F.SYS_HALF_COMMIT_OWNER = h.get F.SYS_HALF_COMMIT_OWNER
  lap : k.get F.RBK_LAP_LAP = h.get F.RBK_LAP_LAP
  current : k.get F.RBK_SCENE_CURRENT = h.get F.RBK_SCENE_CURRENT

namespace Half.JudgesAlike
variable {h k : Half} (same : h.JudgesAlike k)
include same

theorem isOwner : k.owner = h.owner := congrArg (· == 1) same.owner

theorem switchLap : k.switchLap = h.switchLap := by
  unfold Half.switchLap
  rw [same.begun, same.lap]

theorem sceneAt (n : Nat) : k.sceneAt n = h.sceneAt n := by
  unfold Half.sceneAt
  rw [same.image]

theorem sceneAtLap (lap : Nat) : k.sceneAtLap lap = h.sceneAtLap lap := by
  unfold Half.sceneAtLap
  rw [same.scenes, same.begun, same.current, same.image]

theorem graphicFits (scene layer : Nat) (setState : Bool) (state : Nat) :
    k.graphicFits scene layer setState state = h.graphicFits scene layer setState state := by
  unfold Half.graphicFits
  rw [same.image, same.sceneAt]

/-- A mode change is judged by what the panel has declared too. -/
theorem refusal (c : Change) (lap : Nat) (hc : c.isMode = false) : k.refusal c lap = h.refusal c lap := by
  cases c with
  | scene n =>
    unfold Half.refusal Half.validScene
    dsimp only
    rw [same.sceneAt]
  | graphic g ss sa st al =>
    unfold Half.refusal
    dsimp only
    rw [same.sceneAtLap, same.graphicFits]
  | mode n => cases hc

end Half.JudgesAlike

section Judged
variable {h : Half}

theorem Half.refusal_scene_valid {n lap : Nat} (hv : h.validScene n = true) : h.refusal (.scene n) lap = none := if_pos hv

theorem Half.refusal_scene_invalid {n lap : Nat} (hv : h.validScene n = false) : h.refusal (.scene n) lap = some stNoScene :=
  if_neg (ne_true_of_eq_false hv)

theorem Half.refusal_graphic_fits {g st al lap : Nat} {ss sa : Bool} (hg : h.graphicFits (h.sceneAtLap lap) g ss st = true) :
    h.refusal (.graphic g ss sa st al) lap = none := if_pos hg

theorem Half.refusal_graphic_unfit {g st al lap : Nat} {ss sa : Bool} (hg : h.graphicFits (h.sceneAtLap lap) g ss st = false) :
    h.refusal (.graphic g ss sa st al) lap = some stNoState := if_neg (ne_true_of_eq_false hg)

end Judged

/-! ## The switch shown (R188) -/

/-- A fold whose every turn gives a value gives one where it has a turn. -/
theorem foldl_isSome {α β : Type} (f : Option β → α → Option β) (hf : ∀ b a, (f b a).isSome = true) (l : List α) (hl : l ≠ [])
    (b : Option β) : (l.foldl f b).isSome = true := by
  rw [← List.dropLast_append_getLast hl, List.foldl_append]
  exact hf _ _

section Shown
variable (h : Half)

/-- Some switch named is shown, the earliest one. -/
theorem Half.showPending_named (hn : h.acts.scenes ≠ []) : ∃ x : Nat × Nat,
    h.showPending = h.sets [(F.RBK_SCENE_PENDING, 1), (F.RBK_SCENE_NEXT, x.2), (F.RBK_SWITCHLAP_LAP, x.1)] := by
  unfold Half.showPending
  dsimp only
  split
  · exact ⟨_, rfl⟩
  · next empty =>
    refine absurd (foldl_isSome _ (fun b a => ?_) h.acts.scenes hn none) (by rw [empty]; exact Bool.false_ne_true)
    cases b with
    | none => rfl
    | some y => dsimp only; split <;> rfl

@[simp] theorem Half.showPending_acts : h.showPending.acts = h.acts := by unfold Half.showPending; dsimp only; split <;> rfl
@[simp] theorem Half.showPending_host : h.showPending.host = h.host := by unfold Half.showPending; dsimp only; split <;> rfl

/-- A field apart from those that show the switch reads as before. -/
theorem Half.get_showPending (f : Field) (hp : F.RBK_SCENE_PENDING.apart f) (hn : F.RBK_SCENE_NEXT.apart f)
    (hl : F.RBK_SWITCHLAP_LAP.apart f) : h.showPending.get f = h.get f := by
  unfold Half.showPending
  dsimp only
  split
  · exact (Half.get_set_other _ F.RBK_SWITCHLAP_LAP f _ (by decide) hl).trans
      ((Half.get_set_other _ F.RBK_SCENE_NEXT f _ (by decide) hn).trans (Half.get_set_other _ _ _ _ (by decide) hp))
  · exact Half.get_set_other _ _ _ _ (by decide) hp

theorem Half.pending_showPending (hn : h.acts.scenes ≠ []) : h.showPending.get F.RBK_SCENE_PENDING = 1 := by
  obtain ⟨x, shown⟩ := h.showPending_named hn
  rw [shown]
  exact (Half.get_set_other _ F.RBK_SWITCHLAP_LAP _ _ (by decide) (by decide)).trans
    ((Half.get_set_other _ F.RBK_SCENE_NEXT _ _ (by decide) (by decide)).trans (Half.get_set_of_lt _ _ _ (by decide) (by decide)))

end Shown

/-! ## A lap named (R189) -/

section Named
variable (h : Half)

/-- Naming a lap moves no change that is held, nothing of the host, and only the fields that show the switch. -/
theorem Half.acts_nameLap (lap rival : Nat) : (h.nameLap lap rival).acts.acts = h.acts.acts := by
  unfold Half.nameLap
  split
  · rfl
  · split
    · rw [Half.showPending_acts]; rfl
    · split <;> rfl
    · rfl

theorem Half.host_nameLap (lap rival : Nat) : (h.nameLap lap rival).host = h.host := by
  unfold Half.nameLap
  split
  · rfl
  · split
    · exact Half.showPending_host _
    · split <;> rfl
    · rfl

theorem Half.mode_nameLap (lap rival : Nat) : (h.nameLap lap rival).mode = h.mode := by
  unfold Half.nameLap
  split
  · rfl
  · split
    · exact Half.get_showPending _ F.RST_STATE_MODE (by decide) (by decide) (by decide)
    · split <;> rfl
    · rfl

/-- A change received for a lap that no other change is named for governs it. -/
theorem Half.governing_addAction (a : Action) (lap : Nat) (ha : a.lap = some lap) (alone : ∀ b ∈ h.acts.acts, b.lap ≠ some lap) :
    governing ((h.addAction a).acts.acts.filter fun b => b.lap == some lap && b.what.rival == a.what.rival) =
      some { a with order := h.acts.order } := by
  have others : (h.acts.acts.filter fun b => b.lap == some lap && b.what.rival == a.what.rival) = [] :=
    List.filter_eq_nil_iff.mpr fun b hb e => alone b hb (eq_of_beq (Bool.and_eq_true_iff.mp e).1)
  show governing ((h.acts.acts ++ [{ a with order := h.acts.order }]).filter _) = _
  rw [List.filter_append, others, List.nil_append, List.filter_cons_of_pos (by simp [ha])]
  rfl

end Named

/-! ## An immediate change (R188, R213) -/

section Now
variable (h : Half) (o : Origin)

/-- A change received now, as the owner holds it. -/
def Half.received (h : Half) (c : Change) (o : Origin) : Action := ⟨0, c, none, some h.switchLap, false, false, !h.lapBegun, o⟩

/-- The owner with a scene named for the switch lap. -/
def Half.sceneNamed (h : Half) (n : Nat) (o : Origin) : Half :=
  ((h.addAction (h.received (.scene n) o)).onActs fun x => x.nameScene h.switchLap n).showPending

/-- The owner with a graphic change `g` named for the switch lap. -/
def Half.graphicNamed (h : Half) (c : Change) (g : GChange) (o : Origin) : Half :=
  (h.addAction (h.received c o)).onActs fun x => { x.nameGraphic h.switchLap g with toSend := x.toSend ++ [⟨h.switchLap, g⟩] }

theorem Half.chooseNow_refused (c : Change) {st : Nat} (hr : h.refusal c h.switchLap = some st) :
    h.chooseNow c o = (h, [⟨o, c, st, none, false⟩]) := by
  unfold Half.chooseNow
  dsimp only
  rw [hr]

theorem Half.chooseNow_taken (c : Change) (hr : h.refusal c h.switchLap = none) :
    h.chooseNow c o = ((h.addAction (h.received c o)).nameLap h.switchLap c.rival, []) := by
  unfold Half.chooseNow
  dsimp only
  rw [hr]
  rfl

section Alone
variable (alone : ∀ a ∈ h.acts.acts, a.lap ≠ some h.switchLap)
include alone

theorem Half.chooseNow_scene (n : Nat) (hr : h.refusal (.scene n) h.switchLap = none) :
    h.chooseNow (.scene n) o = (h.sceneNamed n o, []) := by
  rw [h.chooseNow_taken o _ hr]
  unfold Half.nameLap
  have governs := h.governing_addAction (h.received (.scene n) o) h.switchLap rfl alone
  dsimp only [Half.received] at governs ⊢
  rw [governs]
  rfl

theorem Half.chooseNow_graphic (g st al : Nat) (ss sa : Bool) (hr : h.refusal (.graphic g ss sa st al) h.switchLap = none) :
    h.chooseNow (.graphic g ss sa st al) o =
      (h.graphicNamed (.graphic g ss sa st al) ⟨g, st, al, true, ss, sa, false⟩ o, []) := by
  rw [h.chooseNow_taken o _ hr]
  unfold Half.nameLap
  have governs := h.governing_addAction (h.received (.graphic g ss sa st al) o) h.switchLap rfl alone
  dsimp only [Half.received] at governs ⊢
  rw [governs]
  rfl

end Alone

/-- The switch lap and the scene are among the switches named, which are shown pending. -/
theorem Half.mem_sceneNamed (n : Nat) : (h.switchLap, n) ∈ (h.sceneNamed n o).acts.scenes := by
  unfold Half.sceneNamed
  rw [Half.showPending_acts]
  exact List.mem_append_right _ List.mem_cons_self

theorem Half.pending_sceneNamed (n : Nat) : (h.sceneNamed n o).get F.RBK_SCENE_PENDING = 1 :=
  Half.pending_showPending _ (List.append_ne_nil_of_right_ne_nil _ (List.cons_ne_nil _ _))

theorem Half.get_sceneNamed (n : Nat) (f : Field) (hp : F.RBK_SCENE_PENDING.apart f) (hn : F.RBK_SCENE_NEXT.apart f)
    (hl : F.RBK_SWITCHLAP_LAP.apart f) : (h.sceneNamed n o).get f = h.get f := Half.get_showPending _ f hp hn hl

theorem Half.host_sceneNamed (n : Nat) : (h.sceneNamed n o).host = h.host := Half.showPending_host _

theorem Half.mem_graphicNamed (c : Change) (g : GChange) : ⟨h.switchLap, g⟩ ∈ (h.graphicNamed c g o).acts.named :=
  List.mem_append_right _ List.mem_cons_self

theorem Half.get_graphicNamed (c : Change) (g : GChange) (f : Field) : (h.graphicNamed c g o).get f = h.get f := rfl

end Now

end Sys2Proof.Machine
end

section
/-!
SUPPORT. The select registers and FORCE (R188, R213, R235): the words that their commands write, the selection noted and decided in the
commit owner, and the statement on them.
-/
namespace Sys2Proof.Machine

/-! ## Bits of a word -/

/-- A field reads the same in two words that agree in its bits. -/
theorem bitsAt_toNat_congr (w v : Word) (lo n : Nat) (hb : lo + n ≤ 32)
    (same : ∀ (k : Nat) (hk : k < 32), lo ≤ k → k < lo + n → w[k] = v[k]) : bitsAt w.toNat lo n = bitsAt v.toNat lo n := by
  refine Nat.eq_of_testBit_eq fun i => ?_
  unfold bitsAt
  rw [Nat.testBit_mod_two_pow, Nat.testBit_mod_two_pow, Nat.testBit_div_two_pow, Nat.testBit_div_two_pow]
  by_cases hi : i < n
  · have := same (i + lo) (by omega) (by omega) (by omega)
    rw [BitVec.getElem_eq_testBit_toNat, BitVec.getElem_eq_testBit_toNat] at this
    rw [this]
  · rw [decide_eq_false hi, Bool.false_and, Bool.false_and]

/-- A bit that a register without W1C and W1S bits takes from a write. -/
theorem RegSpec.getElem_written_rw (r : RegSpec) (sealed : Bool) (old v : Word) (hc : r.w1c = 0) (hs : r.w1s = 0) (k : Nat) (hk : k < 32)
    (hm : r.rw[k] = true) : (r.written sealed old v)[k] = v[k] := by
  have zero : (0 : Word) = 0#32 := rfl
  unfold RegSpec.written
  dsimp only
  generalize (if sealed then 0 else r.rws) = m
  rw [hc, hs, zero]
  simp only [BitVec.getElem_or, BitVec.getElem_and, BitVec.getElem_not, BitVec.and_zero, BitVec.or_zero, BitVec.getElem_zero, hm]
  cases old[k] <;> cases v[k] <;> rfl

/-! ## The words written -/

/-- The word of SCENESEL holds the scene and GO. -/
theorem scenesel_word (scene : Nat) (hs : scene < 256) :
    bitAt (putBits (BitVec.ofNat 32 (scene % 256)) 8 1 1).toNat 8 = true ∧
      (putBits (BitVec.ofNat 32 (scene % 256)) 8 1 1).toNat % 256 = scene := by
  refine ⟨congrArg (· == 1) (bitsAt_putBits _ 8 1 1 (by decide)), ?_⟩
  have low (v : Nat) : v % 256 = bitsAt v 0 8 := by rw [bitsAt, pow_zero, Nat.div_one]; rfl
  rw [low, bitsAt_putBits_other _ 8 1 1 0 8 (by decide) (by decide), ← low, BitVec.toNat_ofNat]
  omega

/-- The word of GSEL holds the change and GO. -/
theorem gselWord_go (layer state alpha : Nat) (ss sa : Bool) : bitAt (gselWord layer ss sa state alpha).toNat 25 = true :=
  congrArg (· == 1) (bitsAt_putBits _ 25 1 1 (by decide))

theorem gselChange_gselWord (layer state alpha : Nat) (ss sa : Bool) (hl : layer < 8) (hs : state < 64) (ha : alpha < 256) :
    gselChange (gselWord layer ss sa state alpha) = .graphic layer ss sa state alpha := by
  have flag (v i : Nat) : bitAt v i = (bitsAt v i 1 == 1) := rfl
  have bit1 (b : Bool) : (bit b % 2 ^ 1 == 1) = b := by cases b <;> rfl
  unfold gselChange gselWord
  simp (disch := omega) only [List.foldl, flag, bitsAt_putBits, bitsAt_putBits_other, bit1, Nat.mod_eq_of_lt]

/-! ## A selection noted -/

section Noted
variable (h : Half) (c : Change)

/-- A selection noted changes its status register only. -/
theorem Half.get_noteSelection (f : Field) (hs : f.off ≠ F.RBK_SELSTAT_word.off) (hg : f.off ≠ F.CMP_GSELSTAT_word.off)
    (hm : f.off ≠ F.PNL_MODESTAT_word.off) : (h.noteSelection c).1.get f = h.get f := by
  refine Half.get_congr _ _ f ?_
  cases c with
  | scene n => exact (Half.reg_set_other _ F.RBK_SELSTAT_RESULT _ _ hs).trans (Half.reg_set_other _ F.RBK_SELSTAT_SCENE _ _ hs)
  | graphic => exact (Half.reg_set_other _ F.CMP_GSELSTAT_RESULT _ _ hg).trans (Half.reg_set_other _ F.CMP_GSELSTAT_LAYER _ _ hg)
  | mode n => exact (Half.reg_set_other _ F.PNL_MODESTAT_RESULT _ _ hm).trans (Half.reg_set_other _ F.PNL_MODESTAT_MODE _ _ hm)

/-- The half then judges as before. -/
theorem Half.judgesAlike_noteSelection : h.JudgesAlike (h.noteSelection c).1 where
  image := by cases c <;> rfl
  begun := by cases c <;> rfl
  acts := by cases c <;> rfl
  scenes := by cases c <;> rfl
  owner := h.get_noteSelection c _ (by decide) (by decide) (by decide)
  lap := h.get_noteSelection c _ (by decide) (by decide) (by decide)
  current := h.get_noteSelection c _ (by decide) (by decide) (by decide)

theorem Half.inReset_noteSelection : (h.noteSelection c).1.inReset = h.inReset := by cases c <;> rfl

theorem Half.selstat_noteSelection (n : Nat) (hn : n < 256) : (h.noteSelection (.scene n)).1.get F.RBK_SELSTAT_SCENE = n :=
  (Half.get_set_other _ F.RBK_SELSTAT_RESULT _ _ (by decide) (by decide)).trans (Half.get_set_of_lt _ _ _ (by decide) hn)

theorem Half.selected_noteSelection (n : Nat) : (h.noteSelection (.scene n)).1.get F.RBK_SELSTAT_RESULT = 1 :=
  Half.get_set_of_lt _ _ _ (by decide) (by decide)

theorem Half.gselstat_noteSelection (g st al : Nat) (ss sa : Bool) (hg : g < 8) :
    (h.noteSelection (.graphic g ss sa st al)).1.get F.CMP_GSELSTAT_LAYER = g :=
  (Half.get_set_other _ F.CMP_GSELSTAT_RESULT _ _ (by decide) (by decide)).trans (Half.get_set_of_lt _ _ _ (by decide) hg)

theorem Half.gselected_noteSelection (g st al : Nat) (ss sa : Bool) :
    (h.noteSelection (.graphic g ss sa st al)).1.get F.CMP_GSELSTAT_RESULT = 1 :=
  Half.get_set_of_lt _ _ _ (by decide) (by decide)

/-- A scene selection that is turned away shows result 4 in its status register. -/
theorem Half.showResult_noteSelection_scene (n : Nat) :
    (h.noteSelection (.scene n)).1.showResult (h.noteSelection (.scene n)).2 stNoScene (.scene n) =
      (h.noteSelection (.scene n)).1.set F.RBK_SELSTAT_RESULT 4 := if_pos rfl

/-- So does a graphic change. -/
theorem Half.showResult_noteSelection_graphic (g st al : Nat) (ss sa : Bool) :
    (h.noteSelection (.graphic g ss sa st al)).1.showResult (h.noteSelection (.graphic g ss sa st al)).2 stNoState
      (.graphic g ss sa st al) = (h.noteSelection (.graphic g ss sa st al)).1.set F.CMP_GSELSTAT_RESULT 4 := if_pos rfl

end Noted

/-! ## A selection decided in the owner -/

section Owner
variable (m : Module) (h : HalfId) (c : Change) (o : Origin)

theorem Module.setHalf_setHalf (x y : Half) : (m.setHalf h x).setHalf h y = m.setHalf h y := by cases h <;> rfl

/-- The commit owner decides what it receives. -/
theorem Module.ownerFor_owner (ho : (m.half h).owner = true) : m.ownerFor h = some h := if_pos ho

theorem Module.select_owner (ho : (m.half h).owner = true) : m.select h c o = m.decided h c ((m.half h).chooseNow c o) := by
  unfold Module.select
  rw [m.ownerFor_owner h ho]

theorem Module.selectAt_owner (t : Nat) (wall expiry : Int) (ho : (m.half h).owner = true) :
    m.selectAt t h c wall expiry o = m.decided h c ((m.half h).chooseAt t c wall expiry o) := by
  unfold Module.selectAt
  rw [m.ownerFor_owner h ho]

/-- What it has named or holds is its own. -/
theorem Module.decided_held (k : Half) (hc : c.isMode = false) : m.decided h c (k, []) = m.setHalf h k := by
  unfold Module.decided
  rw [hc]
  rfl

/-- What it turns away completes. -/
theorem Module.decided_refused (f : Finish) (hc : c.isMode = false) : m.decided h c (m.half h, [f]) = m.finish f := by
  unfold Module.decided
  dsimp only
  rw [hc, m.setHalf_half h]
  rfl

/-- A selection that the owner names. -/
theorem Module.selectReg_named (k : Half) (hc : c.isMode = false) (ho : (m.half h).owner = true)
    (hk : ((m.half h).noteSelection c).1.chooseNow c (.reg h ((m.half h).noteSelection c).2) = (k, [])) :
    m.selectReg h c = m.setHalf h k := by
  have owner : ((m.setHalf h ((m.half h).noteSelection c).1).half h).owner = true := by
    rw [Module.half_setHalf, ((m.half h).judgesAlike_noteSelection c).isOwner, ho]
  unfold Module.selectReg
  dsimp only
  rw [Module.select_owner _ _ _ _ owner, Module.half_setHalf, hk, Module.decided_held _ _ _ _ hc, Module.setHalf_setHalf]

/-- A selection that it turns away. -/
theorem Module.selectReg_refused {st : Nat} (hc : c.isMode = false) (ho : (m.half h).owner = true) (hl : (m.half h).inReset = false)
    (hr : (m.half h).refusal c (m.half h).switchLap = some st) : m.selectReg h c =
      m.setHalf h (((m.half h).noteSelection c).1.showResult ((m.half h).noteSelection c).2 st c) := by
  have same := (m.half h).judgesAlike_noteSelection c
  have owner : ((m.setHalf h ((m.half h).noteSelection c).1).half h).owner = true := by
    rw [Module.half_setHalf, same.isOwner, ho]
  have refused : ((m.half h).noteSelection c).1.refusal c ((m.half h).noteSelection c).1.switchLap = some st := by
    rw [same.refusal c _ hc, same.switchLap, hr]
  have live : ((m.setHalf h ((m.half h).noteSelection c).1).half h).inReset = false := by
    rw [Module.half_setHalf, Half.inReset_noteSelection, hl]
  have judged := Half.chooseNow_refused ((m.setHalf h ((m.half h).noteSelection c).1).half h)
    (.reg h ((m.half h).noteSelection c).2) c (by rw [Module.half_setHalf]; exact refused)
  unfold Module.selectReg
  dsimp only
  rw [Module.select_owner _ _ _ _ owner, judged, Module.decided_refused _ _ _ _ hc]
  refine (Module.onLive_live _ _ _ live).trans ?_
  rw [Module.onHalf, Module.half_setHalf, Module.setHalf_setHalf]

end Owner

/-! ## The commands -/

section Commands
variable (s : State) (h : HalfId) (master : Nat)

/-- A write of RBK_SCENESEL with GO set submits its scene. -/
theorem Module.writeReg_scenesel (m : Module) (t : Nat) (v : Word) (go : bitAt v.toNat 8 = true) :
    m.writeReg t h master F.RBK_SCENESEL_word.off v = m.selectReg h (.scene (v.toNat % 256)) := by
  unfold Module.writeReg
  rw [show F.RBK_SCENESEL_word.off / 0x10000 = 6 from rfl]
  exact (if_pos rfl).trans (if_pos go)

/-- One of CMP_GSEL submits its graphic change. -/
theorem Module.writeReg_gsel (m : Module) (t : Nat) (v : Word) (go : bitAt v.toNat 25 = true) :
    m.writeReg t h master F.CMP_GSEL_word.off v = m.selectReg h (gselChange v) := by
  unfold Module.writeReg
  rw [show F.CMP_GSEL_word.off / 0x10000 = 7 from rfl]
  exact (if_pos rfl).trans (if_pos go)

/-- A granted SCENESEL submits its scene. -/
theorem exec_scenesel (scene : Nat) (hg : s.mod.grants h master F.RBK_SCENESEL_word.off) (hs : scene < 256) :
    exec (.scenesel h master scene) s = .next { s with mod := s.mod.selectReg h (.scene scene) } := by
  obtain ⟨go, number⟩ := scenesel_word scene hs
  show Host.Outcome.next { s with mod := s.mod.regWrite s.now h master F.RBK_SCENESEL_word.off _ } = _
  rw [Module.regWrite_granted _ _ _ _ _ _ hg, Module.writeReg_scenesel _ _ _ _ _ go, number]

/-- A granted GSEL submits its change. -/
theorem exec_gsel (layer state alpha : Nat) (ss sa : Bool) (hg : s.mod.grants h master F.CMP_GSEL_word.off) (hl : layer < 8)
    (hs : state < 64) (ha : alpha < 256) : exec (.gsel h master layer ss sa state alpha) s =
      .next { s with mod := s.mod.selectReg h (.graphic layer ss sa state alpha) } := by
  show Host.Outcome.next { s with mod := s.mod.regWrite s.now h master F.CMP_GSEL_word.off _ } = _
  rw [Module.regWrite_granted _ _ _ _ _ _ hg, Module.writeReg_gsel _ _ _ _ _ (gselWord_go layer state alpha ss sa),
    gselChange_gselWord _ _ _ _ _ hl hs ha]

/-- The word that FORCE writes: the RW and RWS fields of AGE_CTRL as they stand, but for FORCE. -/
def Half.forceWord (x : Half) (on : Bool) : Word := putBits (x.heldWord F.AGE_CTRL_word.off) 31 1 (bit on)

/-- A granted FORCE writes AGE_CTRL by its access codes. -/
theorem exec_force (on : Bool) (hg : s.mod.grants h master F.AGE_CTRL_word.off) : exec (.force h master on) s =
    .next { s with mod := s.mod.onHalf h fun x => x.plainWrite F.AGE_CTRL_word.off ((s.mod.half h).forceWord on) } := by
  show Host.Outcome.next { s with mod := s.mod.regWrite s.now h master F.AGE_CTRL_word.off ((s.mod.half h).forceWord on) } = _
  rw [Module.regWrite_granted _ _ _ _ _ _ hg, Module.writeReg_plain _ _ _ _ _ _ (by decide)]

end Commands

/-! ## FORCE (R235) -/

section Force
variable (x : Half) (on : Bool)

/-- The access codes of AGE_CTRL. -/
theorem regSpec_ageCtrl : regSpec F.AGE_CTRL_word.off = some ⟨0x80000, 0x4, 1, 0x3E8, 0x80000000, 0x0, 0x0, 0xFFFF⟩ := by decide

theorem Half.force_forced : (x.plainWrite F.AGE_CTRL_word.off (x.forceWord on)).get F.AGE_CTRL_FORCE = bit on := by
  have written : bitsAt (x.forceWord on).toNat 31 1 = bit on := by
    unfold Half.forceWord
    rw [bitsAt_putBits _ _ _ _ (by decide)]
    cases on <;> rfl
  refine Eq.trans ?_ written
  unfold Half.get
  refine bitsAt_toNat_congr _ _ 31 1 (by decide) fun k hk low high => ?_
  obtain rfl : k = 31 := by omega
  show ((x.plainWrite F.AGE_CTRL_word.off (x.forceWord on)).reg F.AGE_CTRL_word.off)[31] = _
  rw [Half.reg_plainWrite_same _ _ _ _ regSpec_ageCtrl]
  exact RegSpec.getElem_written_rw _ _ _ _ rfl rfl 31 (by decide) (by decide)

/-- MAXERR is written as it stands. -/
theorem Half.maxErr_forced : (x.plainWrite F.AGE_CTRL_word.off (x.forceWord on)).get F.AGE_CTRL_MAXERR = x.get F.AGE_CTRL_MAXERR := by
  unfold Half.get
  refine bitsAt_toNat_congr _ _ 0 16 (by decide) fun k hk low high => ?_
  have held : x.heldWord F.AGE_CTRL_word.off = x.reg F.AGE_CTRL_word.off &&& 0x8000FFFF#32 := by
    unfold Half.heldWord
    rw [regSpec_ageCtrl]
    rfl
  have mask : (0x8000FFFF#32)[k] = true :=
    (bitAt_toNat 0x8000FFFF#32 k hk).symm.trans ((by decide : ∀ i < 16, bitAt 0x8000FFFF i = true) k (by omega))
  have kept : (x.forceWord on)[k] = (x.reg F.AGE_CTRL_word.off)[k] := by
    refine (getElem_putFlag _ 31 on (by decide) k hk).trans ?_
    rw [if_neg (by omega), held, BitVec.getElem_and, mask, Bool.and_true]
  show ((x.plainWrite F.AGE_CTRL_word.off (x.forceWord on)).reg F.AGE_CTRL_word.off)[k] = _
  rw [Half.reg_plainWrite_same _ _ _ _ regSpec_ageCtrl]
  exact RegSpec.getElem_written_same _ _ _ _ rfl rfl k hk kept

theorem Half.onlyRegs_forced : x.onlyRegs (x.plainWrite F.AGE_CTRL_word.off (x.forceWord on))
    fun o => o = F.AGE_CTRL_word.off ∨ o = F.SYS_SEALTALLY_word.off :=
  ⟨Half.plainWrite_onlyRegs _ _ _ _ regSpec_ageCtrl, fun o ho =>
    Half.reg_plainWrite_other _ _ _ _ regSpec_ageCtrl o (fun e => ho (.inl e)) fun e => ho (.inr e)⟩

end Force

/-! ## The statement -/

/-- Settles O29: each write does what it submits to the owner, which names it for the switch lap or shows it turned away; FORCE is one
bit of its register. -/
theorem selections : Obligations.Selections := by
  unfold Obligations.Selections
  intro s h master live
  refine ⟨fun grants owner scene small => ⟨fun valid alone => ?sceneNamed, fun invalid => ?sceneRefused⟩,
    fun grants owner layer state alpha ss sa hl hs ha => ⟨fun fits alone => ?graphicNamed, fun unfit => ?graphicRefused⟩,
    fun on grants => ?force⟩
  case sceneNamed =>
    have same := (s.mod.half h).judgesAlike_noteSelection (.scene scene)
    have judged := same.refusal (.scene scene) (s.mod.half h).switchLap rfl
    rw [Half.refusal_scene_valid valid, ← same.switchLap] at judged
    have named := Half.chooseNow_scene _ (.reg h ((s.mod.half h).noteSelection (.scene scene)).2)
      (by rw [same.acts, same.switchLap]; exact alone) scene judged
    refine ⟨_, exec_scenesel s h master scene grants small, ?_⟩
    dsimp only
    rw [Module.selectReg_named _ _ _ _ rfl owner named, Module.half_setHalf]
    refine ⟨same.switchLap ▸ Half.mem_sceneNamed _ _ _, ?_, ?_, Half.pending_sceneNamed _ _ _, ?_, Module.onlyHalf_setHalf _ _ _⟩
    · rw [Half.get_sceneNamed _ _ _ _ (by decide) (by decide) (by decide), Half.selstat_noteSelection _ _ small]
    · rw [Half.get_sceneNamed _ _ _ _ (by decide) (by decide) (by decide), Half.selected_noteSelection]
    · rw [Half.get_sceneNamed _ _ _ _ (by decide) (by decide) (by decide), same.current]
  case sceneRefused =>
    refine ⟨_, exec_scenesel s h master scene grants small, ?_⟩
    dsimp only
    rw [Module.selectReg_refused _ _ _ rfl owner live (Half.refusal_scene_invalid invalid), Module.half_setHalf,
      Half.showResult_noteSelection_scene]
    refine ⟨rfl, ?_, Half.get_set_of_lt _ _ _ (by decide) (by decide), Module.onlyHalf_setHalf _ _ _⟩
    rw [Half.get_set_other _ _ _ _ (by decide) (by decide), Half.selstat_noteSelection _ _ small]
  case graphicNamed =>
    have same := (s.mod.half h).judgesAlike_noteSelection (.graphic layer ss sa state alpha)
    have judged := same.refusal (.graphic layer ss sa state alpha) (s.mod.half h).switchLap rfl
    rw [Half.refusal_graphic_fits fits, ← same.switchLap] at judged
    have named := Half.chooseNow_graphic _ (.reg h ((s.mod.half h).noteSelection (.graphic layer ss sa state alpha)).2)
      (by rw [same.acts, same.switchLap]; exact alone) layer state alpha ss sa judged
    refine ⟨_, exec_gsel s h master layer state alpha ss sa grants hl hs ha, ?_⟩
    dsimp only
    rw [Module.selectReg_named _ _ _ _ rfl owner named, Module.half_setHalf]
    refine ⟨same.switchLap ▸ Half.mem_graphicNamed _ _ _ _, ?_, ?_, Module.onlyHalf_setHalf _ _ _⟩
    · rw [Half.get_graphicNamed, Half.gselstat_noteSelection _ _ _ _ _ _ hl]
    · rw [Half.get_graphicNamed, Half.gselected_noteSelection]
  case graphicRefused =>
    refine ⟨_, exec_gsel s h master layer state alpha ss sa grants hl hs ha, ?_⟩
    dsimp only
    rw [Module.selectReg_refused _ _ _ rfl owner live (Half.refusal_graphic_unfit unfit), Module.half_setHalf,
      Half.showResult_noteSelection_graphic]
    exact ⟨rfl, Half.get_set_of_lt _ _ _ (by decide) (by decide), Module.onlyHalf_setHalf _ _ _⟩
  case force =>
    refine ⟨_, exec_force s h master on grants, ?_⟩
    dsimp only
    rw [Module.half_onHalf]
    exact ⟨Half.force_forced _ _, Half.maxErr_forced _ _, Half.onlyRegs_forced _ _, Module.onlyHalf_onHalf _ _ _⟩

end Sys2Proof.Machine
end

section
/-!
SUPPORT. Requests for changes and events (R372 to R377, R381, R383): a request that is taken is outstanding and runs, one that the
receiving half completes is answered, and what an answer leaves of the module.
-/
namespace Sys2Proof.Machine

/-! ## A request taken (R372, R377) -/

/-- A half with a request outstanding. -/
def Half.asking (x : Half) (q : Requester) (tag : Nat) : Half :=
  x.onHost fun s => { s with outstanding := s.outstanding ++ [⟨q, tag⟩] }

/-- A module in which a half has a request outstanding. -/
def Module.asked (m : Module) (i : HalfId) (q : Requester) (tag : Nat) : Module := m.onHalf i fun x => x.asking q tag

/-- A request outstanding judges as before. -/
theorem Half.judgesAlike_asking (x : Half) (q : Requester) (tag : Nat) : x.JudgesAlike (x.asking q tag) :=
  ⟨rfl, rfl, rfl, rfl, rfl, rfl, rfl⟩

section Taken
variable (m : Module) (t : Nat) (h : HalfId) (q : Requester)

theorem Module.half_asked (tag : Nat) : (m.asked h q tag).half h = (m.half h).asking q tag := Module.half_onHalf _ _ _

/-- A request without an address that is accepted is outstanding in the half that receives it, and runs there. -/
theorem Module.requestBy_taken (r : MgmtReq) (ha : m.accepts h q r) (hop : 4 ≤ r.opcode) (hf : mgmtFits r = true) :
    m.requestBy t h q r =
      (m.asked (m.receiver h q) q r.tag).runReq t (m.receiver h q) (m.receiver h q) q r := by
  obtain ⟨live, mode, way, -, free, kept, -, room⟩ := ha
  have here : m.executor (m.receiver h q) r = m.receiver h q := if_neg (by omega)
  rw [here] at free kept room
  have taken : m.request t (m.receiver h q) q r =
      (m.asked (m.receiver h q) q r.tag).runReq t (m.receiver h q) (m.receiver h q) q r := by
    unfold Module.request
    dsimp only
    rw [here, live, if_neg Bool.false_ne_true, if_neg fun e => mode e.1, if_neg fun e => e.1 rfl, free, if_neg Bool.false_ne_true, kept]
    dsimp only
    rw [hf, room]
    rfl
  unfold Module.requestBy
  unfold Module.receiver at taken live way ⊢
  cases hq : q.service with
  | true =>
    rw [hq] at taken
    exact taken
  | false =>
    rw [hq] at taken live way
    have passes : ((m.half h).flag F.HST_CTRL_MGTEN && ((m.half h).ringJoined 0 || (m.half h).ringJoined 1)) = true := by
      rcases way with way | ⟨mgten, joined⟩
      · cases way
      · exact Bool.and_eq_true_iff.mpr ⟨mgten, Bool.or_eq_true_iff.mpr joined⟩
    show m.cellRequest t h q r = _
    unfold Module.cellRequest
    dsimp only
    rw [show (m.half h).inReset = false from live, if_neg Bool.false_ne_true, passes, if_pos rfl]
    exact taken

end Taken

/-- A request given by its parts, taken where no start is in progress, does what it does and nothing after it. -/
theorem State.ask_taken (s : State) (h : HalfId) (q : Requester) (tag op : Nat) (p : List Byte) (m : Module)
    (ha : s.mod.accepts h q (reqOf q tag op p)) (hop : 4 ≤ op) (hf : mgmtFits (reqOf q tag op p) = true)
    (hm : (s.mod.asked (s.mod.receiver h q) q tag).runReq s.now (s.mod.receiver h q) (s.mod.receiver h q) q (reqOf q tag op p) = m)
    (hs : m.settled) : s.ask h q tag op p = .next { s with mod := m } := by
  unfold State.ask
  rw [State.act_eq, Module.requestBy_taken _ _ _ _ _ ha hop hf]
  rw [← Module.advance_settled m s.now hs, ← hm]
  rfl

/-- One that leaves its half as `k`, in its mode, changes that half only. -/
theorem State.ask_changes (s : State) (h : HalfId) (q : Requester) (tag op : Nat) (p : List Byte) (k : Half)
    (ha : s.mod.accepts h q (reqOf q tag op p)) (hop : 4 ≤ op) (hf : mgmtFits (reqOf q tag op p) = true)
    (hm : (s.mod.asked (s.mod.receiver h q) q tag).runReq s.now (s.mod.receiver h q) (s.mod.receiver h q) q (reqOf q tag op p) =
      s.mod.setHalf (s.mod.receiver h q) k) (hs : s.mod.settled) (hk : k.mode = (s.mod.half (s.mod.receiver h q)).mode) :
    s.ask h q tag op p = .next { s with mod := s.mod.setHalf (s.mod.receiver h q) k } :=
  s.ask_taken h q tag op p _ ha hop hf hm
    (Module.settled_of_onlyHalf hs (s.mod.onlyHalf_setHalf _ k) (by rw [Module.half_setHalf, hk]))

/-! ## A request completed (R376, R377, R381) -/

/-- Of a list without such an element, one put at its end is the first dropped. -/
theorem dropFirst_append_self {α : Type} (p : α → Bool) (l : List α) (a : α) (hl : ∀ x ∈ l, p x = false) (ha : p a = true) :
    dropFirst p (l ++ [a]) = l := by
  induction l with
  | nil => exact if_pos ha
  | cons x xs ih =>
    rw [List.forall_mem_cons] at hl
    exact (if_neg (ne_true_of_eq_false hl.1)).trans (congrArg (x :: ·) (ih hl.2))

section Completed
variable (m : Module) (i : HalfId) (q : Requester) (tag : Nat)

/-- A tag that is free is that of no request outstanding. -/
theorem Module.outstanding_ne (free : m.tagBusy i q tag = false) :
    ∀ o ∈ (m.half i).host.outstanding, (o == (⟨q, tag⟩ : OutReq)) = false := by
  intro o ho
  unfold Module.tagBusy Half.tagBusy at free
  simp only [Bool.or_eq_false_iff, List.any_eq_false] at free
  obtain ⟨⟨none, -⟩, -⟩ := free
  refine beq_eq_false_iff_ne.mpr fun e => none o ho ?_
  simp [e]

/-- The host block after the request has completed: it is outstanding no more, and a completion that can be asked for again is kept. -/
def HostSt.completed (s : HostSt) (old : List OutReq) (status : Nat) (k : Kept) : HostSt :=
  if k.opcode ≠ 0 ∧ status = stDone then { s with outstanding := old }.keep k else { s with outstanding := old }

/-- A request outstanding for the first time under its tag completes with an answer. -/
theorem Module.complete_outstanding (old : List OutReq) (op len : Nat) (p : List Byte) (status flags : Nat) (rest : List Byte)
    (ho : (m.half i).host.outstanding = old ++ [⟨q, tag⟩]) (free : ∀ o ∈ old, (o == (⟨q, tag⟩ : OutReq)) = false) :
    m.complete i q tag op len p status flags rest =
      (m.onHalf i fun x => x.onHost fun s => s.completed old status
        ⟨q, tag, op, len, p, (m.half i).completion q tag op status flags rest⟩).answer i q
        ((m.half i).completion q tag op status flags rest) := by
  have there : (m.half i).host.outstanding.contains ⟨q, tag⟩ = true := by simp [ho]
  unfold Module.complete HostSt.completed
  dsimp only
  rw [if_pos there]
  refine congrArg (fun x => (m.setHalf i x).answer i q _) ?_
  unfold Half.onHost
  dsimp only
  rw [ho, dropFirst_append_self _ _ _ free (beq_self_eq_true _)]

/-- A request just taken that fails completes with an answer alone. -/
theorem Module.complete_failed (op len : Nat) (p : List Byte) (status flags : Nat) (rest : List Byte)
    (free : m.tagBusy i q tag = false) (hs : status ≠ stDone) :
    (m.asked i q tag).complete i q tag op len p status flags rest =
      m.answer i q ((m.half i).completion q tag op status flags rest) := by
  have before : (m.asked i q tag).onHalf i (fun x => x.onHost fun s => { s with outstanding := (m.half i).host.outstanding }) = m := by
    unfold Module.asked Module.onHalf
    rw [Module.half_setHalf, Module.setHalf_setHalf]
    exact m.setHalf_half i
  rw [Module.complete_outstanding _ i q tag (m.half i).host.outstanding _ _ _ _ _ _ (by rw [Module.half_asked]; rfl)
    (m.outstanding_ne i q tag free), Module.half_asked]
  unfold HostSt.completed
  simp only [hs, and_false, if_false]
  rw [before]
  rfl

/-- A change that the owner turns away completes its request. -/
theorem Module.decided_failed (c : Change) (op len : Nat) (p : List Byte) (status : Nat) (hc : c.isMode = false)
    (free : m.tagBusy i q tag = false) (hs : status ≠ stDone) :
    (m.asked i q tag).decided i c ((m.half i).asking q tag, [⟨.host i q tag op len p, c, status, none, false⟩]) =
      m.answer i q ((m.half i).completion q tag op status 0 []) := by
  rw [← Module.half_asked, Module.decided_refused _ _ _ _ hc]
  exact m.complete_failed i q tag op len p status 0 [] free hs

end Completed

/-! ## The service port's host answered (R386) -/

section Service
variable (m : Module) (i : HalfId) (q : Requester) (c : MgmtRsp)

/-- A half with a frame of a completion in its output queue, the request counted. -/
def Half.replying (x : Half) (c : MgmtRsp) : Half :=
  (x.tally F.HST_MGTTALLY_REQS 1).onHost fun s => { s with queue := s.queue ++ [⟨1, rspBody c, none⟩] }

theorem Half.mode_replying (x : Half) : (x.replying c).mode = x.mode :=
  Half.mode_congr _ _ (Half.reg_set_other x F.HST_MGTTALLY_REQS _ F.RST_STATE_MODE.off (by decide))

/-- A change that moves no half in or out of reset leaves the holder of the service port. -/
theorem Module.holder_onHalf (f : Half → Half) (hf : (f (m.half i)).inReset = (m.half i).inReset) : (m.onHalf i f).holder = m.holder := by
  cases i
  · exact congrArg (fun b : Bool => if b then HalfId.h1 else .h0) hf
  · rfl

/-- An answer of the port's holder enters the holder's queue. -/
theorem Module.answer_service (hq : q.service = true) (hi : i = m.holder) (hl : (m.half i).inReset = false) (hc : c.event = false) :
    m.answer i q c = m.onHalf i fun x => x.replying c := by
  have holder : (m.onHalf i fun x => x.tally F.HST_MGTTALLY_REQS 1).holder = i := (m.holder_onHalf i _ rfl).trans hi.symm
  unfold Module.answer Module.deliver Module.reaches
  rw [if_pos hq, holder, beq_self_eq_true, Bool.true_or, if_pos rfl, hc]
  unfold Module.toService
  rw [holder, Module.onLive_live _ _ _ (by rw [Module.half_onHalf]; exact hl)]
  unfold Module.onHalf
  rw [Module.half_setHalf, Module.setHalf_setHalf]
  refine congrArg (m.setHalf i) ?_
  unfold Half.putFrame
  exact if_neg fun e => absurd e.1 (by decide)

/-- It is the one frame more. -/
theorem Module.replied_answer (hq : q.service = true) (hi : i = m.holder) (hl : (m.half i).inReset = false) (hc : c.event = false) :
    m.replied (m.answer i q c) c := by
  unfold Module.replied
  rw [m.answer_service i q c hq hi hl hc, ← hi, Module.half_onHalf]
  rfl

end Service

/-! ## Any requester answered (R374, R382) -/

/-- A half as far as an answer leaves it: its mode and its subscriptions. -/
def Half.subscribed (h : Half) : Nat × List Sub := (h.mode, h.host.subs)

/-- The phase of the start, and each half so far. -/
def Module.subscribed (m : Module) : LampPhase × (Nat × List Sub) × (Nat × List Sub) :=
  (m.lamp.phase, m.half0.subscribed, m.half1.subscribed)

section Halves
variable (h : Half)

theorem Half.subscribed_congr (k : Half) (hr : k.reg F.RST_STATE_MODE.off = h.reg F.RST_STATE_MODE.off)
    (hs : k.host.subs = h.host.subs) : k.subscribed = h.subscribed := Prod.ext (Half.mode_congr _ _ hr) hs

theorem Half.subscribed_tally (f : Field) (n : Nat) (hf : f.off ≠ F.RST_STATE_MODE.off) : (h.tally f n).subscribed = h.subscribed :=
  h.subscribed_congr _ (Half.reg_set_other _ _ _ _ hf.symm) rfl

theorem Half.subscribed_ite {c : Prop} [Decidable c] {h x y : Half} (hx : x.subscribed = h.subscribed)
    (hy : y.subscribed = h.subscribed) : (if c then x else y).subscribed = h.subscribed := by
  split
  · exact hx
  · exact hy

/-- A cell put on its way changes queues of a ring or a link only. -/
theorem Half.subscribed_route (n : Nat) (r : Nat) (c : Cell) : (Half.route n h r c).1.subscribed = h.subscribed := by
  have served (y : Half) (r s : Nat) (c : Cell) : (y.sendTo r s c).subscribed = y.subscribed := by
    unfold Half.sendTo Half.serve
    exact Half.subscribed_ite rfl rfl
  induction n generalizing r c with
  | zero => rfl
  | succ n ih =>
    unfold Half.route
    dsimp only
    (repeat' split) <;> simp only [ih, served]

theorem Half.subscribed_sendMgmt (c : Cell) : (h.sendMgmt c).1.subscribed = h.subscribed := by
  unfold Half.sendMgmt
  split
  · exact Half.subscribed_route _ _ _ _
  · rfl

theorem Half.subscribed_putFrame (kind : Nat) (body : List Byte) : (h.putFrame kind body).subscribed = h.subscribed :=
  Half.subscribed_ite (h.subscribed_tally F.HST_SVCTALLY_EVDROP 1 (by decide)) rfl

/-- An engine that takes a completion changes its inbox and its pending word only. -/
theorem Half.subscribed_toEngine (n : Nat) (c : MgmtRsp) (hn : n < 4) : (h.toEngine n c).subscribed = h.subscribed := by
  have answered : (if c.event then h else h.onEngine n fun (e : Engine) =>
      { e with sent := dropFirst (fun s => s == (c.src, c.tag)) e.sent }).subscribed = h.subscribed := Half.subscribed_ite rfl rfl
  have raised (x : Half) : (x.raiseAt n irqHost).subscribed = x.subscribed :=
    Half.subscribed_congr _ _ (Half.reg_raiseAt _ _ _ _ hn (by decide)) (by rw [Half.raiseAt_host])
  unfold Half.toEngine
  exact Half.subscribed_ite ((raised _).trans answered) answered

end Halves

section Modules
variable (m : Module) (h : HalfId)

theorem Module.subscribed_setHalf (x : Half) (hx : x.subscribed = (m.half h).subscribed) : (m.setHalf h x).subscribed = m.subscribed := by
  cases h
  · exact congrArg (fun v => (m.lamp.phase, v, m.half1.subscribed)) hx
  · exact congrArg (fun v => (m.lamp.phase, m.half0.subscribed, v)) hx

theorem Module.subscribed_onHalf (f : Half → Half) (hf : ∀ x : Half, (f x).subscribed = x.subscribed) :
    (m.onHalf h f).subscribed = m.subscribed := m.subscribed_setHalf h _ (hf _)

theorem Module.subscribed_onLive (f : Half → Half) (hf : ∀ x : Half, (f x).subscribed = x.subscribed) :
    (m.onLive h f).subscribed = m.subscribed := by
  unfold Module.onLive
  split
  · rfl
  · exact m.subscribed_onHalf h f hf

theorem Module.subscribed_ite {c : Prop} [Decidable c] {m x y : Module} (hx : x.subscribed = m.subscribed)
    (hy : y.subscribed = m.subscribed) : (if c then x else y).subscribed = m.subscribed := by
  split
  · exact hx
  · exact hy

/-- Each half has its mode and its subscriptions. -/
theorem Module.half_of_subscribed {m m' : Module} (hm : m'.subscribed = m.subscribed) (k : HalfId) :
    (m'.half k).subscribed = (m.half k).subscribed := by
  cases k
  · exact congrArg (fun v => v.2.1) hm
  · exact congrArg (fun v => v.2.2) hm

/-- No start begins by it. -/
theorem Module.settled_of_subscribed {m m' : Module} (hs : m.settled) (hm : m'.subscribed = m.subscribed) : m'.settled := by
  obtain ⟨phase, mode0, mode1⟩ := hs
  have phase' : m'.lamp.phase = m.lamp.phase := congrArg Prod.fst hm
  have mode (k : HalfId) : (m'.half k).mode = (m.half k).mode := congrArg Prod.fst (Module.half_of_subscribed hm k)
  exact ⟨phase'.trans phase, fun e => mode0 ((mode .h0).symm.trans e), fun e => mode1 ((mode .h1).symm.trans e)⟩

theorem Module.subscribed_toService (kind : Nat) (body : List Byte) : (m.toService kind body).subscribed = m.subscribed :=
  m.subscribed_onLive _ _ fun x => x.subscribed_putFrame kind body

theorem Module.subscribed_giveRsp (c : MgmtRsp) : (m.giveRsp h c).subscribed = m.subscribed := by
  unfold Module.giveRsp
  refine Module.subscribed_ite (Module.subscribed_ite (m.subscribed_toService _ _) rfl)
    (Module.subscribed_ite (Module.subscribed_ite ?_ rfl) ?_)
  · exact m.subscribed_onLive _ _ fun x => x.subscribed_toEngine _ c (Nat.mod_lt _ (by decide))
  · exact m.subscribed_onHalf _ _ fun x => x.subscribed_tally F.HST_MGTTALLY_DISCARD 1 (by decide)

theorem Module.subscribed_deliver (q : Requester) (c : MgmtRsp) : (m.deliver h q c).subscribed = m.subscribed := by
  have sent : (m.setHalf h ((m.half h).sendMgmt (rspCell c)).1).subscribed = m.subscribed :=
    m.subscribed_setHalf h _ (Half.subscribed_sendMgmt _ _)
  unfold Module.deliver
  dsimp only
  refine Module.subscribed_ite (Module.subscribed_ite (m.subscribed_toService _ _) rfl) ?_
  split
  · exact sent
  · exact (Module.subscribed_giveRsp _ h c).trans sent
  · exact (Module.subscribed_onHalf _ _ _ fun x => x.subscribed_tally F.HST_MGTTALLY_DISCARD 1 (by decide)).trans sent

/-- An answer to any requester leaves them. -/
theorem Module.subscribed_answer (q : Requester) (c : MgmtRsp) : (m.answer h q c).subscribed = m.subscribed :=
  (Module.subscribed_deliver _ _ _ _).trans (m.subscribed_onHalf _ _ fun x => x.subscribed_tally F.HST_MGTTALLY_REQS 1 (by decide))

end Modules

end Sys2Proof.Machine
end

section
/-!
SUPPORT. The requests SCENE_SELECT, GRAPHIC_STATE, SCHEDULE and EVENT_SUBSCRIBE (R188, R213, R326, R375, R383): their payloads, scheduled
changes held, subscriptions, and the statement on them.
-/
namespace Sys2Proof.Machine

/-! ## Payloads (R375) -/

/-- A byte of a string of bytes, after what precedes it. -/
theorem byteAt_append (a c : List Byte) {k : Nat} (v : Nat) (hk : a.length = k) : byteAt (a ++ (beBytes 1 v ++ c)) k = v % 256 := by
  rw [byteAt_eq_leAt, leAt, sliceBytes_append a _ c hk (beBytes_length 1 v)]
  exact leVal_leBytes 1 v

/-- The request of SCENE_SELECT is in its layout, and names the scene. -/
theorem sceneSelect_fits (q : Requester) (tag scene : Nat) (ho : q.origin ≤ 8) : mgmtFits (reqOf q tag 4 (beBytes 1 scene)) = true := by
  simp [mgmtFits, reqOf, ho]

theorem byteAt_scene (scene : Nat) (hs : scene < 256) : byteAt (beBytes 1 scene) 0 = scene :=
  (byteAt_append [] [] scene rfl).trans (Nat.mod_eq_of_lt hs)

/-- The two flags of a graphic change. -/
theorem flags_lt (setState setAlpha : Bool) : bit setState + 2 * bit setAlpha < 4 := by cases setState <;> cases setAlpha <;> decide

section Graphic
variable (layer state alpha : Nat) (setState setAlpha : Bool)

/-- The second byte of a graphic change holds its two flags. -/
theorem byteAt_graphicFlags : byteAt (graphicBytes layer setState setAlpha state alpha) 1 = bit setState + 2 * bit setAlpha := by
  have flags := flags_lt setState setAlpha
  unfold graphicBytes
  rw [List.append_assoc, List.append_assoc]
  exact (byteAt_append _ _ _ (beBytes_length 1 layer)).trans (Nat.mod_eq_of_lt (by omega))

theorem byteAt_graphicLayer (hl : layer < 8) : byteAt (graphicBytes layer setState setAlpha state alpha) 0 = layer := by
  unfold graphicBytes
  rw [List.append_assoc, List.append_assoc]
  exact (byteAt_append [] _ _ rfl).trans (Nat.mod_eq_of_lt (by omega))

/-- The request of GRAPHIC_STATE is in its layout, and its payload is the change. -/
theorem graphicState_fits (q : Requester) (tag : Nat) (ho : q.origin ≤ 8) (hl : layer < 8) :
    mgmtFits (reqOf q tag 5 (graphicBytes layer setState setAlpha state alpha)) = true := by
  have pick : decide (byteAt (graphicBytes layer setState setAlpha state alpha) 0 < 8) = true ∧
      decide (byteAt (graphicBytes layer setState setAlpha state alpha) 1 < 4) = true := by
    rw [byteAt_graphicLayer _ _ _ _ _ hl, byteAt_graphicFlags]
    exact ⟨decide_eq_true hl, decide_eq_true (flags_lt setState setAlpha)⟩
  have length : (graphicBytes layer setState setAlpha state alpha).length = 4 := by simp [graphicBytes]
  simp [mgmtFits, reqOf, ho, length, of_decide_eq_true pick.1, of_decide_eq_true pick.2]

theorem graphicOf_graphicBytes (hl : layer < 8) (hs : state < 256) (ha : alpha < 256) :
    graphicOf (graphicBytes layer setState setAlpha state alpha) = .graphic layer setState setAlpha state alpha := by
  have third : byteAt (graphicBytes layer setState setAlpha state alpha) 2 = state := by
    unfold graphicBytes
    rw [List.append_assoc]
    exact (byteAt_append _ _ _ (by simp)).trans (Nat.mod_eq_of_lt hs)
  have fourth : byteAt (graphicBytes layer setState setAlpha state alpha) 3 = alpha := by
    unfold graphicBytes
    rw [← List.append_nil (beBytes 1 alpha)]
    exact (byteAt_append _ _ _ (by simp)).trans (Nat.mod_eq_of_lt ha)
  unfold graphicOf
  rw [byteAt_graphicLayer _ _ _ _ _ hl, byteAt_graphicFlags, third, fourth, bitAt_flag_zero, bitAt_flag_succ]
  cases setAlpha <;> rfl

end Graphic

section Schedule
variable (scene b c d tSec tFrac eSec eFrac : Nat)

/-- The payload of SCHEDULE of a scene. -/
def scheduleBytes : List Byte := beBytes 1 scene ++ beBytes 1 b ++ beBytes 1 c ++ beBytes 1 d ++ beBytes 1 0 ++ List.replicate 3 0 ++
  beBytes 8 tSec ++ beBytes 4 tFrac ++ beBytes 8 eSec ++ beBytes 4 eFrac

theorem byteAt_scheduleWhat : byteAt (scheduleBytes scene b c d tSec tFrac eSec eFrac) 4 = 0 := by
  unfold scheduleBytes
  rw [List.append_assoc, List.append_assoc, List.append_assoc, List.append_assoc, List.append_assoc]
  exact byteAt_append _ _ 0 (by simp)

theorem byteAt_scheduleScene (hs : scene < 256) : byteAt (scheduleBytes scene b c d tSec tFrac eSec eFrac) 0 = scene := by
  unfold scheduleBytes
  simp only [List.append_assoc]
  exact (byteAt_append [] _ scene rfl).trans (Nat.mod_eq_of_lt hs)

/-- Its wall time and its expiry. -/
theorem scheduleBytes_times (ht : tSec < 2 ^ 64) (htf : tFrac < 2 ^ 32) (he : eSec < 2 ^ 64) (hef : eFrac < 2 ^ 32) :
    let p := scheduleBytes scene b c d tSec tFrac eSec eFrac
    beAt p 8 8 = tSec ∧ beAt p 16 4 = tFrac ∧ beAt p 20 8 = eSec ∧ beAt p 28 4 = eFrac := by
  have eight : 256 ^ 8 = 2 ^ 64 := by norm_num
  have four : 256 ^ 4 = 2 ^ 32 := by norm_num
  refine ⟨?_, ?_, ?_, ?_⟩
  · unfold scheduleBytes
    rw [List.append_assoc, List.append_assoc, List.append_assoc]
    exact (beAt_append _ _ 8 tSec (by simp)).trans (Nat.mod_eq_of_lt (eight ▸ ht))
  · unfold scheduleBytes
    rw [List.append_assoc, List.append_assoc]
    exact (beAt_append _ _ 4 tFrac (by simp)).trans (Nat.mod_eq_of_lt (four ▸ htf))
  · unfold scheduleBytes
    rw [List.append_assoc]
    exact (beAt_append _ _ 8 eSec (by simp)).trans (Nat.mod_eq_of_lt (eight ▸ he))
  · unfold scheduleBytes
    rw [← List.append_nil (beBytes 4 eFrac)]
    exact (beAt_append _ _ 4 eFrac (by simp)).trans (Nat.mod_eq_of_lt (four ▸ hef))

theorem scheduleBytes_length : (scheduleBytes scene b c d tSec tFrac eSec eFrac).length = 32 := by simp [scheduleBytes]

/-- The request of SCHEDULE is in its layout. -/
theorem schedule_fits (q : Requester) (tag : Nat) (ho : q.origin ≤ 8) :
    mgmtFits (reqOf q tag 6 (scheduleBytes scene b c d tSec tFrac eSec eFrac)) = true := by
  have what := byteAt_scheduleWhat scene b c d tSec tFrac eSec eFrac
  have length := scheduleBytes_length scene b c d tSec tFrac eSec eFrac
  simp [mgmtFits, reqOf, ho, what, length]

end Schedule

theorem beAt_mask (mask : Nat) (hm : mask < 2 ^ 16) : beAt (beBytes 2 mask) 0 2 = mask := by
  rw [← List.append_nil (beBytes 2 mask)]
  exact (beAt_append [] [] 2 mask rfl).trans (Nat.mod_eq_of_lt (by omega))

/-- The request of EVENT_SUBSCRIBE is in its layout where its mask names event classes only. -/
theorem eventSubscribe_fits (q : Requester) (tag mask : Nat) (ho : q.origin ≤ 8) (hm : mask < 2 ^ 16)
    (classes : ∀ n < 16, bitAt mask n = true → n ∈ eventClasses) : mgmtFits (reqOf q tag 7 (beBytes 2 mask)) = true := by
  have all : ((List.range 16).all fun n => !bitAt mask n || eventClasses.contains n) = true := by
    refine List.all_eq_true.mpr fun n hn => ?_
    cases hb : bitAt mask n with
    | false => rfl
    | true => exact List.contains_iff_mem.mpr (classes n (List.mem_range.mp hn) hb)
  unfold mgmtFits reqOf
  dsimp only
  rw [beAt_mask mask hm, all, decide_eq_true ho, beBytes_length]
  rfl

/-! ## A scheduled change held (R190, R326) -/

section Scheduled
variable (h : Half)

/-- A judgement of a scheduled change moves its switch lap and its flags only. -/
theorem Half.judgeSched_keeps (lb back : Nat) (a : Action) : (h.judgeSched lb back a).what = a.what ∧
    (h.judgeSched lb back a).sched = a.sched ∧ (h.judgeSched lb back a).origin = a.origin := by
  unfold Half.judgeSched
  split
  · dsimp only
    (repeat' split) <;> exact ⟨rfl, rfl, rfl⟩
  · exact ⟨rfl, rfl, rfl⟩

section Judged
variable (lb back : Nat) (sel : Action → Bool)

theorem Half.acts_judgeAll : (h.judgeAll lb back sel).acts.acts =
    h.acts.acts.map fun a => if sel a then h.judgeSched lb back a else a :=
  foldl_keeps (fun x : Half => x.acts.acts) _ (fun x (y : Action × Action) => x.acts_nameLap (y.2.lap.getD 0) y.2.what.rival) _ _

theorem Half.host_judgeAll : (h.judgeAll lb back sel).host = h.host :=
  foldl_keeps Half.host _ (fun x (y : Action × Action) => x.host_nameLap (y.2.lap.getD 0) y.2.what.rival) _ _

theorem Half.mode_judgeAll : (h.judgeAll lb back sel).mode = h.mode :=
  foldl_keeps Half.mode _ (fun x (y : Action × Action) => x.mode_nameLap (y.2.lap.getD 0) y.2.what.rival) _ _

/-- A change held is still held after a judgement of all. -/
theorem Half.judgeAll_holds (a : Action) (ha : a ∈ h.acts.acts) : ∃ b ∈ (h.judgeAll lb back sel).acts.acts,
    b.what = a.what ∧ b.sched = a.sched ∧ b.origin = a.origin := by
  rw [Half.acts_judgeAll]
  refine ⟨_, List.mem_map_of_mem ha, ?_⟩
  split
  · exact h.judgeSched_keeps lb back a
  · exact ⟨rfl, rfl, rfl⟩

end Judged

/-- The expiry of a scheduled change, which is 0 where EXPIRY of the time configuration gives it. -/
def Half.expiryOf (h : Half) (t e : Int) : Int := if e = 0 then t + ((h.tconf.expiry * msNs : Nat) : Int) else e

variable (now : Nat) (c : Change) (t e : Int) (o : Origin) (hr : h.refusal c h.switchLap = none)
include hr

/-- Without wall time a scheduled change is turned away. -/
theorem Half.chooseAt_noTime (hw : h.wall now = none) : h.chooseAt now c t e o = (h, [⟨o, c, stNoTime, none, false⟩]) := by
  unfold Half.chooseAt
  unfold Half.wall at hw
  dsimp only
  rw [hr, hw]

/-- One within its expiry is held with its wall time while fewer than 64 are, though it may be named at once. -/
theorem Half.chooseAt_held (w : Int) (hw : h.wall now = some w) (range : t ≤ e ∨ e = 0) (late : w ≤ h.expiryOf t e)
    (room : (h.acts.acts.filter fun a => a.sched.isSome).length < 64) : ∃ k, h.chooseAt now c t e o = (k, []) ∧
      k.host = h.host ∧ k.mode = h.mode ∧
      ∃ a ∈ k.acts.acts, a.what = c ∧ a.sched = some (t, h.expiryOf t e) ∧ a.origin = o := by
  obtain ⟨a, ha⟩ : ∃ a : Action, a = ⟨0, c, some (t, h.expiryOf t e), none, false, false, !h.lapBegun, o⟩ := ⟨_, rfl⟩
  have chosen : h.chooseAt now c t e o = (if h.lapBegun then (h.addAction a).judgeAll (h.lb now) 0 fun a => a.order == h.acts.order
      else h.addAction a, []) := by
    unfold Half.wall at hw
    unfold Half.expiryOf at late ha
    unfold Half.chooseAt
    dsimp only
    rw [hr, hw]
    dsimp only
    rw [if_neg (by omega), if_neg (by omega), if_neg (by omega), ha]
    rfl
  have held : { a with order := h.acts.order } ∈ (h.addAction a).acts.acts := List.mem_append_right _ List.mem_cons_self
  refine ⟨_, chosen, ?_⟩
  split
  · obtain ⟨b, hb, what, sched, origin⟩ := (h.addAction a).judgeAll_holds (h.lb now) 0 (fun a => a.order == h.acts.order) _ held
    rw [ha] at what sched origin
    exact ⟨Half.host_judgeAll _ _ _ _, Half.mode_judgeAll _ _ _ _, b, hb, what, sched, origin⟩
  · refine ⟨rfl, rfl, _, held, ?_⟩
    rw [ha]
    exact ⟨rfl, rfl, rfl⟩

end Scheduled

/-! ## A change requested of the commit owner -/

section Changes
variable (m : Module) (i : HalfId) (q : Requester) (tag : Nat) (c : Change) (o : Origin) (ho : (m.half i).owner = true)

/-- What the owner has named or holds of a request is its own. -/
theorem Module.decided_asked (k : Half) (hc : c.isMode = false) : (m.asked i q tag).decided i c (k, []) = m.setHalf i k := by
  rw [Module.decided_held _ _ _ _ hc]
  exact Module.setHalf_setHalf _ _ _ _

include ho

theorem Module.select_asked : (m.asked i q tag).select i c o =
    (m.asked i q tag).decided i c (((m.half i).asking q tag).chooseNow c o) := by
  rw [Module.select_owner _ _ _ _ (by rw [Module.half_asked]; exact ho), Module.half_asked]

theorem Module.selectAt_asked (t : Nat) (wall expiry : Int) : (m.asked i q tag).selectAt t i c wall expiry o =
    (m.asked i q tag).decided i c (((m.half i).asking q tag).chooseAt t c wall expiry o) := by
  rw [Module.selectAt_owner _ _ _ _ _ _ _ (by rw [Module.half_asked]; exact ho), Module.half_asked]

/-- SCENE_SELECT asks the owner for the scene. -/
theorem Module.runReq_scene (t scene : Nat) (hs : scene < 256) :
    (m.asked i q tag).runReq t i i q (reqOf q tag 4 (beBytes 1 scene)) = (m.asked i q tag).decided i (.scene scene)
      (((m.half i).asking q tag).chooseNow (.scene scene) (.host i q tag 4 1 (beBytes 1 scene))) := by
  rw [← m.select_asked i q tag _ _ ho]
  exact congrArg (fun n => (m.asked i q tag).select i (.scene n) (.host i q tag 4 1 (beBytes 1 scene))) (byteAt_scene scene hs)

/-- GRAPHIC_STATE asks it for the graphic change. -/
theorem Module.runReq_graphic (t layer state alpha : Nat) (ss sa : Bool) (hl : layer < 8) (hs : state < 256) (ha : alpha < 256) :
    (m.asked i q tag).runReq t i i q (reqOf q tag 5 (graphicBytes layer ss sa state alpha)) =
      (m.asked i q tag).decided i (.graphic layer ss sa state alpha) (((m.half i).asking q tag).chooseNow
        (.graphic layer ss sa state alpha) (.host i q tag 5 4 (graphicBytes layer ss sa state alpha))) := by
  rw [← m.select_asked i q tag _ _ ho]
  exact congrArg (fun c => (m.asked i q tag).select i c (.host i q tag 5 4 (graphicBytes layer ss sa state alpha)))
    (graphicOf_graphicBytes layer state alpha ss sa hl hs ha)

/-- SCHEDULE asks it for the scene at the wall time of its payload. -/
theorem Module.runReq_schedule (t scene b c d tSec tFrac eSec eFrac : Nat) (hs : scene < 256) (ht : tSec < 2 ^ 64)
    (htf : tFrac < 2 ^ 32) (he : eSec < 2 ^ 64) (hef : eFrac < 2 ^ 32) :
    (m.asked i q tag).runReq t i i q (reqOf q tag 6 (scheduleBytes scene b c d tSec tFrac eSec eFrac)) =
      (m.asked i q tag).decided i (.scene scene) (((m.half i).asking q tag).chooseAt t (.scene scene) (r308ns tSec tFrac)
        (r308ns eSec eFrac) (.host i q tag 6 32 (scheduleBytes scene b c d tSec tFrac eSec eFrac))) := by
  have number := byteAt_scheduleScene scene b c d tSec tFrac eSec eFrac hs
  have what := byteAt_scheduleWhat scene b c d tSec tFrac eSec eFrac
  have length := scheduleBytes_length scene b c d tSec tFrac eSec eFrac
  obtain ⟨sec, frac, esec, efrac⟩ := scheduleBytes_times scene b c d tSec tFrac eSec eFrac ht htf he hef
  rw [← m.selectAt_asked i q tag _ _ ho]
  unfold Module.runReq reqOf
  dsimp only
  rw [length, number, what, sec, frac, esec, efrac, if_pos rfl]
  rfl

end Changes

section Asked
variable (s : State) (h : HalfId) (q : Requester) (tag op : Nat) (p : List Byte)
  (ha : s.mod.accepts h q (reqOf q tag op p)) (hop : 4 ≤ op) (hf : mgmtFits (reqOf q tag op p) = true) (hs : s.mod.settled)
include ha hop

/-- The tag of a request without an address that is accepted is free in the half that receives it. -/
theorem State.tag_free : s.mod.tagBusy (s.mod.receiver h q) q tag = false := by
  obtain ⟨-, -, -, -, free, -⟩ := ha
  rwa [show s.mod.executor (s.mod.receiver h q) (reqOf q tag op p) = s.mod.receiver h q from if_neg (Nat.not_lt.mpr hop)] at free

include hf hs

/-- A request of the service port's host that comes to nothing but its answer. -/
theorem State.ask_answered (c : MgmtRsp) (hq : q.service = true) (hc : c.event = false)
    (hm : (s.mod.asked (s.mod.receiver h q) q tag).runReq s.now (s.mod.receiver h q) (s.mod.receiver h q) q (reqOf q tag op p) =
      s.mod.answer (s.mod.receiver h q) q c) :
    ∃ t, s.ask h q tag op p = .next t ∧ t.mod.half (s.mod.receiver h q) = (s.mod.half (s.mod.receiver h q)).replying c ∧
      s.mod.replied t.mod c := by
  have live : (s.mod.half (s.mod.receiver h q)).inReset = false := ha.1
  have holder : s.mod.receiver h q = s.mod.holder := if_pos hq
  have answered := s.mod.answer_service _ q c hq holder live hc
  refine ⟨_, s.ask_changes h q tag op p ((s.mod.half (s.mod.receiver h q)).replying c) ha hop hf (hm.trans answered) hs
    (Half.mode_replying c _), Module.half_setHalf _ _ _, ?_⟩
  have replied := s.mod.replied_answer _ q c hq holder live hc
  rw [answered] at replied
  exact replied

end Asked

/-! ## Subscriptions (R383) -/

section Subscribe
variable {subs : List Sub} {q : Requester} {tag mask : Nat} (hm : mask ≠ 0) (new : ∀ u ∈ subs, u.who ≠ q)

/-- No subscription is the requester's. -/
theorem any_who_false (new : ∀ u ∈ subs, u.who ≠ q) : (subs.any fun s => s.who == q) = false :=
  List.any_eq_false.mpr fun u hu e => new u hu (eq_of_beq e)

include hm new

theorem subscribe_new (room : subs.length < 16) : subscribe subs q tag mask = some (subs ++ [⟨q, tag, mask, 0, []⟩]) := by
  unfold subscribe
  rw [if_neg hm, any_who_false new, if_neg Bool.false_ne_true, if_neg (by omega)]

theorem subscribe_full (full : 16 ≤ subs.length) : subscribe subs q tag mask = none := by
  unfold subscribe
  rw [if_neg hm, any_who_false new, if_neg Bool.false_ne_true, if_pos full]

end Subscribe

theorem subscribe_end (subs : List Sub) (q : Requester) (tag mask : Nat) (hm : mask = 0) :
    subscribe subs q tag mask = some (subs.filter fun s => s.who != q) := if_pos hm

/-- A half with its subscriptions `l`, and a completion kept. -/
def Half.listening (x : Half) (l : List Sub) (k : Kept) : Half := x.onHost fun s => { s with subs := l }.keep k

section Subscriptions
variable (m : Module) (i : HalfId) (q : Requester) (tag : Nat) (p : List Byte) (free : m.tagBusy i q tag = false)
include free

/-- A subscription taken completes. -/
theorem Module.subscribeReq_done (l : List Sub) (hl : subscribe (m.half i).host.subs q tag (beAt p 0 2) = some l) :
    (m.asked i q tag).subscribeReq i q (reqOf q tag 7 p) = (m.onHalf i fun x => x.listening l
      ⟨q, tag, 7, p.length, p, (m.half i).completion q tag 7 stDone 0 []⟩).answer i q ((m.half i).completion q tag 7 stDone 0 []) := by
  have asked : subscribe ((m.asked i q tag).half i).host.subs q (reqOf q tag 7 p).tag (beAt (reqOf q tag 7 p).payload 0 2) = some l := by
    rw [Module.half_asked]
    exact hl
  unfold Module.subscribeReq
  rw [asked]
  dsimp only
  refine (Module.complete_outstanding _ i q tag (m.half i).host.outstanding 7 p.length p stDone 0 []
    (by rw [Module.half_onHalf, Module.half_asked]; rfl) (m.outstanding_ne i q tag free)).trans ?_
  unfold Module.asked Module.onHalf
  rw [Module.half_setHalf, Module.half_setHalf, Module.setHalf_setHalf, Module.setHalf_setHalf]
  rfl

/-- One that is refused completes REQ_LIMIT. -/
theorem Module.subscribeReq_limit (hl : subscribe (m.half i).host.subs q tag (beAt p 0 2) = none) :
    (m.asked i q tag).subscribeReq i q (reqOf q tag 7 p) = m.answer i q ((m.half i).completion q tag 7 stReqLimit 0 []) := by
  have asked : subscribe ((m.asked i q tag).half i).host.subs q (reqOf q tag 7 p).tag (beAt (reqOf q tag 7 p).payload 0 2) = none := by
    rw [Module.half_asked]
    exact hl
  unfold Module.subscribeReq
  rw [asked]
  exact m.complete_failed i q tag 7 p.length p stReqLimit 0 [] free (by decide)

end Subscriptions

/-- A request that ends or makes a subscription leaves the half that receives it with those asked for. -/
theorem State.ask_subscribed (s : State) (h : HalfId) (q : Requester) (tag : Nat) (p : List Byte) (l : List Sub)
    (ha : s.mod.accepts h q (reqOf q tag 7 p)) (hf : mgmtFits (reqOf q tag 7 p) = true) (hs : s.mod.settled)
    (hl : subscribe (s.mod.half (s.mod.receiver h q)).host.subs q tag (beAt p 0 2) = some l) :
    ∃ t, s.ask h q tag 7 p = .next t ∧ (t.mod.half (s.mod.receiver h q)).host.subs = l ∧
      (q.service = true → s.mod.replied t.mod ((s.mod.half (s.mod.receiver h q)).completion q tag 7 stDone 0 [])) := by
  have live : (s.mod.half (s.mod.receiver h q)).inReset = false := ha.1
  have done := s.mod.subscribeReq_done _ q tag p (s.tag_free h q tag 7 p ha (by decide)) l hl
  obtain ⟨m, hm⟩ : ∃ m, m = s.mod.onHalf (s.mod.receiver h q) fun x => x.listening l
    ⟨q, tag, 7, p.length, p, (s.mod.half (s.mod.receiver h q)).completion q tag 7 stDone 0 []⟩ := ⟨_, rfl⟩
  rw [← hm] at done
  have kept := m.subscribed_answer (s.mod.receiver h q) q ((s.mod.half (s.mod.receiver h q)).completion q tag 7 stDone 0 [])
  have settled : m.settled := hm ▸ Module.settled_onHalf _ _ _ hs rfl
  refine ⟨_, s.ask_taken h q tag 7 p _ ha (by decide) hf done (Module.settled_of_subscribed settled kept), ?_, fun hq => ?_⟩
  · refine (congrArg Prod.snd (Module.half_of_subscribed kept (s.mod.receiver h q))).trans ?_
    show (m.half (s.mod.receiver h q)).host.subs = l
    rw [hm, Module.half_onHalf]
    rfl
  · have holder : m.holder = s.mod.holder := hm ▸ Module.holder_onHalf _ _ _ rfl
    have here : s.mod.receiver h q = m.holder := (if_pos hq).trans holder.symm
    have replied := m.replied_answer _ q ((s.mod.half (s.mod.receiver h q)).completion q tag 7 stDone 0 []) hq here
      (by rw [hm, Module.half_onHalf]; exact live) rfl
    have queue : (m.half s.mod.holder).host.queue = (s.mod.half s.mod.holder).host.queue := by
      rw [← holder, ← here, hm, Module.half_onHalf]
      rfl
    unfold Module.replied at replied ⊢
    rw [← queue, ← holder]
    exact replied

/-! ## The statement -/

/-- Settles O51: what the owner makes of a change or a schedule is its half's own, or the answer of the request; a subscription is set
and answered in one. -/
theorem changeRequests : Obligations.ChangeRequests := by
  unfold Obligations.ChangeRequests
  intro s h q tag settled i x
  have origin {op : Nat} {p : List Byte} (ha : s.mod.accepts h q (reqOf q tag op p)) : q.origin ≤ 8 := by
    obtain ⟨-, -, -, -, -, -, origin, -⟩ := ha
    exact origin
  have same : x.JudgesAlike (x.asking q tag) := x.judgesAlike_asking q tag
  refine ⟨fun owner => ⟨fun scene small accepted => ⟨fun valid alone => ?scene, fun invalid hq => ?noScene⟩,
    fun layer state alpha ss sa hl hs ha accepted fits alone => ?graphic,
    fun scene b c d tSec tFrac eSec eFrac small ht htf he hef => ?schedule⟩,
    fun mask small accepted classes =>
      ⟨fun asks new room => ?subscribed, fun ends => ?ended, fun asks new full hq => ?limit⟩⟩
  case scene =>
    have judged := (same.refusal (.scene scene) x.switchLap rfl).trans (Half.refusal_scene_valid valid)
    have named := Half.chooseNow_scene (x.asking q tag) (.host i q tag 4 1 (beBytes 1 scene)) alone scene judged
    have run := (s.mod.runReq_scene i q tag owner s.now scene small).trans
      ((congrArg _ named).trans (s.mod.decided_asked i q tag (.scene scene) _ rfl))
    refine ⟨_, s.ask_changes h q tag 4 _ _ accepted (by decide) (sceneSelect_fits q tag scene (origin accepted)) run settled
      (Half.get_sceneNamed _ _ _ F.RST_STATE_MODE (by decide) (by decide) (by decide)), ?_⟩
    dsimp only
    rw [Module.half_setHalf, Half.host_sceneNamed, Half.get_sceneNamed _ _ _ _ (by decide) (by decide) (by decide)]
    exact ⟨Half.mem_sceneNamed (x.asking q tag) _ scene, rfl, rfl, rfl, Module.onlyHalf_setHalf _ _ _⟩
  case noScene =>
    have judged := (same.refusal (.scene scene) x.switchLap rfl).trans (Half.refusal_scene_invalid invalid)
    have refused := Half.chooseNow_refused (x.asking q tag) (.host i q tag 4 1 (beBytes 1 scene)) (.scene scene) judged
    have run := (s.mod.runReq_scene i q tag owner s.now scene small).trans ((congrArg _ refused).trans
      (s.mod.decided_failed i q tag (.scene scene) 4 1 _ stNoScene rfl (s.tag_free h q tag 4 _ accepted (by decide)) (by decide)))
    obtain ⟨t, ran, half, replied⟩ := s.ask_answered h q tag 4 _ accepted (by decide)
      (sceneSelect_fits q tag scene (origin accepted)) settled _ hq rfl run
    refine ⟨t, ran, ?_, ?_, replied⟩
    · rw [half]; rfl
    · rw [half]; rfl
  case graphic =>
    have judged := (same.refusal (.graphic layer ss sa state alpha) x.switchLap rfl).trans (Half.refusal_graphic_fits fits)
    have named := Half.chooseNow_graphic (x.asking q tag) (.host i q tag 5 4 (graphicBytes layer ss sa state alpha)) alone
      layer state alpha ss sa judged
    have run := (s.mod.runReq_graphic i q tag owner s.now layer state alpha ss sa hl hs ha).trans
      ((congrArg _ named).trans (s.mod.decided_asked i q tag (.graphic layer ss sa state alpha) _ rfl))
    refine ⟨_, s.ask_changes h q tag 5 _ _ accepted (by decide) (graphicState_fits _ _ _ _ _ q tag (origin accepted) hl) run settled
      rfl, ?_⟩
    dsimp only
    rw [Module.half_setHalf]
    exact ⟨Half.mem_graphicNamed (x.asking q tag) _ _ _, rfl, Module.onlyHalf_setHalf _ _ _⟩
  case schedule =>
    intro p wall expiry accepted valid
    have judged := (same.refusal (.scene scene) x.switchLap rfl).trans (Half.refusal_scene_valid valid)
    have ran := s.mod.runReq_schedule i q tag owner s.now scene b c d tSec tFrac eSec eFrac small ht htf he hef
    have fits := schedule_fits scene b c d tSec tFrac eSec eFrac q tag (origin accepted)
    refine ⟨fun w now range late room => ?held, fun now hq => ?noTime⟩
    case held =>
      obtain ⟨k, held, host, mode, a, ha, what, sched, made⟩ := Half.chooseAt_held (x.asking q tag) s.now (.scene scene) wall
        (r308ns eSec eFrac) (.host i q tag 6 32 p) judged w now range late room
      have run := ran.trans ((congrArg _ held).trans (s.mod.decided_asked i q tag (.scene scene) k rfl))
      refine ⟨_, a, s.ask_changes h q tag 6 p k accepted (by decide) fits run settled mode, ?_⟩
      dsimp only
      rw [Module.half_setHalf, host]
      exact ⟨ha, what, sched, made, rfl, Module.onlyHalf_setHalf _ _ _⟩
    case noTime =>
      have refused := Half.chooseAt_noTime (x.asking q tag) s.now (.scene scene) wall (r308ns eSec eFrac) (.host i q tag 6 32 p)
        judged now
      have run := ran.trans ((congrArg _ refused).trans
        (s.mod.decided_failed i q tag (.scene scene) 6 32 p stNoTime rfl (s.tag_free h q tag 6 p accepted (by decide)) (by decide)))
      obtain ⟨t, ran, half, replied⟩ := s.ask_answered h q tag 6 p accepted (by decide) fits settled _ hq rfl run
      refine ⟨t, ran, ?_, replied⟩
      rw [half]
      rfl
  case subscribed =>
    have fits := eventSubscribe_fits q tag mask (origin accepted) small classes
    obtain ⟨t, ran, subs, replied⟩ := s.ask_subscribed h q tag _ _ accepted fits settled
      ((congrArg _ (beAt_mask mask small)).trans (subscribe_new asks new room))
    refine ⟨t, ⟨q, tag, mask, 0, []⟩, ran, ?_, rfl, rfl, rfl, replied⟩
    rw [subs]
    exact List.mem_append_right _ List.mem_cons_self
  case ended =>
    have fits := eventSubscribe_fits q tag mask (origin accepted) small classes
    obtain ⟨t, ran, subs, replied⟩ := s.ask_subscribed h q tag _ _ accepted fits settled
      ((congrArg _ (beAt_mask mask small)).trans (subscribe_end _ q tag mask ends))
    refine ⟨t, ran, ?_, replied⟩
    rw [subs]
    exact fun u hu => bne_iff_ne.mp (List.mem_filter.mp hu).2
  case limit =>
    have fits := eventSubscribe_fits q tag mask (origin accepted) small classes
    have run := s.mod.subscribeReq_limit i q tag (beBytes 2 mask) (s.tag_free h q tag 7 _ accepted (by decide))
      ((congrArg _ (beAt_mask mask small)).trans (subscribe_full asks new full))
    obtain ⟨t, ran, half, replied⟩ := s.ask_answered h q tag 7 _ accepted (by decide) fits settled _ hq rfl run
    refine ⟨t, ran, ?_, replied⟩
    rw [half]
    rfl

end Sys2Proof.Machine
end
